-- ==== Sys2Proof/Word.lean ====
section
/-! DEFINITION. The word types of the model and their plainest arithmetic. -/

namespace Sys2Proof

/-- A byte. -/
abbrev Byte := BitVec 8

/-- A register, 32 bits wide (R7). -/
abbrev Word := BitVec 32

/-- A 64-byte submission queue entry; byte b is bits 8b to 8b + 7 (R6, R63). -/
abbrev SqeBits := BitVec 512

/-- A 16-byte scatter descriptor, laid out as the entry is (R102). -/
abbrev DescBits := BitVec 128

/-- A 48-bit stream ID (R20). -/
abbrev StreamId := BitVec 48

/-- Adds to a counter that saturates at `top` (the "saturates" of the register tables). -/
def satAdd (top a b : Nat) : Nat := min top (a + b)

/-- One mebibyte in bytes. -/
abbrev mib : Nat := 1048576

end Sys2Proof
end

