-- ==== Sys2Proof/Syntax.lean ====
section
/-! DEFINITION. The commands of the device: one constructor of Instr for each row of spec/opcode_table.json,
with the operands the step is given from outside (the bytes of a queue entry, a register value, a pin level,
what the analogue side of the device observes). The rows give no bits and no operands; the operands are the
model's choice (notes/assumptions/1.md). -/

namespace Sys2Proof

/-- Paths by which an object dictionary entry is reached (R125, R458, R547). -/
inductive Path where
  | pcie | mailbox | can | usb
deriving DecidableEq, Repr

/-- Which reel (R389). -/
inductive Reel where
  | supply | takeup
deriving DecidableEq, Repr

/-- The peer's side at pair formation (R449, R457). -/
structure PeerInfo where
  pref     : Nat := 0
  instanceNo : Nat := 0
  epoch    : Nat := 0
  mounted  : Bool := false
  /-- its volume label's partition table: number, state, FIRSTPAIR, PAIRS, name -/
  tables   : List (Nat × Nat × Nat × Nat × List Byte) := []
  committed : List (Nat × Nat) := []   -- highest committed version per partition
deriving DecidableEq, Repr

/-- What the mechanics and the tape show during a MOUNT (Table 18.4). -/
structure MountWorld where
  /-- Step 2: a grip or a door kept the permit away beyond the grip wait limit. -/
  permitLate : Bool := false
  /-- Step 3: the loader reached home in time. -/
  seated : Bool := true
  /-- Step 5: the threading ended on the take-up hub. -/
  threaded : Bool := true
  /-- Step 6: slack was taken up and tension raised. -/
  tensioned : Bool := true
  /-- Step 7: |v_tach| in micrometres a second, and the speeds of the supply and the take-up reel in microradians a second. -/
  vTach : Nat := 500000
  omegaS : Nat := 10672000
  omegaT : Nat := 19164000
  /-- Step 7: the q-axis currents of the first full turn of the supply and the take-up reel, at 1,024 mechanical angles counted from the
  present pole-pair index, in the units of the cogging table (R522). -/
  turnS : List Int := []
  turnT : List Int := []
  /-- Step 8: servo reached HELD in time; the tape that has gone on to the take-up reel since step 7, micrometres; the first valid
  LPOS. -/
  servoHeld : Bool := true
  advance : Int := 0
  firstLpos : Nat := 0
  /-- Datasets (partition, SEQ) that stay unreadable after read recovery during this mount. -/
  unreadable : List (Nat × Nat) := []
  /-- Steps 9 to 11: a read failed with this status, SERVO_LOST or MOTION_FAULT (R523). -/
  readFails : Option Nat := none
  /-- A label dataset needed recovery step 3 or 4 (R348). -/
  labelRecovered : Bool := false
  /-- Partitions of whose checkpoints a dataset needed recovery step 3 or 4 (R348). -/
  ckptRecovered : List Nat := []
  /-- Forward calibration: band, module, lane, whether at least 80 % of the lane's segments converged (R308), and bytes 0 to
  19 of Table 10.2 as learned. -/
  learned : List (Nat × Nat × Nat × Bool × List Byte) := []
  /-- The same of the reverse direction, found at its first access of the mount (R524). -/
  learnedRev : List (Nat × Nat × Nat × Bool × List Byte) := []
  /-- The unload step (Table 18.6) that fails when the mount fails. -/
  unloadFails : Option Nat := none
  /-- In a pair: what the peer's heartbeat and volume label show when the tables are compared (R457). -/
  peer : Option PeerInfo := none
deriving DecidableEq, Repr

/-- What the mechanics show during an unload (Table 18.6): the step that fails, if any. -/
structure UnloadWorld where
  fails : Option Nat := none
deriving DecidableEq, Repr

/-- What is sampled of a reel at cycle 0 of a base period (R382, R421): its phase currents in Q1.31 of 16 A and its hall states. -/
structure ReelSample where
  iU       : Int := 0
  iV       : Int := 0
  iW       : Int := 0
  halls    : Nat := 1
deriving DecidableEq, Repr

/-- The samples of one base period (R382): the two reels, VMOT, the chopper current, the tach (counts moved since the last
period, control-clock time of the last edge, illegal transitions, R394), the fine actuator's current, and whether a slot's result was
not ready at cycle 1,296 (R384). -/
structure CeSample where
  s           : ReelSample := {}
  t           : ReelSample := {}
  vmotMv      : Nat := 48000
  chopMa      : Nat := 0
  tachCount   : Int := 0
  tachEdge    : Nat := 0
  tachIllegal : Nat := 0
  actMa       : Int := 0
  late        : Bool := false
deriving DecidableEq, Repr

/-- A servo channel's view of one frame (R356, R358). Times are in control-clock cycles. -/
structure ServoCh where
  mStripes : Nat := 0
  uStripes : Nat := 4
  vStripes : Nat := 4
  forward  : Bool := true
  tF       : Nat := 0
  tUV      : Nat := 0
  tVU      : Nat := 0
deriving DecidableEq, Repr

/-- The ADC codes of a front end over a segment slot (R303); `start`: the place of the sync mark that would follow if a preamble began with
their first bit, on the lane's grid of one mark every 17,184 bits of the front end's own clock, the trailing module's counted from the
nominal distance of R322; in a search without a window the codes begin where the tone is detected (R309, R315). -/
structure Samples where
  codes : List Int := []
  start : Int := 0
deriving DecidableEq, Repr

/-- One segment slot of a lane as the read channel meets it: the SEQ and the slot (0 to 37) the lane has come to where other lanes tell it;
the codes of the leading module over the slot that it has reached, which enters the delay store, and of the trailing module over the slot
to be decided (R322). `missed`: the place where the sought dataset should lie has passed without a copy of it (R368). -/
structure SegSlot where
  at_    : Option (Nat × Nat) := none
  lead   : Samples := {}
  trail  : Samples := {}
  missed : Bool := false
deriving DecidableEq, Repr

/-- A segment slot whose cluster's backlog has reached two slot times: the slot, and the attempts made before those that remain are
abandoned (R321). -/
structure LateSlot where
  lane  : Nat
  tries : Nat := 0
  slot  : SegSlot := {}
deriving DecidableEq, Repr

/-- The message header and body of a pair link message (Tables 15.1, 15.2), without its type. -/
structure MsgHead where
  role  : Nat     -- sender's role: 0 none, 1 primary, 2 secondary
  epoch : Nat
  seq   : Nat := 1
  flit  : Nat := 0    -- 12 bits: sequence of the flit in which the message ends (R447)
  ack   : Nat := 0    -- 12 bits: acknowledged sequence of that flit (R447)
deriving DecidableEq, Repr

/-- What the flits of a chunk of an image carry beside it: the sender's role epoch, the sequence of the last of them and its
acknowledged sequence (R447, R536). -/
structure ImageHead where
  epoch : Nat
  flit  : Nat := 0
  ack   : Nat := 0
deriving DecidableEq, Repr

/-- A record as it lies on tape or travels to the peer: the header fields of Table 5.1, the stored payload and the
trailer. -/
structure Rec where
  form    : Nat := 2
  tagged  : Bool := false
  hcont   : Bool := false
  last    : Bool := false
  stream  : StreamId := 0
  offset  : Nat := 0
  olen    : Nat := 0
  version : Nat := 0
  crc     : BitVec 64 := 0
  keySlot : Nat := 0
  nonce   : BitVec 96 := 0
  piece   : Nat := 0
  pieces  : Nat := 1
  time    : Nat := 0
  payload : List Byte := []
  trailer : List Byte := []
  /-- FORM and OLEN of its RECORD entry, when it was read from tape and they were read apart (Table 5.4) -/
  entry   : Option (Nat × Nat) := none
  /-- MAGIC, FORMAT and reserved bits of the header are as Table 5.1 has them -/
  headOk  : Bool := true
deriving DecidableEq, Repr

/-- What the scrubber reads of a staging line (R139, R142): the stored bits that are wrong, 0 to 511 of the data and 512 to 522 of the
code; the bits of the line address in which the line that was read differs from the one meant; the wrong bits of the second copy, in the
region that has one; and the partition whose extents stood in the line and could not be loaded again. -/
structure LineRead where
  flips : List Nat := []
  moved : Nat := 0
  second : List Nat := []
  almanacLost : Option Nat := none
deriving DecidableEq, Repr

/-- What a library request carries from the mechanics. -/
structure LibWorld where
  mount  : MountWorld := {}
  unload : UnloadWorld := {}
deriving DecidableEq, Repr

/-- The body of a HEARTBEAT (Table 15.2). -/
structure HbBody where
  lodestarUp : Bool
  twilight   : Bool
  mount      : Nat
  committed  : List (Nat × Nat) := []
  diverged   : List Nat := []
deriving DecidableEq, Repr

/-- What the boot ROM and a trial image show when Lodestar starts (R544 to R546). -/
structure BootWorld where
  /-- The images of slots A and B pass R532 when the boot ROM starts them. -/
  slotAok  : Bool := true
  slotBok  : Bool := true
  /-- Starts of the trial image that stopped before it confirmed or marked itself. -/
  stops    : Nat := 0
  /-- The settings as the trial image migrates them (key index * 256 + subindex); none when the migration fails. -/
  migrated : Option (List (Nat × List Byte)) := some []
deriving DecidableEq, Repr

/-- How a start-up stage ended (R516, R519). -/
structure StageWorld where
  boot     : BootWorld := {}
  training : Bool := true        -- LPDDR5X training
  cxFail   : List Nat := []      -- engines that fail their known-answer test (R210)
  tgFail   : Bool := false       -- GMAC known-answer test failed (R231)
  copyBad  : List Nat := []      -- settings copies whose CRC fails (R483)
  turning  : Bool := false       -- a reel turns when Nightwatch leaves reset (R521)
deriving DecidableEq, Repr

/-- The peer's answer to a propagated image (R536): the result code of 0x5015:02, with the holder's source and digest of a
refusal. -/
structure PropAnswer where
  result : Nat := 1
  source : Nat := 0
  digest : List Byte := []
deriving DecidableEq, Repr

/-- What the mechanics, the label readback and the peer show to a command or a write of a dictionary entry that needs them:
MOUNT and UNMOUNT, the library's requests, PARTITION_CREATE and PARTITION_DELETE, an image propagated. -/
structure CmdWorld where
  lib        : LibWorld := {}
  prop       : PropAnswer := {}
deriving DecidableEq, Repr

/-- A command as the queue engine reads it: the global queue it comes from, its queue entry, the scatter
descriptors (`none`: the list read ended in an error completion, R103) and the host bytes its data pointer names;
`world`: what the mechanics and the peer show to a command that moves the cartridge. -/
structure Sub where
  q    : Nat
  sqe  : SqeBits
  list : Option (List DescBits) := some []
  data : List Byte := []
  world : CmdWorld := {}
deriving DecidableEq, Repr

/-- The commands (opcode_table.json, in its order). -/
inductive Instr where
  -- admin commands, their queue entries and their later completions
  | identify (c : Sub)
  | createQueue (c : Sub)
  | deleteQueue (c : Sub)
  | deleteQueueComplete (q : Nat)
  | getLog (c : Sub)
  | setPower (c : Sub)
  | powerStateEntry
  | powerEntryLimitExpiry
  | assignQueues (c : Sub)
  | setWindows (c : Sub)
  | partitionCreate (c : Sub)
  | partitionDelete (c : Sub)
  | partitionList (c : Sub)
  | mount (c : Sub) (w : MountWorld)
  | unmount (c : Sub) (w : UnloadWorld)
  | checkpoint (c : Sub)
  | keyLoad (c : Sub)
  | keyClear (c : Sub)
  | keyClearComplete (slot : Nat)
  | odRead (c : Sub)
  | odWrite (c : Sub)
  | eventWait (c : Sub)
  -- I/O commands
  | write (c : Sub)
  | read (c : Sub)
  | verify (c : Sub)
  | barrier (c : Sub)
  | barrierComplete (q : Nat)
  | streamStat (c : Sub)
  | recallHint (c : Sub)
  | rangeLockWaitEnd (cmd : Nat)
  | sqeFetch (q : Nat) (subs : List Sub)
  | cqTimeLimitExpiry (q : Nat)
  -- doorbells and registers
  | sqTail (fn q : Nat) (v : Word)
  | cqHead (fn q : Nat) (v : Word)
  | resume (fn q : Nat)
  | queueReset (fn q : Nat)
  | resetMarkerPost (q : Nat)
  | adminQueueEnable (fn : Nat) (v : Word)
  | adminQueueDisable (fn : Nat) (v : Word)
  | functionDrainEnd (fn : Nat)
  | mailboxGo (v : Word) (w : CmdWorld)
  | glbIcfgWrite (v : Word)
  | chopperFaultClear
  | tgCtrloRead
  | mtTimeloRead
  | mirTimeloRead (fn : Nat)
  | accessError (fn : Nat) (offset : BitVec 25) (isRead : Bool)
  | registerWrite (fn : Nat) (offset : Nat) (v : Word)
  | vfEnableSet (numVfs : Nat)
  | vfEnableClear
  | numvfsReduce (numVfs : Nat)
  | flrVf (fn : Nat)
  | flrPf0
  | perstAssert
  | perstRelease
  | d3hotEntry (fn : Nat)
  | d3hotExit (fn : Nat)
  | d3coldEntry
  -- buffer pool
  | bufferAllocate (pool cls : Nat) (cmd : Option Nat)
  | bufferAcquire (handle : BitVec 32) (cls : Nat)
  | bufferRelease (handle : BitVec 32) (cls : Nat)
  | parkedRequestServed (pool : Nat)
  | bufferWaitLimitExpiry (pool : Nat) (cmd : Nat)
  | scrub (seen : LineRead)
  -- write pipeline
  | writeDataArrival (cmd : Nat) (bytes : List Byte)
  | recordCut (part : Nat)
  | compressorJobStart (engine : Nat)
  | compressorJobDone (engine : Nat) (attempt : List Byte)
  | tagJobStart (rec : Nat)
  | tagJobDone (ctx : Nat) (agree agreeAgain : Bool)
  | nonceReservation
  | nonceLimitRaise
  | recordPlace (rec : Nat)
  | sealDelayExpiry (part : Nat)
  | datasetSeal (part : Nat)
  | checkpointInterval (part : Nat)
  | checkpointTimeExpiry (part : Nat)
  -- writer
  | writerStart
  | startAgeExpiry
  | appendPointReached (locked : Bool)
  | slotBoundary (pesNm : Int)
  | segmentVerdict (seq attempt slot lane : Nat) (codes : List Int)
  | writeDriverFault (lane : Nat)
  | transientLeak (lane : Nat)
  | permanentLeak (lane : Nat)
  | writeCurrentUpdate (tempA tempB : Option Int)
  | stopTimeExpiry
  | speedDownDelayExpiry
  | turnComplete
  -- read channel
  | segmentDecode (lane : Nat) (x : SegSlot)
  | coastLimitExpiry (lane : Nat)
  | decoderBudgetExhausted (x : LateSlot)
  | biasFault (lane module : Nat)
  | frontEndStuckRetire (lane module : Nat)
  -- recovery and decompression
  | recoveryEntry (part seq : Nat)
  | ladderPassDone (part seq : Nat) (servoHeld located : Bool)
  | recoveryTimeLimitExpiry (part seq : Nat)
  | spanReadDone (part seq : Nat) (servoHeld : Bool)
  | datasetDecoded (part seq : Nat)
  | decompressionJobStart (engine : Nat)
  | decompressionJobDone (engine : Nat)
  -- servo
  | servoFrame (ch0 ch1 ch2 ch3 : ServoCh)
  | servoCoastExpiry
  | servoReacquireTimeout
  | bandChangeDone (band : Nat)
  -- recall
  | recallRunSelect
  | recallAgeLimitExpiry (part seq : Nat)
  | writePreemptionAgeExpiry
  | recallBatchTimeExpiry
  | hintExpiry (hint : Nat)
  -- control engine, power stage, Nightwatch
  | basePeriod (x : CeSample)
  | overcurrent (reel : Reel)
  | plausibilityFault (reel : Reel)
  | tensionLoss (residual : Bool)
  | tachQuadratureFault
  | observerLost (reel : Reel)
  | lockedRotor (reel : Reel)
  | chopperFault
  | decelerationHalving
  | shuntOffsetMeasured (reel : Reel) (u v w : Int)
  | gateDriverFault (reel : Reel)
  | nightwatchTachMismatch
  | vmotUndervoltage
  | reelTurnsUnderGrant
  | reelsAtRest
  | holdSlip
  | nightwatchClear
  | autoClear
  | actuatorFault
  | threaderStall
  | loaderTimeout
  | gripReqRise
  | gripReqFall
  | motionPermitRequest (gripSampled : Bool)
  | gripWaitLimitExpiry
  -- Meridian
  | ppsInEdge
  | ppsHoldover
  | ppsOut
  | meridianStore
  | setMeridian (path : Path) (ns : BitVec 64)
  | timeExchSend
  | timeExch (h : MsgHead) (t1 t2 t3 t4 : Nat)
  -- CAN FD
  | nmtStart
  | nmtStop
  | nmtEnterPreOperational
  | nmtResetNode (pins : BitVec 3)
  | nmtResetCommunication (pins : BitVec 3)
  | canHeartbeat (tec rcv : Nat)
  | duplicateNodeId
  | emcySend (tec rcv : Nat)
  | syncReceive
  | syncProduce
  | timeReceive (ms days : Nat)
  | timeProduce
  | tpdoSend (n tec rcv : Nat)
  | usdoDownload (path : Path) (client index sub : Nat) (bytes : List Byte) (last : Bool) (w : CmdWorld)
  | usdoUpload (path : Path) (client index sub : Nat) (last : Bool)
  | usdoSessionTimeout (client : Nat)
  | libraryMountReadWrite (seq : Nat) (w : LibWorld)
  | libraryMountReadOnly (seq : Nat) (w : LibWorld)
  | libraryUnmount (seq : Nat) (w : LibWorld)
  | libraryUnmountEject (seq : Nat) (w : LibWorld)
  | rewindAndUnload (seq : Nat) (w : LibWorld)
  | saveParameters (v : Word)
  | restoreDefaultParameters (sub : Nat) (v : Word)
  -- pair
  | takeover
  | withdrawDivergentPieces (path : Path)
  | linkTraining (lane0 lane1 : Bool)
  | pairFormation (peer : PeerInfo)
  | flitError (flitSeq : Nat)
  | nak (replayFrom : Nat)
  | heartbeatSend
  | heartbeat (h : MsgHead) (b : HbBody)
  | recordMirror (rec : Nat)
  | record (h : MsgHead) (part : Nat) (r : Rec)
  | pieceCommit (h : MsgHead) (part : Nat) (stream : StreamId) (version piece count : Nat)
  | pieceFail (h : MsgHead) (part : Nat) (stream : StreamId) (version piece : Nat)
  | pieceVerified (h : MsgHead) (part : Nat) (stream : StreamId) (version piece : Nat)
  | partitionOp (h : MsgHead) (sqe : SqeBits)
  | opDone (h : MsgHead) (opSeq status : Nat)
  | credit (h : MsgHead) (buffers : Nat)
  | roleStale (h : MsgHead) (role epoch rejected : Nat)
  | imageTransfer (h : ImageHead) (chunk : List Byte) (last : Bool)
  | peerSuspect
  | peerLost
  | pairPresentFall
  | pairRstIn
  | peerRestartTimeout
  -- Lodestar, resets, start-up, thermal
  | lockstepMismatch (complex : Nat)
  | watchdogExpiry (complex : Nat)
  | lodestarRestartComplete (w : BootWorld)
  | restartTimeout
  | flashWriteFailed (target : Nat)
  | vin12Loss
  | vin12Valid
  | resetInNAssert
  | resetInNRelease (pins : BitVec 3)
  | testEnAssert
  | startupStageDone (w : StageWorld)
  | backgroundWriteDone
  | logicThermalCap (deciC : Int)
  | powerStageThermalLimit (deciC : Int)
  | thermalTrip (logicDeciC stageDeciC : Int)
  | mountRecordUpdate (part : Nat)
  -- firmware and service
  | imageDownload (path : Path) (bytes : List Byte)
  | imageVerified (source : Nat)
  | imageFlashWritten
  | propagateToPeer (answer : PropAnswer)
  | cancelStagedImage
  | activationTime (path : Path) (ns : BitVec 64)
  | activationArmedInstant
  | quiescentPoint
  | graceWindowExpiry
  | challenge
  | response (path : Path) (seconds : Nat) (sig : List Byte)
  | servicePassword (path : Path) (chars : List Byte)
  | setServicePassword (path : Path) (chars : List Byte)
  | lock (path : Path)
  | lockoutExpiry
  | sessionExpiry
  | vbusFall
  | kekImport (path : Path) (n : Nat) (blob : List Byte)
  | kekRemove (path : Path) (n : Nat)
  | clearRetiredLanes (path : Path) (mask : BitVec 64)
  | clearRetiredFrontEnds (path : Path) (module : Nat) (mask : BitVec 64)
  | clearRetiredServoChannels (path : Path) (mask : BitVec 8)
  | snsChange (sns : BitVec 4)
  | registerReadClear (fn : Nat) (offset : Nat)
  | idleFlit (ack : Nat)
  | busOffRecovery
  | thermalTripEnd (logicDeciC stageDeciC : Int)
deriving DecidableEq, Repr

end Sys2Proof
end

