-- ==== Sys2Proof/Decode.lean ====
section
/-! DEFINITION. No row of the command table gives bits, so no word spells a command (the device is a block: its
commands are queue entries, register accesses and events, not instruction words). -/

namespace Sys2Proof

/-- The command a word of nbits bits spells by the table's bits: none, since no row gives bits. -/
def decodeTableWord (_nbits _w : Nat) : Option Instr := none

end Sys2Proof
end

