-- ==== Sys2Proof/Config.lean ====
section
/-! DEFINITION. What is fixed per module and what the spec leaves open: constants without a body, of which no proof
can know a value (notes/assumptions/3.md and 5.md). -/

namespace Sys2Proof.Config

/-- Device instance number, fused at manufacture (R3). Free, log 5. -/
opaque instanceNo : BitVec 32

/-- Module serial, 32 ASCII bytes (Table 3.3). Free, log 5. -/
opaque moduleSerial : List Byte

/-- Nalpen public keys 0 and 1, as affine points (R532). Free, log 5. -/
opaque imageKey : Nat → Nat × Nat

/-- Whether the revocation fuse of an image key is intact (R532). Free, log 5. -/
opaque keyIntact : Nat → Bool

/-- Nalpen's service public key, as an affine point (R548). Free, log 5. -/
opaque serviceKey : Nat × Nat

/-- The module's transport private key, whose public key is 0x5031:01 (R551). Free, log 5. -/
opaque transportKey : Nat

/-- Random bytes of a challenge, by the index of the free value (R547). Free, log 3. -/
opaque randomBytes : Nat → BitVec 128

/-- A value the spec calls undefined or leaves open, by the index of the free value. Free, log 3. -/
opaque freeWord : Nat → BitVec 64

/-- The PI law that trims Meridian (R469): the new trim in 0.01 ppm from the offset in ns and the trim in force. The
spec gives its bound, not its gains. Free, log 3. -/
opaque trimLaw : Int → Int → Int

/-- Whether a quarter of a sum of weighted LLRs that is no integer is rounded up: R323 divides by 4 and does not say how the
quotient is rounded. Free, log 17. -/
opaque quarterUp : Int → Bool

/-- A weight of the leading module when neither module has noise: R323 divides by the sum of the two. Free, log 17. -/
opaque evenWeight : Nat

/-- The low-pass filter before decimation by 2^k, on the samples so far, newest first (R303). Free, log 124. -/
opaque lowPass : Nat → List Int → Int

/-- The 4-tap interpolator: the fraction of a sample interval as a quotient, and the four samples (R303). Free, log 124. -/
opaque interpolate : Nat → Nat → List Int → Int

/-- The phase of the preamble tone over 32 samples, in 10^-9 bits (R309). Free, log 124. -/
opaque tonePhase : List Int → Int

/-- Proportional and integral gain of the timing loop in acquisition, and in tracking by its bandwidth in ppm, in 1/65536 (R309, R310). Free,
log 124. -/
opaque acquireGains : Int × Int
opaque trackGains : Nat → Int × Int

/-- The phase error in 10^-9 bits, from equalised samples and the magnetisations decided, newest first (R309). Free, log 124. -/
opaque phaseError : List Int → List Bool → Int

/-- ADC codes that 1.0 of the target stands for (R316). Free, log 124. -/
opaque unitLevel : Nat

/-- Squared distance that one unit of an LLR stands for, less 1; and that of LF.MSE (R316, Table 10.12). Free, log 124. -/
opaque llrUnit : Nat
opaque mseUnit : Nat

/-- The amplitude expected of the samples, from the Ephemeris values in force: GAIN, BOOST and the adapted values (R326). Free, log 124. -/
opaque expectedLevel : List Int → Nat

/-- What one sample adds to the gain, in 1/65536 of its step: fast or slow, the sample, the amplitude expected (R309). Free, log 124. -/
opaque agcMove : Bool → Int → Nat → Int

/-- What one bit adds to an adapted value, in 1/65536 of its unit: the value's number, the step setting, the error, the input it weighs
(R306). Free, log 124. -/
opaque lmsMove : Nat → Nat → Int → Int → Int

/-- Millivolts that 1.0 of a current loop's output stands for: Table 13.2 gives voltages no full scale. Free, log 20. -/
opaque voltMv : Nat

/-- Proportional and integral gain of the observer's PLL: what an error of 1.0 adds to the angle, and to its advance a period, in 2^-32 of a
turn (R427). Free, log 21. -/
opaque pllGains : Int × Int

/-- Proportional and integral gain, in Q1.31, of the laws that set a fraction k: of zero-vector braking, and of BRAKE (R434, R440). Free, log
48. -/
opaque zeroVectorGains : Int × Int
opaque brakeGains : Int × Int

/-- Microsteps of the coarse stepper's profile in a slot, from those it still has to go (R365, R412). Free, log 143. -/
opaque coarseSteps : Nat → Nat

/-- Centre angle of the hall edge between two codes, and of the sector of a code (the code twice): the spec does not order the
codes (R428, R522). Free, log 21. -/
opaque hallAngle : Nat → Nat → BitVec 32

/-- Serial of a cartridge that appears in the slot (R271), by the index of the free value. Free, log 3. -/
opaque cartSerial : Nat → List Byte

end Sys2Proof.Config
end

