-- ==== Sys2Proof/Machine/Bytes.lean ====
section
/-! DEFINITION. Byte strings, bit fields and keyed lists: the helpers every other file of the machine uses. -/

namespace Sys2Proof.Machine

/-- The n bytes of v, least significant first (R6). -/
def le : Nat → Nat → List Byte
  | 0, _ => []
  | n + 1, v => BitVec.ofNat 8 v :: le n (v / 256)

/-- The number a little-endian byte string spells (R6). -/
def unle : List Byte → Nat
  | [] => 0
  | b :: bs => b.toNat + 256 * unle bs

/-- The n bytes of v, most significant first. -/
def be (n v : Nat) : List Byte := (le n v).reverse

/-- The number a big-endian byte string spells. -/
def unbe (bs : List Byte) : Nat := bs.foldl (fun a b => a * 256 + b.toNat) 0

/-- n zero bytes. -/
def zeros (n : Nat) : List Byte := List.replicate n 0

/-- n bytes 0xFF. -/
def ones (n : Nat) : List Byte := List.replicate n 0xFF

/-- bs cut or filled with zero bytes to exactly n. -/
def fit (n : Nat) (bs : List Byte) : List Byte := bs.take n ++ zeros (n - bs.length)

/-- len bytes of bs from byte off on. -/
def slice (bs : List Byte) (off len : Nat) : List Byte := (bs.drop off).take len

/-- bs with the bytes from off on replaced by new. -/
def patch (bs : List Byte) (off : Nat) (new : List Byte) : List Byte :=
  bs.take off ++ new ++ bs.drop (off + new.length)

/-- The bytes of an ASCII text. -/
def ascii (t : String) : List Byte := t.toList.map fun c => BitVec.ofNat 8 c.toNat

/-- Bits [lo + len - 1 : lo] of v. -/
def bits (v lo len : Nat) : Nat := (v >>> lo) % 2 ^ len

/-- Bit i of v. -/
def bit (v i : Nat) : Bool := v.testBit i

/-- 1 for true. -/
def b2n (b : Bool) : Nat := if b then 1 else 0

/-- v read as a two's complement number of n bits. -/
def signed (n v : Nat) : Int := if v % 2 ^ n ≥ 2 ^ (n - 1) then (v % 2 ^ n : Int) - 2 ^ n else (v % 2 ^ n : Int)

/-- The n-bit two's complement code of x. -/
def code (n : Nat) (x : Int) : Nat := (x % (2 ^ n : Int)).toNat

/-- x limited to lo .. hi. -/
def clampI (lo hi x : Int) : Int := max lo (min hi x)

/-- Number of bits set among the low n of v. -/
def popBits (n v : Nat) : Nat := (List.range n).countP fun i => v.testBit i

/-- The value kept under k, or d. -/
def get {α : Type} (l : List (Nat × α)) (k : Nat) (d : α) : α :=
  match l.find? (fun p => p.1 == k) with
  | some p => p.2
  | none => d

/-- l with v kept under k: keys strictly rising. -/
def put {α : Type} (k : Nat) (v : α) : List (Nat × α) → List (Nat × α)
  | [] => [(k, v)]
  | p :: r => if k < p.1 then (k, v) :: p :: r else if k = p.1 then (k, v) :: r else p :: put k v r

/-- l without k. -/
def del {α : Type} (k : Nat) (l : List (Nat × α)) : List (Nat × α) := l.filter fun p => p.1 != k

/-- l with d written under k when v = d meaning "not listed", else v. -/
def putD {α : Type} [DecidableEq α] (k : Nat) (v d : α) (l : List (Nat × α)) : List (Nat × α) :=
  if v = d then del k l else put k v l

/-- The smallest i below n that satisfies p. -/
def firstBelow (n : Nat) (p : Nat → Bool) : Option Nat := (List.range n).find? p

/-- f applied at index i of l. -/
def modNth {α : Type} (l : List α) (i : Nat) (f : α → α) : List α := l.modify i f

/-- The largest element of l, or d. -/
def maxOf (d : Nat) (l : List Nat) : Nat := l.foldl max d

/-- v rounded up to a multiple of m. -/
def roundUp (m v : Nat) : Nat := (v + m - 1) / m * m

/-- Quotient rounded to nearest, ties away from zero. -/
def divRound (a : Int) (b : Nat) : Int :=
  if a ≥ 0 then (2 * a + b) / (2 * b) else -((2 * (-a) + b) / (2 * b))

end Sys2Proof.Machine
end

