-- ==== Sys2Proof/Machine/Crc.lean ====
section
/-! DEFINITION. The cyclic codes of the device: CRC-64 (R167), CRC-16 of the segment header (R251), CRC-6 of the
servo word (R241) and CRC-32C of pair flits (R447). -/

namespace Sys2Proof.Machine

/-- One bit of a reflected CRC with polynomial p. -/
def crcBitR (p c : Nat) : Nat := if c % 2 = 1 then (c / 2) ^^^ p else c / 2

/-- One byte of a reflected CRC. -/
def crcByteR (p c : Nat) (b : Byte) : Nat := Nat.repeat (crcBitR p) 8 (c ^^^ b.toNat)

/-- CRC-64 of R167. -/
def crc64 (bs : List Byte) : BitVec 64 :=
  BitVec.ofNat 64 (bs.foldl (crcByteR 0xC96C5795D7870F42) 0xFFFFFFFFFFFFFFFF ^^^ 0xFFFFFFFFFFFFFFFF)

/-- CRC-32C, reflected polynomial 0x82F63B78 (R447). -/
def crc32c (bs : List Byte) : BitVec 32 :=
  BitVec.ofNat 32 (bs.foldl (crcByteR 0x82F63B78) 0xFFFFFFFF ^^^ 0xFFFFFFFF)

/-- One bit of an n-bit msb-first CRC with polynomial p. -/
def crcBitM (n p c : Nat) : Nat :=
  if c.testBit (n - 1) then (c * 2 % 2 ^ n) ^^^ p else c * 2 % 2 ^ n

/-- One byte of an msb-first CRC of 16 bits. -/
def crcByteM16 (p c : Nat) (b : Byte) : Nat := Nat.repeat (crcBitM 16 p) 8 (c ^^^ (b.toNat * 256))

/-- The segment header's CRC: CRC-16 with polynomial 0x1021, initial value 0xFFFF (R251). -/
def hcrc (bs : List Byte) : Nat := bs.foldl (crcByteM16 0x1021) 0xFFFF

/-- CRC-6 of R241 over bits, msb first: x^6 + x + 1, initial value 0. -/
def crc6 (bs : List Bool) : Nat :=
  bs.foldl (fun c b => crcBitM 6 3 (c ^^^ (if b then 32 else 0))) 0

end Sys2Proof.Machine
end

