-- ==== Sys2Proof/Machine/Codes.lean ====
section
/-! DEFINITION. The codes of ZF-2: arithmetic of GF(2^8), C2 and C3 (R254, R261), the C1 parity-check matrix
(R248, R249), the scrambler and the modulator (R246, R247) and the channel bits of a segment (R244). -/

namespace Sys2Proof.Machine

/-! ## GF(2^8), polynomial 0x11D, alpha = 2 (R254) -/

/-- Doubling. -/
def gfDbl (a : Nat) : Nat := if a ≥ 128 then (a * 2 - 256) ^^^ 0x1D else a * 2

/-- Multiplication: the low n bits of b. -/
def gfMulN : Nat → Nat → Nat → Nat
  | 0, _, _ => 0
  | n + 1, a, b => (if b % 2 = 1 then a else 0) ^^^ gfMulN n (gfDbl a) (b / 2)

/-- Multiplication. -/
def gfMul (a b : Nat) : Nat := gfMulN 8 a b

/-- alpha to the power n. -/
def gfExp (n : Nat) : Nat := Nat.repeat gfDbl (n % 255) 1

/-- a to the power n, by squaring over the low k bits of n. -/
def gfPowN : Nat → Nat → Nat → Nat
  | 0, _, _ => 1
  | k + 1, a, n => let r := gfPowN k (gfMul a a) (n / 2); if n % 2 = 1 then gfMul r a else r

/-- The inverse; 0 for 0. -/
def gfInv (a : Nat) : Nat := gfPowN 8 a 254

/-- Sum of products. -/
def gfDot (a b : List Nat) : Nat := (List.zipWith gfMul a b).foldl (· ^^^ ·) 0

/-- A polynomial, highest power first, evaluated by Horner's rule. -/
def gfEval (p : List Nat) (x : Nat) : Nat := p.foldl (fun a c => gfMul a x ^^^ c) 0

/-- Product of a polynomial (highest power first) with (x + r). -/
def gfTimesRoot (p : List Nat) (r : Nat) : List Nat :=
  List.zipWith (· ^^^ ·) (p ++ [0]) (0 :: p.map (gfMul r))

/-- The generator of a code with roots alpha^0 to alpha^(n-1): g2 for n = 16 (R254), g3 for n = 2 (R261). -/
def gfGen (n : Nat) : List Nat := (List.range n).foldl (fun p i => gfTimesRoot p (gfExp i)) [1]

/-- One step of division by a monic generator: shift in a symbol. -/
def gfDivStep (g rem : List Nat) (sym : Nat) : List Nat :=
  let f := (rem.getD 0 0) ^^^ sym
  List.zipWith (· ^^^ ·) (rem.drop 1 ++ [0]) ((g.drop 1).map (gfMul f))

/-- Parity symbols of a systematic code with n roots. -/
def rsParity (n : Nat) (data : List Nat) : List Nat :=
  data.foldl (gfDivStep (gfGen n)) (List.replicate n 0)

/-- Syndromes of a codeword, highest power first. -/
def rsSyndromes (n : Nat) (c : List Nat) : List Nat := (List.range n).map fun i => gfEval c (gfExp i)

/-! ## Errors and erasures (R336, R345)

Polynomials below are lowest power first. -/

/-- Product. -/
def gpMul (a b : List Nat) : List Nat :=
  (List.range (a.length + b.length - 1)).map fun k =>
    (List.range (k + 1)).foldl (fun s i => s ^^^ gfMul (a.getD i 0) (b.getD (k - i) 0)) 0

/-- Value at x, lowest power first. -/
def gpEval (p : List Nat) (x : Nat) : Nat := gfEval p.reverse x

/-- Leading zeros taken off. -/
def gpTrim (p : List Nat) : List Nat := (p.reverse.dropWhile (· == 0)).reverse

/-- Sum. -/
def gpAdd (a b : List Nat) : List Nat :=
  (List.range (max a.length b.length)).map fun i => a.getD i 0 ^^^ b.getD i 0

/-- Formal derivative. -/
def gpDeriv (p : List Nat) : List Nat := (List.range (p.length - 1)).map fun i => if i % 2 = 0 then p.getD (i + 1) 0 else 0

/-- Remainder and quotient of a by b, by at most n steps. -/
def gpDivMod : Nat → List Nat → List Nat → List Nat × List Nat
  | 0, a, _ => ([], a)
  | n + 1, a, b =>
    let a := gpTrim a
    if a.length < b.length then ([], a)
    else
      let c := gfMul (a.getLastD 0) (gfInv (b.getLastD 0))
      let sh := a.length - b.length
      let t := List.replicate sh 0 ++ [c]
      let r := gpDivMod n ((gpAdd a (gpMul t b)).take (a.length - 1)) b
      (gpAdd t r.1, r.2)

/-- Euclid's algorithm on (r0, r1) with multipliers (t0, t1) until the remainder's degree is below the bound. -/
def gpEuclid : Nat → Nat → List Nat → List Nat → List Nat → List Nat → List Nat × List Nat
  | 0, _, _, r1, _, t1 => (r1, t1)
  | n + 1, bound, r0, r1, t0, t1 =>
    if (gpTrim r1).length ≤ bound then (gpTrim r1, t1)
    else
      let d := gpDivMod 40 r0 (gpTrim r1)
      gpEuclid n bound (gpTrim r1) (gpTrim d.2) t1 (gpAdd t0 (gpMul d.1 t1))

/-- A codeword of length len (position 0 is the highest power) with n parity symbols, decoded with the given erased
positions: the corrected codeword and its changed positions, or none when the code cannot: 2 × errors + erasures ≤ n (R336). -/
def rsDecode (len n : Nat) (c : List Nat) (erased : List Nat) : Option (List Nat × List Nat) :=
  let c := c.zipIdx.map fun x => if erased.contains x.2 then 0 else x.1
  let syn := rsSyndromes n c
  if erased.length > n then none
  else
    let loc := fun p => gfExp (len - 1 - p)
    let gamma := erased.foldl (fun g p => gpMul g [1, loc p]) [1]
    let xi := (gpMul gamma syn).take n
    let eu := gpEuclid 40 ((n + erased.length) / 2) (List.replicate n 0 ++ [1]) xi [] [1]
    let lam0 := gpTrim eu.2
    let z := gfInv (lam0.getD 0 0)
    let lam := lam0.map (gfMul z)
    let om := eu.1.map (gfMul z)
    let psi := gpTrim (gpMul lam gamma)
    let places := (List.range len).filter fun p => gpEval psi (gfInv (loc p)) == 0
    let errors := places.countP fun p => !erased.contains p
    if places.length ≠ psi.length - 1 ∨ 2 * errors + erased.length > n then none
    else
      let d := gpDeriv psi
      let fix := c.zipIdx.map fun x =>
        if places.contains x.2 then
          let xi := gfInv (loc x.2)
          x.1 ^^^ gfMul (gfMul (loc x.2) (gpEval om xi)) (gfInv (gpEval d xi))
        else x.1
      if (rsSyndromes n fix).all (· == 0) then some (fix, places) else none

/-- C2 parity of a column of 112 data bytes (R254). -/
def c2Parity (data : List Nat) : List Nat := rsParity 16 data

/-- C3 parity of a byte position: the members' bytes in SPANIDX order (R261). -/
def c3Parity (data : List Nat) : List Nat := rsParity 2 (data ++ List.replicate (30 - data.length) 0)

/-! ## C1 (R248, R249) -/

/-- The base matrix by columns; 256 stands for a zero block. -/
def c1Base : List (List Nat) :=
  [[0, 0, 0, 0, 0], [13, 61, 127, 200, 34], [27, 119, 2, 151, 256], [41, 180, 77, 256, 96],
   [55, 256, 152, 53, 158], [69, 42, 227, 4, 220], [256, 103, 46, 211, 26], [97, 164, 121, 162, 88],
   [111, 225, 256, 113, 150], [125, 30, 15, 64, 212], [139, 91, 90, 256, 18], [153, 256, 165, 222, 80],
   [167, 213, 240, 173, 142], [181, 18, 59, 124, 204], [256, 79, 134, 75, 10], [209, 140, 209, 26, 72]] ++
  [[223, 201, 256, 233, 134], [237, 6, 28, 184, 196], [251, 67, 103, 256, 2], [9, 256, 178, 86, 64],
   [23, 189, 253, 37, 126], [37, 250, 72, 244, 188], [256, 55, 147, 195, 250], [65, 116, 222, 146, 56],
   [79, 177, 256, 97, 118], [93, 238, 41, 48, 180], [107, 43, 116, 256, 242], [121, 256, 191, 254, 48],
   [135, 165, 10, 205, 110], [149, 226, 85, 156, 172], [256, 31, 160, 107, 234], [177, 92, 235, 58, 40]] ++
  [[191, 153, 256, 9, 102], [205, 214, 54, 216, 164], [219, 19, 129, 256, 226], [233, 256, 204, 118, 32],
   [247, 141, 23, 69, 94], [5, 202, 98, 20, 156], [256, 7, 173, 227, 218], [33, 68, 248, 178, 24],
   [47, 129, 256, 129, 86], [61, 190, 67, 80, 148], [75, 251, 142, 256, 210], [89, 256, 217, 238, 16],
   [103, 117, 36, 189, 78], [117, 178, 111, 140, 140], [256, 239, 186, 91, 202], [145, 44, 5, 42, 8]] ++
  [[159, 105, 256, 249, 70], [173, 166, 80, 200, 132], [187, 227, 155, 256, 194], [201, 256, 230, 102, 0],
   [215, 93, 49, 53, 62], [229, 154, 124, 4, 124], [256, 215, 199, 211, 186], [1, 20, 18, 162, 248],
   [15, 81, 256, 113, 54], [29, 142, 93, 64, 116], [43, 203, 168, 256, 178], [1, 256, 0, 256, 1],
   [0, 0, 256, 256, 256], [256, 0, 0, 256, 256], [256, 256, 0, 0, 256], [256, 256, 256, 0, 0]]

/-- The bits of a codeword in channel order (R246). -/
def codeBits (bs : List Byte) : List Bool := bs.flatMap fun b => (List.range 8).map fun i => b.getLsbD (7 - i)

/-- 256 bits shifted as a block of shift v reads them: row x takes column (x + v) mod 256. -/
def rotBlock (v : Nat) (b : List Bool) : List Bool := b.drop v ++ b.take v

/-- Exclusive or of two blocks. -/
def xorBits (a b : List Bool) : List Bool := List.zipWith (fun x y => xor x y) a b

/-- Block column j of a codeword. -/
def blockOf (bits : List Bool) (j : Nat) : List Bool := (bits.drop (256 * j)).take 256

/-- The 256 checks of block row r over block columns lo to hi - 1. -/
def c1Row (bits : List Bool) (lo hi r : Nat) : List Bool :=
  (List.range hi).foldl (fun a j =>
    let v := (c1Base.getD j []).getD r 256
    if j < lo ∨ v ≥ 256 then a else xorBits a (rotBlock v (blockOf bits j))) (List.replicate 256 false)

/-- H times a codeword: all false exactly for a codeword of C1. -/
def c1Syndrome (bits : List Bool) : List Bool := (List.range 5).flatMap (c1Row bits 0 64)

/-- The parity blocks, columns 59 to 63, of a payload's 59 blocks: the sum of the five rows is column 59, the others
follow one block row at a time (R248). -/
def c1Parity (payload : List Bool) : List Bool :=
  let s := (List.range 5).map (c1Row payload 0 59)
  let g := fun r => s.getD r []
  let p59 := (g 0 |> xorBits (g 1) |> xorBits (g 2) |> xorBits (g 3) |> xorBits (g 4))
  let p60 := xorBits (g 0) (rotBlock 1 p59)
  let p61 := xorBits (g 1) p60
  let p62 := xorBits (xorBits (g 2) p59) p61
  let p63 := xorBits (g 3) p62
  p59 ++ p60 ++ p61 ++ p62 ++ p63

/-- The codeword bits of a 1,888-byte payload. -/
def c1Encode (payload : List Byte) : List Bool := let b := codeBits payload; b ++ c1Parity b

/-! ## Scrambler and modulator (R244 to R247) -/

/-- The next bit of p_n = p_(n-18) xor p_(n-23): the window holds the last 23 bits, newest first. -/
def scrStep (w : List Bool) : List Bool := (xor (w.getD 17 false) (w.getD 22 false) :: w).take 23

/-- n bits of the sequence from a window of 23. -/
def scrGo : Nat → List Bool → List Bool
  | 0, _ => []
  | n + 1, w => let w' := scrStep w; w'.getD 0 false :: scrGo n w'

/-- The first n bits of the sequence for a 23-bit seed: p_0 to p_22 are bits 22 down to 0. -/
def scrSeq (seed n : Nat) : List Bool :=
  let start := (List.range 23).map fun i => seed.testBit (22 - i)
  (start ++ scrGo (n - 23) start.reverse).take n

/-- The seed of a lane (R246). -/
def laneSeed (lane : Nat) : Nat := 0x400000 ||| (lane * 0x10101)

/-- 17 or more consecutive zeros. -/
def longZeros : Nat → List Bool → Bool
  | run, [] => run ≥ 17
  | run, b :: r => if b then (run ≥ 17) || longZeros 0 r else longZeros (run + 1) r

/-- One word of 32 scrambled bits after modulation: the flag, then the word, every other bit inverted when the flag
is 1 (R247). -/
def modWord (w : List Bool) : List Bool :=
  let f := longZeros 0 w
  f :: w.zipIdx.map fun x => xor x.1 (f && x.2 % 2 == 0)

/-- n words. -/
def modWords : Nat → List Bool → List Bool
  | 0, _ => []
  | n + 1, bs => modWord (bs.take 32) ++ modWords n (bs.drop 32)

/-- The 33 bits of a word read back: the flag decides (R247). -/
def demodWord (w : List Bool) : List Bool :=
  (w.drop 1).zipIdx.map fun x => xor x.1 (w.getD 0 false && x.2 % 2 == 0)

/-- k groups 0b1000. -/
def preGroups (k : Nat) : List Bool := (List.replicate k [true, false, false, false]).flatten

/-- The sync mark (Table 8.5). -/
def syncMark : List Bool := (List.range 64).map fun i => (0xE4B21F0D6A93C587).testBit (63 - i)

/-- The 17,184 channel bits of a segment written on a lane (R244). -/
def segmentBits (lane : Nat) (payload : List Byte) : List Bool :=
  preGroups 48 ++ syncMark ++ modWords 512 (xorBits (c1Encode payload) (scrSeq (laneSeed lane) 16384)) ++ preGroups 8

/-! ## Segment header (Table 8.7) -/

/-- The fields of a segment header. -/
structure SegHead where
  seq : Nat
  wrap : Nat
  type : Nat
  attempt : Nat
  sub : Nat
  rewrite : Nat
  row : Nat
deriving DecidableEq, Repr

/-- The 12 bytes of a segment header, HCRC included (R250, R251). -/
def segHeadBytes (h : SegHead) : List Byte :=
  let b := le 6 h.seq ++ le 2 (h.wrap + 512 * h.type + 2048 * h.attempt) ++ le 1 (h.sub + 16 * h.rewrite) ++ le 1 h.row
  b ++ le 2 (hcrc b)

/-- The header of a decoded payload when HCRC matches and its reserved bits are zero (R250 to R252). -/
def segHeadOf (payload : List Byte) : Option SegHead :=
  let b := payload.take 10
  let w := unle (slice payload 6 2)
  if unle (slice payload 10 2) = hcrc b ∧ w < 8192 ∧ unle (slice payload 9 1) < 128 then
    some { seq := unle (payload.take 6), wrap := bits w 0 9, type := bits w 9 2, attempt := bits w 11 2,
           sub := bits (unle (slice payload 8 1)) 0 4, rewrite := bits (unle (slice payload 8 1)) 4 4,
           row := unle (slice payload 9 1) }
  else none

/-! ## Sub-datasets (R253) -/

/-- Bytes of a user area, of a sub-dataset's data, of a row's data. -/
abbrev userBytes : Nat := 3361792
abbrev subBytes : Nat := 210112
abbrev rowBytes : Nat := 1876

/-- Data row r of sub-dataset s of a user area. -/
def dataRow (user : List Byte) (s r : Nat) : List Byte := slice user (s * subBytes + r * rowBytes) rowBytes

/-- The 128 rows of sub-dataset s, without their header columns: data rows 0 to 111, then the C2 parity rows
(R253, R254). -/
def subRows (user : List Byte) (s : Nat) : List (List Byte) :=
  let d := (List.range 112).map (dataRow user s)
  let par := (List.range rowBytes).map fun c => c2Parity (d.map fun r => (r.getD c 0).toNat)
  d ++ (List.range 16).map fun i => par.map fun p => BitVec.ofNat 8 (p.getD i 0)

/-- One column of a sub-dataset decoded: rows by number, erased rows given (R336). -/
def c2Column (rows : List (Option (List Byte))) (extra : List Nat) (c : Nat) : Option (List Nat × List Nat) :=
  let er := (List.range 128).filter fun r => ((rows.getD r none).isNone) || extra.contains r
  rsDecode 128 16 ((List.range 128).map fun r => (((rows.getD r none).getD []).getD c 0).toNat) er

end Sys2Proof.Machine
end

