-- ==== Sys2Proof/Machine/C1.lean ====
section
/-! DEFINITION. From soft bits to codewords: combining of the two readers (R323), framing (R318), layered offset min-sum
decoding (R319, R320), also with pinned bits (R337). Messages are clamped to ±31 and posterior sums to ±127 (log 17). -/

namespace Sys2Proof.Machine

/-! ## Combining and framing -/

/-- Weight of the leading module: the round of 8 x the trailing module's share of the noise (R323). -/
def leadWeight (mseL mseT : Nat) : Nat :=
  if mseL + mseT = 0 then Config.evenWeight % 9 else (divRound (8 * mseT) (mseL + mseT)).toNat

/-- A quarter of a sum of weighted LLRs, rounded one way or the other where it is no integer (log 17). -/
def quarter (x : Int) : Int := if x % 4 ≠ 0 ∧ Config.quarterUp x = true then x / 4 + 1 else x / 4

/-- Combined body LLRs with the leading module's weight wl (R323). -/
def combine (wl : Nat) (lead trail : List Int) : List Int :=
  (List.range 16896).map fun i => clampI (-31) 31 (quarter (wl * (4 * lead.getD i 0) + (8 - wl) * trail.getD i 0))

/-- Min-sum exclusive or of two LLRs: the product of the signs, the smaller magnitude. -/
def softXor (a b : Int) : Int :=
  let m : Int := min a.natAbs b.natAbs
  if decide (a < 0) != decide (b < 0) then -m else m

/-- One word of 33 LLRs: the flag governs every other bit (R318). -/
def frameWord (w : List Int) : List Int :=
  (w.drop 1).zipIdx.map fun x => if x.2 % 2 = 0 then softXor (w.getD 0 0) x.1 else x.1

/-- n words. -/
def frameWords : Nat → List Int → List Int
  | 0, _ => []
  | n + 1, l => frameWord (l.take 33) ++ frameWords n (l.drop 33)

/-- The 16,384 codeword LLRs of a lane's body LLRs (R318). -/
def frameLlrs (lane : Nat) (body : List Int) : List Int :=
  List.zipWith (fun l p => if p then -l else l) (frameWords 512 body) (scrSeq (laneSeed lane) 16384)

/-! ## Layered offset min-sum -/

/-- Block columns of block row r with their shifts. -/
def c1Cols (r : Nat) : List (Nat × Nat) :=
  c1Base.zipIdx.filterMap fun c => let v := c.1.getD r 256; if v < 256 then some (c.2, v) else none

/-- Posterior sums by block column, and messages by block row and edge. -/
structure C1State where
  post : List (List Int)
  msgs : List (List (List Int))
deriving DecidableEq, Repr

/-- A block shifted by v, and shifted back. -/
def rotInts (v : Nat) (b : List Int) : List Int := b.drop v ++ b.take v

/-- The messages one check sends: to each of its bits, the product of the signs and the smallest magnitude less the offset
of the others. -/
def minOut (off : Nat) (qs : List Int) : List Int :=
  qs.zipIdx.map fun q =>
    let rest := qs.eraseIdx q.2
    let neg := rest.countP (fun x => decide (x < 0)) % 2 == 1
    let m : Int := ((rest.map Int.natAbs).foldl min 31 - off : Nat)
    if neg then -m else m

/-- One block row: new messages, and posteriors of the bits that are not pinned. -/
def c1Layer (off : Nat) (pin : List (List Bool)) (st : C1State) (r : Nat) : C1State :=
  let es := c1Cols r
  let old := st.msgs.getD r []
  let diff := List.zipWith (fun (e : Nat × Nat) (o : List Int) =>
    List.zipWith (fun a b => a - b) (rotInts e.2 (st.post.getD e.1 [])) o) es old
  let q := diff.map fun b => b.map (clampI (-31) 31)
  let outs := (List.range 256).map fun x => minOut off (q.map fun b => b.getD x 0)
  let new := es.zipIdx.map fun e => outs.map fun o => o.getD e.2 0
  let sums := List.zipWith (fun (a b : List Int) => List.zipWith (fun d m => clampI (-127) 127 (d + m)) a b) diff new
  let post := (es.zip sums).foldl (fun post e =>
    let fresh := rotInts (256 - e.1.2) e.2
    let keep := pin.getD e.1.1 []
    let was := post.getD e.1.1 []
    post.set e.1.1 ((List.range 256).map fun i => if keep.getD i false then was.getD i 0 else fresh.getD i 0)) st.post
  { post, msgs := st.msgs.set r new }

/-- Hard decisions: a negative value is a 1. -/
def hardBits (post : List (List Int)) : List Bool := post.flatten.map fun x => decide (x < 0)

/-- Parity checks not satisfied. -/
def c1Unsat (post : List (List Int)) : Nat := (c1Syndrome (hardBits post)).countP id

/-- What a decoding left. -/
structure C1Result where
  ok : Bool
  unsat : Nat
  /-- iterations the attempt has had, and abandonment after its third (R320) -/
  iters : Nat
  aborted : Bool := false
  post : List (List Int)
deriving DecidableEq, Repr

/-- Up to n more iterations; k are done. -/
def c1Iterate (off abort : Nat) (pin : List (List Bool)) : Nat → Nat → C1State → C1Result
  | 0, k, st => { ok := false, unsat := c1Unsat st.post, iters := k, post := st.post }
  | n + 1, k, st =>
    let st := (List.range 5).foldl (c1Layer off pin) st
    let u := c1Unsat st.post
    if u = 0 then { ok := true, unsat := 0, iters := k + 1, post := st.post }
    else if k + 1 = 3 ∧ u > abort then { ok := false, unsat := u, iters := k + 1, aborted := true, post := st.post }
    else c1Iterate off abort pin n (k + 1) st

/-- A list cut into 64 blocks of 256. -/
def toBlocks {α : Type} (l : List α) : List (List α) := (List.range 64).map fun j => (l.drop (256 * j)).take 256

/-- One decoding from given LLRs with the messages at 0. -/
def c1Decode (off abort n k : Nat) (pin : List Bool) (llr : List Int) : C1Result :=
  c1Iterate off abort (toBlocks pin) n k
    { post := toBlocks llr, msgs := (List.range 5).map fun r => (c1Cols r).map fun _ => List.replicate 256 0 }

/-- The 1,888 payload bytes of a decoding. -/
def payloadOf (post : List (List Int)) : List Byte :=
  let b := hardBits post
  (List.range 1888).map fun i => BitVec.ofNat 8 (((b.drop (8 * i)).take 8).foldl (fun a x => 2 * a + b2n x) 0)

end Sys2Proof.Machine
end

