-- ==== Sys2Proof/Machine/State.lean ====
section
/-! DEFINITION. The state of the device as plain data, the reasons a step can stop, and the state right after
reset. Each field's docstring gives: width; the rule and the file of spec/ that name it; its reset value.
"log n" names the row notes/assumptions/n.md. Lists keyed by a number list only the entries that differ from
what the accessor answers for an unlisted number (Machine/Ops.lean). -/

namespace Sys2Proof.Machine

/-- Reasons the device model stops. Nothing the spec describes stops the device; the one fault guards the model's
own addressed memory. -/
inductive Fault where
  /-- A staging access beyond the 30 GiB of usable staging (R138). Raised by no command: every command checks its
  operands first. Safe: the model stops where the spec gives no address. -/
  | noStagingAddress
deriving DecidableEq, Repr

/-- Reasons the model refuses a command. -/
inductive Refusal where
  /-- The command has no meaning yet. Raised by the dispatch only, for a command not modelled. Safe. -/
  | notModelled (mnemonic : String)
deriving DecidableEq, Repr

/-! ## Host side: functions, queues, commands -/

/-- A command in flight, from its admission to its completion or drop (R70, R75, R83, R98). -/
inductive CmdState where
  /-- executing -/ | running
  /-- held by the range-lock table (R77) -/ | lockHeld
  /-- held behind a BARRIER of its SQ (R79) -/ | barrierHeld
  /-- waiting for a transfer, a visit or a completion event -/ | waiting
deriving DecidableEq, Repr

/-- State of an atomic piece (R33, R34, R37, R84). -/
inductive PieceState where
  | open_ | markerSealed | committed | failed
deriving DecidableEq, Repr

/-- An atomic piece of a WRITE (R33). -/
structure Piece where
  idx     : Nat
  len     : Nat
  /-- original bytes that have arrived in pool 0 -/
  arrived : Nat := 0
  /-- original bytes already cut into records -/
  cut     : Nat := 0
  records : Nat := 0
  /-- its records that lie in datasets that have begun on tape, in original bytes (R293) -/
  onTape  : Nat := 0
  st      : PieceState := .open_
  /-- the peer reported its copy verified (R456) -/
  peerOk  : Bool := false
  /-- MARKER entry placed -/
  marker  : Bool := false
  /-- the dataset of its MARKER has passed; it commits once the earlier pieces of its stream are settled (R34, R35) -/
  passed  : Bool := false
deriving DecidableEq, Repr

/-- A pool 0 buffer that a reader holds a PIN reference on: the bytes of which version, at which stream offset, it holds (R30,
R153). -/
structure Pin where
  handle  : BitVec 32
  off     : Nat
  len     : Nat
  version : Nat
deriving DecidableEq, Repr

/-- A command in flight. -/
structure Cmd where
  id      : Nat
  fn      : Nat
  q       : Nat
  sqe     : SqeBits
  descs   : List DescBits := []
  epoch   : Nat := 0
  /-- control-clock time and Meridian time of admission -/
  since   : Nat := 0
  time    : Nat := 0
  /-- the version of a WRITE or the pin of a READ, VERIFY, STREAM_STAT (R22, R23) -/
  version : Nat := 0
  st      : CmdState := .running
  pieces  : List Piece := []
  /-- buffers of staging that hold the data, handle by handle -/
  bufs    : List (BitVec 32) := []
  /-- what the buffers a reader pins hold (R30) -/
  pins    : List Pin := []
  /-- bytes delivered or checked so far (R105) -/
  done    : Nat := 0
  /-- host memory writes of a READ in stream order, sent when its last check is done: address, No Snoop, bytes (R40, R105) -/
  unsent  : List (Nat × Bool × List Byte) := []
  staged  : Bool := false
  recovered : Bool := false
  /-- first nonce of a tagged WRITE (R216) -/
  nonce   : BitVec 96 := 0
  /-- recall priority taken at admission (R371) -/
  prio    : Nat := 2
  /-- dataset holding the write's first byte (R44) -/
  locator : Option Nat := none
  /-- both-copies policy in force at admission (R456) -/
  both    : Bool := false
  /-- ADMIN: dataset SEQ whose passing completes the command -/
  awaits  : Option Nat := none
  dropped : Bool := false
  /-- the status it is to end with, and details 1 and 2, once its pieces are settled (R37, R178) -/
  fail    : Option (Nat × Nat × Nat) := none
  /-- abandoned SEQs that a passing dataset has to list first (R178) -/
  gates   : List Nat := []
  /-- the key-slot window it was admitted under (R41) -/
  kbase   : Nat := 0
  kcount  : Nat := 0
  /-- a locator read (R45): the next SEQ to be read, and records found: stream offset, version, original bytes -/
  scan    : Nat := 0
  found   : List (Nat × Nat × List Byte) := []
  /-- datasets of its range that could not be read: SEQ, status, detail 2; it ends when it comes to one (R347) -/
  lost    : List (Nat × Nat × Nat) := []
  /-- a READ that waits for a reference on a buffer that is held 255 times (R153) -/
  pinWait : Bool := false
deriving DecidableEq, Repr

/-- One entry of the error log (Table 3.15). -/
structure ErrEntry where
  seq : Nat
  time : Nat
  sqid : Nat
  cid : Nat
  status : Nat
  epoch : Nat
  opcode : Nat
  stream : StreamId
  part : Nat
  frozen : Bool
  vvalid : Bool
  offset : Nat
  length : Nat
  bytes : Nat
  version : Nat
  detail1 : Nat
  detail2 : Nat
deriving DecidableEq, Repr

/-- An event record (Table 3.16). -/
structure EvRec where
  seq : Nat
  time : Nat
  code : Nat
  scope : Nat
  part : Nat
  params : List Byte
deriving DecidableEq, Repr

/-- The state QE and GLB keep for one function. -/
structure FnState where
  /-- 2 bits. R52, R53 02_queue_interface. Reset 0b00 DISABLED. -/
  state : Nat := 0
  /-- 8 bits. R53 (QE.FNCTL.WEIGHT) 02_queue_interface. Reset 0x01. -/
  weight : BitVec 8 := 1
  /-- 32 bits. R53 (QE.FNDROP.COUNT) 02_queue_interface. Reset 0. -/
  drops : Nat := 0
  /-- 16 bits. R38, R39 01_archive_model. Reset 0 for a VF, 0xFFFF for PF0. -/
  pmask : BitVec 16 := 0
  /-- 48 bits. R38, R39 01_archive_model. Reset 0. -/
  prefix_ : StreamId := 0
  /-- 48 bits. R38, R39 01_archive_model. Reset 0. -/
  mask : StreamId := 0
  /-- 12 bits. R38, R39 01_archive_model. Reset 0. -/
  kbase : Nat := 0
  /-- 13 bits. R38, R39 01_archive_model. Reset 0 for a VF, 4,096 for PF0. -/
  kcount : Nat := 0
  /-- 64 bits (GLB.ASQ_LO, GLB.ASQ_HI). R560 20_register_reference. Reset 0. -/
  asq : BitVec 64 := 0
  /-- 64 bits (GLB.ACQ_LO, GLB.ACQ_HI). R560 20_register_reference. Reset 0. -/
  acq : BitVec 64 := 0
  /-- 15 bits (GLB.AQSIZE.SQDEPTH). R560 20_register_reference. Reset 0. -/
  aSqDepth : BitVec 15 := 0
  /-- 15 bits (GLB.AQSIZE.CQDEPTH). R560 20_register_reference. Reset 0. -/
  aCqDepth : BitVec 15 := 0
  /-- 1 bit (GLB.AQCFG.ENABLE). R560, R563 20_register_reference. Reset 0. -/
  aEnable : Bool := false
  /-- 1 bit (GLB.AQCFG.READY). R560, R563 20_register_reference. Reset 0. -/
  aReady : Bool := false
  /-- 1 bit (GLB.AQCFG.ERR). R560, R563 20_register_reference. Reset 0. -/
  aErr : Bool := false
  /-- 8 bits (GLB.AQCFG.CQCOUNT). R560 20_register_reference. Reset 0x01. -/
  aCqCount : BitVec 8 := 1
  /-- 8 bits (GLB.AQCFG.CQTIME). R560 20_register_reference. Reset 0x00. -/
  aCqTime : BitVec 8 := 0
  /-- 8 bits (GLB.AQCFG.VECTOR). R560 20_register_reference. Reset 0x00. -/
  aVector : BitVec 8 := 0
  /-- 25 bits (GLB.ACCERR.OFFSET). R560 20_register_reference. Reset 0. -/
  accOffset : BitVec 25 := 0
  /-- 7 bits (GLB.ACCERR.COUNT). R560 20_register_reference. Reset 0. -/
  accCount : Nat := 0
  /-- 1 bit, PCIe power state D3hot. R94 02_queue_interface. Reset 0 (D0). -/
  d3hot : Bool := false
  /-- up to 64 records, oldest first. R97 02_queue_interface. Reset empty. -/
  events : List EvRec := []
  /-- 32 bits, events not queued. R99 02_queue_interface. Reset 0. -/
  evLost : Nat := 0
  /-- 64 bits, newest event sequence number. R135 03_commands_and_status. Reset 0 (numbers start at 1). -/
  evSeq : Nat := 0
  /-- 256 records, newest first. R135 03_commands_and_status. Reset empty. -/
  evLog : List EvRec := []
  /-- 64 bits, newest error log sequence number. R133, R134 03_commands_and_status. Reset 0. -/
  errSeq : Nat := 0
  /-- 256 entries, newest first. R133 03_commands_and_status. Reset empty. -/
  errLog : List ErrEntry := []
  /-- command ids of outstanding EVENT_WAITs, oldest first, at most 4. R98 02_queue_interface. Reset empty. -/
  waits : List Nat := []
  /-- 32 bits, the word MIR.TIMEHI latched by MIR.TIMELO. R564 20_register_reference. Reset 0. -/
  mirTimeHi : Word := 0
  /-- words of the MSI-X table that differ from reset, by word index. R95, R557 20_register_reference. Reset 0, but 1 (masked) in
  the Vector Control word of each entry: PRESUMED log 24. -/
  msix : List (Nat × Word) := []
  /-- vectors whose pending bit is set, ascending. R96, R557 20_register_reference. Reset none. -/
  pendingVecs : List Nat := []
deriving DecidableEq, Repr

/-- A created queue pair (R58, Tables 2.7 to 2.10). -/
structure Queue where
  /-- 15 bits, global number. R54 02_queue_interface. -/
  g : Nat
  /-- owner function. R55 02_queue_interface. -/
  fn : Nat
  /-- 2 bits (QSTAT.CLASS): 0 Standard, 1 Strict, 2 Admin. R59, R73 02_queue_interface. -/
  cls : Nat
  /-- SQ and CQ depths, 16 to 16,384. R58 02_queue_interface. -/
  sqDepth : Nat
  cqDepth : Nat
  /-- ring bases. R58, R109. -/
  sqBase : Nat := 0
  cqBase : Nat := 0
  /-- MSI-X vector. R95. -/
  vector : Nat := 0
  /-- count threshold and time limit. R96. -/
  cqCount : Nat := 1
  cqTime : Nat := 0
  /-- 14 bits (SQ_TAIL.TAIL). R59 02_queue_interface. Reset 0. -/
  tail : Nat := 0
  /-- 14 bits (QSTAT.SQ_HEAD). R59 02_queue_interface. Reset 0. -/
  head : Nat := 0
  /-- 14 bits (CQ_HEAD.HEAD). R59 02_queue_interface. Reset 0. -/
  cqHead : Nat := 0
  /-- index of the next CQE to be written. R66, R68. Reset 0. -/
  cqTail : Nat := 0
  /-- CQEs posted and not yet released by CQ_HEAD, 0 to the CQ's depth. R68 02_queue_interface. Reset 0. -/
  posted : Nat := 0
  /-- an admin SQ whose next entry was read and waits for the running admin command (R75). Reset false. -/
  adminWait : Bool := false
  /-- phase of the pass in progress. R66 02_queue_interface. Reset 1. -/
  phase : Bool := true
  /-- 1 bit (QSTAT.FROZEN). R59, R80. Reset 0. -/
  frozen : Bool := false
  /-- 1 bit (QSTAT.RESET_DONE). R59, R83. Reset 0. -/
  resetDone : Bool := false
  /-- 1 bit (QSTAT.RESET_BUSY). R59, R83. Reset 0. -/
  resetBusy : Bool := false
  /-- 8 bits (QSTAT.EPOCH). R58, R59, R83. Reset 0. -/
  epoch : BitVec 8 := 0
  /-- CQEs posted since the last message, and when the oldest of them was posted. R96. Reset 0. -/
  unsignalled : Nat := 0
  oldest : Nat := 0
  /-- a DELETE_QUEUE of it is in progress: the id of the command. R90. -/
  deleting : Option Nat := none
deriving DecidableEq, Repr

/-- Who owns a global queue and under which local number (R54, R55, R110). -/
structure Assign where
  g : Nat
  fn : Nat
  loc : Nat
deriving DecidableEq, Repr

/-- An entry of the range-lock table (R77). -/
structure RLock where
  cmd : Nat
  part : Nat
  stream : StreamId
  first : Nat
  last : Nat
  isWrite : Bool
deriving DecidableEq, Repr

/-- A completion queue entry (Table 2.12). -/
structure Cqe where
  cid : BitVec 16
  sqid : Nat
  sqHead : Nat
  epoch : BitVec 8
  phase : Bool
  frozen : Bool
  staged : Bool := false
  recovered : Bool := false
  vvalid : Bool := false
  status : Nat
  info : Nat := 0
  nonce : BitVec 96 := 0
  version : Nat := 0
deriving DecidableEq, Repr

/-- A pair link message as sent (Table 15.2). -/
inductive Msg where
  | heartbeat (b : HbBody)
  | record (part : Nat) (r : Rec)
  | pieceCommit (part : Nat) (stream : StreamId) (version piece count : Nat)
  | pieceFail (part : Nat) (stream : StreamId) (version piece : Nat)
  | pieceVerified (part : Nat) (stream : StreamId) (version piece : Nat)
  | partitionOp (sqe : SqeBits)
  | opDone (seq status : Nat)
  | credit (buffers : Nat)
  | timeExch (t1 t2 t3 t4 : Nat)
  | roleStale (role epoch rejected : Nat)
deriving DecidableEq, Repr

/-- What leaves the device (inventory, Host interface): the model's own trace of outputs, newest first. -/
inductive Emit where
  /-- a CQE: its ring index, its fields, the host address of its 32 bytes, and the bytes (R65) -/
  | cqe (fn q index : Nat) (e : Cqe) (addr : Nat) (bytes : List Byte)
  | msix (fn vector : Nat)
  /-- data written to host memory, with the No Snoop attribute of its descriptor (R102) -/
  | hostWrite (fn addr : Nat) (noSnoop : Bool) (bytes : List Byte)
  /-- the PCIe error of a failed read, reported through AER (R103) -/
  | aerReport (fn : Nat)
  | regRead (fn offset : Nat) (v : Word)
  | canFrame (cob : Nat) (bytes : List Byte)
  | usdoReply (client : Nat) (abort : Nat) (bytes : List Byte)
  | plMsg (role epoch seq : Nat) (m : Msg)
  /-- a flit: its type, its sequence and its 128 bytes (R447) -/
  | plFlit (kind seq : Nat) (bytes : List Byte)
  /-- a slot of a lane as written: its flux transitions, each with its place from the slot's start in 1/64 channel bit and the
  magnetisation it switches to (R245, R275) -/
  | track (lane slot : Nat) (flux : List (Nat × Bool))
  /-- a volume slot as written, at its LPOS: lane, repetition and flux transitions of each segment; the rest of it is erased
  (R268) -/
  | volumeSlot (wrap lpos : Nat) (segs : List (Nat × Nat × List (Nat × Bool)))
  | pairRstOut
  | ppsOut
  | motion (what : Nat)
deriving DecidableEq, Repr

/-- GLB: identity, power, boot and interrupt state. -/
structure Glb where
  /-- 3 bits (GLB.BOOT.STAGE), Table 18.2; 5 is READY. R516, R560. Reset 0. -/
  stage : Nat := 0
  /-- control-clock time at which start-up began (R514, GLB.BOOT.MS); none while held in reset. Reset none. -/
  bootAt : Option Nat := none
  /-- VIN12 is valid (R515, R577). Reset false: no supply. DESIGN CHOICE log 6. -/
  vin12 : Bool := false
  /-- level of RESET_IN_N (R513). Reset low. DESIGN CHOICE log 6. -/
  resetInN : Bool := false
  /-- TEST_EN high (R571). Reset low. -/
  testEn : Bool := false
  /-- PERST# released (R518). Reset asserted. DESIGN CHOICE log 6. -/
  perstReleased : Bool := false
  /-- Nightwatch holds start-up back to brake a reel (R514). Reset false. -/
  heldByReel : Bool := false
  /-- event that began the start-up: 0 POWER, 1 RESETIN, 2 MOTION (R562). Reset 0. -/
  bootCause : Nat := 0
  /-- thermal trip in force: start-up waits for both junctions below 110 degrees (R584). Reset false. -/
  tripped : Bool := false
  /-- 5 bits (GLB.RSTCAUSE). R560, R562. Reset 0 until the end of start-up. -/
  rstCause : BitVec 5 := 0
  /-- 7 bits (GLB.ISTAT). R560, R561. Reset 0. -/
  istat : BitVec 7 := 0
  /-- 8 bits (GLB.ICFG.VECTOR). R560. Reset 0. -/
  icfgVector : BitVec 8 := 0
  /-- 7 bits (GLB.ICFG.ENABLE). R560. Reset 0. -/
  icfgEnable : BitVec 7 := 0
  /-- 2 bits (GLB.PWR.STATE): 0 ACTIVE, 1 STANDBY, 2 PARKED, 3 DORMANT. R114, R560. Reset 0. -/
  power : Nat := 0
  /-- deferred SET_POWER: command id, target (GLB.PWR.PENDING, TARGET). R91, R93, R560. Reset none. -/
  setPower : Option (Nat × Nat) := none
  /-- 1 bit (GLB.STATUS.LSUP). R560. Reset 0. -/
  lsUp : Bool := false
  /-- a Lodestar restart in progress, since when (R497, R498). Reset none. -/
  restarting : Option Nat := none
  /-- times of the restarts of the last 10 minutes, newest first (R500). Reset empty. -/
  restarts : List Nat := []
  /-- 32 bits, Lodestar restarts since reset (Table 17.5). R510. Reset 0. -/
  restartCount : Nat := 0
  /-- Twilight and its cause (GLB.STATUS.TWILIGHT, TCAUSE). R502, R560. Reset none. -/
  twilight : Option Nat := none
  /-- NumVFs in force and VF Enable (R51, R52). Reset 0 and clear. -/
  numVfs : Nat := 0
  vfEnable : Bool := false
  /-- PCI subsystem vendor and device in force since the last PERST# release (R4, R5). Reset 0x1F3D, 0x0001. -/
  subVendor : Nat := 0x1F3D
  subDevice : Nat := 0x0001
  /-- the subsystem IDs are still to be read for the latest PERST# release (R5). Reset true: none were read since power-up. -/
  subDue : Bool := true
  /-- logic junction cap of the speed index at 12 (R584). Reset false. -/
  thermalCap : Bool := false
  /-- temperatures of 0x3430:01 to :04 in 0.1 degrees: logic, power stage, head modules A and B. R274, R583, R584. Reset
  0: DESIGN CHOICE log 9. -/
  temps : List Int := [0, 0, 0, 0]
  /-- background writing of check words finished (R517). Reset false. -/
  background : Bool := false
deriving DecidableEq, Repr

/-- QE's device-wide state. -/
structure Qe where
  /-- 256 functions, those that differ from the default. R52. Reset: PF0 with its full windows (R39). -/
  fns : List (Nat × FnState) := [(0, { pmask := 0xFFFF, kcount := 4096 })]
  /-- created queue pairs. R54, R58. Reset none. -/
  queues : List Queue := []
  /-- I/O queue assignments. R54, R57, R110. Reset none. -/
  assigns : List Assign := []
  /-- commands in flight (QE.INFLIGHT.COUNT is their number). R53, R72. Reset none. -/
  cmds : List Cmd := []
  /-- number given to the next admitted command: the model's own name for a command. Reset 0. -/
  nextId : Nat := 0
  /-- range-lock table (QE.RLOCK.USED is its length). R77, R53. Reset empty. -/
  locks : List RLock := []
  /-- 16 bits (QE.RLOCK.FULLCNT). R53, R78. Reset 0. -/
  lockFull : Nat := 0
  /-- recall priorities that differ from 2 (QE.QPRIO.PRIO, 2 bits each). R371, R381. Reset 0b10 each. -/
  qprio : List (Nat × Nat) := []
  /-- writes held for functions in D3hot, oldest first, each with the command whose data it is (R94). Reset empty. -/
  held : List (Nat × Option Nat × Emit) := []
  /-- arbitration (R71): the admin queue served last, the function whose turn it is, the SQEs it has fetched in it and the queues
  read in it, and the I/O queue of each function served last. Reset 0 and none. -/
  lastAdmin : Nat := 0
  lastFn : Nat := 0
  roundUsed : Nat := 0
  turnQs : List Nat := []
  lastOf : List (Nat × Nat) := []
deriving DecidableEq, Repr

/-! ## Staging and the buffer pool -/

/-- A parked allocation request (R159, R160). -/
structure Parked where
  cls : Nat
  cmd : Option Nat
  since : Nat
deriving DecidableEq, Repr

/-- An allocated buffer (R150). A buffer not listed is free, with count 0 and holder mask 0. -/
structure Buf where
  idx : Nat
  /-- 8 bits. R150. -/
  count : Nat
  /-- 16 bits. R150. -/
  holders : BitVec 16
deriving DecidableEq, Repr

/-- One buffer pool (R145, R155, R157, R163). -/
structure Pool where
  /-- 4 bits (BPM.PCFG.SIZE). R145, R163. Reset Table 4.3. -/
  size : Nat
  /-- 24 bits (BPM.PCFG.MIB). R145, R163. Reset Table 4.3. -/
  mib : Nat
  /-- 16 bits (BPM.PRES.ALM). R145, R163. Reset Table 4.3. -/
  alm : Nat
  /-- 16 bits (BPM.PRES.REC). R145, R163. Reset Table 4.3. -/
  rcv : Nat
  /-- allocated buffers. R150. Reset none. -/
  bufs : List Buf := []
  /-- handle cache, last in first out (BPM.PCACHE is its length). R155, R163. Reset empty. -/
  cache : List Nat := []
  /-- free ring from its head: runs (first index, length). R155. Reset all buffers, ascending: DESIGN CHOICE log 7. -/
  ring : List (Nat × Nat) := []
  /-- parked requests, oldest first (BPM.PWAIT.PARKED is their number). R159, R163. Reset none. -/
  parked : List Parked := []
  /-- 16 bits (BPM.PWAIT.EXHAUSTED). R160, R163. Reset 0. -/
  exhausted : Nat := 0
  /-- time of the last BUFFER_RELEASE_REJECTED event of the pool (R162). Reset none. -/
  rejectAt : Option Nat := none
deriving DecidableEq, Repr

/-- Buffers a pool of a given layout has (R145). -/
def poolCount (size mibs : Nat) : Nat := mib * mibs / (4096 * 2 ^ size)

/-- A pool right after it has been carved (R147, R155). -/
def Pool.carved (size mibs alm rcv : Nat) : Pool :=
  { size, mib := mibs, alm, rcv, ring := if poolCount size mibs = 0 then [] else [(0, poolCount size mibs)] }

/-- The default layout of Table 4.3. -/
def defaultPools : List Pool :=
  [Pool.carved 8 11264 0 0, Pool.carved 10 2048 8 16, Pool.carved 10 2048 0 64, Pool.carved 8 2048 0 32,
   Pool.carved 4 1536 0 256, Pool.carved 0 512 4096 1024, Pool.carved 10 512 0 128, Pool.carved 6 512 0 0,
   Pool.carved 0 0 0 0, Pool.carved 0 0 0 0, Pool.carved 0 0 0 0, Pool.carved 0 0 0 0,
   Pool.carved 0 0 0 0, Pool.carved 0 0 0 0, Pool.carved 0 0 0 0, Pool.carved 0 0 0 0]

/-- BPM. -/
structure Bpm where
  /-- pools 0 to 15. R145, R147. Reset the default layout (R147). -/
  pools : List Pool := defaultPools
  /-- 30 GiB of staging, byte addressed: listed cells; an unlisted byte reads 0. R138, R144. Reset nothing listed; the
  value of an unlisted byte: DESIGN CHOICE log 8. -/
  mem : List Host.Cell := []
  /-- lines whose check word marks them poisoned (R139, R140). Reset none. -/
  poison : List Nat := []
  /-- buffers a unit was given and that no other field names yet: handle and class. R151, R159. Reset none. -/
  granted : List (BitVec 32 × Nat) := []
  /-- 32 bits (BPM.REJECT.COUNT). R162, R163. Reset 0. -/
  rejects : Nat := 0
  /-- BPM.REJINFO: pool 4 bits, unit 4 bits, holders 16 bits, WASFREE 1 bit. R162, R163. Reset 0. -/
  rejPool : Nat := 0
  rejUnit : Nat := 0
  rejHolders : BitVec 16 := 0
  rejFree : Bool := false
  /-- 28 bits (BPM.REJIDX.INDEX). R163. Reset 0. -/
  rejIdx : Nat := 0
  /-- 32 bits (BPM.ECCCOR.COUNT). R143, R163. Reset 0. -/
  eccCor : Nat := 0
  /-- 16 bits (BPM.ECCUNC.COUNT). R143, R163. Reset 0. -/
  eccUnc : Nat := 0
  /-- 29 bits (BPM.ECCADDR.LINE). R143, R163. Reset 0. -/
  eccAddr : Nat := 0
  /-- 29 bits (BPM.SCRUB.LINE). R141, R163. Reset 0. -/
  scrub : Nat := 0
  /-- corrected and uncorrectable errors since reset (Table 17.5). R143, R510. Reset 0. -/
  corTotal : Nat := 0
  uncTotal : Nat := 0
deriving DecidableEq, Repr

/-! ## Records, compression, tags -/

/-- Where a record stands in the pipeline of Table 5.2 (R168). -/
inductive RecStage where
  /-- stage 2: cut, space reserved, not yet compressed -/ | cut
  /-- stage 3: on an engine -/ | compressing
  /-- stage 3 done: header and payload in pool 4 -/ | compressed
  /-- stage 4: on a tag context -/ | tagging
  /-- ready for stage 5 -/ | ready
deriving DecidableEq, Repr

/-- A record between stage 2 and stage 5, or a mirrored record waiting for stage 5. -/
structure RecJob where
  id : Nat
  /-- its WRITE; none for a record received from the primary -/
  cmd : Option Nat
  part : Nat
  piece : Nat
  /-- command-relative offset of its first byte -/
  rel : Nat
  r : Rec
  /-- the form asked for by CFORM -/
  cform : Nat := 2
  /-- reserved footprint W(L) (R172) -/
  footprint : Nat := 0
  stage : RecStage := .cut
  /-- its stream holds a context slot in the dataset (R196) -/
  slot : Bool := false
  /-- its place in the order in which records reach the end of stage 4 (R452) -/
  readyNo : Nat := 0
  /-- the primary has sent it to the peer (R452) -/
  mirrored : Bool := false
  /-- its piece was dropped or failed after compression began (R198) -/
  dead : Bool := false
  /-- buffers of pool 4 or 7 that hold it (R189, R452) -/
  bufs : List (BitVec 32) := []
deriving DecidableEq, Repr

/-- CX (R188, R211). Engines 0 to 7 compress, 8 to 15 decompress. -/
structure Engine where
  /-- 1 bit (CX.ESTAT.BUSY): the record (compressors) or chain job (decompressors) it holds. R211. Reset idle. -/
  job : Option Nat := none
  /-- 1 bit (CX.ESTAT.EXCLUDED). R210, R211. Reset 0. -/
  excluded : Bool := false
  /-- 16 bits (CX.ESTAT.JOBS). R211. Reset 0. -/
  jobs : Nat := 0
deriving DecidableEq, Repr

/-- A decompression job: one chain in one dataset (R209). -/
structure ChainJob where
  id : Nat
  part : Nat
  seq : Nat
  /-- directory indices of the chain's records, in order -/
  recs : List Nat
  /-- READs and VERIFYs served from its output -/
  cmds : List Nat
  /-- the dataset is in read recovery (R209) -/
  recovery : Bool := false
  since : Nat := 0
  /-- its buffers of pool 3, once it has started (R202) -/
  bufs : List (BitVec 32) := []
deriving DecidableEq, Repr

structure Cx where
  /-- 16 engines. R188, R211. Reset idle. -/
  engines : List (Nat × Engine) := []
  /-- 32 bits (CX.FALLBACK.COUNT). R201, R211. Reset 0. -/
  fallback : Nat := 0
  /-- 16 bits (CX.Z1MISM.COUNT). R207, R211. Reset 0. -/
  z1mism : Nat := 0
  /-- 32 bits (CX.FBREAK.COUNT). R196, R211. Reset 0. -/
  fbreak : Nat := 0
  /-- 32 bits (CX.DFCOUNT.COUNT). R204, R211. Reset 0. -/
  dfCount : Nat := 0
  /-- CX.DFINFO: CODE 8 bits, ENGINE 4 bits, FORM 2 bits. R204, R211. Reset 0. -/
  dfCode : Nat := 0
  dfEngine : Nat := 0
  dfForm : Nat := 0
  /-- 32 bits (CX.DFOFS.OFFSET). R204, R211. Reset 0. -/
  dfOfs : Nat := 0
  /-- chain jobs waiting for a decompressor. R209. Reset none. -/
  chains : List ChainJob := []
  nextChain : Nat := 0
deriving DecidableEq, Repr

/-- A key slot (R220): loaded with a 256-bit key, or clearing on behalf of a command. -/
structure KeySlot where
  slot : Nat
  key : BitVec 256
  /-- the KEY_CLEAR that holds it in clearing (R123, R220) -/
  clearing : Option Nat := none
deriving DecidableEq, Repr

/-- A tag job on a context (R226). -/
structure TagJob where
  ctx : Nat
  /-- a record of the pipeline (computation), or a record of a dataset (check) -/
  recId : Nat
  /-- its priority when its context was taken (Table 7.1) -/
  prio : Nat
  /-- it waits, preempted or not yet served -/
  suspended : Bool := false
  /-- what the context holds: key slot, H to H^4, E(K, J0), bytes of A taken so far, GHASH accumulator (R226) -/
  slot : Nat := 0
  hpow : List (BitVec 128) := []
  ej0 : BitVec 128 := 0
  count : Nat := 0
  acc : BitVec 128 := 0
  /-- input buffers of a check on which TG holds a reference (R230) -/
  bufs : List (BitVec 32) := []
deriving DecidableEq, Repr

structure Tg where
  /-- 4,096 key slots: those loaded or clearing (TG.KMAP, TG.KLOADED). R220, R234. Reset all empty. -/
  keys : List KeySlot := []
  /-- 1 bit (TG.STAT.RETIRED). R230, R231, R234. Reset 0. -/
  retired : Bool := false
  /-- 1 bit (TG.STAT.SELFTEST_FAIL). R234. Reset 0. -/
  selftestFail : Bool := false
  /-- 16 contexts in use (TG.STAT.CTXUSED). R226, R234. Reset none. -/
  jobs : List TagJob := []
  /-- 16 bits (TG.LSERR.COUNT). R230, R234. Reset 0. -/
  lsErr : Nat := 0
  /-- 32 bits (TG.SUSP.COUNT). R228, R234. Reset 0. -/
  susp : Nat := 0
  /-- 32 bits (TG.TFAIL.COUNT). R233, R234. Reset 0. -/
  tfail : Nat := 0
  /-- 64 bits, next counter value (TG.CTRLO, TG.CTRHI). R216, R217, R234. Reset 0, then the limit stored in flash. -/
  counter : Nat := 0
  /-- 64 bits, the limit in force (R217). Reset 0. -/
  limit : Nat := 0
  /-- a reservation's flash write in progress: the new limit (R217). Reset none. -/
  reserving : Option Nat := none
  /-- 32 bits, the word TG.CTRHI latched by TG.CTRLO. R234. Reset 0. -/
  ctrHi : Word := 0
deriving DecidableEq, Repr

/-! ## Formatter and writer -/

/-- A MARKER entry (Table 5.4). -/
structure Marker where
  stream : StreamId
  version : Nat
  piece : Nat
  pieces : Nat
  length : Nat
  records : Nat
  offset : Nat
deriving DecidableEq, Repr

/-- An Almanac extent (Table 5.7). -/
structure Extent where
  part : Nat
  stream : StreamId
  offset : Nat
  length : Nat
  version : Nat
  seq : Nat
  index : Nat
deriving DecidableEq, Repr

/-- The body of a checkpoint dataset (Table 5.6). -/
structure Ckpt where
  prev : Option Nat
  base : Nat
  delta : Bool
  hostIndexed : Bool := false
  exhausted : Bool := false
  faultProt : Bool := false
  byUnmount : Bool := false
  maxVersion : Nat := 0
  eod : Nat := 0
  extents : List Extent := []
  watermark : Option Nat := none
  origin : Nat := 0
  /-- datasets of the checkpoint and this one's index -/
  count : Nat := 1
  index : Nat := 0
deriving DecidableEq, Repr

/-- Kinds of datasets (Table 5.3 TYPE, R175, R260). -/
inductive DsKind where
  | data | checkpoint | label | parity
deriving DecidableEq, Repr

/-- A label body (Table 8.8). -/
structure LabelBody where
  live : Bool := true
  wp : Bool := false
  firstPair : Nat
  pairs : Nat
  copy : Nat
  part : Nat
  inst : Nat := 0
  time : Nat := 0
  gen : Nat := 0
  name : List Byte := []
deriving DecidableEq, Repr

/-- The content of a dataset (Tables 5.3 to 5.6, 8.8). -/
structure Dataset where
  part : Nat
  seq : Nat
  kind : DsKind
  hostIndexed : Bool := false
  spanIdx : Nat := 0
  spanFirst : Nat := 0
  lastCkpt : Option Nat := none
  maxVer : Nat := 0
  sealTime : Nat := 0
  abandoned : List Nat := []
  /-- WRAP and LPOS of its header: those of its first writing, which every copy carries (R175, R259, R282) -/
  home : Option (Nat × Nat) := none
  recs : List Rec := []
  markers : List Marker := []
  ckpt : Option Ckpt := none
  label : Option LabelBody := none
deriving DecidableEq, Repr

/-- A copy of a dataset on tape (R257, R259, R282). -/
structure TapeDs where
  ds : Dataset
  attempt : Nat := 0
  wrap : Nat
  lpos : Nat
  /-- start position in thirds of a nanometre -/
  pos : Nat := 0
  trailer : Nat := 0
  /-- slots written from `pos` on (R526) -/
  slots : Nat := 32
  /-- every slot was written (R586) -/
  complete : Bool := true
deriving DecidableEq, Repr

/-- A segment written whose verdict is still out (R277, R278). -/
structure Seg where
  slot : Nat
  lane : Nat
  sub : Nat
  row : Nat
deriving DecidableEq, Repr

/-- A row of a dataset on tape that has failed at least once (R279, R281). -/
structure FailRow where
  sub : Nat
  row : Nat
  /-- slot of the latest failed copy, lanes on which a copy failed, rewrites made -/
  slot : Nat
  lanes : List Nat
  rewrites : Nat := 0
  /-- a rewrite of it is written or assigned and its verdict is out -/
  out : Bool := false
  passed : Bool := false
deriving DecidableEq, Repr

/-- A sealed dataset in the write pipeline, from its seal to its pass or abandonment. -/
structure WriteDs where
  ds : Dataset
  attempt : Nat := 0
  /-- begun on tape -/
  begun : Bool := false
  /-- every slot and its trailer are written -/
  ended : Bool := false
  wrap : Nat := 0
  pos : Nat := 0
  trailer : Nat := 0
  due : List Seg := []
  fails : List FailRow := []
  /-- failed segments of this writing (R281 cause 2) -/
  failCount : Nat := 0
  /-- the whole dataset must be written again (R281) -/
  rewrite : Bool := false
  /-- lanes retired before this writing began (R258) -/
  lanesOut : List Nat := []
  /-- it needs tape at once: kept under R586, or sealed when the writer left its partition in DRAIN (R293, R294) -/
  interrupted : Bool := false
  /-- it starts on the partition's next wrap (R290) -/
  turn : Bool := false
  /-- its pool 1 buffer; all ones while it waits for one (R168) -/
  buf : BitVec 32 := 0xFFFFFFFF
  /-- SEQs whose reallocated chains lie in it (R349) -/
  realloc : List Nat := []
deriving DecidableEq, Repr

/-- The open data dataset of a partition (R171, R173, R174). -/
structure OpenDs where
  /-- free room in bytes, after reservations and MARKER room (R171, R172) -/
  room : Nat := 3360256
  recs : List Rec := []
  /-- records reserved and not yet placed -/
  outstanding : Nat := 0
  full : Bool := false
  stop : Bool := false
  /-- it is not to be sealed: it goes once the records begun are placed (R117, R178, R198, R288) -/
  discard : Bool := false
  /-- a checkpoint, a span closure, UNMOUNT or the streaming condition of R174 has stopped it (Table 7.1) -/
  urgent : Bool := false
  /-- time of the last reservation (R174) -/
  lastRes : Nat := 0
  /-- streams that hold one of the 64 context slots (R196), and streams with a re-appended chain here (R349) -/
  slots : List StreamId := []
  chains : List StreamId := []
  /-- directory entries used -/
  entries : Nat := 0
  /-- SEQs whose reallocated chains lie here (R349) -/
  realloc : List Nat := []
  /-- its pool 1 buffer (R168) -/
  buf : BitVec 32 := 0xFFFFFFFF
deriving DecidableEq, Repr

/-- A piece known from records and markers: mirrored pieces of a secondary (R453). -/
structure MirrorPiece where
  part : Nat
  stream : StreamId
  version : Nat
  piece : Nat
  received : Nat := 0
  commit : Option Nat := none
  st : PieceState := .open_
  /-- original bytes received, stream offset of its first byte, piece count of its WRITE (Table 5.4) -/
  len : Nat := 0
  off : Nat := 2 ^ 48
  pieces : Nat := 1
  /-- the dataset of its MARKER has passed (R34, R35) -/
  passed : Bool := false
deriving DecidableEq, Repr

/-- A reallocation in progress (R350). -/
structure Realloc where
  part : Nat
  seq : Nat
  /-- SEQs that received its chains, the move made, the checkpoint awaited, retries -/
  into : List Nat := []
  moved : Bool := false
  ckpt : Option Nat := none
  tries : Nat := 0
deriving DecidableEq, Repr

/-- A partition of the mounted cartridge (R14 to R18, R46, R118). -/
structure Part where
  /-- 4 bits. R14. -/
  num : Nat
  /-- 8 bits. R116. -/
  firstPair : Nat
  pairs : Nat
  /-- 16 bytes. R116, R118. -/
  name : List Byte := []
  labelWp : Bool := false
  /-- write-protected by fault (Table 17.1, 0x11), versions exhausted (R27), host-indexed (R43, R46). -/
  faultWp : Bool := false
  exhausted : Bool := false
  hostIndexed : Bool := false
  /-- writer halted under R178 for the partition (R18); a ninth pending abandonment is draining towards it (R178). -/
  halted : Bool := false
  halting : Bool := false
  /-- being deleted (R117). -/
  deleting : Bool := false
  /-- it does not exist for the host: its label region is being written, by PARTITION_CREATE, or by PARTITION_DELETE after the
  freeing generation (R116, R265, R267, R270). -/
  shadow : Bool := false
  /-- SEQ of the label dataset that could not be written (R265, R283); none. -/
  labelFail : Option Nat := none
  /-- a WRITE has met the reserve: the last write before it has been made (R17, R181). -/
  full : Bool := false
  /-- 64 bits, highest version assigned. R22, R118. -/
  version : Nat := 0
  /-- SEQ given to the next sealed dataset. R174, R175. -/
  nextSeq : Nat := 0
  /-- open span: SEQ of its first dataset and number of data members sealed (R181); none between spans. -/
  span : Option (Nat × Nat) := none
  /-- parity accumulated: members' SEQs of the open span are those from span.1 on. -/
  openDs : Option OpenDs := none
  /-- abandoned SEQs pending (R178), and every abandoned SEQ known (R259). -/
  pendingAb : List Nat := []
  abandoned : List Nat := []
  /-- abandoned SEQs beyond the eight that can be pending (R178). -/
  overAb : List Nat := []
  /-- latest checkpoint that passed; latest base; checkpoints since that base (R183). -/
  lastCkpt : Option Nat := none
  lastBase : Nat := 512
  sinceBase : Nat := 0
  baseNext : Bool := false
  /-- data datasets and time since the last checkpoint (R182). -/
  dataSince : Nat := 0
  ckptAt : Nat := 0
  /-- extents added since the previous checkpoint that passed (R183). -/
  added : List Extent := []
  /-- writings of the checkpoint in progress that were abandoned (R283). -/
  ckptTries : Nat := 0
  /-- a checkpoint is due: it waits for the open dataset to be sealed; it is the one of UNMOUNT (R174, R182). -/
  ckptWant : Bool := false
  ckptUnmount : Bool := false
  /-- the checkpoint sealed last and not yet passed: its first SEQ, SEQs still to pass, extents of `added` it holds; and
  whether it is a base (R183). -/
  ckptCur : Option (Nat × List Nat × Nat) := none
  ckptBase : Bool := false
  /-- the open span is to be closed once the open dataset is sealed (R181). -/
  spanClose : Bool := false
  /-- mirror watermark; none stands for all ones (R458). -/
  watermark : Option Nat := none
  diverged : Bool := false
  /-- divergent pieces have been withdrawn and the base checkpoint without them is still to be sealed (R458). -/
  withdraw : Bool := false
  /-- position on tape: wrap in use, and the append point in thirds of a nanometre from LPOS 0 (R16, R297). -/
  wrap : Nat := 0
  pos : Nat := 0
  /-- reallocated chains waiting for room: records and source SEQ (R349). -/
  chains : List (Nat × List Rec) := []
deriving DecidableEq, Repr

/-- FM and the writer. -/
structure Fm where
  /-- partitions of the mounted cartridge. R14. Reset none. -/
  parts : List Part := []
  /-- records in the write pipeline, in the order cut. R168. Reset none. -/
  recs : List RecJob := []
  nextRec : Nat := 0
  /-- records that have reached the end of stage 4, in all (R452). Reset 0. -/
  nextReady : Nat := 0
  /-- sealed datasets not yet passed or abandoned, in the order they are to be written. R168. Reset none. -/
  sealed : List WriteDs := []
  /-- 3 bits (FM.WSTAT.STATE), Table 9.4: 0 IDLE to 6 HALTED. R292, R299. Reset 0. -/
  wstate : Nat := 0
  /-- 5 bits (FM.WSTAT.SPEED). R243, R299. Reset 0. -/
  speed : Nat := 0
  /-- 9 bits (FM.WSTAT.WRAP). R299. Reset 0. -/
  wrap : Nat := 0
  /-- partition being written (R16, R293). Reset 0. -/
  wpart : Nat := 0
  /-- SEQ being written and the next slot, 0 to 38. R255, R280. Reset none. -/
  current : Option (Nat × Nat) := none
  /-- write gate open (R276). Reset closed. -/
  gate : Bool := false
  /-- slot boundaries at which START failed (R297). Reset 0. -/
  startTries : Nat := 0
  /-- its locate has been repeated for loss of servo; the repeat waits for tape to stop (R361). Reset false. -/
  servoTry : Bool := false
  again : Bool := false
  /-- closing after the fifth retirement (R288), and how far it has come: 0 writing what is sealed, 1 checkpoints, 2 span closures.
  Reset false, 0. -/
  closing : Bool := false
  closeStep : Nat := 0
  /-- members, as sealed, of spans whose parity is still to be encoded (R181, R261). Reset none. -/
  members : List Dataset := []
  /-- 64 lanes: the magnetisation that the latest slot on the lane left (R245). Reset 0: DESIGN CHOICE log 9. -/
  mag : BitVec 64 := 0
  /-- segments whose verdicts are out though their writing is over: SEQ, ATTEMPT, wrap, segment (R285). Reset none. -/
  late : List (Nat × Nat × Nat × Seg) := []
  /-- 64 lanes retired (0x3420:01), from flash. R286. Reset 0: DESIGN CHOICE log 9. -/
  retired : BitVec 64 := 0
  /-- lane buckets TB and PB and consecutive failed verdicts, for lanes that differ from 0 (LF.LHEALTH). R285, R299.
  Reset 0. -/
  tb : List (Nat × Nat) := []
  pb : List (Nat × Nat) := []
  consec : List (Nat × Nat) := []
  /-- segments written on a lane since the last leaks (Table 9.2). Reset 0. -/
  segsT : List (Nat × Nat) := []
  segsP : List (Nat × Nat) := []
  /-- write drivers that report an open or a short (LF.WCUR.FAULT). R299. Reset none. -/
  drvFault : List Nat := []
  /-- write current in force per (lane, module): IW in 0.25 mA (LF.WCUR.IW). R274, R299. Reset 0. -/
  wcur : List (Nat × Nat) := []
  /-- word of 0x4100 and trim of 0x4101 per (lane, module), taken at the latest dataset boundary; OS, OSD and PC of LF.WCUR are
  the word's. R274, R299. Reset none. -/
  wset : List (Nat × Nat × Int) := []
  /-- write currents recomputed within a slot: in force from the next slot boundary on (R274). Reset none. -/
  wnext : Option (List (Nat × Nat)) := none
  /-- the settings' speed curve was refused at the latest Lodestar start (R296). Reset false. -/
  curveBad : Bool := false
  /-- 32 bits (FM.TRW.COUNT). R299. Reset 0. -/
  trw : Nat := 0
  /-- 16 bits each (FM.DSRW.WHOLE, ABANDONED). R299. Reset 0. -/
  whole : Nat := 0
  abandonedCnt : Nat := 0
  /-- 16 bits each (FM.OTINH.INHIBITS, BACKHITCH). R276, R297, R299. Reset 0. -/
  inhibits : Nat := 0
  backhitch : Nat := 0
  /-- sustained ingress rate in bytes per second (FM.RATE.RATE shows MB/s in 16 bits), and when it was last brought up
  to date. R295, R299. Reset 0. -/
  rate : Nat := 0
  rateAt : Nat := 0
  /-- time since when the staged level is below the stop level (R294); the demand is 2 below (R296). Reset none. -/
  lowSince : Option Nat := none
  downSince : Option Nat := none
  /-- reallocations in progress. R350. Reset none. -/
  reallocs : List Realloc := []
  /-- 16 bits each (FM.REALLOC.DONE, DROPPED). R350, R354. Reset 0. -/
  reallocDone : Nat := 0
  reallocDropped : Nat := 0
  /-- mirrored pieces of a secondary. R453. Reset none. -/
  mirror : List MirrorPiece := []
  /-- Almanac: extents of the mounted cartridge. R42, R144. Reset none. -/
  almanac : List Extent := []
  /-- position map: (partition, SEQ, wrap, LPOS). R367. Reset none. -/
  posMap : List (Nat × Nat × Nat × Nat) := []
deriving DecidableEq, Repr

/-! ## Read channel, recovery, servo, recall -/

/-- A frame of a lane's delay store with its part of the descriptor area (R322): the place of the predicted sync mark on the lane's grid, 16,992
LLRs of 4 bits from 48 bits before the body predicted (in SEEK, before the body of the module's own best position), the distances
and the tone at the positions of the window, the noise estimate, the bits of the slot zeroed, the ADC stuck, and what adaptation awaits. -/
structure Frame where
  grid   : Int := 0
  from_  : Int := 0
  llrs   : List Int := []
  dist   : List Nat := []
  tone   : List Bool := []
  zeroed : List Bool := []
  noise  : Nat := 0
  stuck  : Bool := false
  agc    : Int := 0
  moves  : List Int := []
deriving DecidableEq, Repr

/-- Registers and state of one lane's read path (Tables 10.4, 10.13 to 10.18). -/
structure Lane where
  /-- 2 bits (CD.LSTAT.STATE): 0 OFF, 1 SEEK, 2 TRACK, 3 COAST. R311, R331. Reset 0. -/
  state : Nat := 0
  /-- 1 bit each (CD.LSTAT.SINGLE, MODSEL). R324, R331. Reset 0. -/
  single : Bool := false
  modsel : Bool := false
  /-- 4 bits (CD.LSTAT.COASTN). R331. Reset 0. -/
  coastn : Nat := 0
  /-- 4 bits (CD.LSTAT.WL). R323, R331. Reset 0. -/
  wl : Nat := 0
  /-- 8 bits (CD.LSTAT.DSKEW), signed. R312, R331. Reset 0. -/
  dskew : Int := 0
  /-- place of the last accepted sync mark on the lane's grid of one mark every 17,184 bits (the flywheel). R312. Reset 0. -/
  fly : Int := 0
  /-- up to four frames: the slots that the leading module has read and the trailing module has not (the delay store). R322. Reset none. -/
  store : List Frame := []
  /-- 16 bits each (CD.SYNCN.FIRST, ALT; CD.SYNCF.FLY, NONE). R331. Reset 0. -/
  first : Nat := 0
  alt : Nat := 0
  flyCnt : Nat := 0
  none_ : Nat := 0
  /-- 16, 8, 8 bits (CD.C1N.ROUND2, ABORT, STRAY). R331. Reset 0. -/
  round2 : Nat := 0
  abort : Nat := 0
  stray : Nat := 0
  /-- 16, 8, 8 bits (CD.DEFECT.DROPS, TAS, SUSPECT). R331. Reset 0. -/
  drops : Nat := 0
  tas : Nat := 0
  suspect : Nat := 0
  /-- 16 bits each (CD.CONTEST.CONTESTED, BUDGET). R331. Reset 0. -/
  contested : Nat := 0
  budget : Nat := 0
deriving DecidableEq, Repr

/-- One read front end f = 64m + l (Tables 10.10 to 10.12, 17.7). -/
structure FrontEnd where
  /-- 8, 6, 8 bits (LF.AFE.GAIN, BOOST, OFFSET). R302, R331. Reset 0. -/
  gain : Nat := 0
  boost : Nat := 0
  offset : Int := 0
  /-- 8 bits: Ephemeris GAIN loaded; the gain the automatic gain control has come to, in 1/65536 of a step. R302, R306. Reset 0: DESIGN CHOICE log 9. -/
  seed : Nat := 0
  agc : Int := 0
  /-- OFFSET, ASYM, E0 to E9, G1 to G4 in force, in 1/65536 of their units. R305, R306. Reset 0: DESIGN CHOICE log 9. -/
  adapt : List Int := []
  /-- 8 bits: SKEW loaded. R305, R315. Reset 0: DESIGN CHOICE log 9. -/
  skew : Int := 0
  /-- the wrap its values are in force for. R305, R306. Reset none. -/
  wrap : Option Nat := none
  /-- low-pass corner of the continuous-time filter in bit/s; the frequency carried into the next preamble, in 10^-9 of the bit rate. R302,
  R309. Reset 0: DESIGN CHOICE log 9. -/
  corner : Nat := 0
  carried : Int := 0
  /-- 1 bit each (LF.AFE.STUCK, BIASF). R301, R331. Reset 0. -/
  stuck : Bool := false
  biasf : Bool := false
  /-- 16, 8, 16 bits (LF.TREC.FOFS, PHERR; LF.MSE.MSE). R331. Reset 0. -/
  fofs : Int := 0
  pherr : Nat := 0
  mse : Nat := 0
  /-- consecutive read slots in which it was stuck. R491. Reset 0. -/
  stuckRun : Nat := 0
  /-- counts since the latest MOUNT (Table 17.7). R512. Reset 0. -/
  failedVerdicts : Nat := 0
  accepted : Nat := 0
  noAccept : Nat := 0
  defects : Nat := 0
deriving DecidableEq, Repr

/-- A row accepted into a read dataset buffer (R328). -/
structure Row where
  sub : Nat
  row : Nat
  bytes : List Byte
  suspect : Bool := false
deriving DecidableEq, Repr

/-- A failing row whose framed LLRs CD keeps (R335): unsatisfied checks of its best attempt, the 16,384 LLRs, and the
posteriors the last decoding left (R337). -/
structure Stored where
  sub : Nat
  row : Nat
  unsat : Nat
  llr : List Int
  post : List Int
deriving DecidableEq, Repr

/-- A dataset being read (pool 2) or recovered (R328, R332, R335). -/
structure ReadDs where
  part : Nat
  seq : Nat
  rows : List Row := []
  /-- failing rows with a defect flag: sub-dataset and row (R327) -/
  flagged : List (Nat × Nat) := []
  /-- failing rows with stored LLRs (R335) -/
  stored : List Stored := []
  /-- pool 6 buffers held for stored LLRs (R335) -/
  pool6 : List (BitVec 32) := []
  /-- recovery step in progress, 0 none (R332 to R345); passes completed -/
  step : Nat := 0
  pass : Nat := 0
  /-- its user area once a recovery step has restored it (R336, R345) -/
  user : Option (List Byte) := none
  /-- time it entered step 3; the time limit has passed (R341) -/
  step3At : Nat := 0
  limited : Bool := false
  /-- a pass held servo through the dataset (R342); span reads that lost servo (R344) -/
  heldServo : Bool := false
  spanReads : Nat := 0
  spanLost : Nat := 0
  /-- sent back by a stage 2 header check (R334); rebuilt by C3 (R345) -/
  headerFail : Bool := false
  rebuilt : Bool := false
  /-- decoded, its records ready for the read pipeline (R185), with what its user area holds -/
  decoded : Bool := false
  content : Option Dataset := none
  /-- its pool 2 buffer (R328) -/
  buf : BitVec 32 := 0xFFFFFFFF
  /-- the wrap it is read on (R339) -/
  wrap : Nat := 0
  /-- members of its span that step 4 left missing (Table 11.4) -/
  missing : Nat := 0
  /-- a command that joined it after decoding found its headers wrong (R185, R334) -/
  recheck : Bool := false
  /-- directory indices whose tags TG has checked (R232) -/
  tagOk : List Nat := []
  /-- records decompressed into pool 3: directory index and original bytes (R202), and the buffers -/
  outs : List (Nat × List Byte) := []
  /-- records that failed stage 4 or 5: directory index and status (R186, R204) -/
  bad : List (Nat × Nat) := []
  outBufs : List (BitVec 32) := []
  /-- recovery moved tape: OK_RECOVERED (R346) -/
  recovered : Bool := false
deriving DecidableEq, Repr

/-- A span read for C3 (R344, R345): the target, the span's SPANFIRST and number of data members, the two syndromes, the
positions accumulated, their two pool 6 buffers. -/
structure SpanRead where
  part : Nat
  seq : Nat
  first : Nat
  count : Nat
  s0 : List Byte := []
  s1 : List Byte := []
  done : List Nat := []
  bufs : List (BitVec 32) := []
deriving DecidableEq, Repr

structure Rc where
  /-- 64 lanes, those that differ from reset. R311, R331. Reset OFF. -/
  lanes : List (Nat × Lane) := []
  /-- 128 front ends, those that differ from reset. R300, R331. Reset 0. -/
  fes : List (Nat × FrontEnd) := []
  /-- 64 bits each (0x3421:01, :02), from flash. R491. Reset 0: DESIGN CHOICE log 9. -/
  retiredA : BitVec 64 := 0
  retiredB : BitVec 64 := 0
  /-- datasets in pool 2. R328, R333. Reset none. -/
  reads : List ReadDs := []
  /-- wrap being read; values learned at this mount by band, direction, module, lane. R305, R307. Reset none. -/
  wrap : Nat := 0
  learned : List (Nat × List Byte) := []
  /-- speed of the latest locate to read, mm/s; the pass of Table 11.2 whose changes are in force, 0 none. R302, R340. Reset 0: DESIGN CHOICE
  log 9. -/
  mmps : Nat := 0
  passNo : Nat := 0
  /-- the front ends as they were when ladder pass 5 put the default column in their place (R340). Reset none. -/
  kept : List (Nat × FrontEnd) := []
  /-- 16 bits each (CD.RCVA.STEP1, STEP2, CD.RCVB.STEP3, STEP4, CD.RCVF.FAILED, ROUNDS). R354. Reset 0. -/
  step1 : Nat := 0
  step2 : Nat := 0
  step3 : Nat := 0
  step4 : Nat := 0
  failed : Nat := 0
  rounds : Nat := 0
  /-- CD.RCVLAST: STEP, PASS 3 bits each, ROWS 8, SEQLO 16. R354. Reset 0. -/
  lastStep : Nat := 0
  lastPass : Nat := 0
  lastRows : Nat := 0
  lastSeq : Nat := 0
  /-- dataset whose ladder or span read owns the transport (R339, R344, R375). Reset none. -/
  ladder : Option (Nat × Nat) := none
  /-- the span read in progress (R344). Reset none. -/
  span : Option SpanRead := none
deriving DecidableEq, Repr

/-- A servo channel (Table 12.12, R357, R492). -/
structure ServoChan where
  /-- 16 bits (SV.CH.Y), nm, signed. R381. Reset 0. -/
  y : Int := 0
  /-- 3 bits (SV.CH.BANDRD). R381. Reset 0. -/
  bandrd : Nat := 0
  /-- 1 bit (SV.CH.VALID). R381. Reset 0. -/
  valid : Bool := false
  /-- 8 bits (SV.CH.WORDERR). R357, R381. Reset 0. -/
  worderr : Nat := 0
  /-- bits of the word being assembled, newest first; a marker has been met (R357). Reset none. -/
  bits : List Bool := []
  marked : Bool := false
  bad : Bool := false
  /-- LPOS, at the leading module, of the latest word when it was accepted; by how much it and the word before it, agreeing
  with one another, differ from the frame count (R358, R359). Reset none. -/
  word : Option Nat := none
  off : Option Int := none
  /-- its latest word named another band than the reader should see (R357, R442). Reset false. -/
  alien : Bool := false
  /-- its latest frame completed an accepted word (R359). Reset false. -/
  fresh : Bool := false
  /-- frames and invalid frames of the present 10 s (R492). Reset 0. -/
  frames : Nat := 0
  invalid : Nat := 0
deriving DecidableEq, Repr

structure Sv where
  /-- 3 bits (SV.STAT.STATE): 0 OFF, 1 ACQUIRE, 2 HELD, 3 COAST, 4 LOST. R360, R381. Reset 0. -/
  state : Nat := 0
  /-- 1 bit (SV.STAT.DIR): reverse. R357, R381. Reset 0. -/
  reverse : Bool := false
  /-- channels 0 to 3 (SV.CH, SV.STAT.VALID). R358, R381. Reset 0. -/
  ch : List ServoChan := [{}, {}, {}, {}]
  /-- data band the coarse stepper stands on; it is confirmed now; the band confirmed last, 3 bits (SV.STAT.BAND). R365, R366, R381.
  Reset 0. -/
  band : Nat := 0
  bandOk : Bool := false
  confirmed : Nat := 0
  /-- 7 bits (SV.STAT.WIDX). R363, R381. Reset 0. -/
  widx : Nat := 0
  /-- 23 bits (SV.ADDR.LPOS) and its validity. R359, R381. Reset 0. -/
  lpos : Nat := 0
  lposOk : Bool := false
  /-- 16 bits each (SV.PES.PES, SPEED). R362, R381. Reset 0. -/
  pes : Int := 0
  speed : Nat := 0
  /-- 16 bits each (SV.CNT.LPOSERR, LOSS). R359, R360, R381. Reset 0. -/
  lposerr : Nat := 0
  loss : Nat := 0
  /-- frames spent in COAST (R360); time of entering LOST, until HELD again (R361); a band change is under way (R365).
  Reset 0, none. -/
  coast : Nat := 0
  lostAt : Option Nat := none
  moving : Bool := false
  /-- data band a band change goes to (R365). Reset 0. -/
  aim : Nat := 0
  /-- control-clock time of the latest PES sample, its channels and its validity (R362); start of the present 10 s of
  R492. Reset none. -/
  pesAt : Nat := 0
  pesN : Nat := 0
  pesOk : Bool := false
  /-- target, nm, that the latest PES was taken against (R362, R411). Reset 0. -/
  pesAim : Int := 0
  winAt : Option Nat := none
  /-- 4 bits (0x3421:03), from flash. R492. Reset 0: DESIGN CHOICE log 9. -/
  retired : BitVec 4 := 0
  /-- a band mismatch found in ACQUIRE: the coarse stepper has missed a step and homes again at the next locate (R442). Reset false. -/
  rehome : Bool := false
  /-- head offset O in nm (R363). Reset 0. -/
  headOffset : Int := 0
deriving DecidableEq, Repr

/-- A visit: a dataset that waiting commands or hints need (R370). -/
structure Visit where
  part : Nat
  seq : Nat
  wrap : Nat
  lpos : Nat
  cmds : List Nat
  hints : List Nat := []
  prio : Nat := 2
  /-- admission of its oldest command (R370) -/
  since : Nat := 0
  aged : Bool := false
deriving DecidableEq, Repr

/-- A hint (R378). -/
structure Hint where
  id : Nat
  fn : Nat
  part : Nat
  seq : Nat
  stream : StreamId
  first : Nat
  last : Nat
  prio : Nat
  since : Nat
deriving DecidableEq, Repr

structure Recall where
  /-- pending visits (QE.RSCHED0.VISITS). R370, R381. Reset none. -/
  visits : List Visit := []
  /-- hint table, at most 16,384 (QE.RSCHED3.HINTS). R378, R381. Reset none. -/
  hints : List Hint := []
  nextHint : Nat := 0
  /-- 16 bits (QE.RSCHED1.HINTEVICT). R378, R381. Reset 0. -/
  evicted : Nat := 0
  /-- run being served: wrap, visits still to come (R370, R374). Reset none. -/
  run : List (Nat × Nat) := []
  /-- a SEQ of the sought dataset's neighbourhood has been read; a segment of it has been; repeats of its locate (R368) and of its servo
  acquisition (R361), the repeat that waits for tape to stop. Reset 0. -/
  located : Bool := false
  found : Bool := false
  misses : Nat := 0
  servoTries : Nat := 0
  again : Bool := false
  /-- the dataset the head has come to since the locate; it is not past it; the run ends at its boundary (R339, R374, R376). Reset none. -/
  under : Option (Nat × Nat) := none
  inside : Bool := false
  ending : Bool := false
  /-- a recall batch owns the transport, since when (R375). Reset none. -/
  batch : Option Nat := none
  /-- the writer is asked to give the transport up (R375). Reset false. -/
  preempt : Bool := false
deriving DecidableEq, Repr

/-! ## Motion -/

/-- What the half-bridges of a reel do (Table 14.1): all switches off, the zero vector, CE's duties, the zero vector for a fraction k in
1/65,536 and off for the rest, or a fixed current vector, q axis in Q1.31 of 16 A, at the last angle (R437, R440). -/
inductive Drive where
  | off
  | zero
  | duties
  | brake (k : Nat)
  | hold (q : Int)
deriving DecidableEq, Repr

/-- CE's loops of one reel (R390 to R401, R425). Q1.31 quantities have the full scales of Table 13.2. -/
structure ReelState where
  /-- sel (CE.SEL), 2 bits: 0 velocity, 1 tension limit, 2 current limit. R399, R414. Reset 0. -/
  sel : Nat := 0
  /-- radius (CE.RAD), Q1.31 of 64 mm, and inertia, 1e-15 kg m^2. R388, R390, R414. Reset 0. -/
  radius : Nat := 0
  inertia : Nat := 0
  /-- i_ref (Q1.31 of 16 A). R399. Reset 0. -/
  iref : Int := 0
  /-- currents in use, d and q (Q1.31 of 16 A). R417, R422. Reset 0. -/
  iD : Int := 0
  iQ : Int := 0
  /-- current loop integrators, d and q, and the voltages they gave last (Q1.31). R400. Reset 0. -/
  intD : Int := 0
  intQ : Int := 0
  vD : Int := 0
  vQ : Int := 0
  /-- thermal accumulator, in units of 2^-54 A^2 of a base period, and limit at 4 A (PS.STAT.ILIM). R425, R444. Reset 0. -/
  theta : Nat := 0
  ilim4 : Bool := false
  /-- delta (CE.PLAUS.DELTA) in 0.1 %, 10 bits. R392, R414. Reset 0. -/
  delta : Nat := 0
  /-- 24 kHz slots the plausibility check has disagreed without a break. R392. Reset 0. -/
  disagree : Nat := 0
  /-- angle source (PS.STAT.ANG): 0 observer, 1 tach, 2 halls, 3 none. R428, R444. Reset 0. -/
  ang : Nat := 0
  /-- electrical angle, 32-bit fraction of a turn, and pole-pair index, 3 bits. R388, R401, R427. Reset 0. -/
  thetaE : BitVec 32 := 0
  polePair : Nat := 0
  /-- the observer is lost; consecutive periods its residual was above and within the bound. R428. Reset 0. -/
  obsLost : Bool := false
  obsBad : Nat := 0
  obsGood : Nat := 0
  /-- the flux observer: flux vector in pWb, the angle of its PLL and its advance a period in 2^-32 of a turn; winding speed, mechanical
  mrad/s, now and at the last 24 kHz slot, and acceleration, mrad/s^2; residual in percent. R391, R392, R427. Reset 0. -/
  psiA : Int := 0
  psiB : Int := 0
  pll : BitVec 32 := 0
  pllRate : Int := 0
  omega : Int := 0
  omegaWas : Int := 0
  alpha : Int := 0
  residual : Nat := 0
  /-- hall code, periods since its last edge, periods between the last two edges, and the halls are implausible. R428, R429.
  Reset 0. -/
  hall : Nat := 0
  hallAge : Nat := 0
  hallGap : Nat := 0
  hallBad : Bool := false
  /-- angle of the last hall edge, and the advance a period between the last two, in 2^-32 of a turn. R428. Reset 0. -/
  hallTh : BitVec 32 := 0
  hallRate : Int := 0
  /-- consecutive predicted periods, cap at 0.88 and periods below it. R423. Reset 0. -/
  predRun : Nat := 0
  cap : Bool := false
  capGood : Nat := 0
  /-- a current limit event in this period, and consecutive periods with one. R426. Reset 0. -/
  ocNow : Bool := false
  ocRun : Nat := 0
  /-- periods without a commutation event under high current. R430. Reset 0. -/
  lockRun : Nat := 0
  locked : Bool := false
  /-- mechanical angle referenced (CE.STAT.MREF). R401, R414. Reset 0. -/
  mref : Bool := false
  /-- electrical angle known (R437, R506); a stop with cause 0x10 asks for the alignment step (R441). Reset false. -/
  angleKnown : Bool := false
  realign : Bool := false
  /-- zero-current offsets of the three shunt channels, Q1.31 of 16 A, and fault (PS.STAT.OFSF); the sums of the samples taken in PARKED,
  their number, and the averages of the last 1,024. R424, R444. Reset 0, none. -/
  shunt : List Int := [0, 0, 0]
  ofsf : Bool := false
  shuntSum : List Int := [0, 0, 0]
  shuntN : Nat := 0
  shuntAvg : Option (List Int) := none
  /-- tension estimate of the reel (Q1.31 of 4 N). R391. Reset 0. -/
  tension : Int := 0
  /-- duties of phases U, V, W latched last, in 1/65,536; all low-side switches on at 0. R383, R418. Reset 0. -/
  duty : List Nat := [0, 0, 0]
  /-- duties that were applied in the period before (R423). Reset 0. -/
  dutyWas : List Nat := [0, 0, 0]
  /-- what its half-bridges do from the next period on. R395, R437. Reset off. -/
  drive : Drive := .off
  /-- Nightwatch's view of its short-circuit currents: sign of phase U, periods since it changed, and between its last two changes. R440.
  Reset 0. -/
  scSign : Bool := false
  scAge : Nat := 0
  scGap : Nat := 0
deriving DecidableEq, Repr

structure Ce where
  /-- 1 bit each (CE.STAT.RUN, SAFE, POSMODE). R395, R414. Reset 0. -/
  run : Bool := false
  safe : Bool := false
  posmode : Bool := false
  /-- 2 bits (CE.STAT.OWNER): 0 none, 1 writer, 2 recall, 3 read recovery. R375, R414. Reset 0. -/
  owner : Nat := 0
  /-- 1 bit (CE.STAT.MEDIA). R375, R414. Reset 0. -/
  media : Bool := false
  /-- 9 bits (CE.SAT). R387, R414. Reset 0. -/
  sat : BitVec 9 := 0
  /-- 32 bits (CE.PERIOD.COUNT). R382, R414. Reset 0. -/
  period : BitVec 32 := 0
  /-- 16 bits (CE.OVR.COUNT); overruns in a row. R384, R414. Reset 0. -/
  ovr : Nat := 0
  ovrRun : Nat := 0
  /-- v_ref in Q1.31 of 16 m/s, a_ref in Q1.31 of 64 m/s^2 (CE.VREF). R388, R404, R414. Reset 0. -/
  vref : Int := 0
  aref : Int := 0
  /-- target speed (Q1.31 of 16 m/s), or stop position (LPOS) with speed limit; the speed that follows the stop (R368).
  R404, R405. Reset 0. -/
  vtarget : Int := 0
  stopAt : Nat := 0
  vlim : Int := 0
  vafter : Int := 0
  /-- v_tach (Q1.31 of 16 m/s); counts since the last 24 kHz slot, edge times of this slot and the last. R392. Reset 0. -/
  vtach : Int := 0
  counts : Int := 0
  edgeNow : Nat := 0
  edgeAt : Nat := 0
  /-- velocity and tension integrators (Q1.31). R396, R397. Reset 0. -/
  intV : Int := 0
  intT : Int := 0
  /-- tension reference in force, estimate F and command F_c (CE.TENS), Q1.31 of 4 N; it is on its way after PARKED. R396,
  R410, R414. Reset 0. -/
  tref : Int := 0
  tramp : Bool := false
  f : Int := 0
  fc : Int := 0
  /-- residual (CE.PLAUS.RESID), Q1.31 of 4 N. R391, R414. Reset 0. -/
  resid : Nat := 0
  /-- 3 bits (CE.PLAUS.CAUSE). R395, R414. Reset 0. -/
  cause : Nat := 0
  /-- 24 kHz slots of tension loss, of residual above its limit. R393. Reset 0. -/
  lossRun : Nat := 0
  residRun : Nat := 0
  /-- ages, in periods, of the illegal tach transitions of the last millisecond. R394. Reset none. -/
  illegal : List Nat := []
  /-- supply and take-up reels. R389. Reset 0. -/
  sup : ReelState := {}
  tkp : ReelState := {}
  /-- L_0, L_total, L_T in nanometres. R389. Reset 0. -/
  l0 : Int := 0
  lTotal : Int := 0
  lT : Int := 0
  /-- friction bin. R402. Reset 0. -/
  frBin : Nat := 0
  /-- actuator loop: integrator and output (Q1.31 of 1 A), last error (Q1.31 of 32 um). R411, R412. Reset 0. -/
  actInt : Int := 0
  actErr : Int := 0
  actOut : Int := 0
  /-- reference profile of the head in picometres, its speed in pm per tick (R411); the last two PES samples taken: nm, from the band's
  centre, and control-clock time (R412); fine actuator current sampled, mA (R382). Reset 0. -/
  actRef : Int := 0
  actVel : Int := 0
  actMa : Int := 0
  /-- coarse stepper: place in nm from data band 0, current per phase in mA (R365, R412, R442). Reset 0: DESIGN CHOICE log 9. -/
  stepNow : Int := 0
  stepMa : Nat := 0
  pes1 : Int × Nat := (0, 0)
  pes2 : Int × Nat := (0, 0)
  /-- acceleration limit in force after a chopper fault (R434), mm/s^2. Reset none. -/
  aLimit : Option Nat := none
  /-- tension scale in percent (ladder pass 6). R340, R396. Reset 100. -/
  tScale : Nat := 100
deriving DecidableEq, Repr

structure Ps where
  /-- 1 bit each (PS.STAT.CHOPON, CHOPF, ZVB, AUXF, THRSTALL). R432 to R434, R442, R444. Reset 0. -/
  chopOn : Bool := false
  chopF : Bool := false
  zvb : Bool := false
  auxF : Bool := false
  thrStall : Bool := false
  /-- 16 bits each (PS.VMOT.VMOT, PEAK), 10 mV. R444. Reset 0. -/
  vmot : Nat := 0
  peak : Nat := 0
  /-- 16 bits each (PS.FLT.PRED, OCP). R422, R426, R444. Reset 0. -/
  pred : Nat := 0
  ocp : Nat := 0
  /-- peak VMOT since the chopper fault began, mV (R433); its event is still to be queued. Reset 0. -/
  chopPeak : Nat := 0
  chopEvent : Bool := false
  /-- periods the chopper has been on with too little current; VMOT of the last millisecond, one value a period, while it is
  on, newest first (R433). Reset none. -/
  chopLow : Nat := 0
  chopMv : List Nat := []
  /-- fraction k of zero-vector braking, in 1/65,536, and the integrator of its PI law (R434). Reset 0. -/
  zvK : Nat := 0
  zvInt : Int := 0
  /-- the loader runs, since when (R442). Reset none. -/
  ldrAt : Option Nat := none
  /-- power-stage junction limit of 4 A (R584). Reset false. -/
  hotLimit : Bool := false
  /-- last deceleration halving (R434). Reset 0. -/
  halvedAt : Nat := 0
deriving DecidableEq, Repr

structure Nw where
  /-- 3 bits (NW.SSTAT.STATE): 0 WATCH, 1 BRAKE, 2 CLAMP, 3 HOLD, 4 RELEASED. R437, R444. Reset 0b000. -/
  state : Nat := 0
  /-- Nightwatch is in reset (R514, R521). Reset true. -/
  inReset : Bool := true
  /-- 1 bit (NW.SSTAT.ATREST); periods in which the tach has not moved (R437). R437, R444. Reset 0. -/
  atRest : Bool := false
  still : Nat := 0
  /-- time at which the reels came to rest (R441). Reset 0. -/
  restAt : Nat := 0
  /-- 16 bits (NW.SSTAT.STOPS). R444. Reset 0. -/
  stops : Nat := 0
  /-- NW.CAUSE: 8 bits, reel bits. R438, R444. Reset 0. -/
  cause : Nat := 0
  reelS : Bool := false
  reelT : Bool := false
  /-- causes of the stop in force, each of which its clear answers to (R441). Reset none. -/
  causes : List Nat := []
  /-- SNS[3:0]: present, door closed, threader home, loader home. R569. Reset 0b0000. -/
  sns : BitVec 4 := 0
  /-- SNS reported the cartridge absent since the stop (R441). Reset false. -/
  absentSince : Bool := false
  /-- loader at the eject position (R485). Reset false. -/
  atEject : Bool := false
  /-- level of GRIP_REQ, synchronised (NW.GRIP.REQ). R486, R489. Reset 0. -/
  req : Bool := false
  /-- 1 bit each (NW.GRIP.GRANT, PERMIT). R486, R489. Reset 0. -/
  grant : Bool := false
  permit : Bool := false
  /-- SAFE_OK cleared by an open permit window (R487). Reset false. -/
  window : Bool := false
  /-- a motion request waits on a grant, since when (R487). Reset none. -/
  waitSince : Option Nat := none
  /-- 16 bits (NW.GRIP.GRANTS). R489. Reset 0. -/
  grants : Nat := 0
  /-- times of automatic clears in the last 60 minutes (R493). Reset none. -/
  clears : List Nat := []
  /-- time since when the conditions of R441 hold (R493). Reset none. -/
  clearOkAt : Option Nat := none
  /-- Hard limit read at reset, mV (R443). Reset 60,000. -/
  hardLimit : Nat := 60000
  /-- fractions k of the zero vector during BRAKE, supply and take-up, in 1/65,536, and the integrator of the PI law (R440); VMOT has held
  both at 1.0; tach speed of the slot before and Nightwatch's tension estimate, Q1.31. Reset 0. -/
  kS : Nat := 0
  kT : Nat := 0
  kInt : Int := 0
  kFull : Bool := false
  vWas : Int := 0
  tension : Int := 0
deriving DecidableEq, Repr

/-! ## Media, settings, time, bus, pair, firmware -/

/-- A partition table entry of the volume label (Table 8.10). -/
structure VolEntry where
  num : Nat
  /-- 1 pending, 2 live -/
  st : Nat
  firstPair : Nat
  pairs : Nat
  wp : Bool := false
  pendingGen : Nat := 0
  name : List Byte := []
deriving DecidableEq, Repr

/-- A volume label generation (Table 8.9). -/
structure VolLabel where
  gen : Nat
  serial : List Byte
  entries : List VolEntry := []
  /-- readable on wraps 96 and 192 -/
  on96 : Bool := true
  on192 : Bool := true
deriving DecidableEq, Repr

/-- A cartridge: its volume generations, newest first, and the datasets on its wraps in the order written. -/
structure Cart where
  vols : List VolLabel := []
  tape : List TapeDs := []
deriving DecidableEq, Repr

/-- A media operation that holds the media lock (R107). -/
inductive MediaOp where
  /-- what is left of a read-write MOUNT: span closures and checkpoints (R49, R182); `info` is its result -/
  | mount (cmd : Option Nat) (lib : Option Nat) (info : Nat) (w : UnloadWorld) (peer : Option PeerInfo)
  /-- `phase`: 0 commands and checkpoints in flight end, 1 checkpoints, 2 span closures, 3 the operation moves the tape itself (R120, R375,
  R585) -/
  | unmount (cmd : Option Nat) (lib : Option Nat) (eject : Bool) (w : UnloadWorld) (phase : Nat)
  /-- `phase`: 1 label copy 1, 0 label copy 0, 2 the first checkpoint (R265) -/
  | create (cmd : Option Nat) (part : Nat) (peer : Option Nat) (phase : Nat) (gen : Nat) (time : Nat)
  /-- `phase`: 2 the partition's commands drain, 1 label copy 1, 0 label copy 0 (R117, R267) -/
  | delete (cmd : Option Nat) (part : Nat) (peer : Option Nat) (phase : Nat) (label : Option LabelBody)
deriving DecidableEq, Repr

structure Media where
  /-- the cartridge in the loader slot or threaded. R14. Reset none: DESIGN CHOICE log 9. -/
  cart : Option Cart := none
  /-- mount state: 0 none, 1 read-write, 2 read-only, 3 operation in progress (GLB.STATUS.MOUNT). R108, R560. Reset 0. -/
  mount : Nat := 0
  /-- holder of the media lock. R107. Reset none. -/
  op : Option MediaOp := none
  /-- the tape is threaded. R485, R514. Reset false: DESIGN CHOICE log 9. -/
  threaded : Bool := false
  /-- cartridge seated at loader home. R523. Reset false. -/
  seated : Bool := false
  /-- L_0 was measured since the last start-up (R506). Reset false. -/
  l0known : Bool := false
  /-- bands whose reverse direction is calibrated in this mount (R524). Reset none. -/
  revCal : List Nat := []
  /-- what the reverse calibration of each band that holds a label will find: band, module, lane, converged, bytes 0 to 19 (R524).
  Reset none. -/
  revLearn : List (Nat × Nat × Nat × Bool × List Byte) := []
deriving DecidableEq, Repr

/-- One settings bank: schema and the two copies of the entries that differ from their defaults (R483, R544); none is a
copy whose CRC-64 fails. -/
structure Bank where
  schema : Nat := 1
  copy0 : Option (List (Nat × List Byte)) := some []
  copy1 : Option (List (Nat × List Byte)) := some []
deriving DecidableEq, Repr

/-- A mount record (R525). -/
structure MountRec where
  serial : List Byte
  part : Nat
  seq : Nat
  wrap : Nat
  lpos : Nat
  at_ : Nat := 0
deriving DecidableEq, Repr

/-- A boot slot (R533): the version and schema of its image; confirmed; marked settings-incompatible. -/
structure Slot where
  version : Nat := 0
  schema : Nat := 1
  svn : Nat := 0
  raiseFloor : Bool := false
  digest : List Byte := []
  /-- where it came from (0x5011:01), and its bytes -/
  source : Nat := 0
  image : List Byte := []
  valid : Bool := false
  confirmed : Bool := false
  incompatible : Bool := false
deriving DecidableEq, Repr

/-- What flash holds over loss of power. -/
structure Flash where
  /-- two settings banks and which is active. R483, R544. Reset empty banks, bank 0. DESIGN CHOICE log 9. -/
  bank0 : Bank := {}
  bank1 : Bank := {}
  active1 : Bool := false
  /-- nonce reservation limit. R217. Reset 0: DESIGN CHOICE log 9. -/
  nonceLimit : Nat := 0
  /-- Meridian last stored, ns. R468. Reset 0: DESIGN CHOICE log 9. -/
  meridian : Nat := 0
  /-- retired lanes, front ends of modules A and B, servo channels. R286, R491, R492. Reset 0: DESIGN CHOICE log 9. -/
  lanes : BitVec 64 := 0
  feA : BitVec 64 := 0
  feB : BitVec 64 := 0
  servo : BitVec 4 := 0
  /-- Meridian times at which lanes and front ends (64m + l) were retired. R512. Reset none. -/
  laneAt : List (Nat × Nat) := []
  feAt : List (Nat × Nat) := []
  /-- mount records, at most 64 cartridges. R525. Reset none. -/
  mounts : List MountRec := []
  /-- role epoch (0x6003:01). R449. Reset 0. -/
  roleEpoch : Nat := 0
  /-- key-encryption keys present: ID and the 40 bytes of the key wrapped under the device-unique key. R221. Reset none: DESIGN
  CHOICE log 9. -/
  keks : List (Nat × List Byte) := []
  /-- 256 bits, the device-unique key fused at manufacture; nothing changes it. R221. Reset 0: DESIGN CHOICE log 9. -/
  deviceKey : BitVec 256 := 0
  /-- boot slots A and B, boot control record: running slot, trial, attempts, trial failed. R533, R546.
  Reset slot A holds a confirmed image of version 1.0.0.0: DESIGN CHOICE log 9. -/
  slotA : Slot := { version := 1, valid := true, confirmed := true }
  slotB : Slot := {}
  runB : Bool := false
  trial : Option Bool := none
  attempts : Nat := 0
  /-- security floor (0x5000:03). R532. Reset 0. -/
  floor : Nat := 0
  /-- failed unlocks and lockout length of the next lockout, s. R549. Reset 0. -/
  failures : Nat := 0
  nextLock : Nat := 900
  lockUntil : Option Nat := none
  /-- service password: salt and derived value; none when disabled. R547, R548. Reset disabled. -/
  password : Option (List Byte × List Byte) := none
  /-- restore at the next reset: bit s - 1 for subindex s of 0x1011. R483. Reset 0. -/
  restore : BitVec 3 := 0
  /-- event 0x8506 to queue at the next start: rejected version. R546. Reset none. -/
  fallback : Option Nat := none
deriving DecidableEq, Repr

structure Mt where
  /-- 96 bits, the accumulator; Meridian is bits [95:32] (R465). Reset 0 until stage 3 resumes it (R468). -/
  acc : BitVec 96 := 0
  /-- 64 bits, increment in force, 32.32 (MT.INCLO, MT.INCHI). R465, R489. Reset 0 until stage 3. -/
  inc : BitVec 64 := 0
  /-- Meridian runs (R468). Reset false. -/
  running : Bool := false
  /-- 2 bits (MT.STAT.SYNC): 0 UNSET, 1 free run, 2 locked, 3 HOLDOVER. R489. Reset 0. -/
  sync : Nat := 0
  /-- 8 bits each (MT.STAT.STEPS, PPSREJ). R469, R471, R489. Reset 0. -/
  steps : Nat := 0
  ppsrej : Nat := 0
  /-- 32 bits (MT.OFS.OFS), signed ns. R471, R489. Reset 0. -/
  ofs : Int := 0
  /-- 16 bits (MT.TRIM.PPB), signed, 0.01 ppm. R489. Reset 0. -/
  trim : Int := 0
  /-- control-clock time of the last accepted PPS_IN edge; the next edge defines the second (R471). Reset none, true. -/
  lastPps : Option Nat := none
  defines : Bool := true
  /-- pulses of PPS_OUT sent: the whole second of the last one (R472). Reset none. -/
  lastOut : Option Nat := none
  /-- 32 bits, the word MT.TIMEHI latched by MT.TIMELO. R489. Reset 0. -/
  timeHi : Word := 0
  /-- Meridian epoch in force since the last reset (R466). Reset 0. -/
  epoch : Int := 0
deriving DecidableEq, Repr

/-- An EMCY message waiting (R477). -/
structure Emcy where
  code : Nat
  scope : Nat
  part : Nat
  time : Nat
  params : List Byte
deriving DecidableEq, Repr

structure Fi where
  /-- 7 bits (FI.CSTAT.NODE). R474, R489. Reset 0. -/
  node : Nat := 0
  /-- NODE_ID[2:0] as last sampled. R474. Reset 0. -/
  nodePins : BitVec 3 := 0
  /-- 1 bit (FI.CSTAT.DUPID). R474, R489. Reset 0. -/
  dupid : Bool := false
  /-- 2 bits (FI.CSTAT.NMT): 0 Initialisation, 1 Pre-operational, 2 Operational, 3 Stopped. R476, R489. Reset 0. -/
  nmt : Nat := 0
  /-- 2 bits (FI.CSTAT.BUS), 8 bits each (TEC, REC). R489. Reset 0. -/
  bus : Nat := 0
  tec : Nat := 0
  rec_ : Nat := 0
  /-- EMCY queue of 16, oldest first. R477. Reset empty. -/
  emcy : List Emcy := []
  /-- time the last EMCY was sent (R477). Reset none. -/
  emcyAt : Option Nat := none
  /-- 16 bits each (FI.EMCY.LOST, SUPPR). R476, R477, R489. Reset 0. -/
  lost : Nat := 0
  suppr : Nat := 0
  /-- 32 bits (FI.SYNCT). R478, R489. Reset 0. -/
  synct : Word := 0
  /-- the multiple of the SYNC period and the TIME period of UTC last served (R478). Reset none. -/
  syncLast : Option Nat := none
  timeLast : Option Nat := none
  /-- nominal and data rates in force (R473). Reset 3, 2. -/
  nominal : Nat := 3
  data : Nat := 2
  /-- time of the boot-up message (R474). Reset none. -/
  bootAt : Option Nat := none
  /-- time of the last heartbeat, of the last TPDO of each number (R475, R479). Reset none. -/
  hbAt : Option Nat := none
  tpdo : List (Nat × Nat × List Byte) := []
  /-- USDO sessions: client and time of its last frame, at most 4 (R484). Reset none. -/
  sessions : List (Nat × Nat) := []
  /-- last request sequence and code written (R480). Reset 0. -/
  libCode : Nat := 0
  libSeq : Nat := 0
  /-- library result: sequence, status, 0 idle 1 running 2 done (0x3200). R480. Reset 0. -/
  resSeq : Nat := 0
  resStatus : Nat := 0
  resState : Nat := 0
deriving DecidableEq, Repr

structure Pl where
  /-- 2 bits (PL.PSTAT.ROLE). R449, R464. Reset 0. -/
  role : Nat := 0
  /-- 1 bit each (PL.PSTAT.SUSPECT, LOST, CATCHUP, PRESENT). R464. Reset 0. -/
  suspect : Bool := false
  lost : Bool := false
  catchup : Bool := false
  present : Bool := false
  /-- 3 bits (PL.PSTAT.REASON). R457, R464. Reset 0. -/
  reason : Nat := 0
  /-- 2 bits (PL.LINK.LANES). R446, R464. Reset 0. -/
  lanes : BitVec 2 := 0
  /-- 16 bits each (PL.LINK.REPLAY, PL.STALE.SENT, RCVD). R464. Reset 0. -/
  replay : Nat := 0
  staleSent : Nat := 0
  staleRcvd : Nat := 0
  /-- 12 bits each, flit sequences: last sent, last acknowledged by the peer, next expected (R447). Reset 0. -/
  txSeq : Nat := 0
  ackSeq : Nat := 0
  rxSeq : Nat := 0
  /-- DATA and IMAGE flits sent in all; those that wait for room in the replay buffer: type and payload (R447). Reset 0, none. -/
  sent : Nat := 0
  waiting : List (Nat × List Byte) := []
  /-- replay buffer: flits sent and not acknowledged, at most 64 (R447). Reset none. -/
  unacked : List (Nat × Emit) := []
  /-- message sequence per direction (Table 15.1). R448. Reset 0. -/
  msgSeq : Nat := 0
  /-- credits granted by the peer (R452). Reset 0. -/
  credits : Nat := 0
  /-- mirrored RECORDs whose pool 4 buffers wait for the acknowledgement of their last flit: its number, and handle (R452). Reset none. -/
  sentRecs : List (Nat × Nat) := []
  /-- RECORD and PIECE_COMMIT messages of WRITEs in flight under the both-copies policy: message sequence, partition, stream, version
  (R450). Reset none. -/
  asked : List (Nat × Nat × StreamId × Nat) := []
  /-- time of the peer's last heartbeat; time since suspect; LODESTAR_UP 0 since (R459, R460, R501). Reset none. -/
  hbAt : Option Nat := none
  suspectAt : Option Nat := none
  lsDownAt : Option Nat := none
  hbSentAt : Option Nat := none
  /-- time of the last request for the primary's time (R462). Reset none. -/
  timeSentAt : Option Nat := none
  /-- the peer's committed versions (R457) and diverged partitions (R458). Reset none. -/
  peerCommitted : List (Nat × Nat) := []
  peerDiverged : List Nat := []
  /-- the peer's answer to a forwarded partition operation: message sequence and status (R455). Reset none. -/
  forwardOp : Option (Nat × Nat) := none
  /-- PIECE_VERIFIED messages waiting while Lodestar restarts: partition, stream, version, piece (R501). Reset none. -/
  verified : List (Nat × StreamId × Nat × Nat) := []
  /-- pieces committed while mirroring that the peer has not confirmed: partition, stream, version, piece (R458). Reset
  none. -/
  unverified : List (Nat × StreamId × Nat × Nat) := []
  /-- messages of the catch-up that wait for credits, RECORDs and PIECE_COMMITs in order, and what follows them (R457). Reset none. -/
  catchQ : List Msg := []
  /-- first time exchange done (R462). Reset false. -/
  timeSet : Bool := false
deriving DecidableEq, Repr

structure Ls where
  /-- LS.MBREQ: 16, 8, 1 bits. R566. Reset 0. -/
  index : BitVec 16 := 0
  sub : BitVec 8 := 0
  wr : Bool := false
  /-- 12 bits (LS.MBLEN.LENGTH). R566. Reset 0. -/
  len : BitVec 12 := 0
  /-- 1 bit (LS.MBSTAT.DONE), 16 bits (STATUS). R566. Reset 0. -/
  done : Bool := false
  status : Nat := 0
  /-- 2 KiB buffer (LS.MBBUF), words that differ from 0. R566. Reset 0. -/
  buf : List (Nat × Word) := []
  /-- 16 bits (LS.FWSTAT.DUPS). R537, R553. Reset 0. -/
  dups : Nat := 0
  /-- extents that wait in the journal for the end of a Lodestar restart (R497). Reset none. -/
  journal : List Extent := []
deriving DecidableEq, Repr

/-- An image offered: source (1 service port, 2 peer) and its bytes. -/
structure Offer where
  source : Nat
  bytes : List Byte
deriving DecidableEq, Repr

structure Fw where
  /-- 2 bits (LS.FWSTAT.SLOT, 0x5011:04): 0 FREE, 1 WRITING, 2 STAGED, 3 ACTIVATING. R533, R553. Reset 0. -/
  slot : Nat := 0
  /-- holder's source and digest (0x5011:01, :02). R537. Reset none. -/
  source : Nat := 0
  digest : List Byte := []
  image : List Byte := []
  /-- receive buffers of the service port and of the peer (R533). Reset empty. -/
  usbBuf : List Byte := []
  usbDone : Bool := false
  peerBuf : List Byte := []
  peerDone : Bool := false
  /-- propagation result (0x5015:02), and the holder that refused (0x5015:03, :04). R536. Reset 0. -/
  prop : Nat := 0
  propSource : Nat := 0
  propDigest : List Byte := []
  /-- armed instant reached, since when the hold lasts; lenient mode waits without hold (R542). Reset none. -/
  holdAt : Option Nat := none
  lenient : Bool := false
  /-- session: 0 locked, 1 challenge, 2 password; its end (control-clock time). R547, R550. Reset locked. -/
  session : Nat := 0
  sessionEnd : Nat := 0
  vbus : Bool := false
  /-- challenge: the latest one read, when, and whether it is still unanswered; challenge count (R547, R548). Reset none. -/
  challenge : Option (List Byte × Nat) := none
  challenges : Nat := 0
  /-- JTAG accepts every instruction (R547). Reset false. -/
  jtagOpen : Bool := false
deriving DecidableEq, Repr

/-- A fault record (Table 17.6). -/
structure FaultRec where
  seq : Nat
  time : Nat
  code : Nat
  permanent : Bool
  unit : Nat
  p1 : Nat
  p2 : Nat
deriving DecidableEq, Repr

structure Health where
  /-- 60 records, newest first, and the newest sequence number. R510, R511. Reset empty. -/
  ring : List FaultRec := []
  seq : Nat := 0
  /-- 8 substitution bits (bytes 68-71). R510. Reset 0. -/
  subst : BitVec 8 := 0
  /-- invalid Ephemeris entries, reallocations dropped. R510. Reset 0. -/
  badEph : Nat := 0
  dropped : Nat := 0
  /-- fault records and events that wait for the end of a Lodestar restart: code, scope, partition or function, parameters.
  R490, R497. Reset none. -/
  lateFaults : List FaultRec := []
  lateEvents : List (Nat × Nat × Nat × List Byte) := []
  /-- CE.SAT at the latest UNMOUNT. R387, R510. Reset 0. -/
  satAtUnmount : BitVec 9 := 0
deriving DecidableEq, Repr

/-! ## The whole state -/

/-- The state of the device. -/
structure State where
  /-- commands waiting to be stepped, first in first out (the model's queue of inputs). Reset empty. -/
  pending : List Instr := []
  /-- control-clock cycles counted by steps on an empty queue (R465 clock; log 2). Reset 0: DESIGN CHOICE log 2. -/
  now : Nat := 0
  /-- index of the next free value: the model's own field (log 3). Reset 0: DESIGN CHOICE log 3. -/
  free : Nat := 0
  /-- outputs, newest first: the model's own field (log 4). Reset empty: DESIGN CHOICE log 4. -/
  out : List Emit := []
  glb : Glb := {}
  qe : Qe := {}
  bpm : Bpm := {}
  cx : Cx := {}
  tg : Tg := {}
  fm : Fm := {}
  rc : Rc := {}
  sv : Sv := {}
  rcl : Recall := {}
  ce : Ce := {}
  ps : Ps := {}
  nw : Nw := {}
  media : Media := {}
  /-- object dictionary: entries in force that differ from their defaults, key index * 256 + subindex (R13, R481).
  Reset empty. -/
  od : List (Nat × List Byte) := []
  flash : Flash := {}
  mt : Mt := {}
  fi : Fi := {}
  pl : Pl := {}
  ls : Ls := {}
  fw : Fw := {}
  health : Health := {}
deriving DecidableEq, Repr

/-- The device right after reset: every field at its reset value (the docstrings above). -/
def State.reset : State := {}

end Sys2Proof.Machine
end

