-- ==== Sys2Proof/Machine/Outcome.lean ====
section
/-! DEFINITION. What running a command answers. -/

namespace Sys2Proof.Machine

/-- A next state, a fault or a refusal. -/
abbrev Out := Host.Outcome State Fault Refusal

end Sys2Proof.Machine
end

