-- ==== Sys2Proof/Machine/Crypto.lean ====
section
/-! DEFINITION. The ciphers and hashes the device uses: AES-256 and GMAC for record tags (R212 to R214), AES key wrap
for keys (R222, R551), SHA-256, HMAC and PBKDF2 for images and the service password (R531, R548), ECDSA over P-256
(R532, R548, R551). The spec names the standards and does not restate them: PRESUMED, log 11. -/

namespace Sys2Proof.Machine

/-! ## AES-256 -/

/-- The AES substitution box, entry i in bits 8i to 8i + 7. -/
def aesSbox : Nat :=
  0x16bb54b00f2d99416842e6bf0d89a18cdf2855cee9871e9b948ed9691198f8e19e1dc186b95735610ef6034866b53e708a8bbd4b1f74dde8c6b4a61c2e2578ba08ae7a65eaf4566ca94ed58d6d37c8e779e4959162acd3c25c2406490a3a32e0db0b5ede14b8ee4688902a22dc4f816073195d643d7ea7c41744975fec130ccdd2f3ff1021dab6bcf5389d928f40a351a89f3c507f02f94585334d43fbaaefd0cf584c4a39becb6a5bb1fc20ed00d153842fe329b3d63b52a05a6e1b1a2c830975b227ebe28012079a059618c323c7041531d871f1e5a534ccf73f362693fdb7c072a49cafa2d4adf04759fa7dc982ca76abd7fe2b670130c56f6bf27b777c63

/-- The inverse box. -/
def aesInv : Nat :=
  0x7d0c2155631469e126d677ba7e042b17619953833cbbebc8b0f52aae4d3be0a0ef9cc9939f7ae52d0d4ab519a97f51605fec8027591012b131c7078833a8dd1ff45acd78fec0db9a2079d2c64b3e56fc1bbe18aa0e62b76f89c5291d711af1476edf751ce837f9e28535ade72274ac9673e6b4f0cecff297eadc674f4111913a6b8a130103bdafc1020f3fca8f1e2cd00645b3b80558e4f70ad3bc8c00abd890849d8da75746155edab9edfd5048706c92b6655dcc5ca4d41698688664f6f87225d18b6d49a25b76b224d92866a12e084ec3fa420b954cee3d23c2a632947b54cbe9dec444438e3487ff2f9b8239e37cfbd7f3819ea340bf38a53630d56a0952

/-- Entry x of a box. -/
def box (t x : Nat) : Nat := (t >>> (8 * x)) % 256

/-- Doubling in the field of AES. -/
def xtime (a : Nat) : Nat := if a ≥ 128 then (a * 2 - 256) ^^^ 0x1B else a * 2

/-- Multiplication in the field of AES, for multipliers below 16. -/
def aesMul (a b : Nat) : Nat :=
  let a2 := xtime a; let a4 := xtime a2; let a8 := xtime a4
  (if b.testBit 0 then a else 0) ^^^ (if b.testBit 1 then a2 else 0) ^^^ (if b.testBit 2 then a4 else 0) ^^^
    (if b.testBit 3 then a8 else 0)

/-- The next word of the key schedule: index i, the previous word and the word eight before. -/
def aesNextWord (i : Nat) (prev old : List Nat) : List Nat :=
  let t := if i % 8 = 0 then
      let r := (prev.drop 1 ++ prev.take 1).map (box aesSbox)
      match r with | x :: xs => (x ^^^ Nat.repeat xtime (i / 8 - 1) 1) :: xs | [] => []
    else if i % 8 = 4 then prev.map (box aesSbox) else prev
  List.zipWith (· ^^^ ·) old t

/-- The 60 words of the schedule, newest first. -/
def aesExpand : Nat → List (List Nat) → List (List Nat)
  | 0, ws => ws
  | n + 1, ws => aesExpand n (aesNextWord ws.length (ws.getD 0 []) (ws.getD 7 []) :: ws)

/-- The 15 round keys of a 256-bit key given as 32 bytes. -/
def aesKeys (key : List Byte) : List (List Nat) :=
  let k := key.map BitVec.toNat
  let ws := (aesExpand 52 ((List.range 8).map fun i => (k.drop (4 * (7 - i))).take 4)).reverse
  (List.range 15).map fun r => ((ws.drop (4 * r)).take 4).flatten

/-- Byte order after ShiftRows: position i takes byte of column (i / 4 + i % 4). -/
def shiftRows (s : List Nat) : List Nat := (List.range 16).map fun i => s.getD ((i + 4 * (i % 4)) % 16) 0

/-- The inverse order. -/
def unshiftRows (s : List Nat) : List Nat := (List.range 16).map fun i => s.getD ((i + 12 * (i % 4)) % 16) 0

/-- MixColumns with the coefficients m. -/
def mixCols (m : List Nat) (s : List Nat) : List Nat :=
  (List.range 16).map fun i =>
    (List.range 4).foldl (fun a j => a ^^^ aesMul (s.getD (i / 4 * 4 + j) 0) (m.getD ((j + 4 - i % 4) % 4) 0)) 0

/-- XOR of two byte lists. -/
def xorL (a b : List Nat) : List Nat := List.zipWith (· ^^^ ·) a b

/-- One block enciphered. -/
def aesEnc (key blk : List Byte) : List Byte :=
  let ks := aesKeys key
  let s0 := xorL (blk.map BitVec.toNat) (ks.getD 0 [])
  let s := (List.range 13).foldl (fun s r =>
    xorL (mixCols [2, 3, 1, 1] (shiftRows (s.map (box aesSbox)))) (ks.getD (r + 1) [])) s0
  (xorL (shiftRows (s.map (box aesSbox))) (ks.getD 14 [])).map (BitVec.ofNat 8)

/-- One block deciphered. -/
def aesDec (key blk : List Byte) : List Byte :=
  let ks := aesKeys key
  let s0 := (unshiftRows (xorL (blk.map BitVec.toNat) (ks.getD 14 []))).map (box aesInv)
  let s := (List.range 13).foldl (fun s r =>
    (unshiftRows (mixCols [14, 11, 13, 9] (xorL s (ks.getD (13 - r) [])))).map (box aesInv)) s0
  (xorL s (ks.getD 0 [])).map (BitVec.ofNat 8)

/-! ## GMAC -/

/-- One step of the multiplication in GF(2^128), bit reflected as GCM defines it. -/
def ghashBit (zv : Nat × Nat) (xbit : Bool) : Nat × Nat :=
  (if xbit then zv.1 ^^^ zv.2 else zv.1,
   if zv.2 % 2 = 1 then zv.2 / 2 ^^^ 0xE1000000000000000000000000000000 else zv.2 / 2)

/-- x times h in GF(2^128). -/
def ghashMul (x h : Nat) : Nat :=
  ((List.range 128).foldl (fun zv i => ghashBit zv (x.testBit (127 - i))) (0, h)).1

/-- GHASH over whole blocks. -/
def ghashBlocks (h : Nat) : Nat → List Byte → Nat → Nat
  | 0, _, y => y
  | n + 1, bs, y => ghashBlocks h n (bs.drop 16) (ghashMul (y ^^^ unbe (fit 16 (bs.take 16))) h)

/-- AES-256-GMAC of authenticated data a under a 96-bit IV (R212, R213). -/
def gmac (key iv a : List Byte) : List Byte :=
  let h := unbe (aesEnc key (zeros 16))
  let y := ghashBlocks h ((a.length + 15) / 16) a 0
  let z := ghashMul (y ^^^ (8 * a.length) <<< 64) h
  be 16 (z ^^^ unbe (aesEnc key (iv ++ [0, 0, 0, 1])))

/-! ## AES key wrap -/

/-- The unwrapping steps: t counts down; a is the integrity register, rs the 64-bit blocks. -/
def kwSteps (key : List Byte) (n : Nat) : Nat → Nat × List (List Byte) → Nat × List (List Byte)
  | 0, s => s
  | t + 1, (a, rs) =>
    let i := t % n
    let b := aesDec key (be 8 (a ^^^ (t + 1)) ++ rs.getD i [])
    kwSteps key n t (unbe (b.take 8), rs.set i (b.drop 8))

/-- The key a 40-byte wrapped key holds, if its integrity check passes (R222). -/
def kwUnwrap (key blob : List Byte) : Option (List Byte) :=
  let n := blob.length / 8 - 1
  let rs := (List.range n).map fun i => slice blob (8 * (i + 1)) 8
  let r := kwSteps key n (6 * n) (unbe (blob.take 8), rs)
  if r.1 = 0xA6A6A6A6A6A6A6A6 then some r.2.flatten else none

/-- The wrapping steps: t counts up to n. -/
def kwTurns (key : List Byte) (blocks : Nat) : Nat → Nat → Nat × List (List Byte) → Nat × List (List Byte)
  | 0, _, s => s
  | n + 1, t, (a, rs) =>
    let i := t % blocks
    let b := aesEnc key (be 8 a ++ rs.getD i [])
    kwTurns key blocks n (t + 1) (unbe (b.take 8) ^^^ (t + 1), rs.set i (b.drop 8))

/-- A key wrapped under another (R221). -/
def kwWrap (key plain : List Byte) : List Byte :=
  let n := plain.length / 8
  let r := kwTurns key n (6 * n) 0 (0xA6A6A6A6A6A6A6A6, (List.range n).map fun i => slice plain (8 * i) 8)
  be 8 r.1 ++ r.2.flatten

/-! ## SHA-256, HMAC, PBKDF2 -/

/-- The 64 round constants of SHA-256 as one number, the first in the highest 32 bits. -/
def shaConsts : Nat :=
  0x428a2f9871374491b5c0fbcfe9b5dba53956c25b59f111f1923f82a4ab1c5ed5d807aa9812835b01243185be550c7dc372be5d7480deb1fe9bdc06a7c19bf174e49b69c1efbe47860fc19dc6240ca1cc2de92c6f4a7484aa5cb0a9dc76f988da983e5152a831c66db00327c8bf597fc7c6e00bf3d5a7914706ca63511429296727b70a852e1b21384d2c6dfc53380d13650a7354766a0abb81c2c92e92722c85a2bfe8a1a81a664bc24b8b70c76c51a3d192e819d6990624f40e3585106aa07019a4c1161e376c082748774c34b0bcb5391c0cb34ed8aa4a5b9cca4f682e6ff3748f82ee78a5636f84c878148cc7020890befffaa4506cebbef9a3f7c67178f2

/-- The hash before the first block, as one number of 256 bits. -/
def shaStart : Nat := 0x6a09e667bb67ae853c6ef372a54ff53a510e527f9b05688c1f83d9ab5be0cd19

/-- Word i of a number that holds n words of 32 bits, the first highest. -/
def word32 (n x i : Nat) : Nat := bits x (32 * (n - 1 - i)) 32

/-- A 32-bit word turned right by each of the amounts, the results added bit by bit; a word merely shifted right joins them. -/
def turns (x : Nat) (by_ : List Nat) (shifted : Nat) : Nat :=
  by_.foldl (fun a n => a ^^^ ((x >>> n) + (x <<< (32 - n)) % 2 ^ 32)) shifted

/-- The last 16 words of the message schedule, the oldest first, after round t: the oldest goes and the next one joins. -/
def shaNext (w : List Nat) : List Nat :=
  let x := w.getD 14 0
  let y := w.getD 1 0
  w.drop 1 ++ [(w.getD 0 0 + turns y [7, 18] (y >>> 3) + w.getD 9 0 + turns x [17, 19] (x >>> 10)) % 2 ^ 32]

/-- What a round adds to two of the eight working words, which stand as one number of 256 bits, a highest. -/
def shaRound (t w v : Nat) : Nat :=
  let at_ := word32 8 v
  let e := at_ 4
  let choice := (e &&& at_ 5) + ((2 ^ 32 - 1 - e) &&& at_ 6)
  let major := (at_ 0 &&& at_ 1) ||| (at_ 2 &&& (at_ 0 ||| at_ 1))
  let up := at_ 7 + turns e [6, 11, 25] 0 + choice + word32 64 shaConsts t + w
  let new := (up + turns (at_ 0) [2, 13, 22] 0 + major) % 2 ^ 32
  let moved := v >>> 32
  let d := at_ 3
  new * 2 ^ 224 + moved % 2 ^ 224 - d * 2 ^ 96 + (d + up) % 2 ^ 32 * 2 ^ 96

/-- Rounds t, t + 1, ... of one block. -/
def shaRounds : Nat → Nat → List Nat → Nat → Nat
  | 0, _, _, v => v
  | n + 1, t, w, v => shaRounds n (t + 1) (shaNext w) (shaRound t (w.getD 0 0) v)

/-- The hash h after one more block of 64 bytes: the working words are added to it word by word. -/
def shaBlock (h : Nat) (blk : List Byte) : Nat :=
  let v := shaRounds 64 0 ((List.range 16).map fun i => unbe (slice blk (4 * i) 4)) h
  (List.range 8).foldl (fun a i => a * 2 ^ 32 + (word32 8 h i + word32 8 v i) % 2 ^ 32) 0

/-- The hash over n blocks. -/
def shaBlocks : Nat → List Byte → Nat → Nat
  | 0, _, h => h
  | n + 1, bs, h => shaBlocks n (bs.drop 64) (shaBlock h (bs.take 64))

/-- SHA-256 (FIPS 180-4): the message, a bit 1, zeros to a whole number of blocks, and its length in bits. -/
def sha256 (m : List Byte) : List Byte :=
  let whole := (m.length + 9 + 63) / 64
  be 32 (shaBlocks whole (fit (64 * whole - 8) (m ++ [0x80]) ++ be 8 (8 * m.length)) shaStart)

/-- HMAC-SHA-256. -/
def hmac (key m : List Byte) : List Byte :=
  let k := fit 64 (if key.length > 64 then sha256 key else key)
  sha256 (k.map (· ^^^ 0x5C) ++ sha256 (k.map (· ^^^ 0x36) ++ m))

/-- The chain of n further applications and the running XOR. -/
def pbkdfChain (pw : List Byte) : Nat → List Byte → List Byte → List Byte
  | 0, _, acc => acc
  | n + 1, u, acc => let v := hmac pw u; pbkdfChain pw n v (List.zipWith (· ^^^ ·) acc v)

/-- PBKDF2-HMAC-SHA-256, 100,000 iterations, one block (R548). -/
def pbkdf2 (pw salt : List Byte) : List Byte :=
  let u := hmac pw (salt ++ [0, 0, 0, 1])
  pbkdfChain pw 99999 u u

/-! ## P-256 -/

/-- Field prime, group order and b of P-256. -/
def p256p : Nat := 0xffffffff00000001000000000000000000000000ffffffffffffffffffffffff
def p256n : Nat := 0xffffffff00000000ffffffffffffffffbce6faada7179e84f3b9cac2fc632551
def p256b : Nat := 0x5ac635d8aa3a93e7b3ebbd55769886bc651d06b0cc53b0f63bce3c3e27d2604b

/-- The base point. -/
def p256g : Nat × Nat :=
  (0x6b17d1f2e12c4247f8bce6e563a440f277037d812deb33a0f4a13945d898c296,
   0x4fe342e2fe1a7f9b8ee7eb4a7c0f9e162bce33576b315ececbb6406837bf51f5)

/-- x ^ e mod m over the low n bits of e. -/
def powMod (m : Nat) : Nat → Nat → Nat → Nat
  | 0, _, _ => 1 % m
  | n + 1, x, e => let r := powMod m n (x * x % m) (e / 2); if e % 2 = 1 then r * x % m else r

/-- Inverse modulo a prime below 2^256. -/
def invMod (m x : Nat) : Nat := powMod m 256 (x % m) (m - 2)

/-- Points of the curve; none is the point at infinity. -/
abbrev Pt := Option (Nat × Nat)

/-- Addition on the curve. -/
def ptAdd (a b : Pt) : Pt :=
  match a, b with
  | none, q => q
  | p, none => p
  | some (x1, y1), some (x2, y2) =>
    if x1 = x2 ∧ (y1 + y2) % p256p = 0 then none
    else
      let l := if x1 = x2 then (3 * x1 * x1 + p256p - 3) * invMod p256p (2 * y1) % p256p
        else (y2 + p256p - y1) * invMod p256p (x2 + p256p - x1) % p256p
      let x3 := (l * l + 2 * p256p - x1 - x2) % p256p
      some (x3, (l * (x1 + p256p - x3) + p256p - y1) % p256p)

/-- k times a point, over the low n bits of k. -/
def ptMul : Nat → Nat → Pt → Pt
  | 0, _, _ => none
  | n + 1, k, p => let r := ptMul n (k / 2) (ptAdd p p); if k % 2 = 1 then ptAdd r p else r

/-- A point lies on the curve. -/
def onCurve (q : Nat × Nat) : Bool :=
  q.1 < p256p && q.2 < p256p && (q.2 * q.2 + 3 * q.1) % p256p == (q.1 * q.1 * q.1 + p256b) % p256p

/-- ECDSA verification with SHA-256 (FIPS 186-5): signature bytes are r then s, 32 bytes each, most significant
first. -/
def ecdsaOk (q : Nat × Nat) (m sig : List Byte) : Bool :=
  let r := unbe (sig.take 32); let s := unbe (slice sig 32 32)
  if sig.length ≠ 64 ∨ r = 0 ∨ r ≥ p256n ∨ s = 0 ∨ s ≥ p256n then false
  else
    let e := unbe (sha256 m); let w := invMod p256n s
    match ptAdd (ptMul 256 (e * w % p256n) (some p256g)) (ptMul 256 (r * w % p256n) (some q)) with
    | some (x, _) => x % p256n == r
    | none => false

/-- x-coordinate of the ECDH secret of a private key with a public point (R551). -/
def ecdhX (d : Nat) (q : Nat × Nat) : Option Nat :=
  if onCurve q then (ptMul 256 d (some q)).map Prod.fst else none

end Sys2Proof.Machine
end

