-- ==== Sys2Proof/Machine/Format.lean ====
section
/-! DEFINITION. The byte layouts of records, datasets, checkpoints, labels and the volume label (Tables 5.1 to 5.7,
8.8 to 8.10), the reading of a user area, and the geometry of tape, wraps and speeds (R235 to R243, R263 to R268). -/

namespace Sys2Proof.Machine

/-! ## Geometry. Positions are in thirds of a nanometre from LPOS 0, so that slot lengths are whole. -/

abbrev lpBot : Nat := 75000
abbrev lpEot : Nat := 5478000
abbrev lpEnd : Nat := 5503000
/-- A servo frame, 200 um. -/
abbrev frameLen : Nat := 600000

/-- Position of an LPOS. -/
def posOf (lpos : Nat) : Nat := frameLen * lpos
/-- LPOS of a position (R240). -/
def lposOf (pos : Nat) : Nat := pos / frameLen

/-- Data band of a wrap (R238). -/
def bandOf (wrap : Nat) : Nat := wrap / 96
/-- Wrap index within its band (R238). -/
def wrapIdx (wrap : Nat) : Nat := wrap % 96
/-- Even wraps run forward (R238). -/
def isForward (wrap : Nat) : Bool := wrap % 2 == 0
/-- Edge bands are 0 and 3 (R237). -/
def isEdge (wrap : Nat) : Bool := bandOf wrap == 0 || bandOf wrap == 3

/-- Length of a slot: 17,184 channel bits at 36,000 or 32,000 bits per mm (R242, R289). -/
def slotLen (wrap : Nat) : Nat := if isEdge wrap then 1611000 else 1432000

/-- The position n slots further in the direction of writing. -/
def advance (wrap pos n : Nat) : Nat := if isForward wrap then pos + n * slotLen wrap else pos - n * slotLen wrap

/-- Room left on a wrap from a position (R289). -/
def roomLeft (wrap pos : Nat) : Nat := if isForward wrap then posOf lpEot - pos else pos - posOf lpBot

/-- Where a partition's datasets start on one of its wraps (R264): `first` is its first wrap pair. -/
def wrapStart (first wrap : Nat) : Nat :=
  if wrap / 2 = first then (if isForward wrap then posOf (lpBot + 25000) else posOf (lpEot - 25000))
  else if isForward wrap then posOf lpBot else posOf lpEot

/-- Speed of an index in mm/s (R243). -/
def speedMmps (idx : Nat) : Nat := 1000 + 250 * idx

/-- A tape address: wrap in [31:23], LPOS in [22:0] (R240). -/
def tapeAddr (wrap lpos : Nat) : Nat := wrap % 512 * 2 ^ 23 + lpos % 2 ^ 23

/-- Dataset positions of 38 slots that fit in the room left. -/
def positionsLeft (wrap pos : Nat) : Nat := roomLeft wrap pos / (38 * slotLen wrap)

/-- The lane and the slot of row r of sub-dataset s (R255). -/
def rowPlace (s r : Nat) : Nat × Nat := ((r + 5 * s) % 64, 2 * s + r / 64)

/-- The sub-dataset and the row that lane l carries in slot i of a dataset (R255). -/
def placeRow (l i : Nat) : Nat × Nat := (i / 2, (l + 64 * 16 - 5 * (i / 2)) % 64 + 64 * (i % 2))

/-- First volume slot position of generation G (R268). -/
def volumeLpos (gen : Nat) : Nat := 30000 + 40 * (gen % 1024)

/-! ## Records (Table 5.1) -/

/-- The 64 header bytes. -/
def headerBytes (r : Rec) : List Byte :=
  le 2 0x525A ++ [0x02] ++ le 1 (r.form % 4 + 4 * b2n r.tagged + 8 * b2n r.hcont + 16 * b2n r.last) ++
  le 6 r.stream.toNat ++ le 6 r.offset ++ le 4 r.payload.length ++ le 4 r.olen ++ le 8 r.version ++ le 8 r.crc.toNat ++
  le 2 r.keySlot ++ le 12 r.nonce.toNat ++ le 1 r.piece ++ le 1 r.pieces ++ le 8 r.time

/-- Header, payload and trailer. -/
def recordBytes (r : Rec) : List Byte := headerBytes r ++ r.payload ++ (if r.tagged then fit 16 r.trailer else [])

/-- The authenticated data of a record's tag (R213). -/
def tagInput (r : Rec) : List Byte := let h := headerBytes r; h.take 42 ++ h.drop 54 ++ r.payload

/-- Bytes of a record: header, payload, trailer (R165). -/
def recordLen (r : Rec) : Nat := 64 + r.payload.length + (if r.tagged then 16 else 0)

/-- Bytes a record takes in the user area, with its fill (R165). -/
def recordSpace (r : Rec) : Nat := roundUp 8 (recordLen r)

/-- Footprint of a placed record, with its directory entry (R172). -/
def footprint (r : Rec) : Nat := recordSpace r + 32

/-- W(L) of R172. -/
def worstCase (len cf : Nat) (tagged : Bool) : Nat :=
  roundUp 8 (64 + (if cf = 2 then len else len + 64) + (if tagged then 16 else 0)) + 32

/-- The record whose header stands at offset off of a user area, with its RECORD entry's FORM and OLEN. -/
def readRecord (user : List Byte) (off eForm eOlen : Nat) : Rec :=
  let h := slice user off 64
  let f := unle (slice h 3 1)
  let slen := unle (slice h 16 4)
  let tagged := bit f 2
  let ok := unle (h.take 2) == 0x525A && unle (slice h 2 1) == 2 && decide (f < 32) &&
    decide (unle (slice h 40 2) < 4096) && bits f 0 2 != 3 && bits f 0 2 == eForm
  { form := bits f 0 2, tagged, hcont := bit f 3, last := bit f 4, stream := BitVec.ofNat 48 (unle (slice h 4 6)),
    offset := unle (slice h 10 6), olen := unle (slice h 20 4), version := unle (slice h 24 8),
    crc := BitVec.ofNat 64 (unle (slice h 32 8)), keySlot := unle (slice h 40 2) % 4096,
    nonce := BitVec.ofNat 96 (unle (slice h 42 12)), piece := unle (slice h 54 1), pieces := unle (slice h 55 1),
    time := unle (slice h 56 8), payload := slice user (off + 64) slen,
    trailer := if tagged then slice user (off + 64 + slen) 16 else [], entry := some (eForm, eOlen), headOk := ok }

/-! ## Datasets (Tables 5.3 to 5.6) -/

/-- Code of a dataset's kind (Table 5.3). -/
def kindCode : DsKind → Nat
  | .data => 0
  | .checkpoint => 1
  | .label => 2
  | .parity => 3

/-- All ones where there is no value. -/
def orOnes (n : Nat) (o : Option Nat) : List Byte := match o with | some v => le n v | none => ones n

/-- Offsets of consecutive records from byte 512 on. -/
def recordOffsets : Nat → List Rec → List Nat
  | _, [] => []
  | off, r :: rs => off :: recordOffsets (off + recordSpace r) rs

/-- RECEND: the first byte after the last record; 512 without records (Table 5.3). -/
def recEnd (rs : List Rec) : Nat :=
  match (recordOffsets 512 rs).getLast?, rs.getLast? with
  | some off, some r => off + recordLen r
  | _, _ => 512

/-- The 512-byte dataset header. WRAP and LPOS are those of the first writing: every copy carries the same user area (R259,
R282; log 118). -/
def dsHeader (d : Dataset) : List Byte :=
  let wrap := (d.home.getD (0, 0)).1
  let lpos := (d.home.getD (0, 0)).2
  fit 512 (le 4 0x3253445A ++ le 2 2 ++ le 1 (kindCode d.kind) ++ le 1 (d.part % 16 + 16 * b2n d.hostIndexed) ++
    le 8 d.seq ++ le 2 wrap ++ le 4 lpos ++ le 1 d.spanIdx ++ [0] ++ le 8 d.spanFirst ++ orOnes 8 d.lastCkpt ++
    le 8 d.maxVer ++ le 8 d.sealTime ++ le 4 d.recs.length ++ le 4 (d.recs.length + d.markers.length) ++
    (d.abandoned.take 8).flatMap (le 8) ++ ones (64 - 8 * (d.abandoned.take 8).length) ++ le 4 (recEnd d.recs))

/-- A RECORD entry (Table 5.4) for a record at a user-area offset. -/
def recordEntry (r : Rec) (off : Nat) : List Byte :=
  [0x01] ++ le 1 (r.form % 4 + 4 * b2n r.tagged) ++ le 1 r.piece ++ [0] ++ le 4 off ++ le 6 r.stream.toNat ++ zeros 2 ++
  le 6 r.offset ++ zeros 2 ++ le 4 r.olen ++ le 4 (r.version % 2 ^ 32)

/-- A MARKER entry (Table 5.4). -/
def markerEntry (m : Marker) : List Byte :=
  [0x02, 0] ++ le 1 m.piece ++ le 1 m.pieces ++ le 4 m.length ++ le 6 m.stream.toNat ++ le 2 m.records ++ le 6 m.offset ++
  zeros 2 ++ le 4 (m.version % 2 ^ 32) ++ le 4 (m.version / 2 ^ 32)

/-- An extent of 32 bytes (Table 5.7). -/
def extentBytes (x : Extent) : List Byte :=
  le 6 x.stream.toNat ++ le 6 x.offset ++ le 4 x.length ++ le 8 x.version ++ le 6 x.seq ++ le 2 x.index

/-- The body of a checkpoint dataset, bytes 512 on (Table 5.6). -/
def ckptBody (c : Ckpt) : List Byte :=
  orOnes 8 c.prev ++ le 8 c.base ++ le 1 (b2n c.delta) ++
  le 1 (b2n c.hostIndexed + 2 * b2n c.exhausted + 4 * b2n c.faultProt + 8 * b2n c.byUnmount) ++ zeros 2 ++ le 4 c.count ++
  le 4 c.index ++ le 8 c.maxVersion ++ le 8 c.eod ++ le 4 c.extents.length ++ orOnes 8 c.watermark ++ le 8 c.origin ++
  c.extents.flatMap extentBytes

/-- Bytes of a directory, entry 0 at the highest address. -/
def directory (es : List (List Byte)) : List Byte := es.reverse.flatten

/-- A label body from byte 512, and its calibration bytes (R266, Table 8.8). -/
def labelBody (num first pairs : Nat) (wp live : Bool) (copy inst time gen : Nat) (name : List Byte) : List Byte :=
  let b := le 4 0x324C505A ++ le 1 (if live then 1 else 2) ++ le 1 (b2n wp) ++ le 1 first ++ [0] ++ le 2 pairs ++
    le 1 copy ++ le 1 num ++ le 4 inst ++ le 8 time ++ le 8 gen ++ fit 16 name
  b ++ le 8 (crc64 b).toNat

/-- Eight bits, msb first, as a byte. -/
def packByte (bs : List Bool) : Byte := BitVec.ofNat 8 (bs.foldl (fun a b => 2 * a + b2n b) 0)

/-- The calibration bytes that fill a label dataset from byte 568 on (R266). -/
def calibration (n : Nat) : List Byte :=
  let s := scrSeq 0x2AAAAA (8 * n)
  (List.range n).map fun b => packByte (slice' s (8 * b) 8)
where
  slice' (l : List Bool) (o k : Nat) : List Bool := (l.drop o).take k

/-- The whole user area of a dataset with a header (R171, R175, R176, R183). -/
def userArea (d : Dataset) : List Byte :=
  match d.ckpt, d.label with
  | _, some l =>
    dsHeader d ++ labelBody l.part l.firstPair l.pairs l.wp l.live l.copy l.inst l.time l.gen l.name ++
      calibration (userBytes - 568)
  | some c, none =>
    let dir := directory (d.markers.map markerEntry)
    let front := dsHeader d ++ ckptBody c
    front ++ zeros (userBytes - dir.length - front.length) ++ dir
  | none, none =>
    let offs := recordOffsets 512 d.recs
    let dir := directory (List.zipWith recordEntry d.recs offs ++ d.markers.map markerEntry)
    let recs := d.recs.flatMap fun r => fit (recordSpace r) (recordBytes r)
    let front := dsHeader d ++ recs
    front ++ zeros (userBytes - dir.length - front.length) ++ dir

/-- The two parity user areas of a span's members' user areas (R261). -/
def spanParity (members : List (List Byte)) : List Byte × List Byte :=
  let ps := (List.range userBytes).map fun u => c3Parity (members.map fun m => (m.getD u 0).toNat)
  (ps.map fun p => BitVec.ofNat 8 (p.getD 0 0), ps.map fun p => BitVec.ofNat 8 (p.getD 1 0))

/-! ## Reading a user area back -/

/-- Directory entry k of a user area (R171). -/
def dirEntry (user : List Byte) (k : Nat) : List Byte := slice user (3361760 - 32 * k) 32

/-- A MARKER entry read. -/
def readMarker (e : List Byte) : Marker :=
  { stream := BitVec.ofNat 48 (unle (slice e 8 6)), version := unle (slice e 24 8), piece := unle (slice e 2 1),
    pieces := unle (slice e 3 1), length := unle (slice e 4 4), records := unle (slice e 14 2),
    offset := unle (slice e 16 6) }

/-- All ones as no value. -/
def unOnes (n : Nat) (bs : List Byte) : Option Nat := if unle bs = 2 ^ (8 * n) - 1 then none else some (unle bs)

/-- An extent read. -/
def readExtent (part : Nat) (b : List Byte) : Extent :=
  { part, stream := BitVec.ofNat 48 (unle (b.take 6)), offset := unle (slice b 6 6), length := unle (slice b 12 4),
    version := unle (slice b 16 8), seq := unle (slice b 24 6), index := unle (slice b 30 2) }

/-- The body of a checkpoint dataset read. -/
def readCkpt (part : Nat) (user : List Byte) : Ckpt :=
  let b := user.drop 512
  let fl := unle (slice b 17 1)
  { prev := unOnes 8 (b.take 8), base := unle (slice b 8 8), delta := unle (slice b 16 1) == 1, hostIndexed := bit fl 0,
    exhausted := bit fl 1, faultProt := bit fl 2, byUnmount := bit fl 3, count := unle (slice b 20 4),
    index := unle (slice b 24 4), maxVersion := unle (slice b 28 8), eod := unle (slice b 36 8),
    watermark := unOnes 8 (slice b 48 8), origin := unle (slice b 56 8),
    extents := (List.range (unle (slice b 44 4))).map fun i => readExtent part (slice b (64 + 32 * i) 32) }

/-- A label body read (Table 8.8). -/
def readLabel (user : List Byte) : LabelBody :=
  let b := user.drop 512
  let n := fun o k => unle (slice b o k)
  { live := n 4 1 != 2, wp := bit (n 5 1) 0, firstPair := n 6 1, pairs := n 8 2, copy := n 10 1, part := n 11 1,
    inst := n 12 4, time := n 16 8, gen := n 24 8, name := slice b 32 16 }

/-- What the user area of a dataset with a header holds; none when its header is not a dataset header (Table 5.3). -/
def parseDataset (user : List Byte) : Option Dataset :=
  if unle (user.take 4) ≠ 0x3253445A ∨ unle (slice user 4 2) ≠ 2 then none
  else
    let ty := unle (slice user 6 1)
    let b7 := unle (slice user 7 1)
    let part := b7 % 16
    let es := (List.range (unle (slice user 60 4))).map (dirEntry user)
    let recs := (es.filter fun e => e.getD 0 0 == 1).map fun e =>
      readRecord user (unle (slice e 4 4)) (unle (slice e 1 1) % 4) (unle (slice e 24 4))
    let ab := ((List.range 8).map fun i => unle (slice user (64 + 8 * i) 8)).filter fun v => v != 2 ^ 64 - 1
    let kind := if ty = 0 then DsKind.data else if ty = 1 then DsKind.checkpoint else DsKind.label
    some { part, seq := unle (slice user 8 8), kind, home := some (unle (slice user 16 2) % 512, unle (slice user 18 4) % 2 ^ 23), hostIndexed := bit b7 4, spanIdx := unle (slice user 22 1),
           spanFirst := unle (slice user 24 8), lastCkpt := unOnes 8 (slice user 32 8), maxVer := unle (slice user 40 8),
           sealTime := unle (slice user 48 8), abandoned := ab, recs,
           markers := (es.filter fun e => e.getD 0 0 == 2).map readMarker,
           ckpt := if ty = 1 then some (readCkpt part user) else none,
           label := if ty = 2 then some (readLabel user) else none }

/-! ## Volume label (Tables 8.9, 8.10) -/

/-- A partition table entry. -/
def volEntryBytes (o : Option VolEntry) : List Byte :=
  match o with
  | none => zeros 64
  | some e => fit 64 (le 1 e.st ++ le 1 e.firstPair ++ le 2 e.pairs ++ le 1 (b2n e.wp) ++ zeros 3 ++ le 8 e.pendingGen ++
      fit 16 e.name)

/-- A cartridge serial in 32 bytes, padded with spaces (Table 8.9). -/
def padSerial (bs : List Byte) : List Byte := bs.take 32 ++ List.replicate (32 - bs.length) 0x20

/-- The 1,876-byte body of a volume segment. -/
def volumeBody (v : VolLabel) (inst time : Nat) : List Byte :=
  let b := le 4 0x324C565A ++ le 2 2 ++ zeros 2 ++ le 8 v.gen ++ le 4 inst ++ le 8 time ++ zeros 4 ++ padSerial v.serial ++
    (List.range 16).flatMap fun p => volEntryBytes (v.entries.find? fun e => e.num == p)
  fit 1876 (b ++ le 8 (crc64 b).toNat)

end Sys2Proof.Machine
end

