-- ==== Sys2Proof/Machine/Dict.lean ====
section
/-! DEFINITION. The object dictionary: every entry the spec names with its type, access, range, persistence and
default (R13, R481 and the tables cited beside each group), and the rules one value has to meet by itself. -/

namespace Sys2Proof.Machine

/-- Access codes of R13. -/
inductive OdAcc where
  | ro | rw | wo | const | lk
deriving DecidableEq, Repr

/-- An entry of the object dictionary. -/
structure OdEntry where
  /-- size in bytes; the maximum of a variable entry (R124) -/
  size : Nat
  var  : Bool := false
  acc  : OdAcc
  /-- survives loss of power through the settings store (R13) -/
  pers : Bool
  /-- INTEGER types -/
  sgn  : Bool := false
  lo   : Int := 0
  hi   : Int := 0
  /-- the range applies (numbers only) -/
  num  : Bool := true
  dflt : List Byte
  /-- refused on every path but the service port (R547) -/
  usb  : Bool := false
  /-- accepted only in an unlocked service session although not lk -/
  sess : Bool := false
deriving DecidableEq, Repr

/-- An UNSIGNED entry of w bytes. -/
def uEnt (w : Nat) (acc : OdAcc) (pers : Bool) (lo hi d : Nat) : OdEntry :=
  { size := w, acc, pers, lo, hi, dflt := le w d }

/-- An INTEGER entry of w bytes. -/
def iEnt (w : Nat) (acc : OdAcc) (pers : Bool) (lo hi d : Int) : OdEntry :=
  { size := w, acc, pers, sgn := true, lo, hi, dflt := le w (code (8 * w) d) }

/-- An OCTET_STRING of fixed size. -/
def oEnt (acc : OdAcc) (pers : Bool) (d : List Byte) : OdEntry :=
  { size := d.length, acc, pers, num := false, dflt := d }

/-- Top of an unsigned range of w bytes. -/
def topU (w : Nat) : Nat := 2 ^ (8 * w) - 1

/-- The key of an entry. -/
def odKey (idx sub : Nat) : Nat := 256 * idx + sub

/-- Entry 0x1000-0x1FFF: the CiA 1301 objects the spec uses (R475, R478, R482, R483). Types and the defaults the spec
does not give: PRESUMED, log 10. -/
def odComm : List (Nat × OdEntry) :=
  [(odKey 0x1001 0, uEnt 1 .ro false 0 255 0),
   (odKey 0x1005 0, uEnt 4 .rw true 0 (topU 4) 0x80),
   (odKey 0x1006 0, uEnt 4 .rw true 0 (topU 4) 0),
   (odKey 0x1008 0, { size := 13, acc := .const, pers := false, num := false, dflt := ascii "Tamyan TM6480" }),
   (odKey 0x1010 1, uEnt 4 .rw false 0x65766173 0x65766173 0),
   (odKey 0x1011 1, uEnt 4 .rw false 0x64616F6C 0x64616F6C 0),
   (odKey 0x1011 2, uEnt 4 .rw false 0x64616F6C 0x64616F6C 0),
   (odKey 0x1011 3, uEnt 4 .rw false 0x64616F6C 0x64616F6C 0),
   (odKey 0x1012 0, uEnt 4 .rw true 0 (topU 4) 0x100),
   (odKey 0x1014 0, uEnt 4 .rw true 0 (topU 4) 0x80),
   (odKey 0x1015 0, uEnt 2 .rw true 0 (topU 2) 100),
   (odKey 0x1017 0, uEnt 2 .rw true 10 65535 100),
   (odKey 0x1018 1, uEnt 4 .ro false 0 (topU 4) 0x5A7),
   (odKey 0x1018 2, uEnt 4 .ro false 0 (topU 4) 0x6480),
   (odKey 0x1018 3, uEnt 4 .ro false 0 (topU 4) 0x10),
   (odKey 0x1018 4, uEnt 4 .ro false 0 (topU 4) 0)]

/-- 0x2010 to 0x2129 (R5, R43, R174, R182, R183, R285, R290, R294, R317, R326; Tables 9.3, 9.5, 10.5, 10.6, 10.8). -/
def odData : List (Nat × OdEntry) :=
  [(odKey 0x2010 1, uEnt 2 .lk true 0 0xFFFF 0x1F3D), (odKey 0x2010 2, uEnt 2 .lk true 0 0xFFFF 1),
   (odKey 0x2020 1, uEnt 1 .rw true 1 120 1), (odKey 0x2020 2, uEnt 1 .rw true 0 3 3),
   (odKey 0x2020 3, uEnt 1 .rw true 0 3 2), (odKey 0x2120 1, uEnt 1 .rw true 0 1 0),
   (odKey 0x2122 1, uEnt 2 .rw true 1 1000 50), (odKey 0x2123 1, uEnt 4 .rw true 256 65536 4096),
   (odKey 0x2123 2, uEnt 2 .rw true 5 3600 60), (odKey 0x2123 3, uEnt 2 .rw true 1 1024 64),
   (odKey 0x2124 1, uEnt 4 .rw true 64 16384 2048), (odKey 0x2124 2, uEnt 4 .rw true 10 60000 2000),
   (odKey 0x2124 3, uEnt 4 .rw true 0 4096 256), (odKey 0x2124 4, uEnt 4 .rw true 0 10000 500),
   (odKey 0x2124 5, uEnt 4 .rw true 100 60000 2000), (odKey 0x2124 6, uEnt 4 .rw true 100 10000 1000),
   (odKey 0x2124 7, uEnt 4 .rw true 100 5000 1000), (odKey 0x2125 1, uEnt 1 .rw true 2 32 4),
   (odKey 0x2126 1, uEnt 1 .rw true 4 255 32), (odKey 0x2126 2, uEnt 2 .rw true 64 65535 512),
   (odKey 0x2126 3, uEnt 1 .rw true 1 16 4), (odKey 0x2126 4, uEnt 1 .rw true 16 40 26),
   (odKey 0x2126 5, uEnt 1 .rw true 2 64 8), (odKey 0x2127 1, uEnt 1 .rw true 2 10 6),
   (odKey 0x2127 2, uEnt 1 .rw true 1 16 4), (odKey 0x2127 3, uEnt 1 .rw true 1 16 4),
   (odKey 0x2127 4, uEnt 1 .rw true 0 6 2), (odKey 0x2128 1, uEnt 1 .rw true 10 90 40),
   (odKey 0x2128 2, uEnt 1 .rw true 4 128 16), (odKey 0x2128 3, uEnt 2 .rw true 150 400 250),
   (odKey 0x2128 4, uEnt 1 .rw true 0 64 16), (odKey 0x2128 5, uEnt 2 .rw true 64 16384 1024),
   (odKey 0x2129 1, uEnt 1 .rw true 1 2 2), (odKey 0x2129 2, uEnt 1 .rw true 1 6 6),
   (odKey 0x2129 3, uEnt 1 .rw true 0 4 1), (odKey 0x2129 4, uEnt 1 .rw true 1 15 10),
   (odKey 0x2129 5, uEnt 2 .rw true 100 5000 800), (odKey 0x2129 6, uEnt 2 .rw true 64 1280 320)]

/-- 0x212A to 0x2200 (Tables 11.8, 12.6, 12.7; R92, R141, R160, R480). -/
def odData2 : List (Nat × OdEntry) :=
  [(odKey 0x212A 1, uEnt 1 .rw true 0 6 6), (odKey 0x212A 2, uEnt 1 .rw true 0 6 6),
   (odKey 0x212A 3, uEnt 4 .rw true 2000 300000 30000), (odKey 0x212A 4, uEnt 1 .rw true 0 1 1),
   (odKey 0x212A 5, uEnt 1 .rw true 0 1 1), (odKey 0x212A 6, uEnt 1 .rw true 10 60 30),
   (odKey 0x212B 1, uEnt 4 .rw true 10000 3600000 120000), (odKey 0x212B 2, uEnt 1 .rw true 0 64 8),
   (odKey 0x212B 3, iEnt 4 .rw true (-600000) 600000 30000), (odKey 0x212B 4, iEnt 4 .rw true (-600000) 600000 10000),
   (odKey 0x212B 5, iEnt 4 .rw true (-600000) 600000 0), (odKey 0x212B 6, iEnt 4 .rw true (-600000) 600000 (-10000)),
   (odKey 0x212B 7, uEnt 2 .rw true 0 1024 64), (odKey 0x212B 8, uEnt 4 .rw true 1000 600000 10000),
   (odKey 0x212B 9, uEnt 4 .rw true 1000 600000 30000), (odKey 0x212B 10, uEnt 4 .rw true 0 60000 2000),
   (odKey 0x212B 11, uEnt 4 .rw true 1000 3600000 60000), (odKey 0x212C 1, uEnt 2 .lk true 60 1000 150),
   (odKey 0x212C 2, uEnt 1 .lk true 1 64 8), (odKey 0x212C 3, uEnt 2 .lk true 20 2000 200),
   (odKey 0x212C 4, uEnt 2 .lk true 4000 12000 12000), (odKey 0x2140 1, uEnt 4 .rw true 0 (topU 4) 10000),
   (odKey 0x2150 1, uEnt 4 .rw true 100 60000 5000), (odKey 0x2151 1, uEnt 1 .rw true 1 168 8),
   (odKey 0x2200 1, uEnt 1 .wo false 0 255 0), (odKey 0x2200 2, uEnt 2 .wo false 0 65535 0)]

/-- 0x3000 to 0x34FF (R221, R286, R480, R491, R492, R583; Table 16.4). -/
def odShow : List (Nat × OdEntry) :=
  [(odKey 0x3001 1, uEnt 4 .ro false 0 0 0), (odKey 0x3002 1, uEnt 4 .ro false 0 0 0),
   (odKey 0x3002 2, iEnt 2 .ro false 0 0 0), (odKey 0x3200 1, uEnt 2 .ro false 0 0 0),
   (odKey 0x3200 2, uEnt 2 .ro false 0 0 0), (odKey 0x3200 3, uEnt 1 .ro false 0 0 0),
   (odKey 0x3410 1, uEnt 2 .ro false 0 0 0), (odKey 0x3420 1, uEnt 8 .ro true 0 0 0),
   (odKey 0x3421 1, uEnt 8 .ro true 0 0 0), (odKey 0x3421 2, uEnt 8 .ro true 0 0 0),
   (odKey 0x3421 3, uEnt 1 .ro true 0 0 0), (odKey 0x3430 1, iEnt 2 .ro false 0 0 0),
   (odKey 0x3430 2, iEnt 2 .ro false 0 0 0), (odKey 0x3430 3, iEnt 2 .ro false 0 0 0),
   (odKey 0x3430 4, iEnt 2 .ro false 0 0 0)]

/-- 0x4030 and 0x4102 to 0x4212 (R273, R276, R308, R401, R402, R420; Tables 13.4 to 13.8, 14.4). -/
def odMotion : List (Nat × OdEntry) :=
  [(odKey 0x4030 1, uEnt 1 .rw true 0 1 1), (odKey 0x4102 1, iEnt 2 .lk true (-500) 500 0),
   (odKey 0x4103 1, uEnt 2 .lk true 20 70 50), (odKey 0x4200 1, uEnt 2 .lk true 1000 20000 10000),
   (odKey 0x4200 2, uEnt 4 .lk true 20000 2000000 200000), (odKey 0x4200 3, uEnt 2 .lk true 300 2000 800),
   (odKey 0x4200 4, uEnt 2 .lk true 300 2000 1200), (odKey 0x4200 5, uEnt 1 .lk true 10 80 30),
   (odKey 0x4200 6, uEnt 2 .lk true 100 1000 400), (odKey 0x4200 7, uEnt 1 .lk true 1 50 2),
   (odKey 0x4200 8, uEnt 1 .lk true 10 100 30), (odKey 0x4200 9, uEnt 1 .lk true 5 200 20),
   (odKey 0x4200 10, uEnt 2 .lk true 20 500 100), (odKey 0x4201 1, uEnt 2 .lk true 15000 30000 22000),
   (odKey 0x4201 2, uEnt 2 .lk true 15000 30000 26000), (odKey 0x4201 3, uEnt 2 .lk true 3000 8000 4900),
   (odKey 0x4201 4, uEnt 4 .lk true 100 100000 1800), (odKey 0x4201 5, uEnt 4 .lk true 100 100000 4200),
   (odKey 0x4201 6, uEnt 4 .lk true 10000 60000 27800), (odKey 0x4201 7, uEnt 2 .lk true 10 500 60),
   (odKey 0x4201 8, uEnt 2 .lk true 10 500 60), (odKey 0x4201 9, uEnt 4 .lk true 20000 100000 50000),
   (odKey 0x4201 10, uEnt 2 .lk true 1024 65535 16384), (odKey 0x4201 11, uEnt 2 .lk true 1000 30000 3000),
   (odKey 0x4202 1, iEnt 4 .lk true 0 0x7FFFFFFF 0x24000000), (odKey 0x4202 2, iEnt 4 .lk true 0 0x7FFFFFFF 0x01800000),
   (odKey 0x4202 3, iEnt 4 .lk true 0 0x7FFFFFFF 0x10000000), (odKey 0x4202 4, iEnt 4 .lk true 0 0x7FFFFFFF 0x00400000),
   (odKey 0x4202 5, iEnt 4 .lk true 0 0x7FFFFFFF 0x0C000000), (odKey 0x4202 6, iEnt 4 .lk true 0 0x7FFFFFFF 0x00200000),
   (odKey 0x4202 7, iEnt 4 .lk true 0 0x7FFFFFFF 0x08000000), (odKey 0x4202 8, iEnt 4 .lk true 0 0x7FFFFFFF 0x18000000),
   (odKey 0x4202 9, iEnt 4 .lk true 0 0x7FFFFFFF 0x01000000), (odKey 0x4202 10, iEnt 4 .lk true 0 0x7FFFFFFF 0x30000000),
   (odKey 0x4203 1, uEnt 1 .lk true 0 1 1), (odKey 0x4203 2, uEnt 2 .lk true 20 2000 180),
   (odKey 0x4203 3, uEnt 2 .lk true 20 5000 250), (odKey 0x4203 4, uEnt 2 .lk true 1000 20000 3000),
   (odKey 0x4203 5, uEnt 1 .lk true 5 80 25), (odKey 0x4204 1, uEnt 2 .lk true 22000 60000 54000),
   (odKey 0x4204 2, uEnt 2 .lk true 21000 59000 52000), (odKey 0x4204 3, uEnt 2 .lk true 23000 61000 58000),
   (odKey 0x4204 4, uEnt 2 .lk true 24000 62000 60000), (odKey 0x4204 5, uEnt 2 .lk true 3300 47000 8200),
   (odKey 0x4205 1, uEnt 2 .lk true 10 200 40), (odKey 0x4205 2, uEnt 2 .lk true 0 500 150),
   (odKey 0x4205 3, uEnt 2 .lk true 1000 30000 8000),
   (odKey 0x4210 1, oEnt .lk true (zeros 2048)), (odKey 0x4210 2, oEnt .lk true (zeros 2048)),
   (odKey 0x4211 1, oEnt .lk true ((List.replicate 256 (le 2 100)).flatten)),
   (odKey 0x4212 1, oEnt .lk true ((List.range 32).flatMap fun k => le 2 ((256 * k + 5) / 10)))]

/-- 0x5000 to 0x6020 (Tables 15.4, 16.1, 19.3, 19.4; R487, R535 to R540, R551, R552). Types the spec does not give:
PRESUMED, log 10. -/
def odSystem : List (Nat × OdEntry) :=
  [(odKey 0x5000 3, uEnt 4 .ro true 0 0 0),
   (odKey 0x5010 1, { size := 25165824, var := true, acc := .wo, pers := false, num := false, dflt := [], usb := true, sess := true }),
   (odKey 0x5011 1, uEnt 1 .ro false 0 0 0), (odKey 0x5011 2, oEnt .ro false (zeros 32)),
   (odKey 0x5011 4, uEnt 1 .ro false 0 0 0),
   (odKey 0x5012 1, { uEnt 1 .wo false 1 1 0 with sess := true }),
   (odKey 0x5013 1, uEnt 8 .lk true 0 (topU 8) (topU 8)), (odKey 0x5013 2, uEnt 1 .lk true 0 1 0),
   (odKey 0x5013 3, uEnt 4 .lk true 1000 3600000 60000),
   (odKey 0x5015 1, { uEnt 1 .wo false 1 1 0 with sess := true }), (odKey 0x5015 2, uEnt 1 .ro false 0 0 0),
   (odKey 0x5015 3, uEnt 1 .ro false 0 0 0), (odKey 0x5015 4, oEnt .ro false (zeros 32)),
   (odKey 0x5020 1, oEnt .ro false (zeros 32)),
   (odKey 0x5020 2, { oEnt .wo false (zeros 68) with usb := true }),
   (odKey 0x5021 1, { size := 64, var := true, acc := .wo, pers := false, num := false, dflt := [], usb := true }),
   (odKey 0x5021 2, { size := 64, var := true, acc := .wo, pers := false, num := false, dflt := [], usb := true, sess := true }),
   (odKey 0x5021 3, uEnt 2 .lk true 5 480 60), (odKey 0x5022 1, uEnt 1 .ro false 0 0 0),
   (odKey 0x5022 2, uEnt 4 .ro false 0 0 0), (odKey 0x5022 3, uEnt 1 .wo false 1 1 0),
   (odKey 0x5022 4, uEnt 1 .ro true 0 0 0), (odKey 0x5022 5, uEnt 4 .ro false 0 0 0),
   (odKey 0x5031 1, oEnt .ro false (zeros 64)),
   (odKey 0x5033 1, { uEnt 1 .wo false 0 15 0 with sess := true }),
   (odKey 0x5040 1, { uEnt 8 .wo false 0 (topU 8) 0 with sess := true }),
   (odKey 0x5040 2, { uEnt 8 .wo false 0 (topU 8) 0 with sess := true }),
   (odKey 0x5040 3, { uEnt 8 .wo false 0 (topU 8) 0 with sess := true }),
   (odKey 0x5040 4, { uEnt 1 .wo false 0 255 0 with sess := true }),
   (odKey 0x6001 1, uEnt 1 .rw true 0 1 0), (odKey 0x6001 2, uEnt 1 .rw true 0 2 0),
   (odKey 0x6001 3, uEnt 1 .rw true 0 1 0), (odKey 0x6001 4, uEnt 1 .rw true 0 1 1),
   (odKey 0x6001 5, uEnt 1 .rw true 0 1 0), (odKey 0x6001 6, uEnt 2 .rw true 5 10000 50),
   (odKey 0x6002 1, uEnt 1 .wo false 1 1 0), (odKey 0x6002 2, uEnt 1 .wo false 1 1 0),
   (odKey 0x6003 1, uEnt 4 .ro true 0 0 0),
   (odKey 0x6010 1, iEnt 8 .lk true (-9223372036854775808) 9223372036854775807 0),
   (odKey 0x6010 2, uEnt 1 .rw true 0 3 0), (odKey 0x6010 3, uEnt 2 .rw true 0 255 37),
   (odKey 0x6010 4, uEnt 4 .rw true 1 1000000 1000), (odKey 0x6011 1, uEnt 8 .wo false 0 (topU 8) 0),
   (odKey 0x6011 2, uEnt 8 .ro false 0 0 0), (odKey 0x6012 1, iEnt 4 .rw true (-500000000) 500000000 0),
   (odKey 0x6013 1, uEnt 2 .rw true 1 3600 1), (odKey 0x6013 2, uEnt 2 .rw true 0 10000 0),
   (odKey 0x6020 1, uEnt 4 .rw true 1000 600000 60000)]

/-- Default pool layouts and reserves as 0x2180 and 0x2181 hold them (Table 4.3, R145). -/
def poolDefaults : List (Nat × Nat × Nat × Nat) :=
  [(8, 11264, 0, 0), (10, 2048, 8, 16), (10, 2048, 0, 64), (8, 2048, 0, 32), (4, 1536, 0, 256), (0, 512, 4096, 1024),
   (10, 512, 0, 128), (6, 512, 0, 0)]

/-- The default Ephemeris entry (Table 10.2). -/
def ephemerisDflt : List Byte :=
  [72, 16, 0, 0, 32, 40, 20, 4, 0, 0, 0, 0, 0, 64, 0, 0, 0, 0, 0, 0, 0, 0, 0, 0, 0, 0, 0, 0, 0, 0, 0, 0]

/-- The default speed curve of Table 9.6: rate in MB/s and speed index. -/
def curveDefault : List (Nat × Nat) :=
  [(0, 0), (180, 4), (360, 8), (540, 10), (640, 12), (740, 14), (840, 17), (940, 19), (1040, 21), (1140, 23), (1240, 25),
   (1340, 27), (1420, 28), (1480, 28), (1540, 28), (1600, 28)]

/-- Default mapping of the PDOs (Table 16.4): entry number of the mapping object, then its entries as CiA 1301 codes
them (index, subindex, bits). -/
def pdoDefault (idx : Nat) : List Nat :=
  if idx = 0x1A00 then [0x30010120]
  else if idx = 0x1A01 then [0x32000110, 0x32000210, 0x32000308]
  else if idx = 0x1A02 then [0x30020120, 0x30020210]
  else if idx = 0x1A03 then [0x60110240]
  else if idx = 0x1600 then [0x22000108, 0x22000210]
  else []

/-- Families of entries: pools, Ephemeris (R304), write currents and trims, read bias, speed curve, PDOs, KEK imports. -/
def odFamily (idx sub : Nat) : Option OdEntry :=
  if idx = 0x2180 ∧ 1 ≤ sub ∧ sub ≤ 16 then
    let p := get (poolDefaults.zipIdx.map fun x => (x.2, x.1)) (sub - 1) (0, 0, 0, 0)
    some (uEnt 4 .rw true 0 (topU 4) (p.1 + 256 * p.2.1))
  else if idx = 0x2181 ∧ 1 ≤ sub ∧ sub ≤ 16 then
    let p := get (poolDefaults.zipIdx.map fun x => (x.2, x.1)) (sub - 1) (0, 0, 0, 0)
    some (uEnt 4 .rw true 0 (topU 4) (p.2.2.1 + 65536 * p.2.2.2))
  else if 0x4010 ≤ idx ∧ idx ≤ 0x401F ∧ 1 ≤ sub ∧ sub ≤ 64 then some (oEnt .lk true ephemerisDflt)
  else if idx = 0x4100 ∧ 1 ≤ sub ∧ sub ≤ 8 then
    some (uEnt 4 .lk true 0 0x3FFFFF (if sub ≤ 2 ∨ 7 ≤ sub then 0x000D0C78 else 0x000D0C70))
  else if idx = 0x4101 ∧ 1 ≤ sub ∧ sub ≤ 128 then some (iEnt 1 .lk true (-128) 127 0)
  else if idx = 0x4104 ∧ 1 ≤ sub ∧ sub ≤ 128 then some (uEnt 1 .lk true 25 150 90)
  else if idx = 0x4300 ∧ 1 ≤ sub ∧ sub ≤ 16 then
    let p := get (curveDefault.zipIdx.map fun x => (x.2, x.1)) (sub - 1) (0, 0)
    some (uEnt 4 .lk true 0 0x1FFFFF (p.1 + 65536 * p.2))
  else if idx = 0x5032 ∧ 1 ≤ sub ∧ sub ≤ 16 then
    some { oEnt .wo false (zeros 104) with usb := true, sess := true }
  else if (0x1800 ≤ idx ∧ idx ≤ 0x1803) ∨ (0x1400 ≤ idx ∧ idx ≤ 0x1403) then
    if sub = 1 then some (uEnt 4 .rw true 0 (topU 4) 0)
    else if sub = 2 then some (uEnt 1 .rw true 0 255 254) else none
  else if (0x1A00 ≤ idx ∧ idx ≤ 0x1A03) ∨ (0x1600 ≤ idx ∧ idx ≤ 0x1603) then
    if sub = 0 then some (uEnt 1 .rw true 0 64 (pdoDefault idx).length)
    else if sub ≤ 64 then some (uEnt 4 .rw true 0 (topU 4) ((pdoDefault idx).getD (sub - 1) 0)) else none
  else none

/-- The entry index:subindex, if the dictionary has it (R481). -/
def odFind (idx sub : Nat) : Option OdEntry :=
  match (odComm ++ odData ++ odData2 ++ odShow ++ odMotion ++ odSystem).find? (fun p => p.1 == odKey idx sub) with
  | some p => some p.2
  | none => odFamily idx sub

/-- The number an entry's bytes spell. -/
def odNum (e : OdEntry) (bs : List Byte) : Int :=
  if e.sgn then signed (8 * e.size) (unle bs) else (unle bs : Int)

/-- A value lies in the entry's stated range by itself (Table 3.10, R247 reserved fields read as zero). -/
def odInRange (e : OdEntry) (bs : List Byte) : Bool :=
  if e.num then decide (e.lo ≤ odNum e bs ∧ odNum e bs ≤ e.hi) else true

/-- Entries a TPDO may map (R479). -/
def tpdoMay (idx sub : Nat) : Bool :=
  (decide (0x3000 ≤ idx ∧ idx ≤ 0x3FFF) &&
    (match odFind idx sub with | some e => decide (e.acc = .ro) | none => false)) || (idx == 0x6011 && sub == 2)

/-- Entries an RPDO may map (R479). -/
def rpdoMay (idx sub : Nat) : Bool := idx == 0x2200 && (sub == 1 || sub == 2)

end Sys2Proof.Machine
end

