-- ==== Sys2Proof/Machine/Flags.lean ====
section
/-! DEFINITION. Status codes, event codes and fault codes (Tables 3.14, 3.17, 17.1), and the status words the device
composes from its state: GLB.STATUS, MIR.MOTION, 0x3001:01, FAULT_OUT_N, SAFE_OK, TAPE_SAFE. -/

namespace Sys2Proof.Machine

/-! ## Status codes (Table 3.14) -/

abbrev stOk : Nat := 0x0000
abbrev stOkRecovered : Nat := 0x0001
abbrev stInvalidOpcode : Nat := 0x0101
abbrev stInvalidField : Nat := 0x0102
abbrev stAccessDenied : Nat := 0x0103
abbrev stRangeNotWritten : Nat := 0x0104
abbrev stNotMounted : Nat := 0x0105
abbrev stPartitionFull : Nat := 0x0106
abbrev stWriteProtected : Nat := 0x0107
abbrev stFunctionDisabled : Nat := 0x0108
abbrev stMediaBusy : Nat := 0x0109
abbrev stMediaUnrecovered : Nat := 0x0201
abbrev stWriteVerifyFailed : Nat := 0x0202
abbrev stServoLost : Nat := 0x0203
abbrev stMotionFault : Nat := 0x0204
abbrev stLanesExhausted : Nat := 0x0205
abbrev stCartridgeAbsent : Nat := 0x0206
abbrev stMediaIncompatible : Nat := 0x0207
abbrev stTagMismatch : Nat := 0x0301
abbrev stCheckValueMismatch : Nat := 0x0302
abbrev stDecompIllegalCode : Nat := 0x0303
abbrev stDecompDistance : Nat := 0x0304
abbrev stDecompLengthOverrun : Nat := 0x0305
abbrev stDecompOutputFull : Nat := 0x0306
abbrev stIntegrityEngineFault : Nat := 0x0307
abbrev stKeyUnwrapFailed : Nat := 0x0308
abbrev stKeySlotEmpty : Nat := 0x0309
abbrev stDecompTruncated : Nat := 0x030A
abbrev stBufferExhausted : Nat := 0x0401
abbrev stAlmanacFull : Nat := 0x0402
abbrev stPowerEntryAbandoned : Nat := 0x0501
abbrev stTwilight : Nat := 0x0502
abbrev stQueueReset : Nat := 0x0503
abbrev stPeerLost : Nat := 0x0601
abbrev stRoleStale : Nat := 0x0602

/-- The class of a status: its high byte (R132). -/
def statusClass (st : Nat) : Nat := st / 256

/-! ## Events (Table 3.17) -/

abbrev evEventsLost : Nat := 0x8001
abbrev evPowerState : Nat := 0x8002
abbrev evMounted : Nat := 0x8003
abbrev evUnmounted : Nat := 0x8004
abbrev evWriteProtected : Nat := 0x8101
abbrev evLaneRetired : Nat := 0x8201
abbrev evReallocated : Nat := 0x8202
abbrev evSafeStop : Nat := 0x8203
abbrev evChopper : Nat := 0x8204
abbrev evTagRetired : Nat := 0x8301
abbrev evReleaseRejected : Nat := 0x8302
abbrev evHostIndexed : Nat := 0x8401
abbrev evLodestar : Nat := 0x8501
abbrev evTwilight : Nat := 0x8502
abbrev evStaged : Nat := 0x8503
abbrev evActivated : Nat := 0x8504
abbrev evSkipped : Nat := 0x8505
abbrev evFallback : Nat := 0x8506
abbrev evPeerLost : Nat := 0x8601
abbrev evRoleChanged : Nat := 0x8602

/-! ## Words composed from the state -/

/-- GLB drives FAULT_OUT_N low: in Twilight, outside WATCH, while Lodestar restarts (R494), and during start-up until
stage 5 ends (R520). -/
def faultOut (s : State) : Bool :=
  s.glb.twilight.isSome || s.nw.state != 0 || s.glb.restarting.isSome || s.glb.stage < 5

/-- A held motion permit, an unsafe position of the mechanics, or reels that turn keep SAFE_OK at 0; a grant holds it
at 1 (R485, R486). -/
def safeOk (s : State) : Bool :=
  s.nw.grant ||
  (!s.nw.window && !s.nw.permit && !s.nw.inReset && s.nw.atRest && s.nw.sns.getLsbD 2 && !s.media.threaded &&
    (s.nw.sns.getLsbD 3 || s.nw.atEject) && s.ps.ldrAt.isNone)

/-- The level of TAPE_SAFE (R485, R488). -/
def tapeSafe (s : State) : Bool := s.glb.resetInN && s.nw.req && (safeOk s || s.nw.grant)

/-- Retired lanes in force. -/
def retiredCount (s : State) : Nat := popBits 64 s.fm.retired.toNat

/-- Mount state as reported: 3 while a MOUNT or an UNMOUNT holds the media lock (Table 3.3, log 14). -/
def mountState (s : State) : Nat :=
  match s.media.op with
  | some (.mount ..) => 3
  | some (.unmount ..) => 3
  | _ => s.media.mount

/-- GLB.STATUS (Table 20.8). -/
def glbStatus (s : State) : Word := BitVec.ofNat 32
  (mountState s + 4 * s.glb.power + 16 * b2n s.glb.twilight.isSome + 32 * s.glb.twilight.getD 0 + 256 * s.nw.state +
   2048 * b2n s.glb.lsUp + 4096 * b2n (faultOut s) + 8192 * s.pl.role + 32768 * b2n s.tg.retired +
   65536 * retiredCount s + 16777216 * b2n s.ps.chopF + 33554432 * b2n (s.nw.sns.getLsbD 0))

/-- 0x3001:01 Device state summary (R479). -/
def stateSummary (s : State) : Nat :=
  mountState s + 4 * s.glb.power + 16 * b2n s.glb.twilight.isSome + 32 * s.nw.state + 256 * b2n (tapeSafe s) +
  512 * b2n s.nw.grant + 1024 * b2n (s.nw.sns.getLsbD 0) + 2048 * s.pl.role + 8192 * retiredCount s

/-- MIR.MOTION (Table 20.18). -/
def mirMotion (s : State) : Word := BitVec.ofNat 32
  (s.fm.wstate + 8 * s.sv.state + 64 * s.nw.state + 512 * s.ce.owner + 2048 * s.fm.speed + 65536 * b2n s.ce.media)

end Sys2Proof.Machine
end

