-- ==== Sys2Proof/Machine/Operands.lean ====
section
/-! DEFINITION. The fields of a submission queue entry and of a scatter descriptor (Tables 2.11, 3.1, 3.4 to 3.8,
3.11), the reserved bits of every opcode, and the checks of a data pointer (R64, R101 to R104, R106). -/

namespace Sys2Proof.Machine

/-- len bytes of an entry from byte off on, as a number. -/
def sqeBytes (w : SqeBits) (off len : Nat) : Nat := bits w.toNat (8 * off) (8 * len)

/-! ## Common fields (Table 2.11) -/

/-- Byte 0. -/
def opcode (w : SqeBits) : Nat := sqeBytes w 0 1
/-- Byte 1 bit 0. -/
def dlist (w : SqeBits) : Bool := w.getLsbD 8
/-- Bytes 2-3. -/
def cid (w : SqeBits) : Nat := sqeBytes w 2 2
/-- Bytes 4-5 bits [11:0]. -/
def keySlot (w : SqeBits) : Nat := bits w.toNat 32 12
/-- Bytes 4-5 bit 12. -/
def tagBit (w : SqeBits) : Bool := w.getLsbD 44
/-- Bytes 4-5 bit 13. -/
def tagRequired (w : SqeBits) : Bool := w.getLsbD 45
/-- Bytes 6-7 bits [3:0]. -/
def partition (w : SqeBits) : Nat := bits w.toNat 48 4
/-- Bytes 6-7 bits [5:4]. -/
def cform (w : SqeBits) : Nat := bits w.toNat 52 2
/-- Bytes 8-13. -/
def stream (w : SqeBits) : StreamId := BitVec.ofNat 48 (sqeBytes w 8 6)
/-- Bytes 16-21. -/
def offset (w : SqeBits) : Nat := sqeBytes w 16 6
/-- Bytes 24-27. -/
def lengthField (w : SqeBits) : Nat := sqeBytes w 24 4
/-- LENGTH of WRITE, READ, VERIFY and STREAM_STAT, where 0 stands for 2^32 (R21, R130). -/
def rangeLen (w : SqeBits) : Nat := if lengthField w = 0 then 2 ^ 32 else lengthField w
/-- The 48-bit dataset locator, bytes 48-53 (R45). -/
def locator (w : SqeBits) : Nat := sqeBytes w 48 6

/-! ## Opcodes (Tables 3.2, 3.11) -/

/-- Admin opcodes. -/
def isAdminOp (o : Nat) : Bool :=
  [0x01, 0x02, 0x03, 0x04, 0x05, 0x06, 0x07, 0x10, 0x11, 0x12, 0x18, 0x19, 0x1A, 0x20, 0x21, 0x30, 0x31, 0x3F].contains o
/-- I/O opcodes. -/
def isIoOp (o : Nat) : Bool := 0x40 ≤ o && o ≤ 0x45
/-- Commands PF0 alone may issue (Table 3.2). -/
def pf0Only (o : Nat) : Bool := [0x05, 0x06, 0x07, 0x10, 0x11, 0x18, 0x19, 0x31].contains o
/-- Admin commands that name a partition in bytes 6-7 (R106, R116, R117, R121). -/
def namesPartition (o : Nat) : Bool := [0x10, 0x11, 0x1A].contains o
/-- Commands that move data through the data pointer. -/
def movesData (o : Nat) : Bool := [0x01, 0x04, 0x12, 0x20, 0x30, 0x31, 0x40, 0x41, 0x44].contains o

/-! ## Reserved bits -/

/-- Bit ranges (lo, len) of the whole entry that are reserved for an opcode (R63, R64, R104, R106, Tables 3.4 to 3.11).
Command-specific bytes (28-31, 32-47 without a data pointer, 48-63) that no table of the opcode lists count as reserved
(log 113); a common field of Table 2.11 that a command does not use is ignored, unless R106 names it. -/
def reservedBits (o : Nat) (dl : Bool) : List (Nat × Nat) :=
  [(9, 7), (46, 2), (54, 10), (112, 16), (176, 16)] ++
  -- STREAM, OFFSET, LENGTH of commands without data (R106)
  (if [0x02, 0x03, 0x05, 0x06, 0x07, 0x10, 0x11, 0x18, 0x19, 0x1A, 0x21, 0x3F].contains o
    then [(64, 48), (128, 48), (192, 32)] else []) ++
  -- DLIST of commands that move no data, and bytes 44-47 of a list pointer (R101, R104)
  (if !movesData o then [(8, 1)] else if dl then [(352, 32)] else []) ++
  (match o with
   | 0x01 => [(232, 24), (384, 128)]
   | 0x02 => [(248, 8), (448, 64)]
   | 0x03 => [(240, 16), (256, 256)]
   | 0x04 => [(232, 24), (416, 96)]
   | 0x05 => [(232, 24), (256, 256)]
   | 0x06 => [(248, 8), (256, 128), (432, 80)]
   | 0x07 => [(240, 16), (304, 16), (368, 16), (412, 4), (429, 3), (432, 80)]
   | 0x10 => [(241, 15), (256, 128)]
   | 0x11 => [(224, 32), (256, 256)]
   | 0x12 => [(224, 32), (384, 128)]
   | 0x18 => [(225, 31), (256, 256)]
   | 0x19 => [(225, 31), (256, 256)]
   | 0x1A => [(224, 32), (256, 256)]
   | 0x20 => [(224, 32), (384, 128)]
   | 0x21 => [(224, 32), (256, 256)]
   | 0x30 => [(248, 8), (384, 128)]
   | 0x31 => [(248, 8), (384, 128)]
   | 0x3F => [(224, 32), (256, 256)]
   | 0x40 => [(224, 32), (384, 128)]
   | 0x41 => [(224, 32), (432, 80)]
   | 0x42 => [(224, 32), (256, 128), (432, 80)]
   | 0x43 => [(224, 32), (256, 256)]
   | 0x44 => [(385, 127)]
   | 0x45 => [(227, 29), (256, 256)]
   | _ => [])

/-- Byte offset of the first reserved bit range of the entry that is not zero. -/
def badReserved (w : SqeBits) : Option Nat :=
  ((reservedBits (opcode w) (dlist w)).find? fun r => bits w.toNat r.1 r.2 != 0).map fun r => r.1 / 8

/-! ## Data pointers (R101 to R103) -/

/-- ADDRESS of a descriptor. -/
def descAddr (d : DescBits) : Nat := bits d.toNat 0 64
/-- LENGTH of a descriptor. -/
def descLen (d : DescBits) : Nat := bits d.toNat 64 32
/-- NOSNOOP of a descriptor (R102). -/
def descNoSnoop (d : DescBits) : Bool := d.getLsbD 96
/-- Reserved bits of a descriptor are zero and its LENGTH is not. -/
def descOk (d : DescBits) : Bool := bits d.toNat 97 31 == 0 && descLen d != 0

/-- The single descriptor held inline. -/
def inlineDesc (w : SqeBits) : DescBits := BitVec.ofNat 128 (sqeBytes w 32 16)
/-- Address and count of a scatter list. -/
def listAddr (w : SqeBits) : Nat := sqeBytes w 32 8
def listCount (w : SqeBits) : Nat := sqeBytes w 40 4

/-- QE reads the scatter list of an entry before admission; one at an unaligned address is not read (R103). -/
def listRead (w : SqeBits) : Bool :=
  movesData (opcode w) && dlist w && listAddr w % 16 == 0 && decide (1 ≤ listCount w ∧ listCount w ≤ 65536)

/-- That read ended in an error completion. -/
def listReadFailed (w : SqeBits) (read : Option (List DescBits)) : Bool := listRead w && read.isNone

/-- The descriptors of a command, or the byte offset of the failing field (R103): `read` is the list QE read, none
when that read ended in an error completion. -/
def descriptors (w : SqeBits) (read : Option (List DescBits)) (len : Nat) : Except Nat (List DescBits) :=
  if dlist w then
    if listAddr w % 16 ≠ 0 then .error 32
    else if listCount w = 0 ∨ listCount w > 65536 then .error 40
    else match read with
      | none => .error 32
      | some ds =>
        if ds.length ≠ listCount w ∨ !(ds.all descOk) ∨ (ds.map descLen).sum ≠ len then .error 32 else .ok ds
  else
    let d := inlineDesc w
    if !(descOk d) ∨ descLen d ≠ len then .error 32 else .ok [d]

/-- The transfer length of a command that moves data (R103, Tables 3.2, 3.11). -/
def transferLen (w : SqeBits) : Nat :=
  match opcode w with
  | 0x01 => 4096
  | 0x12 => 1024
  | 0x20 => 64
  | 0x40 => rangeLen w
  | 0x41 => rangeLen w
  | 0x44 => sqeBytes w 28 4
  | _ => lengthField w

/-- LENGTH has the value or the range the command's own rule states (R108, R113, R124, R130), and the range of an I/O
command ends within the stream (R21; the field named is LENGTH, log 12). -/
def badLength (w : SqeBits) : Option Nat :=
  let l := lengthField w
  match opcode w with
  | 0x01 => if l = 4096 then none else some 24
  | 0x04 => if 1 ≤ l ∧ l ≤ 16384 then none else some 24
  | 0x30 => if 1 ≤ l ∧ l ≤ 4096 then none else some 24
  | 0x31 => if 1 ≤ l ∧ l ≤ 4096 then none else some 24
  | 0x40 => if offset w + rangeLen w ≤ 2 ^ 48 then none else some 24
  | 0x41 => if offset w + rangeLen w ≤ 2 ^ 48 then none else some 24
  | 0x42 => if offset w + rangeLen w ≤ 2 ^ 48 then none else some 24
  | 0x45 => if offset w + rangeLen w ≤ 2 ^ 48 then none else some 24
  | 0x44 =>
    let b := sqeBytes w 28 4
    if ¬ offset w + rangeLen w ≤ 2 ^ 48 then some 24
    else if 64 ≤ b ∧ b % 32 = 0 then none else some 28
  | _ => none

/-- Fields and reserved bits of an entry (R64, R103): the descriptors, or the failing field's byte offset. -/
def fieldCheck (w : SqeBits) (read : Option (List DescBits)) : Except Nat (List DescBits) :=
  if cid w = 0xFFFF then .error 2
  else match badReserved w with
    | some b => .error b
    | none =>
      if opcode w = 0x40 ∧ cform w = 3 then .error 6
      else match badLength w with
        | some b => .error b
        | none => if movesData (opcode w) then descriptors w read (transferLen w) else .ok []

/-- The bytes of a transfer cut along its descriptors: (address, No Snoop, bytes) (R102). -/
def scatter : List DescBits → List Byte → List (Nat × Bool × List Byte)
  | [], _ => []
  | d :: ds, bs =>
    if bs.isEmpty then [] else (descAddr d, descNoSnoop d, bs.take (descLen d)) :: scatter ds (bs.drop (descLen d))

/-- `scatter` of bytes that start off bytes into the transfer. -/
def scatterAt : List DescBits → Nat → List Byte → List (Nat × Bool × List Byte)
  | [], _, _ => []
  | d :: ds, off, bs =>
    if bs.isEmpty then []
    else if off ≥ descLen d then scatterAt ds (off - descLen d) bs
    else (descAddr d + off, descNoSnoop d, bs.take (descLen d - off)) :: scatter ds (bs.drop (descLen d - off))

end Sys2Proof.Machine
end

