-- ==== Sys2Proof/Machine/Ops.lean ====
section
/-! DEFINITION. The named operations every command is built from: time, settings, staging memory, outputs, functions
and queues, events, completions, the error log and the fault ring. -/

namespace Sys2Proof.Machine

/-! ## Time -/

/-- Control-clock cycles in a millisecond (216 MHz, R465). -/
abbrev msCycles : Nat := 216000

/-- At least ms milliseconds have passed since the instant t. -/
def elapsed (s : State) (t ms : Nat) : Bool := s.now ≥ t + msCycles * ms

/-- Meridian: bits [95:32] of the accumulator, ns (R465). -/
def meridian (s : State) : Nat := s.mt.acc.toNat >>> 32

/-- The nominal increment (R465). -/
abbrev nominalInc : Nat := 0x4A12F684C

/-! ## Settings -/

/-- The value in force of entry idx:sub as the settings hold it: what was written, else the default. -/
def odVal (s : State) (idx sub : Nat) : List Byte :=
  get s.od (odKey idx sub) (match odFind idx sub with | some e => e.dflt | none => [])

/-- A setting as an unsigned number. -/
def setN (s : State) (idx sub : Nat) : Nat := unle (odVal s idx sub)

/-- A setting as a signed number of n bits. -/
def setI (s : State) (n idx sub : Nat) : Int := signed n (setN s idx sub)

/-- The active settings bank (R544). -/
def activeBank (s : State) : Bank := if s.flash.active1 then s.flash.bank1 else s.flash.bank0

/-- s with its active bank replaced. -/
def setBank (s : State) (b : Bank) : State :=
  if s.flash.active1 then { s with flash.bank1 := b } else { s with flash.bank0 := b }

/-- A list of entries with v kept under key, or without it when v is the default d. -/
def odPutIn (key : Nat) (v d : List Byte) (l : List (Nat × List Byte)) : List (Nat × List Byte) := putD key v d l

/-- An entry set to v: in force at once and, when persistent, in both copies of the active bank (R125, R483). -/
def odPut (s : State) (idx sub : Nat) (e : OdEntry) (v : List Byte) : State :=
  let key := odKey idx sub
  let s := { s with od := odPutIn key v e.dflt s.od }
  if e.pers then
    let b := activeBank s
    let f := fun c : Option (List (Nat × List Byte)) => c.map (odPutIn key v e.dflt)
    setBank s { b with copy0 := f b.copy0, copy1 := f b.copy1 }
  else s

/-- A service session is open (R547). -/
def sessionOpen (s : State) : Bool := s.fw.session != 0

/-! ## Staging memory (R138) -/

/-- Staging ends at 30 GiB. -/
abbrev stagingTop : Nat := 0x780000000

/-- The byte at a staging address; a byte nothing has written reads 0 (log 8). -/
def stRead (m : List Host.Cell) (a : Nat) : Byte := get m a 0

/-- A byte written; outside staging there is nothing to write. -/
def stWrite (m : List Host.Cell) (a : Nat) (v : Byte) : List Host.Cell := if a < stagingTop then putD a v 0 m else m

/-- Consecutive bytes written from a on. -/
def stWriteBytes : List Host.Cell → Nat → List Byte → List Host.Cell
  | m, _, [] => m
  | m, a, b :: bs => stWriteBytes (stWrite m a b) (a + 1) bs

/-- n consecutive bytes. -/
def stReadBytes (m : List Host.Cell) (a : Nat) : Nat → List Byte
  | 0 => []
  | n + 1 => stRead m a :: stReadBytes m (a + 1) n

/-- The canonical form: addresses strictly rising from lo on, within staging, no listed zero. -/
def memWfFrom : Nat → List Host.Cell → Bool
  | _, [] => true
  | lo, c :: r => decide (lo ≤ c.1) && decide (c.1 < stagingTop) && decide (c.2 ≠ 0) && memWfFrom (c.1 + 1) r

/-- The canonical form of memory. -/
def Memory.wf (m : List Host.Cell) : Bool := memWfFrom 0 m

/-! ## Outputs -/

/-- An output. -/
def emit (s : State) (e : Emit) : State := { s with out := e :: s.out }

/-- The next free value's index, and the state after it is taken. -/
def freshFree (s : State) : Nat × State := (s.free, { s with free := s.free + 1 })

/-! ## Functions -/

/-- What QE keeps for function n. -/
def fnOf (s : State) (n : Nat) : FnState := get s.qe.fns n {}

/-- s with function n's record replaced. -/
def setFn (s : State) (n : Nat) (f : FnState) : State := { s with qe.fns := put n f s.qe.fns }

/-- s with function n's record changed. -/
def modFn (s : State) (n : Nat) (g : FnState → FnState) : State := setFn s n (g (fnOf s n))

/-- NumVFs and VF Enable cover function n; PF0 always counts as covered (R52). -/
def covered (s : State) (n : Nat) : Bool := n == 0 || (s.glb.vfEnable && decide (n ≤ s.glb.numVfs) && decide (n < 256))

/-- MSI-X vectors of a function (R95). -/
def vectors (n : Nat) : Nat := if n = 0 then 256 else 64

/-- An output towards function n's host memory, on behalf of a command or of none: held while the function is in D3hot
(R94). -/
def emitFor (s : State) (n : Nat) (c : Option Nat) (e : Emit) : State :=
  if (fnOf s n).d3hot then { s with qe.held := s.qe.held ++ [(n, c, e)] } else emit s e

/-- An output towards function n's host memory that is no command's data. -/
def emitFn (s : State) (n : Nat) (e : Emit) : State := emitFor s n none e

/-- Data of a command written to host memory of its function, each piece as its descriptor says (R102). -/
def dmaOut (s : State) (c : Cmd) (ws : List (Nat × Bool × List Byte)) : State :=
  ws.foldl (fun s w => emitFor s c.fn (some c.id) (.hostWrite c.fn w.1 w.2.1 w.2.2)) s

/-! ## MSI-X (R95, R96, R557) -/

/-- What word i of an MSI-X table holds after reset: Vector Control, the fourth word of an entry, masks it (log 24). -/
def msixReset (i : Nat) : Word := if i % 4 = 3 then 1 else 0

/-- Word i of a function's MSI-X table. -/
def msixWord (f : FnState) (i : Nat) : Word := get f.msix i (msixReset i)

/-- The entry of a vector is masked: bit 0 of its Vector Control. -/
def vectorMasked (f : FnState) (v : Nat) : Bool := (msixWord f (4 * v + 3)).getLsbD 0

/-- A vector is sent; while it is masked, or its function drains (R88), its pending bit is set instead (R96). -/
def sendVector (s : State) (n v : Nat) : State :=
  if vectorMasked (fnOf s n) v || (fnOf s n).state == 2 then
    modFn s n fun f => { f with pendingVecs := if f.pendingVecs.contains v then f.pendingVecs else f.pendingVecs ++ [v] }
  else emitFn s n (.msix n v)

/-- A word of the MSI-X table is written: of an address the bits above 1, of Vector Control the mask alone; unmasking a pending
vector sends it, unless the function drains (R88, R96, R557) (log 24). -/
def msixWrite (s : State) (n i v : Nat) : State :=
  let w := match i % 4 with
    | 0 => v / 4 * 4
    | 3 => v % 2
    | _ => v
  let s := modFn s n fun f => { f with msix := putD i (BitVec.ofNat 32 w) (msixReset i) f.msix }
  let vec := i / 4
  if i % 4 = 3 ∧ w = 0 ∧ (fnOf s n).state ≠ 2 ∧ (fnOf s n).pendingVecs.contains vec then
    emitFn (modFn s n fun f => { f with pendingVecs := f.pendingVecs.filter (· != vec) }) n (.msix n vec)
  else s

/-- Word i of a function's pending bit array. -/
def pbaWord (f : FnState) (i : Nat) : Nat :=
  ((f.pendingVecs.filter fun v => v / 32 == i).map fun v => 2 ^ (v % 32)).sum

/-! ## Queues -/

/-- The created queue pair with global number g. -/
def queueOf (s : State) (g : Nat) : Option Queue := s.qe.queues.find? (fun q => q.g == g)

/-- s with the record of queue q.g replaced. -/
def setQueue (s : State) (q : Queue) : State :=
  { s with qe.queues := s.qe.queues.map fun p => if p.g = q.g then q else p }

/-- s with queue g changed by f. -/
def modQueue (s : State) (g : Nat) (f : Queue → Queue) : State :=
  { s with qe.queues := s.qe.queues.map fun p => if p.g = g then f p else p }

/-- The owner of global queue g and its local number there (R54, R55); PF0 uses global numbers. -/
def ownerOf (s : State) (g : Nat) : Option Assign :=
  if g < 256 then some { g, fn := g, loc := 0 } else s.qe.assigns.find? (fun a => a.g == g)

/-- The global queue a function's number names (R55, R59). -/
def globalOf (s : State) (fn q : Nat) : Option Nat :=
  if fn = 0 then (if q < 32768 then some q else none)
  else if q = 0 then (if fn < 256 then some fn else none)
  else (s.qe.assigns.find? fun a => a.fn == fn && a.loc == q).map Assign.g

/-- Queue numbers a function holds, its admin queue included (R53, R55). -/
def qcount (s : State) (fn : Nat) : Nat := 1 + s.qe.assigns.countP fun a => a.fn == fn

/-- The number a CQE of queue q carries: local for a VF, global for PF0 (Table 2.12). -/
def sqidOf (s : State) (q : Queue) : Nat :=
  if q.fn = 0 then q.g else if q.g < 256 then 0 else ((ownerOf s q.g).map Assign.loc).getD 0

/-! ## Commands in flight -/

/-- The command with identifier id. -/
def cmdOf (s : State) (id : Nat) : Option Cmd := s.qe.cmds.find? (fun c => c.id == id)

/-- s with command c.id replaced. -/
def setCmd (s : State) (c : Cmd) : State :=
  { s with qe.cmds := s.qe.cmds.map fun d => if d.id = c.id then c else d }

/-- s with command id changed by f. -/
def modCmd (s : State) (id : Nat) (f : Cmd → Cmd) : State :=
  { s with qe.cmds := s.qe.cmds.map fun d => if d.id = id then f d else d }

/-- s without command id and its range-lock entry (R77). -/
def removeCmd (s : State) (id : Nat) : State :=
  { s with qe.cmds := s.qe.cmds.filter (fun d => d.id != id), qe.locks := s.qe.locks.filter (fun l => l.cmd != id) }

/-- Commands in flight device-wide (QE.INFLIGHT, R53); a dropped WRITE with kept pieces is no longer one (R84). -/
def inFlight (s : State) : Nat := s.qe.cmds.countP fun c => !c.dropped

/-- Commands of queue g in flight, in admission order. -/
def cmdsOf (s : State) (g : Nat) : List Cmd := s.qe.cmds.filter fun c => c.q == g && !c.dropped

/-- Entries of a ring of depth d between two indices. -/
def ringDist (d head tail : Nat) : Nat := if d = 0 then 0 else (tail + d - head) % d

/-- CQEs posted and not released (R68). -/
def unreleased (q : Queue) : Nat := q.posted

/-! ## GLB interrupt flags (R561) -/

/-- Bit b of GLB.ISTAT is set; the vector is sent when an enabled bit rises. -/
def setIstat (s : State) (b : Nat) : State :=
  if s.glb.istat.getLsbD b then s
  else
    let s := { s with glb.istat := s.glb.istat ||| BitVec.ofNat 7 (2 ^ b) }
    if s.glb.icfgEnable.getLsbD b then sendVector s 0 s.glb.icfgVector.toNat else s

/-! ## Fault ring (R490, R511) -/

/-- A fault record takes its place in the ring. -/
def ringAdd (s : State) (r : FaultRec) : State :=
  let q := s.health.seq + 1
  { s with health.seq := q, health.ring := ({ r with seq := q } :: s.health.ring).take 60 }

/-- A fault is recorded; while Lodestar restarts, the record waits for the end of the restart (R490). -/
def faultRec (s : State) (fcode : Nat) (permanent : Bool) (unit p1 p2 : Nat) : State :=
  let r : FaultRec := { seq := 0, time := meridian s, code := fcode, permanent, unit, p1, p2 }
  if s.glb.restarting.isSome then { s with health.lateFaults := s.health.lateFaults ++ [r] } else ringAdd s r

/-- No unit. -/
abbrev noUnit : Nat := 0xFFFF

/-- Tape has stopped, or the head leaves its band: servo is off, and no word or LPOS stands (Table 12.1) (log 128). -/
def servoOff (s : State) : State :=
  { s with
    sv.state := 0, sv.lposOk := false, sv.pesOk := false, sv.bandOk := false,
    sv.ch := s.sv.ch.map fun c => { c with word := none, off := none, marked := false, bits := [] } }

/-- Substitution bit b of the health page is set (Table 17.5, bytes 68-71). -/
def setSubst (s : State) (b : Nat) : State := { s with health.subst := s.health.subst ||| BitVec.ofNat 8 (2 ^ b) }

/-! ## Completion queue entries and interrupts -/

/-- What a command ends with, beside its identity. -/
structure Res where
  status : Nat
  /-- CQE bytes 10-15 -/
  info : Nat := 0
  d1 : Nat := 0
  d2 : Nat := 0
  /-- bytes of committed pieces or delivered, for the error log -/
  bytes : Nat := 0
  staged : Bool := false
  recovered : Bool := false
  nonce : BitVec 96 := 0
deriving DecidableEq, Repr

/-- The 32 bytes of a CQE, little-endian (Table 2.12, R6). -/
def cqeBytes (e : Cqe) : List Byte :=
  le 2 e.cid.toNat ++ le 2 e.sqid ++ le 2 e.sqHead ++ le 1 e.epoch.toNat ++
    le 1 (b2n e.phase + 2 * b2n e.frozen + 4 * b2n e.staged + 8 * b2n e.recovered + 16 * b2n e.vvalid) ++
    le 2 e.status ++ le 6 e.info ++ le 12 e.nonce.toNat ++ le 4 e.version

/-- Host address of entry i of a CQ. -/
def cqeAddr (q : Queue) (i : Nat) : Nat := q.cqBase + 32 * i

/-- One CQE is written at the tail of queue g: PHASE, FROZEN and SQHEAD are those of the posting (R65 to R67, R80), the
vector is sent when the count is reached or at once for a failure or a marker (R96). -/
def postCqe (s : State) (g : Nat) (mk : Queue → Cqe) (atOnce : Bool) : State :=
  match queueOf s g with
  | none => s
  | some q =>
    let e := mk q
    let t := q.cqTail + 1
    let wrap := decide (t ≥ q.cqDepth)
    let n := q.unsignalled + 1
    let send := atOnce || decide (n ≥ q.cqCount)
    let q' : Queue := { q with cqTail := (if wrap then 0 else t), phase := (if wrap then !q.phase else q.phase),
                               posted := q.posted + 1, unsignalled := (if send then 0 else n),
                               oldest := (if q.unsignalled = 0 then s.now else q.oldest) }
    let s := emitFn (setQueue s q') q.fn (.cqe q.fn g q.cqTail e (cqeAddr q q.cqTail) (cqeBytes e))
    if send then sendVector s q.fn q.vector else s

/-- An SQ freezes: FROZEN is set; entries fetched and not admitted count as not consumed (R80, R81). -/
def freeze (s : State) (g : Nat) : State := modQueue s g fun q => { q with frozen := true }

/-- An entry is added to a function's error log (R133, Table 3.15). -/
def logError (s : State) (fn : Nat) (mk : Nat → ErrEntry) : State :=
  modFn s fn fun f =>
    let n := f.errSeq + 1
    { f with errSeq := n, errLog := (mk n :: f.errLog).take 256 }

/-- The status is OK or OK_RECOVERED. -/
def isOk (st : Nat) : Bool := statusClass st == 0

/-- A command completes: its CQE is posted, and a status of another class than 0 freezes the SQ and is logged (R80,
R132, R133; log 133); its range-lock entry goes (R77). -/
def finish (s : State) (c : Cmd) (r : Res) : State :=
  match queueOf s c.q with
  | none => removeCmd s c.id
  | some q =>
    let bad := !isOk r.status
    let caused := bad && !q.frozen
    let s := if bad then freeze s c.q else s
    let vv := opcode c.sqe == 0x40 && c.version != 0
    let s := if bad then logError s c.fn fun n =>
        { seq := n, time := meridian s, sqid := sqidOf s q, cid := cid c.sqe, status := r.status, epoch := c.epoch,
          opcode := opcode c.sqe, stream := stream c.sqe, part := partition c.sqe, frozen := caused,
          vvalid := c.version != 0, offset := offset c.sqe, length := lengthField c.sqe, bytes := r.bytes,
          version := c.version, detail1 := r.d1, detail2 := r.d2 } else s
    let s := postCqe s c.q (fun q =>
        { cid := BitVec.ofNat 16 (cid c.sqe), sqid := sqidOf s q, sqHead := q.head, epoch := BitVec.ofNat 8 c.epoch,
          phase := q.phase, frozen := q.frozen, staged := r.staged, recovered := r.recovered, vvalid := vv,
          status := r.status, info := r.info, nonce := r.nonce,
          version := if vv then c.version % 2 ^ 32 else 0 }) bad
    removeCmd s c.id

/-- A command completes with a bare status. -/
def finishSt (s : State) (c : Cmd) (st : Nat) : State := finish s c { status := st }

/-- A command completes with INVALID_FIELD at a field's byte offset (Table 3.15, detail 1). -/
def finishField (s : State) (c : Cmd) (off : Nat) : State := finish s c { status := stInvalidField, d1 := off }

/-- A command is finished by its identifier, if it is still there. -/
def finishId (s : State) (id : Nat) (r : Res) : State :=
  match cmdOf s id with
  | some c => finish s c r
  | none => s

/-! ## Events (R97 to R100, R135, R136) -/

/-- An event parameter block: bytes 20 on of the record. -/
def evParams (ps : List (Nat × List Byte)) : List Byte := ps.foldl (fun a p => patch a (p.1 - 20) p.2) (zeros 44)

/-- One event is queued for function n: it completes the oldest EVENT_WAIT, waits in the queue of 64, or is counted as
lost (R98, R99). -/
def queueFor1 (s : State) (n ecode scope part : Nat) (params : List Byte) : State :=
  let f := fnOf s n
  if f.events.length ≥ 64 then setFn s n { f with evLost := satAdd (2 ^ 32 - 1) f.evLost 1 }
  else
    let q := f.evSeq + 1
    let r : EvRec := { seq := q, time := meridian s, code := ecode, scope, part, params }
    let f := { f with evSeq := q, evLog := (r :: f.evLog).take 256 }
    match f.waits with
    | w :: ws =>
      let s := setFn s n { f with waits := ws }
      finishId s w { status := stOk, info := ecode + 65536 * (q % 2 ^ 32) }
    | [] => setFn s n { f with events := f.events ++ [r] }

/-- Space freed in a function's event queue brings one EVENTS_LOST for those that were not queued (R99). -/
def flushLost (s : State) (n : Nat) : State :=
  let f := fnOf s n
  if f.evLost > 0 ∧ f.events.length < 64 then
    queueFor1 (setFn s n { f with evLost := 0 }) n evEventsLost 2 0 (evParams [(20, le 4 f.evLost)])
  else s

/-- An EMCY message is queued: 16 wait, the oldest is dropped for a new one (R477); in Stopped it is only counted
(R476). -/
def queueEmcy (s : State) (m : Emcy) : State :=
  if s.fi.nmt = 3 then { s with fi.suppr := satAdd 65535 s.fi.suppr 1 }
  else if s.fi.emcy.length ≥ 16 then { s with fi.emcy := s.fi.emcy.drop 1 ++ [m], fi.lost := satAdd 65535 s.fi.lost 1 }
  else { s with fi.emcy := s.fi.emcy ++ [m] }

/-- Functions that receive an event (R97): scope 0 device, 1 partition p, 2 function p. -/
def evTargets (s : State) (scope p : Nat) : List Nat :=
  match scope with
  | 0 => [0]
  | 1 => (s.qe.fns.filter fun x => x.2.pmask.getLsbD p).map Prod.fst
  | _ => [p]

/-- An asynchronous event is queued for the functions of its scope and, for device and partition scope, as EMCY
(R97, R136, R477). -/
def queueNow (s : State) (ecode scope p : Nat) (params : List Byte) : State :=
  let s := (evTargets s scope p).foldl
    (fun s n => queueFor1 s n ecode scope (if scope = 1 then p else 0) params) s
  if scope = 2 then s
  else queueEmcy s { code := ecode, scope, part := (if scope = 1 then p else 0), time := meridian s, params }

/-- Events that need no Lodestar: BPM's rejected release, GLB's Twilight, QE's lost events. -/
def byHardware (ecode : Nat) : Bool := ecode == evReleaseRejected || ecode == evTwilight || ecode == evEventsLost

/-- An event is queued; one that Lodestar queues waits for the end of its restart (R497), and in Twilight, which holds
Lodestar in reset, it never comes (R503). -/
def queueEvent (s : State) (ecode scope p : Nat) (params : List Byte) : State :=
  if byHardware ecode then queueNow s ecode scope p params
  else if s.glb.twilight.isSome then s
  else if s.glb.restarting.isSome then { s with health.lateEvents := s.health.lateEvents ++ [(ecode, scope, p, params)] }
  else queueNow s ecode scope p params

/-! ## Power wake and interrupts of GLB -/

/-- The mount state changes (GLB.STATUS.MOUNT, ISTAT.MOUNTCHG). -/
def setMount (s : State) (m : Nat) : State :=
  if s.media.mount = m then s else setIstat { s with media.mount := m } 5

/-- The power state changes; POWER_STATE_CHANGED is posted (Table 3.17). -/
def setPowerState (s : State) (p : Nat) : State :=
  if s.glb.power = p then s
  else
    let old := s.glb.power
    queueEvent { s with glb.power := p } evPowerState 0 0 (evParams [(20, le 1 p), (21, le 1 old)])

/-- A command that needs tape returns the device to ACTIVE (R115) (log 43). -/
def wake (s : State) : State := setPowerState s 0

end Sys2Proof.Machine
end

