-- ==== Sys2Proof/Machine/Pool.lean ====
section
/-! DEFINITION. The buffer pool manager: handles, holders, the free ring and its cache, floors and ranks, parked
requests, rejected releases, and the carving of pools (R145 to R162). -/

namespace Sys2Proof.Machine

/-! ## Classes and ranks (Table 4.4) -/

abbrev clsQeIn : Nat := 0
abbrev clsQeOut : Nat := 1
abbrev clsFm : Nat := 5
abbrev clsFmv : Nat := 6
abbrev clsRcv : Nat := 8
abbrev clsAlm : Nat := 9
abbrev clsPl : Nat := 10
abbrev clsPin : Nat := 12

/-- The order in which requests of one cycle are answered: ALM, RCV, then the ranks of Table 4.4; none for a class
that does not allocate (R158). -/
def allocRank (cls : Nat) : Option Nat :=
  match cls with
  | 9 => some 0
  | 8 => some 1
  | 6 => some 2
  | 5 => some 3
  | 10 => some 4
  | 2 => some 6
  | 1 => some 7
  | 3 => some 8
  | 7 => some 9
  | 11 => some 10
  | 13 => some 11
  | 15 => some 12
  | 0 => some 13
  | _ => none

/-! ## Pools and buffers -/

/-- Pool p; a pool never configured is empty. -/
def poolOf (s : State) (p : Nat) : Pool := s.bpm.pools.getD p (Pool.carved 0 0 0 0)

/-- s with pool p replaced. -/
def setPool (s : State) (p : Nat) (x : Pool) : State := { s with bpm.pools := s.bpm.pools.set p x }

/-- Buffers of a pool. -/
def Pool.total (x : Pool) : Nat := poolCount x.size x.mib

/-- Free buffers of a pool (R157). -/
def Pool.freeCount (x : Pool) : Nat := x.total - x.bufs.length

/-- The floor for a class holds (R157). -/
def Pool.floorOk (x : Pool) (cls : Nat) : Bool :=
  if cls = clsAlm then x.freeCount ≥ 1
  else if cls = clsRcv then x.freeCount > x.alm
  else x.freeCount > x.alm + x.rcv

/-- The handle of buffer i of pool p (R149). -/
def handleOf (p i : Nat) : BitVec 32 := BitVec.ofNat 32 (2 ^ 28 * p + i)
/-- Pool and index of a handle. -/
def poolNo (h : BitVec 32) : Nat := bits h.toNat 28 4
def bufNo (h : BitVec 32) : Nat := bits h.toNat 0 28
/-- The null handle (R149). -/
abbrev nullHandle : BitVec 32 := 0xFFFFFFFF

/-- A handle names a buffer (R149). -/
def validHandle (s : State) (h : BitVec 32) : Bool := h != nullHandle && decide (bufNo h < (poolOf s (poolNo h)).total)

/-- The record of an allocated buffer. -/
def Pool.buf (x : Pool) (i : Nat) : Option Buf := x.bufs.find? (fun b => b.idx == i)

/-- Bytes of a buffer. -/
def Pool.bufSize (x : Pool) : Nat := 4096 * 2 ^ x.size

/-- Staging address of the first byte of a buffer (R146). -/
def bufAddr (s : State) (h : BitVec 32) : Nat :=
  0x280000000 + ((s.bpm.pools.take (poolNo h)).map fun x => mib * x.mib).sum +
    bufNo h * (poolOf s (poolNo h)).bufSize

/-! ## Free ring and cache (R155) -/

/-- n indices from the head of the ring. -/
def takeRuns : Nat → List (Nat × Nat) → List Nat × List (Nat × Nat)
  | _, [] => ([], [])
  | n, (a, l) :: r =>
    if l ≤ n then
      let t := takeRuns (n - l) r
      ((List.range l).map (a + ·) ++ t.1, t.2)
    else ((List.range n).map (a + ·), (a + n, l - n) :: r)

/-- Below the low watermark the cache is refilled with 128 handles from the ring. -/
def Pool.refill (x : Pool) : Pool :=
  if x.cache.length < 128 then
    let t := takeRuns 128 x.ring
    { x with cache := t.1.reverse ++ x.cache, ring := t.2 }
  else x

/-- Above the high watermark the 128 oldest handles of the cache go to the end of the ring. -/
def Pool.spill (x : Pool) : Pool :=
  if x.cache.length > 384 then
    let k := x.cache.length - 128
    { x with cache := x.cache.take k, ring := x.ring ++ (x.cache.drop k).reverse.map fun i => (i, 1) }
  else x

/-- The next free index, newest of the cache first; what the allocation leaves below the watermark is refilled at once. -/
def Pool.pop (x : Pool) : Option (Nat × Pool) :=
  let x := if x.cache.isEmpty then x.refill else x
  match x.cache with
  | i :: r => some (i, ({ x with cache := r } : Pool).refill)
  | [] => none

/-- A freed index goes to the cache. -/
def Pool.push (x : Pool) (i : Nat) : Pool := ({ x with cache := i :: x.cache } : Pool).spill

/-! ## Allocation (R151, R157 to R160) -/

/-- A buffer given to a class: count 1, only its bit set. -/
def allocNow (s : State) (p cls : Nat) : Option (BitVec 32 × State) :=
  let x := poolOf s p
  if (allocRank cls).isSome && x.floorOk cls then
    match x.pop with
    | some (i, x) =>
      some (handleOf p i,
        setPool s p { x with bufs := { idx := i, count := 1, holders := BitVec.ofNat 16 (2 ^ cls) } :: x.bufs })
    | none => none
  else none

/-- Whether a parked request comes before a new one of rank r (R159). -/
def parkedAhead (x : Pool) (r : Nat) : Bool :=
  x.parked.any fun k => x.floorOk k.cls && decide ((allocRank k.cls).getD 99 ≤ r)

/-- A request: a buffer, or the null handle and a place among the parked requests (R159). -/
def allocate (s : State) (p cls : Nat) (cmd : Option Nat) : BitVec 32 × State :=
  match allocRank cls with
  | none => (nullHandle, s)
  | some r =>
    let x := poolOf s p
    let park := (nullHandle, setPool s p { x with parked := x.parked ++ [{ cls, cmd, since := s.now }] })
    if p ≥ 16 then (nullHandle, s)
    else if parkedAhead x r then park
    else match allocNow s p cls with
      | some a => a
      | none => park

/-- The parked request of a pool that is answered next: the best rank among those whose floor holds, then the order of
arrival (R158, R159). -/
def nextParked (x : Pool) : Option Nat :=
  let ok := x.parked.zipIdx.filter fun k => x.floorOk k.1.cls
  (ok.foldl (fun best k =>
    match best with
    | none => some k
    | some b => if (allocRank k.1.cls).getD 99 < (allocRank b.1.cls).getD 99 then some k else best) none).map Prod.snd

/-! ## References (R151 to R154) -/

/-- PIN references of a buffer (R152). -/
def Buf.pins (b : Buf) : Nat := b.count - popBits 16 (b.holders &&& ~~~(BitVec.ofNat 16 (2 ^ clsPin))).toNat

/-- A reference taken on an allocated buffer; the null handle and no change when it fails (R151). -/
def acquire (s : State) (h : BitVec 32) (cls : Nat) : BitVec 32 × State :=
  let x := poolOf s (poolNo h)
  match if validHandle s h then x.buf (bufNo h) else none with
  | none => (nullHandle, s)
  | some b =>
    if (b.holders.getLsbD cls && cls != clsPin) || b.count ≥ 255 || cls ≥ 16 then (nullHandle, s)
    else (h, setPool s (poolNo h) { x with
        bufs := x.bufs.map fun c => if c.idx = b.idx then
        { c with count := c.count + 1, holders := c.holders ||| BitVec.ofNat 16 (2 ^ cls) } else c })

/-- A rejected release is counted, recorded and reported at most once per pool and millisecond (R161, R162). -/
def rejectRelease (s : State) (h : BitVec 32) (cls : Nat) (holders : BitVec 16) (wasFree : Bool) : State :=
  let p := poolNo h
  let s := { s with bpm.rejects := satAdd (2 ^ 32 - 1) s.bpm.rejects 1, bpm.rejPool := p, bpm.rejUnit := cls % 16,
                    bpm.rejHolders := holders, bpm.rejFree := wasFree, bpm.rejIdx := bufNo h }
  let s := faultRec s 0x05 false p 0 h.toNat
  let x := poolOf s p
  let quiet := match x.rejectAt with | some t => !elapsed s t 1 | none => false
  if quiet then s
  else
    let s := setPool s p { x with rejectAt := some s.now }
    queueEvent s evReleaseRejected 0 0
      (evParams [(20, le 1 p), (24, le 4 (bufNo h)), (28, le 1 cls), (30, le 2 holders.toNat)])

/-- A reference released; at count zero the buffer is free and its handle goes to the cache (R152, R154, R161,
R162; log 132). -/
def release (s : State) (h : BitVec 32) (cls : Nat) : State :=
  if !validHandle s h then rejectRelease s h cls 0 false
  else
    let x := poolOf s (poolNo h)
    match x.buf (bufNo h) with
    | none => rejectRelease s h cls 0 true
    | some b =>
      if !b.holders.getLsbD cls then rejectRelease s h cls b.holders false
      else
        let keep := cls == clsPin && decide (b.pins > 1)
        let hs := if keep then b.holders else b.holders &&& ~~~(BitVec.ofNat 16 (2 ^ cls))
        if b.count ≤ 1 then
          setPool s (poolNo h) (({ x with bufs := x.bufs.filter fun c => c.idx != b.idx } : Pool).push b.idx)
        else setPool s (poolNo h) { x with
            bufs := x.bufs.map fun c => if c.idx = b.idx then
            { c with count := c.count - 1, holders := hs } else c }

/-- Buffers released one after another. -/
def releaseAll (s : State) (hs : List (BitVec 32)) (cls : Nat) : State := hs.foldl (fun s h => release s h cls) s

/-- A command's parked requests are withdrawn. -/
def unpark (s : State) (id : Nat) : State :=
  { s with bpm.pools := s.bpm.pools.map fun x => { x with parked := x.parked.filter fun k => k.cmd != some id } }

/-! ## Poison (R139, R140) -/

/-- The 64-byte line an address lies in. -/
def lineOf (a : Nat) : Nat := a / 64

/-- Lines written whole by n bytes from address a lose their poison. -/
def clearPoison (s : State) (a n : Nat) : State :=
  { s with bpm.poison := s.bpm.poison.filter fun l => !(decide (a ≤ 64 * l) && decide (64 * l + 64 ≤ a + n)) }

/-- Bytes written to staging (R138, R140). -/
def stageWrite (s : State) (a : Nat) (bs : List Byte) : State :=
  clearPoison { s with bpm.mem := stWriteBytes s.bpm.mem a bs } a bs.length

/-- A unit has written n bytes of a buffer from an offset on (R140). -/
def fillBuf (s : State) (h : BitVec 32) (off n : Nat) : State :=
  if s.bpm.poison.isEmpty ∨ h = nullHandle then s else clearPoison s (bufAddr s h + off) n

/-- A unit has written n bytes over consecutive buffers. -/
def fillBufs (s : State) (hs : List (BitVec 32)) (n : Nat) : State :=
  hs.zipIdx.foldl (fun s h =>
    let size := (poolOf s (poolNo h.1)).bufSize
    fillBuf s h.1 0 (min size (n - h.2 * size))) s

/-! ## Carving (R145, R147) -/

/-- The layout the settings ask for: size, MiB and reserves of each pool. -/
def poolSettings (s : State) : List (Nat × Nat × Nat × Nat) :=
  (List.range 16).map fun p =>
    let l := setN s 0x2180 (p + 1)
    let r := setN s 0x2181 (p + 1)
    (bits l 0 4, bits l 8 24, bits r 0 16, bits r 16 16)

/-- The layout is valid (R147). -/
def layoutValid (l : List (Nat × Nat × Nat × Nat)) : Bool :=
  l.zipIdx.all (fun x => (x.2 < 8 && x.1.2.1 != 0) || (x.2 ≥ 8 && x.1.2.1 == 0)) &&
  l.all (fun x => decide (x.1 ≤ 10) && x.2.1 % 4 == 0 && decide (x.2.2.1 + x.2.2.2 ≤ poolCount x.1 x.2.1)) &&
  decide ((l.map fun x => x.2.1).sum ≤ 20480)

/-- A pool carved anew keeps what is no part of its layout: parked requests, the count of exhausted waits, the time of its last event
(R159, R160, R162). -/
def Pool.keep (old new : Pool) : Pool := { new with parked := old.parked, exhausted := old.exhausted, rejectAt := old.rejectAt }

/-- Pools carved at a MOUNT: the settings' layout when valid and every buffer is free, else the default layout or the
layout in force, with the substitution recorded (R147; log 134). -/
def carve (s : State) : State :=
  if s.bpm.pools.any fun x => !x.bufs.isEmpty then setSubst s 1
  else
    let l := poolSettings s
    if layoutValid l then
      { s with bpm.pools := List.zipWith Pool.keep s.bpm.pools (l.map fun x => Pool.carved x.1 x.2.1 x.2.2.1 x.2.2.2) }
    else setSubst { s with bpm.pools := List.zipWith Pool.keep s.bpm.pools defaultPools } 0

/-- Bytes of staging carved into pools (IDENTIFY bytes 48-55). -/
def carvedBytes (s : State) : Nat := (s.bpm.pools.map fun x => mib * x.mib).sum

end Sys2Proof.Machine
end

