-- ==== Sys2Proof/Machine/Archive.lean ====
section
/-! DEFINITION. The archive model: partitions of the mounted cartridge, atomic pieces, the resolution of a byte range at
a pin from staging and from the Almanac, write protection and the reserve (R14 to R46). -/

namespace Sys2Proof.Machine

/-- The newest volume label that can be read on either wrap. -/
def volOf (c : Cart) : Option VolLabel :=
  (c.vols.filter fun v => v.on96 || v.on192).foldl
    (fun b v => match b with | some x => if x.gen < v.gen then some v else b | none => some v) none

/-! ## Partitions -/

/-- Partition p of the mounted cartridge. -/
def partOf (s : State) (p : Nat) : Option Part := s.fm.parts.find? (fun x => x.num == p)

/-- s with partition x.num replaced. -/
def setPart (s : State) (x : Part) : State :=
  { s with fm.parts := s.fm.parts.map fun y => if y.num = x.num then x else y }

/-- s with partition p changed by f. -/
def modPart (s : State) (p : Nat) (f : Part → Part) : State :=
  { s with fm.parts := s.fm.parts.map fun y => if y.num = p then f y else y }

/-- Bit p of the mask is set when partition p exists. -/
def existsMask (s : State) : Nat := ((s.fm.parts.filter fun x => !x.shadow).map fun x => 2 ^ x.num).sum

/-- No cartridge is mounted, or an UNMOUNT is in progress (R120, R127 step 5). -/
def notMounted (s : State) : Bool :=
  (s.media.mount != 1 && s.media.mount != 2 &&
    !(match s.media.op with | some (.create ..) => true | some (.delete ..) => true | _ => false)) ||
  (match s.media.op with | some (.unmount ..) => true | some (.mount ..) => true | _ => false)

/-- The cartridge was mounted read-only. -/
def readOnly (s : State) : Bool := s.media.mount == 2

/-- A partition is write-protected (R18). -/
def writeProtected (s : State) (x : Part) : Bool :=
  x.labelWp || readOnly s || x.exhausted || x.faultWp || x.halted

/-- Last wrap of a partition. -/
def Part.lastWrap (x : Part) : Nat := 2 * (x.firstPair + x.pairs) - 1

/-- Dataset positions from the append point to the end of the partition's last wrap (R263). -/
def Part.positions (x : Part) : Nat :=
  positionsLeft x.wrap x.pos +
    ((List.range 384).map fun w =>
      if x.wrap < w ∧ w ≤ x.lastWrap then positionsLeft w (wrapStart x.firstPair w) else 0).sum

/-- Dataset positions kept in reserve (R17). -/
def reservePositions : Nat := 1024

/-- Dataset positions free before the reserve (R17, Table 3.9). -/
def Part.freePositions (x : Part) : Nat := x.positions - reservePositions

/-- The partition becomes write-protected by fault (Table 17.1, fault 0x11). -/
def faultProtect (s : State) (p : Nat) : State :=
  match partOf s p with
  | none => s
  | some x =>
    if x.faultWp then s
    else
      let s := setPart s { x with faultWp := true, withdraw := false }
      let s := faultRec s 0x11 true p 0 0
      queueEvent s evWriteProtected 1 p (evParams [(20, le 1 2)])

/-- The highest version that leaves a next one (R27). -/
abbrev topVersion : Nat := 2 ^ 64 - 2 ^ 32

/-- A partition whose next version would be too high becomes write-protected (R27) (log 44). -/
def checkExhausted (s : State) (p : Nat) : State :=
  match partOf s p with
  | some x =>
    if x.version ≥ topVersion ∧ !x.exhausted then
      queueEvent (modPart s p fun x => { x with exhausted := true }) evWriteProtected 1 p (evParams [(20, le 1 1)])
    else s
  | none => s

/-! ## Pieces (R33) -/

/-- 64 MiB. -/
abbrev pieceSize : Nat := 67108864

/-- The pieces of a WRITE of n bytes. -/
def cutPieces (n : Nat) : List Piece :=
  (List.range ((n + pieceSize - 1) / pieceSize)).map fun i =>
    { idx := i, len := min pieceSize (n - pieceSize * i) }

/-- The piece is settled. -/
def Piece.settled (k : Piece) : Bool := k.st == .committed || k.st == .failed

/-- Bytes of the pieces that reached their commit points (R128). -/
def committedBytes (c : Cmd) : Nat := ((c.pieces.filter fun k => k.st == .committed).map Piece.len).sum

/-- c with piece i changed by f. -/
def Cmd.modPiece (c : Cmd) (i : Nat) (f : Piece → Piece) : Cmd :=
  { c with pieces := c.pieces.map fun k => if k.idx = i then f k else k }

/-- The WRITEs in flight, those dropped with pieces kept included, in admission order. -/
def writesOf (s : State) : List Cmd := s.qe.cmds.filter fun c => opcode c.sqe == 0x40 && c.version != 0

/-- The command is a WRITE of this partition, stream and version. -/
def Cmd.isWrite (c : Cmd) (p : Nat) (st : StreamId) (v : Nat) : Bool :=
  opcode c.sqe == 0x40 && partition c.sqe == p && stream c.sqe == st && c.version == v && v != 0

/-- The WRITE of a version. -/
def writeOf (s : State) (p : Nat) (st : StreamId) (v : Nat) : Option Cmd := s.qe.cmds.find? fun c => c.isWrite p st v

/-- The staged level (R293): bytes of admitted pieces whose records are not yet in a dataset begun on tape. -/
def stagedLevel (s : State) : Nat :=
  ((writesOf s).flatMap fun c => (c.pieces.filter fun k => !k.settled).map fun k => k.len - k.onTape).sum

/-! ## Resolution (R28) -/

/-- Where a byte comes from: a WRITE and its piece in staging, or an extent. -/
inductive Src where
  | staged (cmd piece : Nat)
  | tape (e : Extent)
deriving DecidableEq, Repr

/-- A run of bytes of a stream written by one version. -/
structure Run where
  off : Nat
  len : Nat
  version : Nat
  src : Option Src
deriving DecidableEq, Repr

/-- Runs held in staging for a partition and stream, up to a version. -/
def stagedRuns (s : State) (p : Nat) (st : StreamId) (pin : Nat) : List Run :=
  ((writesOf s).filter fun c => partition c.sqe == p && stream c.sqe == st && decide (c.version ≤ pin)).flatMap fun c =>
    (c.pieces.filter fun k => !k.settled).map fun k =>
      { off := offset c.sqe + pieceSize * k.idx, len := k.len, version := c.version, src := some (.staged c.id k.idx) }

/-- Runs the Almanac names, those still in the journal included (R497). -/
def tapeRuns (s : State) (p : Nat) (st : StreamId) (pin : Nat) : List Run :=
  ((s.fm.almanac ++ s.ls.journal).filter fun e => e.part == p && e.stream == st && decide (e.version ≤ pin)).map fun e =>
    { off := e.offset, len := e.length, version := e.version, src := some (.tape e) }

/-- n inserted in a strictly rising list. -/
def insNat (n : Nat) : List Nat → List Nat
  | [] => [n]
  | a :: r => if n < a then n :: a :: r else if n = a then a :: r else a :: insNat n r

/-- Boundaries of the candidates within [a, b), a and b included. -/
def bounds (a b : Nat) (rs : List Run) : List Nat :=
  rs.foldl (fun l r =>
    let l := if a < r.off ∧ r.off < b then insNat r.off l else l
    if a < r.off + r.len ∧ r.off + r.len < b then insNat (r.off + r.len) l else l) [a, b]

/-- The candidate of highest version that covers byte x. -/
def bestAt (rs : List Run) (x : Nat) : Option Run :=
  rs.foldl (fun best r =>
    if r.off ≤ x ∧ x < r.off + r.len then
      match best with
      | some b => if b.version < r.version then some r else best
      | none => some r
    else best) none

/-- The runs between consecutive boundaries. -/
def cutRuns (rs : List Run) : List Nat → List Run
  | a :: b :: r =>
    (match bestAt rs a with
     | some x => { off := a, len := b - a, version := x.version, src := x.src }
     | none => { off := a, len := b - a, version := 0, src := none }) :: cutRuns rs (b :: r)
  | _ => []

/-- The runs of a range among candidates. -/
def resolveIn (cs : List Run) (off len : Nat) : List Run :=
  if len = 0 then []
  else
    let rs := cs.filter fun r => decide (r.off < off + len ∧ off < r.off + r.len)
    cutRuns rs (bounds off (off + len) rs)

/-- The runs of a range at a pin, staging before tape (R28, R30). -/
def resolveAll (s : State) (p : Nat) (st : StreamId) (pin off len : Nat) : List Run :=
  resolveIn (stagedRuns s p st pin ++ tapeRuns s p st pin) off len

/-- The runs of a READ's or VERIFY's range at its pin; in a host-indexed partition from the Almanac alone (R28, R45). -/
def resolve (s : State) (p : Nat) (st : StreamId) (pin off len : Nat) : List Run :=
  if (partOf s p).any (·.hostIndexed) then resolveIn (tapeRuns s p st pin) off len else resolveAll s p st pin off len

/-- Every byte of a range has a write. -/
def allWritten (rs : List Run) : Bool := rs.all fun r => r.src.isSome

/-- A unit acts as a secondary: it has the role, and nothing keeps the pair from mirroring (R451, R457). -/
def secondary (s : State) : Bool := s.pl.role == 2 && s.pl.reason == 0

/-- The pin of a partition: the highest version assigned, or on a secondary the highest below which every mirrored
piece is settled (R23, R451). -/
def pinOf (s : State) (x : Part) : Nat :=
  if secondary s then
    let open_ := (s.fm.mirror.filter fun m => m.part == x.num && m.st != .committed && m.st != .failed).map (·.version)
    let top := maxOf x.version ((s.fm.mirror.filter fun m => m.part == x.num).map (·.version))
    open_.foldl (fun a v => min a (v - 1)) top
  else x.version

/-! ## Datasets on tape -/

/-- A copy lies on the wraps of a partition: what an earlier partition of the same number left elsewhere is never read (R117). -/
def Part.holds (x : Part) (t : TapeDs) : Bool :=
  t.ds.part == x.num && decide (2 * x.firstPair ≤ t.wrap ∧ t.wrap < 2 * (x.firstPair + x.pairs))

/-- The copies on a partition's wraps, in the order written. -/
def copiesIn (s : State) (p : Nat) : List TapeDs :=
  match s.media.cart, partOf s p with
  | some c, some x => c.tape.filter x.holds
  | _, _ => []

/-- The newest copy of a dataset on tape. -/
def tapeCopy (s : State) (p seq : Nat) : Option TapeDs :=
  ((copiesIn s p).filter fun t => t.ds.seq == seq && t.ds.kind != .parity).foldl
    (fun b t => match b with | some x => if x.attempt ≤ t.attempt then some t else b | none => some t) none

/-- The record an extent names. -/
def recordAt (s : State) (e : Extent) : Option Rec :=
  (tapeCopy s e.part e.seq).bind fun t => t.ds.recs[e.index]?

/-- Free extents of the Almanac; it is full below 1,048,576 (R42). -/
def almanacFull (s : State) : Bool := 268435456 - s.fm.almanac.length < 1048576

/-! ## Staging of a WRITE's data -/

/-- Bytes of a WRITE's data, from its pool 0 buffers (log 58). -/
def stagedBytes (s : State) (c : Cmd) (off len : Nat) : List Byte :=
  let bs := (poolOf s 0).bufSize
  (List.range len).map fun i =>
    let b := off + i
    stRead s.bpm.mem (bufAddr s (c.bufs.getD (b / bs) nullHandle) + b % bs)

/-- Buffers that hold bytes [off, off + len) of a WRITE. -/
def bufsOver (s : State) (c : Cmd) (off len : Nat) : List (BitVec 32) :=
  let bs := (poolOf s 0).bufSize
  if len = 0 then [] else ((c.bufs.drop (off / bs)).take ((off + len - 1) / bs - off / bs + 1)).filter (· != nullHandle)

/-- Bytes of a WRITE that have arrived. -/
def Cmd.arrived (c : Cmd) : Nat := (c.pieces.map Piece.arrived).sum

/-! ## Status of a partition for an I/O command (R127 steps 5 and 6) -/

/-- The first failing check of mount and partition, with the failing field. -/
def mediaCheck (s : State) (p : Nat) : Option (Nat × Nat) :=
  if notMounted s then some (stNotMounted, 0)
  else match partOf s p with
    | none => some (stInvalidField, 6)
    | some x => if x.deleting then some (stMediaBusy, 0) else if x.shadow then some (stInvalidField, 6) else none

/-! ## Faults that tape commands meet (R436, R437, Table 17.1) -/

/-- Nightwatch holds the reels: every command that needs tape meets MOTION_FAULT (R437). -/
def motionStop (s : State) : Bool := s.nw.state != 0 || s.ce.safe

/-- CE keeps to the limits of R436: the chopper or a shunt is faulty. -/
def restricted (s : State) : Bool := s.ps.chopF || s.ce.sup.ofsf || s.ce.tkp.ofsf

/-- The status of a fault that a command that needs tape meets. -/
def tapeFault (s : State) : Option Nat :=
  if motionStop s || restricted s then some stMotionFault else if s.ps.auxF then some stServoLost else none

/-! ## Allocation for internal units (R151, R159) -/

/-- A buffer for a unit: one it was granted while parked, else a new one; the null handle while it stays parked. -/
def unitAlloc (s : State) (p cls : Nat) : BitVec 32 × State :=
  match s.bpm.granted.find? fun g => g.2 == cls && poolNo g.1 == p with
  | some g => (g.1, { s with bpm.granted := s.bpm.granted.erase g })
  | none =>
    if (poolOf s p).parked.any fun k => k.cls == cls && k.cmd == none then (nullHandle, s)
    else allocate s p cls none

/-- n buffers for a unit, all or none: those it got stay granted to it while one is missing. -/
def unitAllocN (s : State) (p cls : Nat) : Nat → List (BitVec 32) → Option (List (BitVec 32)) × State
  | 0, got => (some got.reverse, s)
  | n + 1, got =>
    let a := unitAlloc s p cls
    if a.1 = nullHandle then (none, { a.2 with bpm.granted := a.2.bpm.granted ++ got.reverse.map fun h => (h, cls) })
    else unitAllocN a.2 p cls n (a.1 :: got)

/-- Buffers passed from one class to the next: the downstream unit acquires, then the upstream unit releases (R153). -/
def handOff (s : State) (hs : List (BitVec 32)) (src dst : Nat) : State :=
  hs.foldl (fun s h => if h = nullHandle then s else release (acquire s h dst).2 h src) s

/-- s with record job id changed. -/
def modRec (s : State) (id : Nat) (f : RecJob → RecJob) : State :=
  { s with fm.recs := s.fm.recs.map fun j => if j.id = id then f j else j }

end Sys2Proof.Machine
end

