-- ==== Sys2Proof/Machine/Link.lean ====
section
/-! DEFINITION. The pair link: flits, messages, the state of mirroring, roles (R446 to R461). -/

namespace Sys2Proof.Config

/-- The body of a message of the pair link: Table 15.2 names its content and gives it no layout. Free, log 13. -/
opaque msgBody : Machine.Msg → List Byte

end Sys2Proof.Config

namespace Sys2Proof.Machine

/-- The link is up. -/
def linkUp (s : State) : Bool := s.pl.lanes != 0

/-- This unit and its peer form a pair that mirrors (R452, R457, R460). -/
def mirroring (s : State) : Bool := s.pl.role == 1 && s.pl.reason == 0 && !s.pl.lost

/-- Type code of a message (Table 15.2). -/
def msgType : Msg → Nat
  | .heartbeat _ => 1
  | .record _ _ => 2
  | .pieceCommit .. => 3
  | .pieceFail .. => 4
  | .pieceVerified .. => 5
  | .partitionOp _ => 6
  | .opDone _ _ => 7
  | .credit _ => 8
  | .timeExch .. => 9
  | .roleStale .. => 10

/-- The next flit sequence. -/
def nextFlit (n : Nat) : Nat := (n + 1) % 4096

/-- The 128 bytes of a flit: flit sequence, acknowledged sequence and type, the payload, the CRC-32C over both (R447). -/
def flitBytes (kind seq ack : Nat) (payload : List Byte) : List Byte :=
  let b := le 4 (seq % 4096 + 4096 * (ack % 4096) + 2 ^ 24 * kind) ++ fit 120 payload
  b ++ le 4 (crc32c b).toNat

/-- A flit of this unit with what it has received last acknowledged. -/
def flitOf (s : State) (kind seq : Nat) (payload : List Byte) : Emit := .plFlit kind seq (flitBytes kind seq s.pl.rxSeq payload)

/-- Waiting flits go out in order while the replay buffer of 64 has room: each takes the next sequence and stays there until it is
acknowledged (R447). -/
def pumpFlits : Nat → State → State
  | 0, s => s
  | n + 1, s =>
    match s.pl.waiting with
    | [] => s
    | w :: ws =>
      if s.pl.unacked.length ≥ 64 then s
      else
        let q := nextFlit s.pl.txSeq
        let f := flitOf s w.1 q w.2
        pumpFlits n (emit { s with
          pl.waiting := ws, pl.txSeq := q, pl.sent := s.pl.sent + 1, pl.unacked := s.pl.unacked ++ [(q, f)] } f)

/-- What waits and can go goes; while the link retrains everything waits, and nothing is lost (R446). -/
def pumpLink (s : State) : State := if linkUp s then pumpFlits (min 64 s.pl.waiting.length) s else s

/-- Bytes cut into payloads of 120. -/
def payloads : Nat → List Byte → List (List Byte)
  | 0, _ => []
  | n + 1, b => if b.length ≤ 120 then [b] else b.take 120 :: payloads n (b.drop 120)

/-- Message bytes join the DATA flits that wait: the last of them, when it has room, takes the first bytes, and the message goes on in
the flits behind it (R447). -/
def packData (ws : List (Nat × List Byte)) (b : List Byte) : List (Nat × List Byte) :=
  let room := match ws.getLast? with | some w => w.1 == 1 && decide (w.2.length < 120) | none => false
  let all := if room then ((ws.getLast?.map Prod.snd).getD []) ++ b else b
  (if room then ws.dropLast else ws) ++ (payloads all.length all).map fun x => (1, x)

/-- The bytes of a message join what waits for the link, and what can go goes. -/
def sendData (s : State) (b : List Byte) : State := pumpLink { s with pl.waiting := packData s.pl.waiting b }

/-- Payloads of IMAGE flits join the flits that wait, and what can go goes (R536). -/
def sendImages (s : State) (payloads : List (List Byte)) : State :=
  pumpLink { s with pl.waiting := s.pl.waiting ++ payloads.map fun b => (0x21, b) }

/-- With nothing else to send PL sends an IDLE flit, and with it the sequence it has received last (R447, log 13). -/
def sendIdle (s : State) : State := if linkUp s && s.pl.waiting.isEmpty then emit s (flitOf s 2 s.pl.txSeq []) else s

/-- The number of the last flit that waits or has gone out. -/
def lastFlit (s : State) : Nat := s.pl.sent + s.pl.waiting.length

/-- A message in bytes: the header of Table 15.1 and the body (R448). -/
def msgBytes (role epoch n : Nat) (m : Msg) : List Byte :=
  let body := Config.msgBody m
  le 1 (msgType m) ++ le 1 role ++ zeros 2 ++ le 4 body.length ++ le 4 epoch ++ le 4 n ++ body

/-- The partition, stream and version of the WRITE that a message serves. -/
def msgWrite : Msg → Option (Nat × StreamId × Nat)
  | .record p r => some (p, r.stream, r.version)
  | .pieceCommit p st v .. => some (p, st, v)
  | _ => none

/-- A WRITE under the both-copies policy needs message n; what was noted for WRITEs that have ended goes (R450, R456). -/
def noteAsked (s : State) (n : Nat) (m : Msg) : State :=
  let live := fun k : Nat × StreamId × Nat => (writeOf s k.1 k.2.1 k.2.2).any fun c => c.both && !c.dropped
  match msgWrite m with
  | some k => if live k then { s with pl.asked := (s.pl.asked.filter fun a => live a.2) ++ [(n, k)] } else s
  | none => s

/-- A message goes out with this unit's role and epoch (R448, R450), packed behind what waits for the link. -/
def plSend (s : State) (m : Msg) : State :=
  let n := s.pl.msgSeq + 1
  let s := noteAsked (emit { s with pl.msgSeq := n } (.plMsg s.pl.role s.flash.roleEpoch n m)) n m
  sendData s (msgBytes s.pl.role s.flash.roleEpoch n m)

/-- A message that only a mirroring primary sends; it follows what a catch-up has still to send (R457). -/
def mirrorSend (s : State) (m : Msg) : State :=
  if !mirroring s then s
  else if s.pl.catchQ.isEmpty then plSend s m
  else { s with pl.catchQ := s.pl.catchQ ++ [m] }

/-- Pool 7 buffers that hold a record. -/
def creditOf (s : State) (r : Rec) : Nat :=
  let n := (poolOf s 7).bufSize
  (64 + r.payload.length + r.trailer.length + n - 1) / n

/-- The catch-up goes on as far as the credits carry it: a RECORD takes its buffers, the other messages need none (R452, R457). -/
def pumpCatch : Nat → State → State
  | 0, s => s
  | n + 1, s =>
    match s.pl.catchQ with
    | [] => { s with pl.catchup := false }
    | .record p r :: rest =>
      let k := creditOf s r
      if s.pl.credits < k then s
      else pumpCatch n (plSend { s with pl.catchQ := rest, pl.credits := s.pl.credits - k } (.record p r))
    | m :: rest => pumpCatch n (plSend { s with pl.catchQ := rest } m)

/-- The catch-up goes on. -/
def goOnCatch (s : State) : State := pumpCatch (s.pl.catchQ.length + 1) s

/-! ## Buffers of mirrored records (R160, R452, R453) -/

/-- The buffers of a record that PL has acquired and no flit in flight needs (R452). -/
def plBufs (s : State) (j : RecJob) : List (BitVec 32) :=
  j.bufs.filter fun h => ((poolOf s (poolNo h)).buf (bufNo h)).any (fun b => b.holders.getLsbD clsPl) &&
    !(s.pl.sentRecs.any fun r => r.2 == h.toNat)

/-- PL gives up a record that it need not send. -/
def dropHeld (s : State) (j : RecJob) : State := if j.cmd.isSome then releaseAll s (plBufs s j) clsPl else s

/-- The received records that wait for pool 7 buffers take them in order, until one finds too few (R160). -/
def takeMirrors : List RecJob → State → State
  | [], s => s
  | j :: js, s =>
    let a := unitAllocN s 7 clsPl (creditOf s j.r) []
    match a.1 with
    | none => a.2
    | some hs => takeMirrors js (modRec (fillBufs a.2 hs (recordLen j.r)) j.id fun j => { j with bufs := hs })

/-- Received records without buffers. -/
def bareMirrors (s : State) : List RecJob := s.fm.recs.filter fun j => j.cmd.isNone && j.bufs.isEmpty

/-- The secondary returns credits once records have left pool 7; received records that waited for buffers come first (R160, R452). -/
def giveCredit (s : State) : State :=
  if s.pl.role = 2 then
    let s := takeMirrors (bareMirrors s) s
    plSend s (.credit (poolOf s 7).freeCount)
  else s

/-- ROLE_CHANGED, with the role and the epoch in force (R449, R461). -/
def roleEvent (s : State) : State :=
  queueEvent s evRoleChanged 0 0 (evParams [(20, le 1 s.pl.role), (24, le 4 s.flash.roleEpoch)])

/-- The role and the epoch change; the epoch is persisted and ROLE_CHANGED is queued (R449). -/
def setRole (s : State) (role epoch : Nat) : State := roleEvent { s with pl.role := role, flash.roleEpoch := epoch }

end Sys2Proof.Machine
end

