-- ==== Sys2Proof/Machine/Pipeline.lean ====
section
/-! DEFINITION. The write pipeline: how pieces fail, commit and complete WRITEs; how datasets, spans and checkpoints are
sealed; how a dataset passes or is abandoned (R33 to R37, R168 to R183, R281 to R284, R298). -/

namespace Sys2Proof.Machine

/-! ## Buffers of a WRITE (R169, R197) -/

/-- A pool 0 buffer released by the class that holds it. -/
def dropBuf (s : State) (h : BitVec 32) : State :=
  if h = nullHandle then s
  else match (poolOf s (poolNo h)).buf (bufNo h) with
    | none => s
    | some b =>
      let s := if b.holders.getLsbD clsFm then release s h clsFm else s
      if b.holders.getLsbD clsQeIn then release s h clsQeIn else s

/-- A record's buffer of pool 4 or 7 released by whichever class of the pipeline holds it; PL keeps what a flit in flight needs
(R452). -/
def dropRecBuf (s : State) (h : BitVec 32) : State :=
  match (poolOf s (poolNo h)).buf (bufNo h) with
  | none => s
  | some b =>
    let sent := s.pl.sentRecs.any fun r => r.2 == h.toNat
    ([2, 4, clsFm, clsPl].filter fun k => b.holders.getLsbD k && !(k == clsPl && sent)).foldl (fun s k => release s h k) s

/-- Indices into a WRITE's buffer list that piece k takes. -/
def pieceBufs (s : State) (c : Cmd) (k : Piece) : List Nat :=
  let bs := (poolOf s 0).bufSize
  (List.range c.bufs.length).filter fun i => decide (pieceSize * k.idx ≤ i * bs ∧ i * bs < pieceSize * k.idx + k.len)

/-- Piece k's buffers are released. -/
def releasePiece (s : State) (id : Nat) (k : Piece) : State :=
  match cmdOf s id with
  | none => s
  | some c =>
    let is := pieceBufs s c k
    let s := is.foldl (fun s i => dropBuf s (c.bufs.getD i nullHandle)) s
    modCmd s id fun c => { c with bufs := c.bufs.zipIdx.map fun h => if is.contains h.2 then nullHandle else h.1 }

/-- A record of this piece lies in the partition's open dataset, and a record of its stream there has not finished
compression (R197). -/
def chainBusy (s : State) (c : Cmd) (k : Piece) : Bool :=
  let p := partition c.sqe
  let mine := fun r : Rec => r.stream == stream c.sqe && r.version == c.version && r.piece == k.idx
  let jobs := s.fm.recs.filter fun j => j.part == p && j.r.stream == stream c.sqe
  let inOpen := (match partOf s p with
    | some x => (match x.openDs with | some o => o.recs.any mine | none => false)
    | none => false) || jobs.any fun j => mine j.r
  inOpen && jobs.any fun j => j.stage == .cut || j.stage == .compressing

/-- Buffers of settled pieces that nothing holds back are released, and a WRITE that has been answered or dropped and
holds nothing more is forgotten (R84, R169, R197). -/
def sweepCmd (s : State) (c : Cmd) : State :=
  let s := (c.pieces.filter fun k => k.settled && !chainBusy s c k).foldl (fun s k => releasePiece s c.id k) s
  match cmdOf s c.id with
  | some c => if c.dropped && c.pieces.all Piece.settled && c.bufs.all (· == nullHandle) then removeCmd s c.id else s
  | none => s

/-- Buffers of settled pieces are still held (R84, R197). -/
def bufsOut (s : State) (c : Cmd) : Bool :=
  c.pieces.any fun k => k.settled && (pieceBufs s c k).any fun i => c.bufs.getD i nullHandle != nullHandle

/-- Of the commands a property names every one is gone or dropped, and no dropped one's buffers are still held: the end of a drain
(R83, R88, R90). -/
def quiet (s : State) (p : Cmd → Bool) : Bool := s.qe.cmds.all fun c => !p c || (c.dropped && !bufsOut s c)

/-- The sweep over every WRITE. -/
def sweep (s : State) : State := (writesOf s).foldl sweepCmd s

/-! ## Failing pieces (R37, R84, R198) -/

/-- Records of a failed or dropped piece: those not yet compressed are cancelled and their room returns; the others are
placed all the same (R198). -/
def cancelRecs (s : State) (p : Nat) (st : StreamId) (v i : Nat) : State :=
  let mine := fun j : RecJob => j.part == p && j.r.stream == st && j.r.version == v && j.r.piece == i
  let gone := s.fm.recs.filter fun j => mine j && j.stage == .cut
  let s := (s.fm.recs.filter mine).foldl dropHeld s
  let s := { s with
    fm.recs := (s.fm.recs.filter fun j => !(mine j && j.stage == .cut)).map fun j =>
    if mine j then { j with dead := true } else j }
  modPart s p fun x => { x with
    openDs := x.openDs.map fun o =>
    { o with room := o.room + (gone.map RecJob.footprint).sum, outstanding := o.outstanding - gone.length } }

/-- One piece fails or is dropped: it leaves the commit order, buffers that waited for its cancelled records go, and the peer hears of
it (R84, R197, R454). -/
def failPiece (s : State) (id : Nat) (k : Piece) : State :=
  match cmdOf s id with
  | none => s
  | some c =>
    let p := partition c.sqe
    let s := modCmd s id fun c => c.modPiece k.idx fun k => { k with st := .failed }
    let s := cancelRecs s p (stream c.sqe) c.version k.idx
    let s := ((writesOf s).filter fun d => partition d.sqe == p && stream d.sqe == stream c.sqe).foldl sweepCmd s
    mirrorSend s (.pieceFail p (stream c.sqe) c.version k.idx)

/-- A WRITE is answered; it is remembered while pieces are kept or buffers are still held (log 54, 55, 131). -/
def finishWrite (s : State) (c : Cmd) (st d1 d2 : Nat) : State :=
  let indexed := (partOf s (partition c.sqe)).any (·.hostIndexed)
  let n := committedBytes c
  let info := match indexed, c.locator with | true, some l => l | _, _ => n
  let t := finish s c { status := st, info, d1, d2, bytes := n % 2 ^ 32, recovered := st == stOkRecovered, nonce := c.nonce }
  let t := { t with qe.cmds := s.qe.cmds.map fun d => if d.id = c.id then { c with dropped := true } else d }
  sweepCmd t { c with dropped := true }

/-- The peer's confirmation is still awaited for some piece (R456). -/
def awaitsPeer (s : State) (c : Cmd) : Bool := c.both && mirroring s && c.pieces.any fun k => !k.peerOk

/-- An abandoned SEQ that hit the WRITE is still to be listed by a dataset that passes (R178). -/
def gated (s : State) (c : Cmd) : Bool :=
  (partOf s (partition c.sqe)).any fun x => c.gates.any fun q => x.pendingAb.contains q || x.overAb.contains q

/-- A WRITE whose pieces are settled is answered; one that waited for a peer that is lost, or that this unit is no primary of any
more, ends with PEER_LOST (R36, R178, R284,
R298, R460). -/
def settleWrite (s : State) (id : Nat) : State :=
  match cmdOf s id with
  | none => s
  | some c =>
    if c.dropped || !(c.pieces.all Piece.settled) then sweepCmd s c
    else
      match c.fail with
      | some f => if gated s c then sweepCmd s c else finishWrite s c f.1 f.2.1 f.2.2
      | none =>
        if !(c.pieces.all fun k => k.st == .committed) || awaitsPeer s c then sweepCmd s c
        else if c.both && (s.pl.lost || s.pl.role != 1) && c.pieces.any (fun k : Piece => !k.peerOk) then finishWrite s c stPeerLost 0 0
        else finishWrite s c (if c.recovered then stOkRecovered else stOk) 0 0

/-- Every WRITE of a partition is looked at again. -/
def settlePart (s : State) (p : Nat) : State :=
  ((writesOf s).filter fun c => partition c.sqe == p).foldl (fun s c => settleWrite s c.id) s

/-! ## Commit points (R34, R298) -/

/-- Extents of a piece's records on tape. -/
def pieceExtents (s : State) (x : Part) (st : StreamId) (v i : Nat) : List Extent :=
  ((copiesIn s x.num).filter fun t => t.ds.kind == .data && !x.abandoned.contains t.ds.seq &&
    (tapeCopy s x.num t.ds.seq).any fun u => u.attempt == t.attempt).flatMap fun t =>
    (t.ds.recs.zipIdx.filter fun r => r.1.stream == st && r.1.version == v && r.1.piece == i).map fun r =>
      { part := x.num, stream := st, offset := r.1.offset, length := r.1.olen, version := v, seq := t.ds.seq,
        index := r.2 }

/-- Extents enter the Almanac and the partition's list for the next delta, unless the partition is host-indexed (R44); while
Lodestar restarts they wait in the journal (R497). -/
def addExtents (s : State) (p : Nat) (es : List Extent) : State :=
  match partOf s p with
  | none => s
  | some x =>
    if x.hostIndexed then s
    else if s.glb.restarting.isSome then { s with ls.journal := s.ls.journal ++ es }
    else setPart { s with fm.almanac := s.fm.almanac ++ es } { x with added := x.added ++ es }

/-- The identity of an atomic piece in its partition: stream, version, piece index. -/
abbrev PieceId : Type := StreamId × Nat × Nat

/-- The mirrored piece of this identity. -/
def MirrorPiece.is (m : MirrorPiece) (p : Nat) (k : PieceId) : Bool :=
  m.part == p && m.stream == k.1 && m.version == k.2.1 && m.piece == k.2.2

/-- A mirrored piece that is committed or failed. -/
def MirrorPiece.settled (m : MirrorPiece) : Bool := m.st == .committed || m.st == .failed

/-- Version v, piece i comes before a piece in the order of R35. -/
def earlierPiece (v i : Nat) (k : PieceId) : Bool := decide (v < k.2.1) || (v == k.2.1 && decide (i < k.2.2))

/-- Every earlier piece of the stream has reached its commit point or failed (R35). -/
def earlierSettled (s : State) (p : Nat) (k : PieceId) : Bool :=
  ((writesOf s).all fun c => partition c.sqe != p || stream c.sqe != k.1 ||
    c.pieces.all fun q => q.settled || !earlierPiece c.version q.idx k) &&
  s.fm.mirror.all fun m => m.part != p || m.stream != k.1 || m.settled || !earlierPiece m.version m.piece k

/-- Pieces of a partition whose MARKER's dataset has passed and that have not committed, mirrored ones first. -/
def passedPieces (s : State) (p : Nat) : List PieceId :=
  ((s.fm.mirror.filter fun m => m.part == p && m.passed && m.st == .markerSealed).map fun m => (m.stream, m.version, m.piece)) ++
  ((writesOf s).filter fun c => partition c.sqe == p).flatMap fun c =>
    (c.pieces.filter fun q => q.passed && q.st == .markerSealed).map fun q => (stream c.sqe, c.version, q.idx)

/-- The MARKER's dataset of a piece passes (R298). -/
def markPassed (s : State) (p : Nat) (k : PieceId) : State :=
  let s := match writeOf s p k.1 k.2.1 with
    | some c => modCmd s c.id fun c => c.modPiece k.2.2 fun q => { q with passed := true }
    | none => s
  { s with fm.mirror := s.fm.mirror.map fun m => if m.is p k then { m with passed := true } else m }

/-- A WRITE's piece q commits: the peer is told, and the WRITE may be answered (R36, R454). -/
def commitOwn (s : State) (p : Nat) (c : Cmd) (q : Piece) : State :=
  let s := modCmd s c.id fun c => c.modPiece q.idx fun q => { q with st := .committed }
  let s := if mirroring s && !q.peerOk then
      { s with pl.unverified := s.pl.unverified ++ [(p, stream c.sqe, c.version, q.idx)] }
    else s
  settleWrite (mirrorSend s (.pieceCommit p (stream c.sqe) c.version q.idx q.records)) c.id

/-- A mirrored piece commits, and the primary is told (R456). -/
def commitMirror (s : State) (p : Nat) (k : PieceId) : State :=
  let s := { s with fm.mirror := s.fm.mirror.map fun m => if m.is p k then { m with st := .committed } else m }
  if s.pl.role = 2 then plSend s (.pieceVerified p k.1 k.2.1 k.2.2) else s

/-- A piece reaches its commit point: its extents are entered, its buffers go, the peer is told (R34, R169, R454). -/
def commitPiece (s : State) (p : Nat) (k : PieceId) : State :=
  match partOf s p with
  | none => s
  | some x =>
    let s := addExtents s p (pieceExtents s x k.1 k.2.1 k.2.2)
    if s.fm.mirror.any fun m => m.is p k && m.st == .markerSealed then commitMirror s p k
    else match writeOf s p k.1 k.2.1 with
      | none => s
      | some c =>
        match c.pieces.find? fun q => q.idx == k.2.2 && q.st == .markerSealed with
        | some q => commitOwn s p c q
        | none => s

/-- Pieces whose MARKER's dataset has passed commit in the order of R35, as far as the earlier ones of their streams are
settled (R34, R35, R298). -/
def commitLoop : Nat → State → Nat → State
  | 0, s, _ => s
  | fuel + 1, s, p =>
    match (passedPieces s p).find? fun k => earlierSettled s p k with
    | none => s
    | some k => commitLoop fuel (commitPiece s p k) p

/-- Every piece of a partition that may commit does. -/
def commitReady (s : State) (p : Nat) : State := commitLoop (passedPieces s p).length s p

/-! ## Failing WRITEs (R37, R178) -/

/-- Pieces of a WRITE fail; what waited behind them in the order of R35 goes on. -/
def failPieces (s : State) (id p : Nat) (ks : List Piece) : State :=
  commitReady (ks.foldl (fun s k => failPiece s id k) s) p

/-- Every piece of a WRITE from index i on that has not reached its commit point fails (R37). -/
def failFrom (s : State) (id i : Nat) : State :=
  match cmdOf s id with
  | none => s
  | some c => failPieces s id (partition c.sqe) (c.pieces.filter fun k => decide (i ≤ k.idx) && !k.settled)

/-- A WRITE is to fail with a status from piece i on; pieces before i go on (R17, R37, R178). -/
def failWrite (s : State) (id i st d1 d2 : Nat) (gate : Option Nat) : State :=
  let s := modCmd s id fun c => { c with fail := some (c.fail.getD (st, d1, d2)), gates := c.gates ++ gate.toList }
  settleWrite (failFrom s id i) id

/-- A WRITE ends at once with a status; pieces whose MARKER lies in a sealed dataset are kept when asked (R178, R288, R586). Detail
1 is the abandoned SEQ of a WRITE that one had already hit. -/
def endWrite (s : State) (id st code : Nat) (keep : Bool) : State :=
  match cmdOf s id with
  | none => s
  | some c =>
    let kept := keep && c.pieces.any fun k => k.st == .markerSealed
    let gone := c.pieces.filter fun k => !k.settled && !(keep && k.st == .markerSealed)
    let s := failPieces s id (partition c.sqe) gone
    match cmdOf s id with
    | some c =>
      if c.dropped then sweepCmd s c
      else finishWrite s c st ((c.fail.map fun f => f.2.1).getD 0) (if keep && !kept then 0 else code)
    | none => s

/-! ## Sealing (R174 to R183) -/

/-- Sealed datasets of a partition that have not begun on tape. -/
def unbegun (s : State) (p : Nat) : List WriteDs := s.fm.sealed.filter fun w => w.ds.part == p && !w.begun

/-- The write position of a partition on its wrap: the append point, or the end of the slots written of the dataset in progress
(R289, R290). -/
def writePos (s : State) (x : Part) : Nat :=
  match s.fm.current with
  | some (_, n) => if s.fm.wpart = x.num then advance x.wrap x.pos n else x.pos
  | none => x.pos

/-- Dataset positions of a partition that are spoken for: the dataset in progress, and those sealed and not begun, rewrites
included (R17). -/
def spokenFor (s : State) (x : Part) : Nat :=
  (unbegun s x.num).length + (if s.fm.wpart = x.num then s.fm.current.toList.length else 0)

/-- A further data dataset has a position before the reserve (R17). -/
def roomForData (s : State) (x : Part) : Bool := decide (spokenFor s x < x.freePositions)

/-- Wrap, room left there and sealed datasets still to go there, as the writer will stand after what is sealed (R290). -/
def planned (s : State) (x : Part) : Nat × Nat × Nat :=
  (unbegun s x.num).foldl (fun a w =>
    if w.turn then (a.1 + 1, roomLeft (a.1 + 1) (wrapStart x.firstPair (a.1 + 1)), 1) else (a.1, a.2.1, a.2.2 + 1))
    (x.wrap, roomLeft x.wrap (writePos s x), 0)

/-- A dataset sealed now would leave no room on the wrap for itself and k more positions behind what is sealed (R263, R290). -/
def wrapShort (s : State) (x : Part) (k : Nat) : Bool :=
  let pl := planned s x
  decide ((pl.2.2 + k) * 38 * slotLen pl.1 > pl.2.1)

/-- What is sealed now goes to the partition's next wrap, which it has. -/
def nextWrap (s : State) (x : Part) : Bool := decide ((planned s x).1 < x.lastWrap)

/-- The open span's next dataset: SPANIDX and SPANFIRST for SEQ q (R181). -/
def spanPlace (x : Part) (q : Nat) : Nat × Nat :=
  match x.span with
  | some (f, n) => (n, f)
  | none => (0, q)

/-- Bytes of an encoded dataset in its pool 1 buffer: 16 sub-datasets of 128 rows of 1,888 bytes. -/
abbrev encodedBytes : Nat := 16 * 128 * 1888

/-- A sealed dataset joins the datasets to be written, behind the others (R282 puts rewrites ahead); its header, directory, zeros and code
bytes have been written over the whole of its buffer (R140, R174). -/
def queueDs (s : State) (w : WriteDs) : State := fillBuf { s with fm.sealed := s.fm.sealed ++ [w] } w.buf 0 encodedBytes

/-- The two parity datasets of the open span are sealed and the span is closed (R181, R261). -/
def closeSpan (s : State) (p : Nat) : State :=
  match partOf s p with
  | none => s
  | some x =>
    match x.span with
    | none => setPart s { x with spanClose := false }
    | some (f, _) =>
      let q := x.nextSeq
      let mk := fun i => ({ part := p, seq := q + i, kind := .parity, spanIdx := i, spanFirst := f, sealTime := meridian s } : Dataset)
      let a := unitAlloc s 1 clsFm
      let b := unitAlloc a.2 1 clsFm
      let s := queueDs (queueDs b.2 { ds := mk 0, buf := a.1 }) { ds := mk 1, buf := b.1 }
      modPart s p fun x => { x with nextSeq := q + 2, span := none, spanClose := false }

/-- A sealed member joins the open span; after the 30th the span closes (R181). -/
def joinSpan (s : State) (d : Dataset) : State :=
  let p := d.part
  match partOf s p with
  | none => s
  | some x =>
    let n := (spanPlace x d.seq).1 + 1
    let s := setPart { s with fm.members := s.fm.members ++ [d] }
      { x with span := some ((spanPlace x d.seq).2, n), nextSeq := d.seq + 1 }
    if n ≥ 30 then closeSpan s p else s

/-- The WRITE's piece k waits for its MARKER: all its records are placed (R177). -/
def markerReady (s : State) (c : Cmd) (k : Piece) : Bool :=
  k.st == .open_ && !k.marker && decide (0 < k.len) && k.cut == k.len &&
    !(s.fm.recs.any fun j => j.cmd == some c.id && j.piece == k.idx)

/-- A dataset holds a record of the piece. -/
def holdsPiece (d : Dataset) (st : StreamId) (v i : Nat) : Bool :=
  d.recs.any fun r => r.stream == st && r.version == v && r.piece == i

/-- A dataset holds bytes or a MARKER of a WRITE (R284). -/
def holdsVersion (d : Dataset) (st : StreamId) (v : Nat) : Bool :=
  (d.recs.any fun r => r.stream == st && r.version == v) || d.markers.any fun m => m.stream == st && m.version == v

/-- No sealed dataset that has not passed holds a record of the piece (R177). -/
def recordsPassed (s : State) (p : Nat) (k : PieceId) : Bool :=
  !(s.fm.sealed.any fun w => w.ds.part == p && holdsPiece w.ds k.1 k.2.1 k.2.2)

/-- A mirrored piece waits for its MARKER: its records are all here and placed (R177, R453). -/
def mirrorReady (s : State) (m : MirrorPiece) : Bool :=
  m.commit == some m.received &&
    !(s.fm.recs.any fun j => j.part == m.part && j.r.stream == m.stream && j.r.version == m.version && j.r.piece == m.piece)

/-- The pieces of a partition whose MARKERs are not placed, in the order of R35: each with its stream, whether its MARKER may go into
the dataset to be sealed, and the MARKER. Mirrored pieces come first: a unit that has become primary gives higher versions. -/
def unmarked (s : State) (p : Nat) : List (StreamId × Bool × Marker) :=
  ((s.fm.mirror.filter fun m => m.part == p && m.st == .open_).map fun m =>
    (m.stream, mirrorReady s m && recordsPassed s p (m.stream, m.version, m.piece),
     { stream := m.stream, version := m.version, piece := m.piece, pieces := m.pieces, length := m.len, records := m.received,
       offset := m.off })) ++
  ((writesOf s).filter fun c => partition c.sqe == p).flatMap fun c =>
    (c.pieces.filter fun k => !k.settled && !k.marker).map fun k =>
      (stream c.sqe, markerReady s c k && recordsPassed s p (stream c.sqe, c.version, k.idx),
       { stream := stream c.sqe, version := c.version, piece := k.idx, pieces := c.pieces.length, length := k.len,
         records := k.records, offset := offset c.sqe + pieceSize * k.idx })

/-- MARKERs the next dataset of partition p takes, in the order of R35, n at most: a piece waits behind every earlier one of its
stream that has none (R177). -/
def markersFor (s : State) (p n : Nat) : List Marker :=
  ((unmarked s p).foldl (fun (acc : List Marker × List StreamId) u =>
    if u.2.1 && !acc.2.contains u.1 && decide (acc.1.length < n) then (acc.1 ++ [u.2.2], acc.2)
    else (acc.1, acc.2 ++ [u.1])) ([], [])).1

/-- MARKERs placed in a dataset: their pieces lie in a sealed dataset from now on (R84). -/
def markPlaced (s : State) (p : Nat) (ms : List Marker) : State :=
  ms.foldl (fun s m =>
    let s := match writeOf s p m.stream m.version with
      | some c => modCmd s c.id fun c => c.modPiece m.piece fun k => { k with marker := true, st := .markerSealed }
      | none => s
    { s with
      fm.mirror := s.fm.mirror.map fun k =>
      if k.is p (m.stream, m.version, m.piece) then { k with st := .markerSealed } else k }) s

/-- The open data dataset of a partition is sealed: it takes its SEQ, its place in a span and its MARKERs (R174 to
R177, R181, R290). -/
def sealOpen (s : State) (p : Nat) : State :=
  match partOf s p with
  | none => s
  | some x =>
    match x.openDs with
    | none => s
    | some o =>
      let short := wrapShort s x (3 + setN s 0x2125 1)
      let s := if short then closeSpan s p else s
      match partOf s p with
      | none => s
      | some x =>
        let q := x.nextSeq
        let ms := markersFor s p 32
        let (idx, first) := spanPlace x q
        let d : Dataset := {
          part := p, seq := q, kind := .data, hostIndexed := x.hostIndexed, spanIdx := idx,
          spanFirst := first, lastCkpt := x.lastCkpt, maxVer := maxOf 0 (o.recs.map Rec.version), sealTime := meridian s,
          abandoned := x.pendingAb, recs := o.recs, markers := ms }
        let s := markPlaced s p ms
        let s := queueDs s { ds := d, turn := short && nextWrap s x, buf := o.buf, realloc := o.realloc }
        joinSpan (modPart s p fun x => { x with openDs := none, dataSince := x.dataSince + 1 }) d

/-- Lowest SEQ of the partition that is sealed and has not passed. -/
def lowestUnpassed (s : State) (p : Nat) : Option Nat :=
  ((s.fm.sealed.filter fun w => w.ds.part == p).map fun w => w.ds.seq).foldl
    (fun a q => match a with | some b => some (min b q) | none => some q) none

/-- Extents cut into checkpoint datasets (Table 5.6). -/
def ckptChunks : Nat → List Extent → List (List Extent)
  | 0, _ => []
  | n + 1, es => if es.length ≤ 105006 then [es] else es.take 105006 :: ckptChunks n (es.drop 105006)

/-- The mirror watermark of a partition now: while a primary mirrors, the version below the lowest one of which a piece is
neither confirmed by the peer nor failed; else as it was last (R458). -/
def watermarkNow (s : State) (x : Part) : Option Nat :=
  if mirroring s then
    let own := ((writesOf s).filter fun c => partition c.sqe == x.num && c.pieces.any fun k => k.st != .failed && !k.peerOk).map
      (·.version)
    let sent := (s.pl.unverified.filter fun u => u.1 == x.num).map fun u => u.2.2.1
    some ((own ++ sent).foldl (fun a v => min a (v - 1)) x.version)
  else x.watermark

/-- Mirroring ends: watermarks keep what they are, what the peer was still to confirm or to hear goes, and PL gives up the records it
holds (R452, R458). -/
def freezeMarks (s : State) : State :=
  s.fm.recs.foldl dropHeld { s with
    fm.parts := s.fm.parts.map fun x => { x with watermark := watermarkNow s x }, pl.unverified := [], pl.catchQ := [],
    pl.catchup := false }

/-- The pair stops mirroring for a reason of R457: both units act as unpaired, and WRITEs that waited for the peer wait no more. -/
def breakPair (s : State) (reason : Nat) : State :=
  let s := { freezeMarks s with pl.reason := reason }
  (writesOf s).foldl (fun s c => settleWrite s c.id) s

/-- A checkpoint of partition p is captured and its datasets are sealed; `add` commands wait for it (R121, R183)
(log 63). -/
def sealCheckpoint (s : State) (p : Nat) (byUnmount : Bool) : State :=
  match partOf s p with
  | none => s
  | some x =>
    let period := setN s 0x2123 3
    let base := x.lastCkpt == none || x.baseNext || decide (x.sinceBase ≥ period - 1) ||
      (x.ckptTries != 0 && x.ckptBase)
    let es := if base then s.fm.almanac.filter fun e => e.part == p else x.added
    let chunks := ckptChunks (es.length / 105006 + 1) es
    let s := if wrapShort s x 3 then closeSpan s p else s
    let first := ((partOf s p).map Part.nextSeq).getD x.nextSeq
    let origin := (lowestUnpassed s p).getD first
    let mk := fun (s : State) (i : Nat × List Extent) =>
      let short := (partOf s p).any fun x => wrapShort s x 3
      let s := if short then closeSpan s p else s
      match partOf s p with
      | none => s
      | some x =>
        let q := x.nextSeq
        let ms := markersFor s p 32
        let (idx, sf) := spanPlace x q
        let c : Ckpt := {
          prev := x.lastCkpt, base := if base then first else x.lastBase, delta := !base,
          hostIndexed := x.hostIndexed, exhausted := x.exhausted, faultProt := x.faultWp, byUnmount, maxVersion := x.version,
          eod := first, extents := i.2, watermark := watermarkNow s x, origin, count := chunks.length, index := i.1 }
        let d : Dataset := {
          part := p, seq := q, kind := .checkpoint, hostIndexed := x.hostIndexed, spanIdx := idx,
          spanFirst := sf, lastCkpt := x.lastCkpt, sealTime := meridian s, abandoned := x.pendingAb, markers := ms,
          ckpt := some c }
        let s := markPlaced s p ms
        let a := unitAlloc s 1 clsAlm
        let s := queueDs a.2 { ds := d, buf := a.1, turn := short && nextWrap s x }
        joinSpan (modPart s p fun x => { x with ckptCur := x.ckptCur.map fun k => (k.1, k.2.1 ++ [q], k.2.2) }) d
    let s := modPart s p fun x => { x with ckptCur := some (first, [], x.added.length), ckptBase := base, ckptWant := false,
                                           dataSince := 0, ckptAt := s.now }
    let s := (chunks.zipIdx.map fun c => (c.2, c.1)).foldl mk s
    { s with
      qe.cmds := s.qe.cmds.map fun c =>
      if opcode c.sqe = 0x1A ∧ partition c.sqe = p ∧ !c.dropped then { c with awaits := some first } else c }

/-- The partition seals nothing more: its writer is halted or halting, or it is being deleted (R117, R178). -/
def sealBarred (x : Part) : Bool := x.halted || x.halting || x.deleting

/-- No checkpoint is written in the partition: it seals nothing, or it is write-protected by fault (R283, R527; log 138). -/
def ckptBarred (x : Part) : Bool := sealBarred x || x.faultWp

/-- After the open dataset is sealed or empty: what waited for it follows, the checkpoint first, then the span closure
(R174, R181, R183). -/
def afterSeal (s : State) (p : Nat) : State :=
  match partOf s p with
  | none => s
  | some x =>
    if x.openDs.isSome || sealBarred x then s
    else
      let held := x.withdraw && s.fm.sealed.any fun w => w.ds.part == p
      let s := if x.ckptWant && x.ckptCur.isNone && !held && !x.faultWp then
          sealCheckpoint (modPart s p fun x => { x with withdraw := false }) p x.ckptUnmount
        else s
      match partOf s p with
      | some x => if x.spanClose && (!x.ckptWant || x.faultWp) then closeSpan s p else s
      | none => s

/-! ## The tag engine's order (R226 to R228) -/

/-- The read dataset (p, seq). -/
def readOf (s : State) (p seq : Nat) : Option ReadDs := s.rc.reads.find? fun r => r.part == p && r.seq == seq

/-- s with a read dataset changed. -/
def modRead (s : State) (p seq : Nat) (f : ReadDs → ReadDs) : State :=
  { s with rc.reads := s.rc.reads.map fun r => if r.part = p ∧ r.seq = seq then f r else r }

/-- The record job id. -/
def recOf (s : State) (id : Nat) : Option RecJob := s.fm.recs.find? fun j => j.id == id

/-- The job number of a check of record i of dataset seq of partition p; a smaller number is a pipeline record. -/
def checkId (p seq i : Nat) : Nat := 2 ^ 80 + (p * 2 ^ 48 + seq) * 2 ^ 16 + i

/-- Partition, SEQ and index of a check. -/
def checkOf (n : Nat) : Option (Nat × Nat × Nat) :=
  if n < 2 ^ 80 then none
  else
    let k := n - 2 ^ 80
    some (k / 2 ^ 64, k / 2 ^ 16 % 2 ^ 48, k % 2 ^ 16)

/-- The record of a job. -/
def jobRec (s : State) (n : Nat) : Option Rec :=
  match checkOf n with
  | some (p, q, i) => ((readOf s p q).bind ReadDs.content).bind fun d => d.recs[i]?
  | none => (recOf s n).map RecJob.r

/-- Priority of a job now (Table 7.1): a record that holds up a directory or a check under a MOUNT, a check in read recovery, a check,
another record. -/
def tagPrio (s : State) (n : Nat) : Nat :=
  match checkOf n with
  | some (p, q, _) => if (match s.media.op with | some (.mount ..) => true | _ => false) then 0 else if (readOf s p q).any fun r => decide (r.step > 0) then 1 else 2
  | none =>
    match recOf s n with
    | some j => if ((partOf s j.part).bind Part.openDs).any OpenDs.urgent then 0 else 3
    | none => 3

/-- Age of a job: the admission of its command (R227). -/
def tagAge (s : State) (n : Nat) : Nat :=
  match checkOf n with
  | some (p, q, _) =>
    (match s.rcl.visits.find? fun v => v.part == p && v.seq == q with
     | some v => v.cmds.foldl min s.qe.nextId
     | none => s.qe.nextId)
  | none => ((recOf s n).bind RecJob.cmd).getD s.qe.nextId

/-- The waiting job that comes first: the highest priority, then the oldest command (R227). -/
def bestTagJob (s : State) : Option TagJob :=
  (s.tg.jobs.filter TagJob.suspended).foldl (fun (b : Option TagJob) j =>
    match b with
    | none => some j
    | some k =>
      let pj := tagPrio s j.recId
      let pk := tagPrio s k.recId
      if pj < pk ∨ (pj = pk ∧ tagAge s j.recId < tagAge s k.recId) then some j else b) none

/-- A job is suspended at a boundary of 16 bytes of its A; where it stands is a matter of time: a free value (R228) (log 121). -/
def pauseJob (s : State) (j : TagJob) : State :=
  let f := freshFree s
  let a := ((jobRec s j.recId).map tagInput).getD []
  let n := j.count / 16 + (Config.freeWord f.1).toNat % ((a.length - j.count) / 16 + 1)
  let h := (j.hpow.headD 0).toNat
  let acc := ghashBlocks h (n - j.count / 16) (a.drop j.count) j.acc.toNat
  { f.2 with
    tg.jobs := f.2.tg.jobs.map fun k => if k.ctx = j.ctx then { k with suspended := true, count := 16 * n, acc := BitVec.ofNat 128 acc } else k,
    tg.susp := satAdd (2 ^ 32 - 1) f.2.tg.susp 1 }

/-- The array turns to a job. -/
def runJob (s : State) (j : TagJob) : State :=
  { s with tg.jobs := s.tg.jobs.map fun k => if k.ctx = j.ctx then { k with suspended := false } else k }

/-- The array serves the ready job of the highest priority; a job is preempted by one of a higher priority alone (R227, R228). -/
def tagTurn (s : State) : State :=
  match bestTagJob s with
  | none => s
  | some k =>
    match s.tg.jobs.find? fun j => !j.suspended with
    | none => runJob s k
    | some a => if tagPrio s k.recId < tagPrio s a.recId then runJob (pauseJob s a) k else s

/-! ## Sealing goes on -/

/-- A dataset that is not to be sealed goes, with its buffer; what its chains held back goes too (R197, R198). -/
def dropOpenDs (s : State) (p : Nat) : State :=
  let b := (((partOf s p).bind Part.openDs).map OpenDs.buf).toList
  sweep (modPart (releaseAll s b clsFm) p fun x => { x with openDs := none })

/-- The open dataset is sealed as soon as nothing is outstanding in it, or goes if it is not to be sealed (R174, R198). -/
def sealIfDone (s : State) (p : Nat) : State :=
  match partOf s p with
  | none => s
  | some x =>
    match x.openDs with
    | none => afterSeal s p
    | some o =>
      if o.outstanding != 0 then s
      else if o.discard then afterSeal (dropOpenDs s p) p
      else if (o.full || o.stop) && !sealBarred x then afterSeal (sealOpen s p) p else s

/-- FM stops reserving in the open dataset, at once or after the seal delay, and it is sealed (R174). -/
def stopDs (s : State) (p : Nat) (urgent : Bool) : State :=
  sealIfDone (tagTurn (modPart s p fun x => { x with
    openDs := x.openDs.map fun o => { o with stop := true, urgent := o.urgent || urgent } })) p

/-- A checkpoint, a span closure, UNMOUNT or the streaming condition requires the open dataset sealed (R174). -/
def stopOpen (s : State) (p : Nat) : State := stopDs s p true

/-- A checkpoint of the partition is required (R182). -/
def wantCheckpoint (s : State) (p : Nat) (byUnmount : Bool) : State :=
  stopOpen (modPart s p fun x => { x with ckptWant := true, ckptUnmount := byUnmount }) p

/-- FM gives the open dataset of a partition up: it reserves nothing more in it, and the records begun are still placed there (R117, R178,
R198, R288). -/
def discardOpen (s : State) (p : Nat) : State :=
  sealIfDone (modPart s p fun x => { x with openDs := x.openDs.map fun o => { o with discard := true, stop := true } }) p

/-- A MARKER waits to be placed in partition p (R174, R177). -/
def markerWaits (s : State) (p : Nat) : Bool := !(markersFor s p 1).isEmpty

/-- The partition's last write before the reserve has been made: its span closes (R181). -/
def closeForReserve (s : State) (p : Nat) : State :=
  match partOf s p with
  | none => s
  | some x => if x.full then s else stopOpen (setPart s { x with full := true, spanClose := x.span.isSome || x.openDs.isSome }) p

/-- An open dataset of partition p, opened if there is none, a position is left for it and a buffer of pool 1 is to be had; FM
seals no data dataset while the writer closes (R17, R168, R288). Reallocated chains may go into the reserve. -/
def openDataset (s : State) (p : Nat) (realloc : Bool) : State :=
  match partOf s p with
  | none => s
  | some x =>
    let room := if realloc then decide (spokenFor s x < x.positions) else roomForData s x
    if x.openDs.isSome || sealBarred x || x.withdraw || s.fm.closing || !room then s
    else
      let a := unitAlloc s 1 clsFm
      if a.1 = nullHandle then a.2
      else modPart a.2 p fun x => { x with openDs := some { buf := a.1, lastRes := s.now } }

/-- Pieces whose MARKERs wait where only the reserve is left fail: their WRITEs meet PARTITION_FULL (R17). -/
def failMarkers (s : State) (p : Nat) : State :=
  (markersFor s p 65536).foldl (fun s m =>
    let s := { s with fm.mirror := s.fm.mirror.map fun k => if k.is p (m.stream, m.version, m.piece) then { k with st := .failed } else k }
    match writeOf s p m.stream m.version with
    | some c => failWrite s c.id m.piece stPartitionFull 0 0 none
    | none => s) s

/-- A waiting MARKER has an open dataset to go into, where the partition has room for one (R17, R174). -/
def openForMarkers (s : State) (p : Nat) : State :=
  match partOf s p with
  | none => s
  | some x =>
    if x.openDs.isSome || sealBarred x || s.fm.closing || !markerWaits s p then s
    else if roomForData s x then openDataset s p false
    else closeForReserve (failMarkers s p) p

/-! ## Passing and abandonment (R178, R281, R283) -/

/-- Verdicts still out of a writing that is over reach the lanes' health all the same (R285). -/
def leaveDue (s : State) (w : WriteDs) : State :=
  { s with fm.late := s.fm.late ++ w.due.map fun g => (w.ds.seq, w.attempt, w.wrap, g) }

/-- Members of a span are no longer needed once neither of its parity datasets is to be written (R261). -/
def forgetMembers (s : State) (d : Dataset) : State :=
  if d.kind == .parity && !(s.fm.sealed.any fun w => w.ds.part == d.part && w.ds.kind == .parity && w.ds.spanFirst == d.spanFirst) then
    { s with fm.members := s.fm.members.filter fun m => !(m.part == d.part && m.spanFirst == d.spanFirst) }
  else s

/-- A dataset leaves the write pipeline and its pool 1 buffer is released by whoever holds it. -/
def dropSealed (s : State) (w : WriteDs) : State :=
  let s := forgetMembers (leaveDue { s with
    fm.sealed := s.fm.sealed.filter fun v => !(v.ds.part == w.ds.part && v.ds.seq == w.ds.seq) } w) w.ds
  if w.buf = nullHandle then s
  else match (poolOf s (poolNo w.buf)).buf (bufNo w.buf) with
    | none => s
    | some b =>
      let s := if b.holders.getLsbD clsFmv then release s w.buf clsFmv else s
      let s := if b.holders.getLsbD clsFm then release s w.buf clsFm else s
      if b.holders.getLsbD clsAlm then release s w.buf clsAlm else s

/-- The tape copy of a sealed dataset is changed. -/
def modTape (s : State) (w : WriteDs) (f : TapeDs → TapeDs) : State :=
  { s with
    media.cart := s.media.cart.map fun c => { c with
    tape := c.tape.map fun t =>
    if t.ds.part = w.ds.part ∧ t.ds.seq = w.ds.seq ∧ t.attempt = w.attempt ∧ t.ds.kind = w.ds.kind then f t else t } }

/-- The checkpoint in progress has passed: it becomes the latest one, and its extents leave the list for the next delta
(R182, R183); commands that wait for it complete (R121). -/
def checkpointPassed (s : State) (p first n : Nat) : State :=
  match partOf s p with
  | none => s
  | some x =>
    let s := setPart s { x with
      lastCkpt := some first, lastBase := (if x.ckptBase then first else x.lastBase),
      sinceBase := (if x.ckptBase then 0 else x.sinceBase + 1), baseNext := (if x.ckptBase then false else x.baseNext),
      added := x.added.drop n, ckptCur := none, ckptTries := 0 }
    let done := s.qe.cmds.filter fun c => opcode c.sqe == 0x1A && c.awaits == some first && !c.dropped
    done.foldl (fun s c => finish s c { status := stOk, info := first }) s

/-- The CHECKPOINTs of some partitions that wait end with a status (R121). -/
def endCheckpoints (s : State) (p : Nat → Bool) (st d1 : Nat) : State :=
  (s.qe.cmds.filter fun c => opcode c.sqe == 0x1A && c.st == .waiting && p (partition c.sqe) && !c.dropped).foldl
    (fun s c => finish s c { status := st, d1 }) s

/-- No checkpoint of some partitions is due or in progress any more: none can be written (R178, R283, R288). -/
def clearCkpt (s : State) (p : Nat → Bool) : State :=
  { s with fm.parts := s.fm.parts.map fun x => if p x.num then { x with ckptWant := false, ckptCur := none, ckptTries := 0 } else x }

/-- A partition becomes write-protected by fault while it is in use: a checkpoint that is not sealed yet is not written, and CHECKPOINTs
that wait for it end with WRITE_PROTECTED (R121; log 138). -/
def protectPart (s : State) (p : Nat) : State :=
  let s := modPart (faultProtect s p) p fun x => { x with ckptWant := false }
  (s.qe.cmds.filter fun c => opcode c.sqe == 0x1A && c.st == .waiting && partition c.sqe == p && c.awaits.isNone && !c.dropped).foldl
    (fun s c => finishSt s c stWriteProtected) s

/-- A reallocation is given up and counted (R349, R350, R352). -/
def dropRealloc (s : State) (p seq : Nat) : State :=
  let s := modPart s p fun x => { x with
    chains := x.chains.filter fun c => c.1 != seq }
  let s := setSubst s 6
  { s with
    fm.reallocs := s.fm.reallocs.filter (fun r => !(r.part == p && r.seq == seq)),
    fm.reallocDropped := satAdd 65535 s.fm.reallocDropped 1, health.dropped := s.health.dropped + 1 }

/-- The reallocations of a partition can go no further: those not moved are dropped; of one that is, the move stays, and nothing more is
counted or reported (R117, R350). -/
def endReallocs (s : State) (p : Nat) : State :=
  let s := (s.fm.reallocs.filter fun r => r.part == p && !r.moved).foldl (fun s r => dropRealloc s p r.seq) s
  { s with fm.reallocs := s.fm.reallocs.filter fun r => r.part != p }

/-- Moves of a partition whose delta checkpoint cannot be written stay, and nothing more is counted or reported (R350). -/
def endMoves (s : State) (p : Nat) : State :=
  { s with fm.reallocs := s.fm.reallocs.filter fun r => !(r.part == p && r.moved) }

/-- A writing of the checkpoint in progress is abandoned with dataset q: it is written again, at most three times in all (R121,
R283). -/
def checkpointAbandoned (s : State) (p q : Nat) : State :=
  match partOf s p with
  | none => s
  | some x =>
    if x.deleting then endCheckpoints (clearCkpt s (· == p)) (· == p) stMediaBusy 0
    else if x.ckptTries ≥ 2 then
      endMoves (endCheckpoints (faultProtect (clearCkpt s (· == p)) p) (· == p) stWriteVerifyFailed (q % 2 ^ 32)) p
    else if x.faultWp then endMoves (endCheckpoints (clearCkpt s (· == p)) (· == p) stWriteProtected 0) p
    else
      wantCheckpoint (setPart s { x with ckptCur := none, ckptTries := x.ckptTries + 1 }) p x.ckptUnmount

/-- The mirrored records of a partition that wait for a place leave, and the mirrored pieces that they are of fail: FM seals nothing more
there (R178, R288, R453). -/
def dropMirrored (s : State) (p : Nat) (hit : MirrorPiece → Bool) : State :=
  let gone := s.fm.recs.filter fun j => j.part == p && j.cmd.isNone
  let s := gone.foldl (fun s j => j.bufs.foldl dropRecBuf s) s
  let s := { s with
    fm.recs := s.fm.recs.filter (fun j => !(j.part == p && j.cmd.isNone)),
    fm.mirror := s.fm.mirror.map fun m => if m.part == p && !m.settled && hit m then { m with st := .failed } else m }
  if gone.isEmpty then s else giveCredit s

/-- Every piece of a partition that has not reached its commit point fails and its WRITE completes at once, the outcome
being settled at the next MOUNT; a CHECKPOINT that waits for one that is not written any more ends with the same status (R178 steps 3
and 4) (log 57). -/
def haltPartition (s : State) (p : Nat) : State :=
  let s := modPart s p fun x => { x with halted := true, halting := false }
  let s := dropMirrored (clearCkpt s (· == p)) p fun _ => true
  let s := if s.fm.wpart = p then { s with fm.wstate := 6, fm.gate := false, fm.current := none } else s
  let s := ((writesOf s).filter fun c => partition c.sqe == p && !c.dropped).foldl
    (fun s c => endWrite s c.id stWriteVerifyFailed 2 false) s
  discardOpen (endReallocs (endCheckpoints s (· == p) stWriteVerifyFailed 0) p) p

/-- A partition that drains towards HALTED and has nothing sealed left is halted (R178). -/
def haltIfDrained (s : State) (p : Nat) : State :=
  match partOf s p with
  | some x => if x.halting && !(s.fm.sealed.any fun w => w.ds.part == p) then haltPartition s p else s
  | none => s

/-- A dataset passes write verification (R281): its MARKERs commit their pieces, the SEQs it lists are pending no more,
and a checkpoint may be complete with it. -/
def passDataset (s : State) (w : WriteDs) : State :=
  let p := w.ds.part
  let s := dropSealed s w
  let s := modPart s p fun x => { x with pendingAb := x.pendingAb.filter fun q => !w.ds.abandoned.contains q }
  let s := if w.attempt = 0 then s else
    { s with
      qe.cmds := s.qe.cmds.map fun c =>
      if partition c.sqe = p ∧ holdsVersion w.ds (stream c.sqe) c.version ∧ opcode c.sqe = 0x40
      then { c with recovered := true } else c }
  let s := commitReady (w.ds.markers.foldl (fun s m => markPassed s p (m.stream, m.version, m.piece)) s) p
  let s := match partOf s p with
    | some x =>
      (match x.ckptCur with
       | some (f, qs, n) =>
         if qs.contains w.ds.seq then
           let qs := qs.filter (· != w.ds.seq)
           if qs.isEmpty then checkpointPassed s p f n else setPart s { x with ckptCur := some (f, qs, n) }
         else s
       | none => s)
    | none => s
  let s := openForMarkers (settlePart s p) p
  let s := if (partOf s p).any (·.withdraw) then afterSeal s p else s
  haltIfDrained s p

/-- A dataset is given up (R178, R283): its SEQ is pending until a dataset that lists it has passed; a ninth pending SEQ halts the
partition, and a label dataset ends its operation. Pieces that it hits fail with the status `st`. -/
def abandonDataset (s : State) (w : WriteDs) (st : Nat) : State :=
  let p := w.ds.part
  let s := dropSealed s w
  let s := faultRec { s with fm.abandonedCnt := satAdd 65535 s.fm.abandonedCnt 1 } 0x0A false p 0 w.ds.seq
  let s := modPart s p fun x =>
    if w.ds.kind == .label then { x with labelFail := some w.ds.seq }
    else if x.pendingAb.length ≥ 8 then
      { x with halting := true, abandoned := x.abandoned ++ [w.ds.seq], overAb := x.overAb ++ [w.ds.seq] }
    else { x with pendingAb := x.pendingAb ++ [w.ds.seq], abandoned := x.abandoned ++ [w.ds.seq] }
  let hit := fun (c : Cmd) (k : Piece) =>
    (w.ds.kind == .data && holdsPiece w.ds (stream c.sqe) c.version k.idx) ||
      w.ds.markers.any fun m => m.stream == stream c.sqe && m.version == c.version && m.piece == k.idx
  let s := ((writesOf s).filter fun c => partition c.sqe == p).foldl (fun s c =>
    match (c.pieces.filter fun k => !k.settled && hit c k).map Piece.idx with
    | [] => s
    | i :: is => failWrite s c.id (is.foldl min i) st (w.ds.seq % 2 ^ 32) 0 (some w.ds.seq)) s
  let lost := s.fm.mirror.filter fun m => m.part == p && m.st != .committed && m.st != .failed &&
    (holdsPiece w.ds m.stream m.version m.piece ||
      w.ds.markers.any fun k => k.stream == m.stream && k.version == m.version && k.piece == m.piece)
  let s := { s with fm.mirror := s.fm.mirror.map fun m => if lost.contains m then { m with st := .failed } else m }
  let s := commitReady s p
  let s := match partOf s p with
    | some x =>
      (match x.ckptCur with
       | some (_, qs, _) => if qs.contains w.ds.seq then checkpointAbandoned s p w.ds.seq else s
       | none => s)
    | none => s
  let s := openForMarkers s p
  let s := if (partOf s p).any (·.withdraw) then afterSeal s p else s
  haltIfDrained s p

end Sys2Proof.Machine
end

