-- ==== Sys2Proof/Machine/Zsc.lean ====
section
/-! DEFINITION. The stream formats ZSC2 and ZSC1 and stored records: the decoders of R190 to R206 with their faults in
the order the spec checks them. -/

namespace Sys2Proof.Machine

/-- A decoder stopped: the status and the payload offset of the token at which it stopped (R204). -/
structure DecErr where
  status : Nat
  off : Nat
deriving DecidableEq, Repr

/-- A token of either format. -/
inductive Token where
  | literal (n : Nat)
  | copy (n d : Nat)
  | histBreak
  | flush
  | endOfRecord
deriving DecidableEq, Repr

/-- A varint at the front of the bytes (R191): its value and the bytes after it. -/
def varint (bs : List Byte) : Except Nat (Nat × List Byte) :=
  match bs with
  | [] => .error stDecompTruncated
  | a :: r =>
    if a.toNat < 128 then .ok (a.toNat, r)
    else match r with
      | [] => .error stDecompTruncated
      | b :: r =>
        if b.toNat < 128 then .ok (a.toNat % 128 + 128 * b.toNat, r)
        else match r with
          | [] => .error stDecompTruncated
          | c :: r =>
            if c.toNat < 128 then .ok (a.toNat % 128 + 128 * (b.toNat % 128) + 16384 * c.toNat, r)
            else .error stDecompIllegalCode

/-- The token at the front of a ZSC2 payload (R192, R194). -/
def token2 (bs : List Byte) : Except Nat (Token × List Byte) :=
  match bs with
  | [] => .error stDecompTruncated
  | tb :: r =>
    let t := tb.toNat
    if t ≤ 0x3E then .ok (.literal (t + 1), r)
    else if t = 0x3F then
      match varint r with
      | .ok (v, r) => .ok (.literal (v + 64), r)
      | .error e => .error e
    else if t ≤ 0x7F then
      match r with
      | b1 :: r => .ok (.copy (4 + bits t 3 3) (1 + bits t 0 3 * 256 + b1.toNat), r)
      | [] => .error stDecompTruncated
    else if t ≤ 0xBF then
      match r with
      | b1 :: b2 :: r => .ok (.copy (4 + bits t 0 6) (1 + b1.toNat + 256 * b2.toNat), r)
      | _ => .error stDecompTruncated
    else if t ≤ 0xCF then
      match r with
      | b1 :: b2 :: r =>
        match varint r with
        | .ok (x, r) =>
          if x > 65535 then .error stDecompIllegalCode
          else .ok (.copy (4 + x) (1 + bits t 0 4 * 65536 + b1.toNat + 256 * b2.toNat), r)
        | .error e => .error e
      | _ => .error stDecompTruncated
    else if t = 0xFC then .ok (.histBreak, r)
    else if t = 0xFD then .ok (.flush, r)
    else if t = 0xFE then .ok (.endOfRecord, r)
    else .error stDecompIllegalCode

/-- A varint in its minimal form (R191). -/
def minVarint (n : Nat) : List Nat :=
  if n < 128 then [n]
  else if n < 16384 then [128 + n % 128, n / 128]
  else [128 + n % 128, 128 + n / 128 % 128, n / 16384]

/-- What a compressor emits for a token before its literal bytes: the minimal varint and the shortest match token; neither
HISTORY_BREAK nor FLUSH (R191 to R193, R200). -/
def emits (t : Token) : Option (List Nat) :=
  match t with
  | .literal n => some (if n ≤ 63 then [n - 1] else 0x3F :: minVarint (n - 64))
  | .copy n d =>
    let e := d - 1
    some (if n ≤ 11 ∧ d ≤ 2048 then [0x40 + 8 * (n - 4) + e / 256, e % 256]
      else if n ≤ 67 ∧ d ≤ 65536 then [0x80 + (n - 4), e % 256, e / 256]
      else [0xC0 + e / 65536, e % 256, e / 256 % 256] ++ minVarint (n - 4))
  | .endOfRecord => some [0xFE]
  | .histBreak => none
  | .flush => none

/-- A ZSC2 payload is made of tokens as compressors emit them, to its end; fuel at least the number of tokens. -/
def emitted : Nat → List Byte → Bool
  | 0, _ => false
  | _ + 1, [] => true
  | fuel + 1, b :: bs =>
    match token2 (b :: bs) with
    | .error _ => false
    | .ok (t, r) =>
      some (((b :: bs).take (bs.length + 1 - r.length)).map BitVec.toNat) == emits t &&
        emitted fuel (match t with | .literal n => r.drop n | _ => r)

/-- The token at the front of a ZSC1 payload (R205). -/
def token1 (bs : List Byte) : Except Nat (Token × List Byte) :=
  match bs with
  | [] => .error stDecompTruncated
  | tb :: r =>
    let t := tb.toNat
    if t ≤ 0x7F then .ok (.literal (t + 1), r)
    else if t ≤ 0xFE then
      match r with
      | b1 :: b2 :: r => .ok (.copy (3 + bits t 0 7) (1 + b1.toNat + 256 * b2.toNat), r)
      | _ => .error stDecompTruncated
    else .ok (.endOfRecord, r)

/-- n bytes copied from d back, one at a time (R193); `out` is the output behind its history, newest byte first. -/
def copyBack : Nat → Nat → List Byte → List Byte
  | 0, _, out => out
  | n + 1, d, out => copyBack n d (out.getD (d - 1) 0 :: out)

/-- The procedure of R194, with fuel at least the number of tokens. -/
def zscLoop (tok : List Byte → Except Nat (Token × List Byte)) (window olen space total : Nat) :
    Nat → List Byte → List Byte → Nat → Nat → Except DecErr (List Byte)
  | 0, rest, _, _, _ => .error { status := stDecompTruncated, off := total - rest.length }
  | fuel + 1, rest, out, produced, avail =>
    let off := total - rest.length
    match tok rest with
    | .error e => .error { status := e, off }
    | .ok (.histBreak, r) => zscLoop tok window olen space total fuel r out produced 0
    | .ok (.flush, r) => zscLoop tok window olen space total fuel r out produced avail
    | .ok (.endOfRecord, r) =>
      if produced ≠ olen ∨ produced ≠ space ∨ !r.isEmpty then .error { status := stDecompIllegalCode, off }
      else .ok (out.take produced).reverse
    | .ok (.literal n, r) =>
      if produced + n > olen then .error { status := stDecompLengthOverrun, off }
      else if produced + n > space then .error { status := stDecompOutputFull, off }
      else if r.length < n then .error { status := stDecompTruncated, off }
      else zscLoop tok window olen space total fuel (r.drop n) ((r.take n).reverse ++ out) (produced + n)
        (min (avail + n) window)
    | .ok (.copy n d, r) =>
      if d > avail then .error { status := stDecompDistance, off }
      else if produced + n > olen then .error { status := stDecompLengthOverrun, off }
      else if produced + n > space then .error { status := stDecompOutputFull, off }
      else zscLoop tok window olen space total fuel r (copyBack n d out) (produced + n) (min (avail + n) window)

/-- A stored record (R203). Where no stored byte stands at a fault, the offset shown is the payload's length (R211; log 149). -/
def storedDecode (payload : List Byte) (olen space : Nat) : Except DecErr (List Byte) :=
  let n := payload.length
  if n > olen then .error { status := stDecompLengthOverrun, off := olen }
  else if n < olen then .error { status := stDecompTruncated, off := n }
  else if n > space then .error { status := stDecompOutputFull, off := space }
  else if n < space then .error { status := stDecompIllegalCode, off := n }
  else .ok payload

/-- A payload decoded under its form: 0 ZSC2, 1 ZSC1, 2 stored. `history` is the record's starting history, oldest
byte first (R195); ZSC1 starts without one (R206). -/
def decodePayload (form : Nat) (history payload : List Byte) (olen space : Nat) : Except DecErr (List Byte) :=
  match form with
  | 0 =>
    let h := (history.reverse).take 1048576
    zscLoop token2 1048576 olen space payload.length (payload.length + 1) payload h 0 h.length
  | 1 => zscLoop token1 65536 olen space payload.length (payload.length + 1) payload [] 0 0
  | 2 => storedDecode payload olen space
  | _ => .error { status := stDecompIllegalCode, off := 0 }

end Sys2Proof.Machine
end

