-- ==== Sys2Proof/Machine/ReadPath.lean ====
section
/-! DEFINITION. Reading back: visits, the serving of READs and VERIFYs byte by byte from staging and tape, tag checks,
chains and their decompression (R28 to R31, R45, R105, R129, R153, R185 to R187, R202 to R209, R232, R233, R370). -/

namespace Sys2Proof.Machine

/-! ## Where a SEQ should lie (R367) -/

/-- Nominal length of a dataset on a wrap, in thirds of a nanometre (Table 8.4: 32 slots). -/
def nominalLen (wrap : Nat) : Nat := 32 * slotLen wrap

/-- The place d LPOS further along a partition's serpentine from a place, or back: a wrap's end leads to the start of the next one; behind
its last wrap, or before its first, at the end there (R16, R264, R367). -/
def serpent (first last : Nat) (back : Bool) : Nat → Nat → Nat → Nat → Nat × Nat
  | 0, wrap, lpos, _ => (wrap, lpos)
  | fuel + 1, wrap, lpos, d =>
    let up := isForward wrap != back
    let room := if up then lpEot - lpos else lpos - lpBot
    if d ≤ room ∨ (if back then wrap ≤ first else last ≤ wrap) then (wrap, if up then min lpEot (lpos + d) else max lpBot (lpos - d))
    else
      let w := if back then wrap - 1 else wrap + 1
      serpent first last back fuel w (if isForward w != back then lpBot else lpEot) (d - room)

/-- The wrap and the place n dataset lengths of 1.03 times the nominal one away from an entry, along the partition's serpentine (R367). -/
def lposAway (s : State) (p : Nat) (at_ : Nat × Nat) (n : Nat) (back : Bool) : Nat × Nat :=
  let (first, last) := match partOf s p with
    | some x => (2 * x.firstPair, x.lastWrap)
    | none => (at_.1, at_.1)
  serpent first last back 384 at_.1 at_.2 (n * nominalLen at_.1 * 103 / 100 / frameLen)

/-- Wrap and LPOS where dataset SEQ is expected: interpolated between the two nearest entries of the position map on one
wrap, else extrapolated from the nearest entry along the serpentine (R367). -/
def estimate (s : State) (p seq : Nat) : Nat × Nat :=
  let es := s.fm.posMap.filter fun e => e.1 == p
  let lo := es.foldl (fun (b : Option (Nat × Nat × Nat × Nat)) e =>
    if e.2.1 ≤ seq then (match b with | some x => if x.2.1 ≤ e.2.1 then some e else b | none => some e) else b) none
  let hi := es.foldl (fun (b : Option (Nat × Nat × Nat × Nat)) e =>
    if seq ≤ e.2.1 then (match b with | some x => if e.2.1 ≤ x.2.1 then some e else b | none => some e) else b) none
  match lo, hi with
  | some a, some b =>
    if a.2.1 = b.2.1 then a.2.2
    else if a.2.2.1 = b.2.2.1 then
      let l := (a.2.2.2 : Int) + ((b.2.2.2 : Int) - a.2.2.2) * (seq - a.2.1) / (b.2.1 - a.2.1)
      (a.2.2.1, l.toNat)
    else if seq - a.2.1 ≤ b.2.1 - seq then lposAway s p a.2.2 (seq - a.2.1) false
    else lposAway s p b.2.2 (b.2.1 - seq) true
  | some a, none => lposAway s p a.2.2 (seq - a.2.1) false
  | none, some b => lposAway s p b.2.2 (b.2.1 - seq) true
  | none, none =>
    let w := 2 * ((partOf s p).map Part.firstPair).getD 0
    lposAway s p (w, lposOf (wrapStart (w / 2) w)) seq false

/-! ## Visits (R370, R374, R376) -/

/-- The command is a READ. -/
def isRead (c : Cmd) : Bool := opcode c.sqe == 0x41

/-- A visit's identity. -/
def Visit.isFor (v : Visit) (p seq : Nat) : Bool := v.part == p && v.seq == seq

/-- Every lane enters OFF: reading stops, a locate, a wrap change (R311). -/
def lanesOff (s : State) : State :=
  { s with rc.lanes := s.rc.lanes.map fun x => (x.1, { x.2 with state := 0, coastn := 0, store := [] }) }

/-- The run in progress is over, and reading stops (R311, R374). -/
def endRun (s : State) : State :=
  lanesOff { s with rcl.run := [], rcl.ending := false, rcl.under := none, rcl.inside := false, rcl.again := false }

/-- What is left of the run in progress; with nothing left it ends at the next dataset boundary (R376). -/
def keepRun (s : State) (run : List (Nat × Nat)) : State :=
  if !run.isEmpty || s.rcl.run.isEmpty then { s with rcl.run := run }
  else if s.rcl.inside && s.rc.ladder.isNone then { s with rcl.run := [], rcl.ending := true }
  else endRun s

/-- A dataset still ahead on the wrap of the run in progress, within the merge gap of its last visit, joins the run: beyond the dataset
the head has come to, or, while it is being located, from the run's first one on (R374). -/
def joinRun (s : State) (p seq wrap : Nat) : State :=
  match s.rcl.run with
  | [] => s
  | (rp, first) :: _ =>
    let last := maxOf 0 (s.rcl.run.map Prod.snd)
    let from_ := match s.rcl.under with | some (_, q) => q + 1 | none => first
    if rp = p ∧ wrap = s.rc.wrap ∧ !s.rcl.ending ∧ from_ ≤ seq ∧ seq ≤ last + 1 + setN s 0x212B 7 then
      { s with rcl.run := (insNat seq (s.rcl.run.map Prod.snd)).map fun q => (p, q) }
    else s

/-- Command id needs dataset (p, seq): its visit is found or made. -/
def needVisit (s : State) (id prio since p seq : Nat) : State :=
  if s.rcl.visits.any fun v => v.isFor p seq then
    { s with
      rcl.visits := s.rcl.visits.map fun v =>
        if v.isFor p seq then
          { v with cmds := (if v.cmds.contains id then v.cmds else v.cmds ++ [id]),
                   prio := min v.prio prio, since := (if v.cmds.isEmpty then since else min v.since since),
                   aged := v.aged && !v.cmds.isEmpty }
        else v }
  else
    let e := estimate s p seq
    { s with rcl.visits := s.rcl.visits ++ [{ part := p, seq, wrap := e.1, lpos := e.2, cmds := [id], prio, since }] }

/-- The same, and the dataset joins the run in progress where it lies ahead (R374). -/
def addVisit (s : State) (id prio since p seq : Nat) : State :=
  let t := needVisit s id prio since p seq
  match t.rcl.visits.find? fun v => v.isFor p seq with
  | some v => if t.rcl.run.contains (p, seq) || (readOf t p seq).any (fun r => r.decoded || r.step != 0) then t else joinRun t p seq v.wrap
  | none => t

/-- A visit takes the most urgent priority of what needs it and the age of its oldest command (R370, R373). -/
def Visit.refresh (s : State) (v : Visit) : Visit :=
  let cs := v.cmds.filterMap (cmdOf s)
  let hs := s.rcl.hints.filter fun h => v.hints.contains h.id
  match cs with
  | [] => { v with prio := (hs.map Hint.prio).foldl min 3, aged := false }
  | c :: r =>
    let since := (r.map Cmd.since).foldl min c.since
    { v with since, prio := ((cs.map Cmd.prio) ++ hs.map Hint.prio).foldl min 3, aged := v.aged && elapsed s since (setN s 0x212B 1) }

/-- A visit that has the writer give the transport up (R375). -/
def Visit.asks (s : State) (v : Visit) : Bool := !v.cmds.isEmpty && (v.prio == 0 || elapsed s v.since (setN s 0x212B 8))

/-- The visits as something has left some of them: one left with no command or hint is removed, and so is what the run in progress and the
writer's preemption had of it (R370, R375, R376). -/
def setVisits (s : State) (vs : List Visit) : State :=
  let vs := vs.filter fun v => !v.cmds.isEmpty || !v.hints.isEmpty
  keepRun { s with rcl.visits := vs, rcl.preempt := s.rcl.preempt && vs.any (Visit.asks s) }
    (s.rcl.run.filter fun r => vs.any fun v => v.isFor r.1 r.2)

/-- A command leaves the visits of some datasets. A READ that leaves a decoded one has used what a hint had read for it (R376, R379). -/
def leaveSome (s : State) (c : Cmd) (which : Visit → Bool) : State :=
  setVisits s (s.rcl.visits.map fun v =>
    if v.cmds.contains c.id && which v then
      let used := isRead c && (readOf s v.part v.seq).any ReadDs.decoded
      Visit.refresh s { v with cmds := v.cmds.filter (· != c.id), hints := if used then [] else v.hints }
    else v)

/-! ## Datasets being read -/

/-- Bits of Table 4.4 for the units of the read path. -/
abbrev clsCxd : Nat := 3
abbrev clsCd : Nat := 7

/-- A read dataset is given up: its buffers are released and its chain jobs go. -/
def dropRead (s : State) (p seq : Nat) : State :=
  match readOf s p seq with
  | none => s
  | some r =>
    let s := if r.buf = nullHandle then s else release s r.buf clsCd
    let mine := fun j : ChainJob => j.part == p && j.seq == seq
    let s := releaseAll (releaseAll s r.outBufs clsQeOut) r.pool6 clsRcv
    let s := releaseAll s ((s.cx.chains.filter mine).flatMap ChainJob.bufs) clsCxd
    { s with
      rc.reads := s.rc.reads.filter fun r => !(r.part == p && r.seq == seq),
      cx.chains := s.cx.chains.filter fun j => !mine j }

/-- A visit without commands and hints is over, and so is its read dataset. -/
def closeVisit (s : State) (p seq : Nat) : State :=
  if s.rcl.visits.any fun v => v.isFor p seq then s
  else match readOf s p seq with
    | some r => if r.decoded then dropRead s p seq else s
    | none => s

/-! ## Chains (R186, R195) -/

/-- The chain that ends at directory index i: indices from the nearest record of the stream with HCONT = 0 up to i. -/
def chainOf (ds : Dataset) (i : Nat) : List Nat :=
  match ds.recs[i]? with
  | none => []
  | some r =>
    let back := ((ds.recs.zipIdx.take i).filter fun x => x.1.stream == r.stream).reverse
    let rec go : Bool → List (Rec × Nat) → List Nat
      | true, x :: xs => go x.1.hcont xs ++ [x.2]
      | _, _ => []
    go r.hcont back ++ [i]

/-- A record decoded on its chain's history: its original bytes and the history for the next record, or the fault
(R202 to R204), or a failed CRC-64 (R167). -/
inductive RecResult where
  | ok (bytes : List Byte)
  | fault (e : DecErr) (form : Nat)
  | badCrc
deriving DecidableEq, Repr

/-- One record decoded with its starting history. -/
def decodeRec (hist : List Byte) (r : Rec) : RecResult :=
  let space := match r.entry with | some e => e.2 | none => r.olen
  match decodePayload r.form (if r.hcont then hist else []) r.payload r.olen space with
  | .ok bs => if crc64 bs = r.crc then .ok bs else .badCrc
  | .error e => .fault e r.form

/-- Records of a chain decoded one after another; it ends at the first that fails. -/
def decodeChain : List Byte → List (Nat × Rec) → List (Nat × RecResult)
  | _, [] => []
  | h, (i, r) :: rs =>
    match decodeRec h r with
    | .ok bs => (i, .ok bs) :: decodeChain ((if r.hcont then h else []) ++ bs) rs
    | e => [(i, e)]

/-! ## Tag checks (R40, R231, R232) -/

/-- The key of a slot, while it is loaded or clearing. -/
def keyOf (s : State) (slot : Nat) : Option KeySlot := s.tg.keys.find? fun k => k.slot == slot

/-- The 16-byte tag of a record under a key (R212 to R214). -/
def tagOf (key : BitVec 256) (r : Rec) : List Byte := gmac (be 32 key.toNat) (le 12 r.nonce.toNat) (tagInput r)

/-- The first failing check of a record for a reader: status and detail 2 (R231 to R233). The window comes first (R40, R232), then
a retired TG (log 122). -/
def tagCheck (s : State) (c : Cmd) (r : Rec) : Option (Nat × Nat) :=
  if !r.tagged then (if tagRequired c.sqe then some (stTagMismatch, 1) else none)
  else if !(decide (c.kbase ≤ r.keySlot ∧ r.keySlot < c.kbase + c.kcount)) then some (stAccessDenied, 0)
  else if s.tg.retired then some (stIntegrityEngineFault, 0)
  else match keyOf s r.keySlot with
    | none => some (stKeySlotEmpty, 0)
    | some k =>
      if k.clearing.isSome then some (stKeySlotEmpty, 0)
      else if tagBit c.sqe && keySlot c.sqe != r.keySlot then some (stTagMismatch, 2 + 65536 * r.keySlot)
      else if tagOf k.key r != fit 16 r.trailer then some (stTagMismatch, 65536 * r.keySlot)
      else none

/-- What a reader may know of a chain of records. -/
inductive Verdict where
  /-- a check or a decompression is still to be done -/
  | wait
  /-- every record has passed every check -/
  | pass
  /-- a record failed: the status, and detail 2 -/
  | fail (st d2 : Nat)
deriving DecidableEq, Repr

/-- Stage 3 over a chain, in order (R186, R231, R232): a tagged record that TG has not checked is waited for. -/
def chainTags (s : State) (c : Cmd) (rd : ReadDs) (ds : Dataset) : List Nat → Verdict
  | [] => .pass
  | i :: is =>
    match ds.recs[i]? with
    | none => .wait
    | some r =>
      if r.tagged && !s.tg.retired && !rd.tagOk.contains i then .wait
      else match tagCheck s c r with
        | some t => .fail t.1 t.2
        | none => chainTags s c rd ds is

/-- Stages 4 and 5 over a chain, in order (R186, R204). -/
def chainOuts (rd : ReadDs) : List Nat → Verdict
  | [] => .pass
  | i :: is =>
    match rd.bad.find? fun b => b.1 == i with
    | some b => .fail b.2 0
    | none => if rd.outs.any fun o => o.1 == i then chainOuts rd is else .wait

/-- What holds for a reader of record i of a decoded dataset: an earlier record of its chain that fails fails it too (R186). -/
def recVerdict (s : State) (c : Cmd) (rd : ReadDs) (ds : Dataset) (i : Nat) : Verdict :=
  match chainTags s c rd ds (chainOf ds i) with
  | .pass => chainOuts rd (chainOf ds i)
  | v => v

/-! ## Ending a READ, VERIFY or STREAM_STAT -/

/-- A reader leaves everything it waits on: pinned buffers and those of its transfer, visits, chain jobs. -/
def readerOut (s : State) (c : Cmd) : State :=
  let s := c.bufs.foldl (fun s h => release s h (if c.pins.any fun k => k.handle == h then clsPin else clsQeOut)) s
  let s := unpark s c.id
  let vs := (s.rcl.visits.filter fun v => v.cmds.contains c.id).map fun v => (v.part, v.seq)
  let s := leaveSome s c fun _ => true
  let s := { s with cx.chains := s.cx.chains.map fun j => { j with cmds := j.cmds.filter (· != c.id) } }
  vs.foldl (fun s v => closeVisit s v.1 v.2) s

/-- A READ or VERIFY is answered with the bytes delivered or checked so far, which go to the host now; one that meets a key slot outside
its window delivers nothing (R40, R105, R126) (log 122). -/
def endRead (s : State) (c : Cmd) (st d1 d2 : Nat) : State :=
  let c := if st = stAccessDenied ∧ isRead c then { c with unsent := [], done := 0, staged := false } else c
  let s := dmaOut (readerOut s c) c c.unsent
  finish s { c with bufs := [], pins := [] }
    { status := (if st = stOk ∧ c.recovered then stOkRecovered else st), info := c.done, d1, d2, bytes := c.done % 2 ^ 32,
      staged := c.staged, recovered := c.recovered && isOk st }

/-! ## Serving a range (R28 to R31, R105, R185) -/

/-- The header of a record agrees with the extent that names it: MAGIC, FORMAT and reserved bits, FORM, and STREAM,
OFFSET and VERSION. -/
def headerOk (ds : Dataset) (e : Extent) : Bool :=
  match ds.recs[e.index]? with
  | some r => r.headOk && r.stream == e.stream && r.offset == e.offset && r.version == e.version
  | none => false

/-- The header fields of a record read by a locator pass stage 2: MAGIC, FORMAT, FORM and reserved bits (Table 5.8). -/
def recHeadOk (ds : Dataset) (i : Nat) : Bool := (ds.recs[i]?).all Rec.headOk

/-- n bytes are ready at the reader's present place: their host writes wait for the last check (log 122); a VERIFY only checks them
(R105, R129). -/
def deliver (s : State) (c : Cmd) (bs : List Byte) (fromStaging fromRecovery : Bool) : State :=
  modCmd s c.id fun c => { c with
    unsent := if isRead c then c.unsent ++ scatterAt c.descs c.done bs else [], done := c.done + bs.length,
    staged := c.staged || fromStaging, recovered := c.recovered || fromRecovery }

/-- Bytes of piece k of WRITE w, from command offset off on, that have arrived. -/
def arrivedFrom (w : Cmd) (piece off : Nat) : Nat :=
  match w.pieces.find? fun k => k.idx == piece with
  | some k => (pieceSize * piece + k.arrived) - off
  | none => 0

/-- A reader ends with the status of a record of dataset seq; a mismatch is counted by TG (R233;
log 135). -/
def failRecord (s : State) (c : Cmd) (seq st d2 : Nat) : State :=
  endRead { s with tg.tfail := satAdd (2 ^ 32 - 1) s.tg.tfail (b2n (st == stTagMismatch)) } c st (seq % 2 ^ 32) d2

/-- The reader holds PIN references on these buffers of WRITE w, or gets them now, and knows what they hold (R30, R153). -/
def pinAll (s : State) (c w : Cmd) (hs : List (BitVec 32)) : Option State :=
  hs.foldl (fun o h =>
    match o with
    | none => none
    | some s =>
      match cmdOf s c.id with
      | none => none
      | some c =>
        if c.bufs.contains h then some s
        else
          let a := acquire s h clsPin
          let bs := (poolOf s 0).bufSize
          let at_ := bs * w.bufs.idxOf h
          if a.1 = nullHandle then none
          else some (modCmd a.2 c.id fun c => { c with
            bufs := c.bufs ++ [h],
            pins := c.pins ++ [{ handle := h, off := offset w.sqe + at_, len := min bs (rangeLen w.sqe - at_), version := w.version }] }))
    (some s)

/-- A pinned buffer that holds a byte of a version (R30). -/
def pinAt (c : Cmd) (v x : Nat) : Option Pin := c.pins.find? fun p => p.version == v && decide (p.off ≤ x ∧ x < p.off + p.len)

/-- n bytes from stream offset x on, from a pinned buffer. -/
def pinBytes (s : State) (p : Pin) (x n : Nat) : List Byte :=
  (List.range n).map fun i => stRead s.bpm.mem (bufAddr s p.handle + (x - p.off) + i)

/-- The buffers that hold what lies in staging of the rest of a reader's range are pinned as far as they are there; one that is held
255 times already is tried again at the next turn (R30, R153). -/
def pinStaged (s : State) (c : Cmd) : State :=
  (resolve s (partition c.sqe) (stream c.sqe) c.version (offset c.sqe + c.done) (rangeLen c.sqe - c.done)).foldl (fun s r =>
    match r.src with
    | some (.staged wid _) =>
      (match cmdOf s wid with
       | some w => (bufsOver s w (r.off - offset w.sqe) r.len).foldl (fun s h => (pinAll s c w [h]).getD s) s
       | none => s)
    | _ => s) s

/-- The extents in a dataset that the rest of a reader's range names. -/
def neededExt (s : State) (c : Cmd) (p seq : Nat) : List Extent :=
  (resolve s p (stream c.sqe) c.version (offset c.sqe + c.done) (rangeLen c.sqe - c.done)).filterMap fun r =>
    match r.src with
    | some (.tape e) => if e.part = p ∧ e.seq = seq then some e else none
    | _ => none

/-- Directory indices of a decoded dataset that a reader still needs (R185, R45). -/
def neededIdx (s : State) (c : Cmd) (p seq : Nat) (ds : Dataset) : List Nat :=
  if c.sqe |> locator |> (· != 0) then
    if c.scan ≤ seq then
      (ds.recs.zipIdx.filter fun r => r.1.stream == stream c.sqe && decide (r.1.version ≤ c.version) &&
        decide (r.1.offset < offset c.sqe + rangeLen c.sqe ∧ offset c.sqe < r.1.offset + r.1.olen)).map Prod.snd
    else []
  else
    (neededExt s c p seq).map Extent.index

/-- A decompressor works on a chain job. -/
def chainRuns (s : State) (id : Nat) : Bool := s.cx.engines.any fun e => decide (e.1 ≥ 8) && e.2.job == some id

/-- Chain jobs for what the readers of a decoded dataset need and that is not decompressed yet; a job that decodes it already is joined
(R209). -/
def makeChains (s : State) (p seq : Nat) : State :=
  match readOf s p seq with
  | none => s
  | some rd =>
    match rd.content, s.rcl.visits.find? (fun v => v.isFor p seq) with
    | some ds, some v =>
      if !rd.decoded then s
      else
        (v.cmds.filterMap (cmdOf s)).foldl (fun s c =>
          (neededIdx s c p seq ds).foldl (fun s i =>
            let ch := chainOf ds i
            if recVerdict s c rd ds i != .wait ∨ ch.isEmpty then s
            else match s.cx.chains.find? fun j => j.part == p && j.seq == seq && j.recs.head? == ch.head? &&
                (!chainRuns s j.id || decide (ch.length ≤ j.recs.length)) with
              | some j =>
                { s with
                  cx.chains := s.cx.chains.map fun k =>
                    if k.id = j.id then
                      { k with recs := (if j.recs.length < ch.length then ch else j.recs),
                               cmds := (if j.cmds.contains c.id then j.cmds else j.cmds ++ [c.id]) }
                    else k }
              | none =>
                let j : ChainJob := { id := s.cx.nextChain, part := p, seq, recs := ch, cmds := [c.id], since := s.now,
                                      recovery := decide (rd.step > 0) }
                { s with
                  cx.chains := s.cx.chains ++ [j],
                  cx.nextChain := s.cx.nextChain + 1 }) s) s
    | _, _ => s

/-- The reader needs a tape dataset: an abandoned SEQ ends it at once with reason 7 (R354, R368), else its visit is joined. -/
def needTape (s : State) (c : Cmd) (p seq : Nat) : State :=
  if (partOf s p).any fun x => x.abandoned.contains seq then
    endRead { s with rc.failed := satAdd 65535 s.rc.failed 1 } c stMediaUnrecovered (seq % 2 ^ 32) (7 * 256)
  else if (readOf s p seq).isNone && (tapeFault s).isSome then endRead s c ((tapeFault s).getD 0) (seq % 2 ^ 32) 0
  else makeChains (addVisit s c.id c.prio c.since p seq) p seq

/-- Every dataset the rest of a reader's range needs gets its visit (R370). -/
def visitAll (s : State) (c : Cmd) : State :=
  let p := partition c.sqe
  (resolve s p (stream c.sqe) c.version (offset c.sqe + c.done) (rangeLen c.sqe - c.done)).foldl (fun s r =>
    match r.src with
    | some (.tape e) => addVisit s c.id c.prio c.since p e.seq
    | _ => s) s

/-- The bytes of a run that a pinned buffer supplies, up to the first poisoned line (R30, Table 4.1). -/
def pinRun (s : State) (c : Cmd) (r : Run) : Option (List Byte) :=
  match pinAt c r.version r.off with
  | none => none
  | some k =>
    let a := bufAddr s k.handle + (r.off - k.off)
    let n := s.bpm.poison.foldl (fun n l => if a < 64 * l + 64 ∧ 64 * l < a + n then 64 * l - a else n) (min r.len (k.off + k.len - r.off))
    if n = 0 then none else some (pinBytes s k r.off n)

/-- Bytes of a run that come from tape: all of them, or those of a poisoned line of a pinned buffer (Table 4.1). -/
def tapeLen (s : State) (c : Cmd) (r : Run) : Nat :=
  match pinAt c r.version r.off with
  | some k => min r.len (64 - (bufAddr s k.handle + (r.off - k.off)) % 64)
  | none => r.len

/-- A command that has joined a decoded dataset finds a header of it wrong: nothing more is served from it, and it goes back into recovery
(R185, R334). -/
def wrongHeader (s : State) (p seq : Nat) : State :=
  modRead s p seq fun r => { r with decoded := false, content := none, recheck := true }

/-- A run on tape is served from the decoded dataset that holds it: whether the reader goes on (R185, R186, R347). -/
def serveTape (s : State) (c : Cmd) (r : Run) (e : Extent) : State × Bool :=
  let p := partition c.sqe
  match c.lost.find? fun l => l.1 == e.seq with
  | some l => (endRead s c l.2.1 (e.seq % 2 ^ 32) l.2.2, false)
  | none =>
    match readOf s p e.seq with
    | none => (needTape s c p e.seq, false)
    | some rd =>
      match rd.content with
      | none => (needTape s c p e.seq, false)
      | some ds =>
        if !headerOk ds e then (wrongHeader (addVisit s c.id c.prio c.since p e.seq) p e.seq, false)
        else match recVerdict s c rd ds e.index with
        | .wait => (needTape s c p e.seq, false)
        | .fail st d2 => (failRecord s c e.seq st d2, false)
        | .pass =>
          let o := ((rd.outs.find? fun o => o.1 == e.index).map Prod.snd).getD []
          (deliver s c (slice o (r.off - e.offset) (tapeLen s c r)) false rd.recovered, true)

/-- Serves a READ or VERIFY as far as it can go now; fuel bounds the number of runs. -/
def serveLoop : Nat → Nat → State → State
  | 0, _, s => s
  | fuel + 1, id, s =>
    match cmdOf s id with
    | none => s
    | some c =>
      let p := partition c.sqe
      let total := rangeLen c.sqe
      if c.done ≥ total then endRead s c stOk 0 0
      else
        match resolve s p (stream c.sqe) c.version (offset c.sqe + c.done) (total - c.done) with
        | [] => s
        | r :: _ =>
          match r.src with
          | none => endRead s c stRangeNotWritten 0 0
          | some (.staged wid piece) =>
            match cmdOf s wid with
            | none => s
            | some w =>
              let off := r.off - offset w.sqe
              let n := min r.len (arrivedFrom w piece off)
              if n = 0 then s
              else match pinAll s c w (bufsOver s w off n) with
                | none => modCmd s id fun c => { c with pinWait := true }
                | some s => serveLoop fuel id (deliver s c (stagedBytes s w off n) true false)
          | some (.tape e) =>
            match pinRun s c r with
            | some bs => serveLoop fuel id (deliver s c bs true false)
            | none =>
              let a := serveTape s c r e
              if a.2 then serveLoop fuel id a.1 else a.1

/-- A locator reader whose scan is over delivers what was found; it ends with a status where the first byte that was not found comes (R45,
R347) (log 62). -/
def locatorDeliver (st d1 d2 : Nat) : Nat → Nat → State → State
  | 0, _, s => s
  | fuel + 1, id, s =>
    match cmdOf s id with
    | none => s
    | some c =>
      if c.done ≥ rangeLen c.sqe then endRead s c stOk 0 0
      else
        let x := offset c.sqe + c.done
        let best := c.found.foldl (fun (b : Option (Nat × Nat × List Byte)) f =>
          if f.1 ≤ x ∧ x < f.1 + f.2.2.length then
            (match b with | some y => if y.2.1 < f.2.1 then some f else b | none => some f) else b) none
        match best with
        | none => endRead s c st d1 d2
        | some f =>
          let stop := c.found.foldl (fun a g => if x < g.1 ∧ f.2.1 < g.2.1 then min a g.1 else a) (f.1 + f.2.2.length)
          let stop := min stop (offset c.sqe + rangeLen c.sqe)
          locatorDeliver st d1 d2 fuel id (deliver s c (slice f.2.2 (x - f.1) (stop - x)) false false)

/-- The range of a locator reader is covered by what it has found. -/
def locatorCovered (c : Cmd) : Bool :=
  let rs : List Run := c.found.map fun f => { off := f.1, len := f.2.2.length, version := f.2.1, src := some (.staged 0 0) }
  allWritten (cutRuns rs (bounds (offset c.sqe) (offset c.sqe + rangeLen c.sqe) rs))

/-- Dataset q can hold records: parity datasets, label datasets, abandoned SEQs and SEQs without a copy on tape are read over (R45, R175,
R178). -/
def mayHold (s : State) (p q : Nat) : Bool :=
  !((partOf s p).any fun x => x.abandoned.contains q) &&
    (tapeCopy s p q).any fun t => t.ds.kind == .data || t.ds.kind == .checkpoint

/-- The datasets still ahead of a locator reader: at most 2,048 from its locator on (R45, R377). -/
def scanSeqs (s : State) (c : Cmd) : List Nat :=
  let p := partition c.sqe
  let last := min (locator c.sqe + 2048) (((partOf s p).map Part.nextSeq).getD 0)
  ((List.range (last - c.scan)).map fun n => c.scan + n).filter (mayHold s p)

/-- A locator reader goes on: the next dataset is visited, or the scan is over (R45, R377). -/
def serveLocator (s : State) (id : Nat) : State :=
  match cmdOf s id with
  | none => s
  | some c =>
    let p := partition c.sqe
    match scanSeqs s c with
    | [] => locatorDeliver stRangeNotWritten 0 0 (2 * c.found.length + 2) id s
    | q :: _ =>
      if locatorCovered c then locatorDeliver stRangeNotWritten 0 0 (2 * c.found.length + 2) id s
      else
        let s := modCmd s id fun c => { c with scan := q }
        makeChains (addVisit s c.id c.prio c.since p q) p q

/-- A locator reader takes the records of the dataset it waits for, once every one has passed its checks, and goes on; a record that
fails one ends it (R45, R233). -/
def locatorTake (s : State) (id p seq : Nat) : State :=
  match cmdOf s id, readOf s p seq with
  | some c, some rd =>
    match rd.content with
    | none => s
    | some ds =>
      let is := neededIdx s c p seq ds
      if c.scan ≠ seq ∨ !rd.decoded then s
      else if !is.all (recHeadOk ds) then wrongHeader s p seq
      else
        match (is.map (recVerdict s c rd ds)).find? fun v => v != .pass with
        | some (.fail st d2) => failRecord s c seq st d2
        | some _ => s
        | none =>
          let got := is.filterMap fun i => (ds.recs[i]?).bind fun r =>
            (rd.outs.find? fun o => o.1 == i).map fun o => (r.offset, r.version, o.2)
          let s := modCmd s id fun c => { c with found := c.found ++ got, scan := seq + 1, recovered := c.recovered || rd.recovered }
          serveLocator (closeVisit (leaveSome s c fun v => v.isFor p seq) p seq) id
  | _, _ => s

/-- A reader leaves the visits of datasets that the rest of its range does not need, as its bytes have been served, or are there to be
served from staging (R376). -/
def trimVisits (s : State) (id : Nat) : State :=
  match cmdOf s id with
  | none => s
  | some c =>
    if locator c.sqe ≠ 0 then s
    else
      let gone := fun v : Visit => (neededExt s c v.part v.seq).isEmpty
      let vs := (s.rcl.visits.filter fun v => v.cmds.contains id && gone v).map fun v => (v.part, v.seq)
      if vs.isEmpty then s else vs.foldl (fun s v => closeVisit s v.1 v.2) (leaveSome s c gone)

/-- One reader goes on as far as it can. -/
def serveOne (s : State) (id : Nat) : State :=
  match cmdOf s id with
  | none => s
  | some c =>
    if c.dropped ∨ c.st = .lockHeld ∨ c.st = .barrierHeld then s
    else if opcode c.sqe ≠ 0x41 ∧ opcode c.sqe ≠ 0x42 then s
    else if locator c.sqe ≠ 0 then
      if c.scan = 0 then s
      else
        let s := serveLocator s id
        locatorTake s id (partition c.sqe) (((cmdOf s id).map Cmd.scan).getD 0)
    else
      let n := (resolve s (partition c.sqe) (stream c.sqe) c.version (offset c.sqe) (rangeLen c.sqe)).length
      let s := modCmd s id fun c => { c with pinWait := false }
      trimVisits (serveLoop (2 * n + 2 * c.pins.length + 2 * s.bpm.poison.length + 2) id (pinStaged s c)) id

/-- READs held for want of a reference are tried again, as long as one of them ends and gives references back (R153). -/
def retryHeld : Nat → State → State
  | 0, s => s
  | n + 1, s =>
    let held := s.qe.cmds.filter Cmd.pinWait
    let t := (held.map Cmd.id).foldl serveOne s
    if held.isEmpty || decide (s.qe.cmds.length ≤ t.qe.cmds.length) then t else retryHeld n t

/-- A reader goes on as far as it can, and so do those that wait for its references. -/
def serveRead (s : State) (id : Nat) : State :=
  let t := serveOne s id
  retryHeld t.qe.cmds.length t

/-- A READ or VERIFY is ended, and the references it gives back are taken by those that wait for them (R105, R126, R153). -/
def finishRead (s : State) (c : Cmd) (st d1 d2 : Nat) : State :=
  let t := endRead s c st d1 d2
  retryHeld t.qe.cmds.length t

/-- Every READ and VERIFY in flight goes on. -/
def serveAll (s : State) : State :=
  ((s.qe.cmds.filter fun c => opcode c.sqe == 0x41 || opcode c.sqe == 0x42).map Cmd.id).foldl serveRead s

/-- A reader starts: it pins what lies in staging, visits what lies on tape, and goes on; a locator reader's run is that of all the datasets
its range may extend to (R30, R153, R370, R377). -/
def startRead (s : State) (id : Nat) : State :=
  match cmdOf s id with
  | none => s
  | some c =>
    if locator c.sqe ≠ 0 then
      let c := { c with scan := locator c.sqe }
      let s := modCmd s id fun _ => c
      serveRead ((scanSeqs s c).foldl (fun s q => addVisit s id c.prio c.since (partition c.sqe) q) s) id
    else serveRead (visitAll (pinStaged s c) c) id

/-- The commands that wait for a dataset go on. -/
def serveVisit (s : State) (p seq : Nat) : State :=
  match s.rcl.visits.find? fun v => v.isFor p seq with
  | some v => v.cmds.foldl serveRead s
  | none => s

/-- A visit ends without its dataset. -/
def removeVisit (s : State) (p seq : Nat) : State :=
  dropRead (setVisits s (s.rcl.visits.filter fun v => !v.isFor p seq)) p seq

/-- A dataset could not be read: a command that waits for it ends when it comes to its bytes, those before them delivered; a locator
read at once, with the bytes found before the first that was not. Detail 1 is the SEQ, detail 2 the reason (R347, R368, Table 11.4). -/
def failVisit (s : State) (p seq st reason : Nat) : State :=
  match s.rcl.visits.find? fun v => v.isFor p seq with
  | none => dropRead s p seq
  | some v =>
    let s := removeVisit s p seq
    v.cmds.foldl (fun s id =>
      match cmdOf s id with
      | none => s
      | some c =>
        if locator c.sqe ≠ 0 then
          let t := locatorDeliver st (seq % 2 ^ 32) reason (2 * c.found.length + 2) id s
          retryHeld t.qe.cmds.length t
        else serveRead (modCmd s id fun c => { c with lost := c.lost ++ [(seq, st, reason)] }) id) s

/-- A visit is given up and its commands end at once (R436, R437). -/
def endVisit (s : State) (p seq st : Nat) : State :=
  match s.rcl.visits.find? fun v => v.isFor p seq with
  | none => dropRead s p seq
  | some v => removeVisit ((v.cmds.filterMap (cmdOf s)).foldl (fun s c => finishRead s c st (seq % 2 ^ 32) 0) s) p seq

end Sys2Proof.Machine
end

