-- ==== Sys2Proof/Machine/Realloc.lean ====
section
/-! DEFINITION. Reallocation of a data dataset that needed tape motion to be read (R199, R348 to R352). -/

namespace Sys2Proof.Machine

/-- A chain goes into the open dataset o, unchanged (R349). -/
def putChain (x : Part) (o : OpenDs) (seq now : Nat) (ch : List Rec) : Part :=
  { x with
    openDs := some { o with
      recs := o.recs ++ ch, room := o.room - (ch.map footprint).sum, lastRes := now,
      chains := (ch.map Rec.stream).foldl (fun l t => if l.contains t then l else l ++ [t]) o.chains,
      realloc := if o.realloc.contains seq then o.realloc else o.realloc ++ [seq] },
    chains := x.chains.drop 1 }

/-- Waiting chains are placed, each whole in one dataset and never beside a context of its stream (R349); without room in
the reserve the reallocation is dropped. -/
def placeChains : Nat → State → Nat → State
  | 0, s, _ => s
  | fuel + 1, s, p =>
    match partOf s p with
    | none => s
    | some x =>
      match x.chains with
      | [] => s
      | (seq, ch) :: _ =>
        if sealBarred x || s.fm.closing || s.glb.restarting.isSome then s
        else match x.openDs with
          | none =>
            if x.positions ≤ spokenFor s x then placeChains fuel (dropRealloc s p seq) p
            else
              let s := openDataset s p true
              if ((partOf s p).bind Part.openDs).isSome then placeChains fuel s p else s
          | some o =>
            if o.full || o.stop || (ch.any fun r => o.slots.contains r.stream) then s
            else if (ch.map footprint).sum ≤ o.room then
              placeChains fuel (fillBuf (setPart s (putChain x o seq s.now ch)) o.buf (512 + (o.recs.map recordSpace).sum)
                (ch.map recordSpace).sum) p
            else
              let s := sealIfDone (setPart s { x with openDs := some { o with full := true } }) p
              if ((partOf s p).bind Part.openDs).isSome then s else placeChains fuel s p

/-- Waiting chains of a partition are placed as far as they can be (log 59). -/
def flushChains (s : State) (p : Nat) : State :=
  placeChains (2 * ((partOf s p).map fun x => x.chains.length).getD 0 + 2) s p

/-- The chains of a dataset that hold a live record, each up to its last live record (R199, R348). -/
def liveChains (s : State) (p seq : Nat) (ds : Dataset) : List (List Rec) :=
  let live := (s.fm.almanac.filter fun e => e.part == p && e.seq == seq).map Extent.index
  let last := (List.range ds.recs.length).filter fun i =>
    live.contains i && !((List.range ds.recs.length).any fun j =>
      decide (i < j) && live.contains j && (chainOf ds j).contains i)
  last.map fun i => (chainOf ds i).filterMap fun k => ds.recs[k]?

/-- An UNMOUNT holds the media lock. -/
def unmounting (s : State) : Bool := match s.media.op with | some (.unmount ..) => true | _ => false

/-- A data dataset that used step 3 or 4 is reallocated, when R348 allows it; none is begun under an UNMOUNT, which drops those not placed
(R352; log 59). -/
def startRealloc (s : State) (p seq : Nat) (ds : Dataset) : State :=
  match partOf s p with
  | none => s
  | some x =>
    let chains := liveChains s p seq ds
    if ds.kind != .data || setN s 0x212A 5 != 1 || writeProtected s x || s.fm.wstate == 6 || chains.isEmpty ||
        (s.fm.reallocs.any fun r => r.part == p && r.seq == seq) || unmounting s then s
    else
      let s := setPart s { x with chains := x.chains ++ chains.map fun c => (seq, c) }
      flushChains { s with fm.reallocs := s.fm.reallocs ++ [{ part := p, seq }] } p

/-- Where the re-appended copy of an extent's record lies: the newest dataset on tape after the old one that holds it. -/
def newHome (s : State) (e : Extent) : Option (Nat × Nat) :=
  let hits := ((copiesIn s e.part).filter fun t => decide (e.seq < t.ds.seq) && t.complete).flatMap fun t =>
    (t.ds.recs.zipIdx.filter fun r => r.1.stream == e.stream && r.1.offset == e.offset && r.1.version == e.version).map
      fun r => (t.ds.seq, r.2)
  hits.foldl (fun b h => match b with | some x => if x.1 ≤ h.1 then some h else b | none => some h) none

/-- Every dataset that received a reallocation's chains has passed: nothing of it waits, is open or is sealed. -/
def reallocSettled (s : State) (r : Realloc) : Bool :=
  match partOf s r.part with
  | none => false
  | some x =>
    !(x.chains.any fun c => c.1 == r.seq) && !(match x.openDs with | some o => o.realloc.contains r.seq | none => false) &&
      !(s.fm.sealed.any fun w => w.ds.part == r.part && w.realloc.contains r.seq)

/-- The live extents of the old dataset move to the new copies, and a delta checkpoint follows, under an UNMOUNT its own (R350
steps 2 and 3, R352); where none can be written, the move stays and nothing more is counted or reported. -/
def moveRealloc (s : State) (r : Realloc) : State :=
  let mv := fun (e : Extent) =>
    if e.part = r.part ∧ e.seq = r.seq then
      (match newHome s e with | some h => { e with seq := h.1, index := h.2 } | none => e)
    else e
  let moved := ((s.fm.almanac.filter fun e => e.part == r.part && e.seq == r.seq).map mv).filter fun e => e.seq != r.seq
  let s := { s with
    fm.almanac := s.fm.almanac.map mv,
    fm.reallocs := s.fm.reallocs.map fun q =>
      if q.part = r.part ∧ q.seq = r.seq then
        { q with moved := true, into := moved.map Extent.seq, ckpt := (partOf s r.part).map Part.nextSeq }
      else q }
  let s := modPart s r.part fun x => { x with added := x.added ++ moved }
  let ended := { s with fm.reallocs := s.fm.reallocs.filter fun q => !(q.part == r.part && q.seq == r.seq) }
  match partOf s r.part with
  | some x =>
    if writeProtected s x || s.fm.wstate == 6 || ckptBarred x then ended
    else if unmounting s then s
    else wantCheckpoint s r.part false
  | none => ended

/-- Reallocations of a partition whose receiving datasets have all passed go on (R350). -/
def advanceReallocs (s : State) (p : Nat) : State :=
  (s.fm.reallocs.filter fun r => r.part == p && !r.moved).foldl (fun s r =>
    if reallocSettled s r then moveRealloc s r else s) s

/-- A checkpoint of a partition has passed: reallocations it made durable are reported and counted (R350 step 4). -/
def reallocsDone (s : State) (p first : Nat) : State :=
  (s.fm.reallocs.filter fun r => r.part == p && r.moved && decide ((r.ckpt.getD 0) ≤ first)).foldl (fun s r =>
    let s := { s with
      fm.reallocs := s.fm.reallocs.filter (fun q => q != r),
      fm.reallocDone := satAdd 65535 s.fm.reallocDone 1 }
    queueEvent s evReallocated 1 p (evParams [(24, le 8 r.seq), (32, le 8 (maxOf 0 r.into))])) s

/-- A receiving dataset is abandoned: its chains are re-appended once more, and a second time the reallocation is dropped
(R350). -/
def reallocAbandoned (s : State) (w : WriteDs) : State :=
  let p := w.ds.part
  w.realloc.foldl (fun s seq =>
    match s.fm.reallocs.find? fun r => r.part == p && r.seq == seq with
    | none => s
    | some r =>
      if r.tries ≥ 1 then dropRealloc s p seq
      else
        match tapeCopy s p seq with
        | none => dropRealloc s p seq
        | some t =>
          let lost := (liveChains s p seq t.ds).filter fun c => c.all fun x =>
            w.ds.recs.any fun y => y.stream == x.stream && y.offset == x.offset && y.version == x.version
          let s := modPart s p fun x => { x with chains := x.chains ++ lost.map fun c => (seq, c) }
          flushChains { s with
            fm.reallocs := s.fm.reallocs.map fun q => if q = r then { q with tries := q.tries + 1 } else q } p) s

end Sys2Proof.Machine
end

