-- ==== Sys2Proof/Machine/WritePath.lean ====
section
/-! DEFINITION. The write pipeline's steps: data arrival, cutting, compression, tags' nonces, placement, sealing and the
times of checkpoints (R164 to R174, R182, R189, R196 to R201, R207, R208, R215 to R218, R295). -/

namespace Sys2Proof.Machine

/-! ## Stage 1: data arrives in pool 0 -/

/-- Pool 0 buffers for the first n bytes of WRITE id: true when it holds them all; else its request is parked (R159). -/
def growBufs : Nat → State → Nat → Nat → Bool × State
  | 0, s, _, _ => (false, s)
  | fuel + 1, s, id, n =>
    match cmdOf s id with
    | none => (false, s)
    | some c =>
      let bs := (poolOf s 0).bufSize
      if bs = 0 then (false, s)
      else if c.bufs.length * bs ≥ n then (true, s)
      else if (poolOf s 0).parked.any fun k => k.cmd == some id then (false, s)
      else
        let a := allocate s 0 clsQeIn (some id)
        if a.1 = nullHandle then (false, a.2)
        else growBufs fuel (modCmd a.2 id fun c => { c with bufs := c.bufs ++ [a.1] }) id n

/-- Bytes stored at a WRITE's command offset, buffer by buffer. -/
def storeBytes : Nat → State → Cmd → Nat → List Byte → State
  | 0, s, _, _, _ => s
  | fuel + 1, s, c, off, bytes =>
    let bs := (poolOf s 0).bufSize
    if bytes.isEmpty ∨ bs = 0 then s
    else
      let n := bs - off % bs
      let s := stageWrite s (bufAddr s (c.bufs.getD (off / bs) nullHandle) + off % bs) (bytes.take n)
      storeBytes fuel s c (off + n) (bytes.drop n)

/-- Arrived bytes shared out to pieces: `a` bytes in all. -/
def arrivePieces (a : Nat) (ks : List Piece) : List Piece :=
  ks.map fun k => { k with arrived := min k.len (a - pieceSize * k.idx) }

/-- Host data of a WRITE arrives in order and goes to pool 0 (Table 5.2, stage 1); buffers that are full pass to FM
(R153, R169); READs that wait for it go on (R30). -/
def writeDataArrivalS (s : State) (id : Nat) (bytes : List Byte) : State :=
  match cmdOf s id with
  | none => s
  | some c =>
    let a := c.arrived
    if opcode c.sqe ≠ 0x40 ∨ c.version = 0 ∨ c.dropped ∨ c.st = .lockHeld ∨ c.st = .barrierHeld ∨ bytes.isEmpty ∨
        a + bytes.length > rangeLen c.sqe ∨ c.fail.isSome ∨ (fnOf s c.fn).d3hot then s
    else
      let g := growBufs ((a + bytes.length) / 4096 + 2) s id (a + bytes.length)
      if !g.1 then g.2
      else match cmdOf g.2 id with
        | none => g.2
        | some c =>
          let s := storeBytes (bytes.length + 1) g.2 c a bytes
          let b := a + bytes.length
          let s := modCmd s id fun c => { c with pieces := arrivePieces b c.pieces }
          let bs := (poolOf s 0).bufSize
          let full := if b = rangeLen c.sqe then c.bufs.length else b / bs
          serveAll (handOff s ((c.bufs.take full).drop (a / bs)) clsQeIn clsFm)

/-- WRITE_DATA_ARRIVAL. -/
def execWriteDataArrival (cmd : Nat) (bytes : List Byte) (s : State) : Out := .next (writeDataArrivalS s cmd bytes)

/-! ## Mirrored pieces (R453, R454) -/

/-- Records of a mirrored piece that wait for placement are discarded, and their buffers are granted again (R452, R454). -/
def discardMirror (s : State) (p : Nat) (st : StreamId) (v i : Nat) : State :=
  let mine := fun j : RecJob => j.cmd.isNone && j.part == p && j.r.stream == st && j.r.version == v && j.r.piece == i
  let gone := s.fm.recs.filter mine
  let s := { s with
    fm.recs := s.fm.recs.filter (fun j => !mine j),
    fm.mirror := s.fm.mirror.map fun m =>
      if m.part = p ∧ m.stream = st ∧ m.version = v ∧ m.piece = i ∧ m.st ≠ .committed then { m with st := .failed } else m }
  if gone.isEmpty then s else giveCredit (releaseAll s (gone.flatMap RecJob.bufs) clsPl)

/-! ## What asks for the transport (R293) -/

/-- A command, a closing or a sealed dataset needs tape at once (R293). -/
def tapeAtOnce (s : State) : Bool :=
  (s.qe.cmds.any fun c => opcode c.sqe == 0x1A && !c.dropped) || s.fm.closing ||
  (match s.media.op with
   | some (.mount ..) => true
   | some (.unmount ..) => true
   | some (.create ..) => true
   | some (.delete ..) => true
   | none => false) ||
  s.fm.sealed.any fun w => !w.begun && (w.attempt != 0 || w.ds.kind != .data || w.interrupted)

/-- The oldest waiting WRITE has waited for the start age (R293). -/
def agedWrite (s : State) : Bool :=
  (writesOf s).any fun c => !c.dropped && elapsed s c.since (setN s 0x2124 2) &&
    c.pieces.any fun k => !k.settled && decide (k.onTape < k.len)

/-- The staged level, or a command, starts the transport (R293). -/
def startNow (s : State) : Bool := decide (stagedLevel s ≥ mib * setN s 0x2124 1) || tapeAtOnce s

/-! ## Stage 2: a record is cut (R164, R170 to R173, R196, R215 to R218) -/

/-- The next uncut piece of a WRITE. -/
def uncutPiece (c : Cmd) : Option Piece := c.pieces.find? fun k => decide (k.cut < k.len) && !k.settled

/-- Length of the next record of a piece, before the room of the dataset is looked at. -/
def nextLen (k : Piece) : Nat := min 262144 (k.len - k.cut)

/-- The record of a WRITE can be cut: its bytes lie in pool 0, and a tagged one has a counter value (R218). -/
def cuttable (s : State) (c : Cmd) : Bool :=
  match uncutPiece c with
  | none => false
  | some k => decide (k.cut + nextLen k ≤ k.arrived) && (!tagBit c.sqe || decide (s.tg.counter < s.tg.limit))

/-- The WRITE FM serves next: the oldest admission among the waiting streams, each stream in its own order (R173). -/
def nextToCut (s : State) (p : Nat) : Option Cmd :=
  let ws := (writesOf s).filter fun c => partition c.sqe == p && !c.dropped && c.st == .running
  ws.find? fun c => cuttable s c &&
    !(ws.any fun d => stream d.sqe == stream c.sqe && decide (d.id < c.id) && (uncutPiece d).isSome)

/-- The largest record whose W fits the room (R173). -/
def fitLen (room cf : Nat) (tagged : Bool) : Nat :=
  let most := room / 8 * 8 - 32 - (if tagged then 16 else 0) - 64 - (if cf = 2 then 0 else 64)
  if room < 32 + 64 + (if cf = 2 then 0 else 64) + (if tagged then 16 else 0) then 0 else most

/-- A stream's context slot in an open dataset; none beside a re-appended chain of the stream (R196, R349). -/
def takeSlot (o : OpenDs) (st : StreamId) : Bool × OpenDs :=
  if o.chains.contains st then (false, o)
  else if o.slots.contains st then (true, o)
  else if o.slots.length < 64 then (true, { o with slots := o.slots ++ [st] })
  else (false, o)

/-- The nonce of the counter value n (R215). -/
def nonceOf (n : Nat) : BitVec 96 := BitVec.ofNat 96 (Config.instanceNo.toNat + n * 2 ^ 32)

/-- A record of L bytes of piece k of WRITE c is cut into the open dataset o. A record without a context slot counts now, which the spec
leaves open (R196; log 150). -/
def cutRecord (s : State) (p : Nat) (o : OpenDs) (c : Cmd) (k : Piece) (len : Nat) : State :=
  let tagged := tagBit c.sqe
  let w := worstCase len (cform c.sqe) tagged
  let t := takeSlot o (stream c.sqe)
  let nonce := if tagged then nonceOf s.tg.counter else 0
  let first := c.pieces.all fun k => k.cut == 0
  let r : Rec := { form := cform c.sqe, tagged, last := decide (k.cut + len = k.len), stream := stream c.sqe,
                   offset := offset c.sqe + pieceSize * k.idx + k.cut, olen := len, version := c.version,
                   keySlot := (if tagged then keySlot c.sqe else 0), nonce, piece := k.idx, pieces := c.pieces.length,
                   time := c.time }
  let j : RecJob := { id := s.fm.nextRec, cmd := some c.id, part := p, piece := k.idx, rel := pieceSize * k.idx + k.cut, r,
                      cform := cform c.sqe, footprint := w, slot := t.1 }
  let s := { s with
    fm.recs := s.fm.recs ++ [j], fm.nextRec := s.fm.nextRec + 1,
    tg.counter := s.tg.counter + b2n tagged,
    cx.fbreak := satAdd (2 ^ 32 - 1) s.cx.fbreak (b2n (!t.1)) }
  let s := modCmd s c.id fun c =>
    { c.modPiece k.idx (fun k => { k with cut := k.cut + len, records := k.records + 1 }) with
      nonce := (if first && tagged then nonce else c.nonce) }
  modPart s p fun x => { x with openDs := some { t.2 with room := o.room - w, outstanding := o.outstanding + 1, lastRes := s.now } }

/-- RECORD_CUT: the next record of a waiting stream is cut, or the open dataset is marked full; in DRAIN only while R293 holds again
(R294); a dataset position in the reserve ends the WRITE with PARTITION_FULL, and the span closes before it (R17, R173, R181). -/
def recordCutS (s : State) (p : Nat) : State :=
  match partOf s p, nextToCut s p with
  | some x, some c =>
    if sealBarred x || s.fm.closing || (s.fm.wstate == 4 && !(startNow s || agedWrite s)) || s.glb.restarting.isSome then s
    else if !roomForData s x then
      match uncutPiece c with
      | some k => closeForReserve (failWrite s c.id k.idx stPartitionFull 0 0 none) p
      | none => s
    else match x.openDs with
      | none =>
          let s := openDataset s p false
          (match (partOf s p).bind Part.openDs, uncutPiece c with
           | some o, some k => cutRecord s p o c k (nextLen k)
           | _, _ => s)
      | some o =>
        if o.full || o.stop then s
        else match uncutPiece c with
          | none => s
          | some k =>
            let len := nextLen k
            if worstCase len (cform c.sqe) (tagBit c.sqe) ≤ o.room then cutRecord s p o c k len
            else
              let m := min len (fitLen o.room (cform c.sqe) (tagBit c.sqe))
              if m < 4096 ∧ k.len - k.cut > m then
                sealIfDone (setPart s { x with openDs := some { o with full := true } }) p
              else cutRecord s p o c k m
  | _, _ => s

/-- Every counter value below the limit is used and the limit cannot be raised: each tagged WRITE with records still to be cut ends
with INTEGRITY_ENGINE_FAULT (R218). -/
def failUntaggable (s : State) : State :=
  if s.tg.counter < s.tg.limit ∨ s.tg.limit + 2 ^ 20 < 2 ^ 64 then s
  else
    ((writesOf s).filter fun c => tagBit c.sqe && !c.dropped).foldl (fun s c =>
      match uncutPiece c with
      | some k => failWrite s c.id k.idx stIntegrityEngineFault 0 0 none
      | none => s) s

/-- RECORD_CUT; reallocated chains that wait go first (R349). -/
def execRecordCut (p : Nat) (s : State) : Out := .next (failUntaggable (recordCutS (flushChains s p) p))

/-! ## Nonce reservations (R217) -/

/-- NONCE_RESERVATION: Lodestar starts the flash write of the next limit. -/
def execNonceReservation (s : State) : Out :=
  .next (if s.tg.counter + 2 ^ 18 ≥ s.tg.limit ∧ s.tg.reserving = none ∧ s.tg.limit + 2 ^ 20 < 2 ^ 64 ∧ s.glb.lsUp then
    { s with tg.reserving := some (s.tg.limit + 2 ^ 20) } else s)

/-- NONCE_LIMIT_RAISE: the flash write has completed and TG's limit is raised. -/
def execNonceLimitRaise (s : State) : Out :=
  .next (match s.tg.reserving with
    | some l => { s with flash.nonceLimit := l, tg.limit := l, tg.reserving := none }
    | none => s)

/-! ## Stage 3: compression -/

/-- Engine e of CX. -/
def engineOf (s : State) (e : Nat) : Engine := get s.cx.engines e {}

/-- s with engine e replaced. -/
def setEngine (s : State) (e : Nat) (x : Engine) : State := { s with cx.engines := put e x s.cx.engines }

/-- Every compressor is excluded (R210). -/
def noCompressor (s : State) : Bool := (List.range 8).all fun e => (engineOf s e).excluded

/-- The compressor job that is ready and comes first (R208). -/
def nextCompress (s : State) : Option RecJob :=
  let ready := s.fm.recs.zipIdx.filter fun j => j.1.stage == .cut && j.1.cmd.isSome &&
    (!j.1.slot || !((s.fm.recs.take j.2).any fun k => k.part == j.1.part && k.r.stream == j.1.r.stream && k.slot &&
      (k.stage == .cut || k.stage == .compressing)))
  (ready.map Prod.fst).foldl (fun b j =>
    match b with
    | none => some j
    | some k =>
      if j.cmd.getD 0 < k.cmd.getD 0 ∨ (j.cmd = k.cmd ∧ j.r.offset < k.r.offset) then some j else b) none

/-- Records of the chain before a job, in the order they take in its dataset (R195). -/
def earlierRecs (s : State) (j : RecJob) : List Rec :=
  let o := match (partOf s j.part).bind Part.openDs with | some o => o.recs | none => []
  (o ++ ((s.fm.recs.takeWhile fun k => k.id != j.id).filter fun k => k.part == j.part).map RecJob.r).filter fun r =>
    r.stream == j.r.stream

/-- The history the records leave behind (R195). -/
def historyOf (rs : List Rec) : List Byte :=
  rs.foldl (fun h r =>
    match decodeRec h r with
    | .ok bs => (if r.hcont then h else []) ++ bs
    | _ => []) []

/-- Original bytes of a record job. -/
def originals (s : State) (j : RecJob) : List Byte :=
  match j.cmd.bind (cmdOf s) with
  | some c => stagedBytes s c j.rel j.r.olen
  | none => []

/-- PL of a mirroring primary acquires a record's pool 4 buffers; one it holds already stays as it is (R452). -/
def holdForPeer (s : State) (id : Nat) : State :=
  match recOf s id with
  | some j => if mirroring s && j.cmd.isSome && !j.dead then j.bufs.foldl (fun s h => (acquire s h clsPl).2) s else s
  | none => s

/-- A record reaches the end of stage 4: it takes its place in the order, and PL its buffers (R452). -/
def recReady (s : State) (id : Nat) : State :=
  let n := s.fm.nextReady
  holdForPeer (modRec { s with fm.nextReady := n + 1 } id fun j => { j with stage := .ready, readyNo := n }) id

/-- Piece of a record fails with INTEGRITY_ENGINE_FAULT, and the record goes on with a trailer of zeros (R231); of a record whose key is gone
the spec says nothing, and it is treated alike (R224; log 151). -/
def untaggable (s : State) (j : RecJob) : State :=
  let s := modRec (recReady s j.id) j.id fun j => { j with r := { j.r with trailer := zeros 16 } }
  let s := handOff s j.bufs 4 clsFm
  match j.cmd with
  | some c => failWrite s c j.piece stIntegrityEngineFault 0 0 none
  | none => s

/-- A record leaves stage 3 with its form, payload and CRC-64; buffers it does not fill are released (R166, R167,
R189). -/
def compressed (s : State) (j : RecJob) (form : Nat) (hcont : Bool) (payload : List Byte) : State :=
  let data := originals s j
  let r := { j.r with form, hcont, payload, crc := crc64 data }
  let need := (64 + payload.length + (if j.r.tagged then 16 else 0) + 65535) / 65536
  let s := releaseAll s (j.bufs.drop need) 2
  let keep := j.bufs.take need
  let s := modRec s j.id fun k => { k with stage := (if j.r.tagged then .compressed else k.stage), r, bufs := keep }
  let s := handOff (fillBufs s keep (recordLen r)) keep 2 (if j.r.tagged then 4 else clsFm)
  let s := if j.r.tagged then s else recReady s j.id
  let s := if j.r.tagged && s.tg.retired then
      untaggable s { j with stage := .compressed, r, bufs := keep }
    else s
  sweep s

/-- A job takes the pool 4 buffers it was given and engine e; without any compressor its record is stored (R201, R208). -/
def compressOn (e : Nat) (j : RecJob) (a : Option (List (BitVec 32)) × State) : State :=
  match a.1 with
  | none => a.2
  | some hs =>
    let s := modRec a.2 j.id fun j => { j with stage := .compressing, bufs := hs }
    if noCompressor s then compressed s { j with bufs := hs } 2 false (originals s j)
    else setEngine s e { engineOf s e with job := some j.id }

/-- COMPRESSOR_JOB_START: an idle compressor takes the next job and its pool 4 buffers (R189, R208); with no compressor in
service FM stores the record itself (R210). -/
def compressorJobStartS (s : State) (e : Nat) : State :=
  match nextCompress s with
  | none => s
  | some j =>
    let idle := decide (e < 8) && !(engineOf s e).excluded && (engineOf s e).job.isNone
    if !idle && !noCompressor s then s
    else
      compressOn e j (unitAllocN s 4 2 ((j.r.olen + 144 + 65535) / 65536) [])

/-- COMPRESSOR_JOB_START. -/
def execCompressorJobStart (engine : Nat) (s : State) : Out := .next (compressorJobStartS s engine)

/-- COMPRESSOR_JOB_DONE: the attempt is kept when it stays within the output limit and, for ZSC1, decodes to the input;
else the record is stored (R201, R207). The attempt is what the engine emitted (log 1): a ZSC2 attempt that no compressor emits, with
another varint or token than R191, R193 and R200 prescribe or not decoding to the input, changes nothing. An engine whose record has left with its cartridge (R585) is idle again (R208). -/
def compressorJobDoneS (s : State) (e : Nat) (attempt : List Byte) : State :=
  let en := engineOf s e
  match en.job.bind (recOf s) with
  | none => if e < 8 ∧ en.job.isSome then setEngine s e { en with job := none, jobs := satAdd 65535 en.jobs 1 } else s
  | some j =>
    if e ≥ 8 then s
    else
      let data := originals s j
      let before := earlierRecs s j
      let hc := j.cform == 0 && j.slot && !before.isEmpty
      let s1 := setEngine s e { en with job := none, jobs := satAdd 65535 en.jobs 1 }
      if j.cform = 2 then compressed s1 j 2 false data
      else if attempt.length > j.r.olen + 64 then
        compressed { s1 with cx.fallback := satAdd (2 ^ 32 - 1) s.cx.fallback 1 } j 2 false data
      else
        let good := match decodePayload j.cform (if hc then historyOf before else []) attempt j.r.olen j.r.olen with
          | .ok bs => bs == data && (j.cform == 1 || emitted (attempt.length + 1) attempt)
          | .error _ => false
        if good then compressed s1 j j.cform hc attempt
        else if j.cform = 1 then compressed { s1 with cx.z1mism := satAdd 65535 s.cx.z1mism 1 } j 2 false data
        else s

/-- COMPRESSOR_JOB_DONE. -/
def execCompressorJobDone (engine : Nat) (attempt : List Byte) (s : State) : Out :=
  .next (compressorJobDoneS s engine attempt)

/-! ## Stage 5: placement -/

/-- The average rate r after n ms without a placement: it falls by 1 / tau each ms (log 15). -/
def decayed (r n tau : Nat) : Nat := if n > 20 * tau then 0 else r * (tau - 1) ^ n / tau ^ n

/-- The sustained ingress rate now (R295). -/
def rateNow (s : State) : Nat := decayed s.fm.rate ((s.now - s.fm.rateAt) / msCycles) (setN s 0x2124 6)

/-- The sustained ingress rate after n bytes are placed now: the average with the time constant of 0x2124:06 (R295). -/
def newRate (s : State) (n : Nat) : Nat := rateNow s + n * 1000 / setN s 0x2124 6

/-- The time up to which the average has fallen: whole ms. -/
def rateTime (s : State) : Nat := s.now - (s.now - s.fm.rateAt) % msCycles

/-- A record goes to the open dataset; the difference to its reservation returns to the free room (R172). -/
def placeRec (s : State) (j : RecJob) (o : OpenDs) : State :=
  let back := if j.cmd.isSome then j.footprint else 0
  let room := o.room + back - footprint j.r
  let s := releaseAll s j.bufs (if j.cmd.isSome then clsFm else clsPl)
  let s := fillBuf s o.buf (512 + (o.recs.map recordSpace).sum) (recordSpace j.r)
  let s := { s with
    fm.recs := s.fm.recs.filter (fun k => k.id != j.id), fm.rate := newRate s (footprint j.r), fm.rateAt := rateTime s }
  let s := modPart s j.part fun x => { x with
    openDs := some { o with
    room, recs := o.recs ++ [j.r], outstanding := o.outstanding - b2n j.cmd.isSome,
    lastRes := (if j.cmd.isSome then o.lastRes else s.now) } }
  if j.cmd.isNone then giveCredit s else s

/-- RECORD_PLACE (Table 5.2, stage 5): records of one stream are placed in order; under mirroring a record waits until it
has been sent (R452); a mirrored record has its pool 7 buffers, and takes a dataset that has room (R160, R453). -/
def recordPlaceS (s : State) (id : Nat) : State :=
  match recOf s id with
  | none => s
  | some j =>
    let behind := (s.fm.recs.takeWhile fun k => k.id != id).any fun k => k.part == j.part && k.r.stream == j.r.stream
    if j.stage != .ready || behind || (j.cmd.isNone && j.bufs.isEmpty) || (mirroring s && j.cmd.isSome && !j.mirrored && !j.dead) then s
    else
      let s := if j.cmd.isSome then s else openDataset s j.part false
      match (partOf s j.part).bind Part.openDs with
      | none =>
        if j.cmd.isNone && (partOf s j.part).any (fun x => !sealBarred x && !roomForData s x) then
          closeForReserve (discardMirror s j.part j.r.stream j.r.version j.piece) j.part
        else s
      | some o =>
        if j.cmd.isNone && (o.full || o.stop) then s
        else if j.cmd.isNone && decide (footprint j.r > o.room) then
          sealIfDone (modPart s j.part fun x => { x with openDs := some { o with full := true } }) j.part
        else sealIfDone (placeRec s j o) j.part

/-- RECORD_PLACE. -/
def execRecordPlace (r : Nat) (s : State) : Out :=
  .next (match recOf s r with
    | some j => openForMarkers (recordPlaceS (flushChains (takeMirrors (bareMirrors s) s) j.part) r) j.part
    | none => s)

/-! ## Sealing (R174) -/

/-- Tape moves for writing (Table 9.4). -/
def writerMoves (s : State) : Bool := decide (1 ≤ s.fm.wstate ∧ s.fm.wstate ≤ 5)

/-- A record of the open dataset, placed or reserved, belongs to a piece that a command still waits for (R174). -/
def pieceWaits (s : State) (p : Nat) (r : Rec) : Bool :=
  (match writeOf s p r.stream r.version with
   | some c => !c.dropped && c.pieces.any fun k => k.idx == r.piece && !k.settled
   | none => false) ||
  s.fm.mirror.any fun m => m.is p (r.stream, r.version, r.piece) && !m.settled

/-- A command or a reallocation waits on the open dataset (R174). -/
def dsAwaited (s : State) (p : Nat) (o : OpenDs) : Bool :=
  (o.recs.any fun r => pieceWaits s p r) ||
    (s.fm.recs.any fun j => j.part == p && j.cmd.isSome && !j.dead && pieceWaits s p j.r) || !o.realloc.isEmpty || markerWaits s p

/-- SEAL_DELAY_EXPIRY. -/
def execSealDelayExpiry (p : Nat) (s : State) : Out :=
  .next (match (partOf s p).bind Part.openDs with
    | some o =>
      if dsAwaited s p o && elapsed s o.lastRes (setN s 0x2122 1) then openForMarkers (stopDs s p false) p else s
    | none => s)

/-- DATASET_SEAL: the open dataset is sealed when it is full, when it has to be, or when the pipeline runs short of sealed
datasets while tape moves (R174). -/
def execDatasetSeal (p : Nat) (s : State) : Out :=
  .next (match (partOf s p).bind Part.openDs with
    | none => openForMarkers (sealIfDone s p) p
    | some o =>
      if o.full || o.stop then openForMarkers (sealIfDone s p) p
      else if writerMoves s && decide (s.fm.sealed.length < 2) then openForMarkers (stopOpen s p) p
      else s)

/-! ## Checkpoint times (R182) -/

/-- No checkpoint of the partition is due or under way, and it may be written. -/
def mayCheckpoint (s : State) (p : Nat) : Bool :=
  match partOf s p with
  | some x => !x.ckptWant && x.ckptCur.isNone && !ckptBarred x && !writeProtected s x && s.media.mount == 1
  | none => false

/-- CHECKPOINT_INTERVAL. -/
def execCheckpointInterval (p : Nat) (s : State) : Out :=
  .next (match partOf s p with
    | some x => if mayCheckpoint s p && decide (x.dataSince ≥ setN s 0x2123 1) then wantCheckpoint s p false else s
    | none => s)

/-- CHECKPOINT_TIME_EXPIRY. -/
def execCheckpointTimeExpiry (p : Nat) (s : State) : Out :=
  .next (match partOf s p with
    | some x =>
      if mayCheckpoint s p && decide (x.dataSince ≥ 1) && elapsed s x.ckptAt (1000 * setN s 0x2123 2) then
        wantCheckpoint s p false
      else s
    | none => s)

end Sys2Proof.Machine
end

