-- ==== Sys2Proof/Machine/Tags.lean ====
section
/-! DEFINITION. The tag engine's jobs: contexts, priorities, preemption, the comparison of its two copies, its retirement,
and the checks of records read (R225 to R233). -/

namespace Sys2Proof.Machine

/-! ## Starting (R226 to R228) -/

/-- The free context a job of priority `prio` takes: 15 is kept for priority 0, 14 for 0 and 1. -/
def freeCtx (s : State) (prio : Nat) : Option Nat :=
  firstBelow (if prio = 0 then 16 else if prio = 1 then 15 else 14) fun c => !(s.tg.jobs.any fun j => j.ctx == c)

/-- A job can start: a tagged record leaving stage 3, or a tagged record of a decoded dataset not checked yet. -/
def tagReady (s : State) (n : Nat) : Bool :=
  !(s.tg.jobs.any fun j => j.recId == n) &&
  (match checkOf n with
   | some (p, q, i) =>
     (match readOf s p q with
      | some r => r.decoded && !r.tagOk.contains i && ((r.content.bind fun d => d.recs[i]?).any Rec.tagged)
      | none => false)
   | none => (match recOf s n with | some j => j.stage == .compressed && j.r.tagged | none => false))

/-- The class under which TG holds buffers (Table 4.4). -/
abbrev clsTg : Nat := 4

/-- H, H^2, H^3 and H^4 of a key (R225, R226). -/
def hPowers (key : BitVec 256) : List (BitVec 128) :=
  let h := unbe (aesEnc (be 32 key.toNat) (zeros 16))
  let h2 := ghashMul h h
  [h, h2, ghashMul h2 h, ghashMul h2 h2].map (BitVec.ofNat 128)

/-- What a context takes in when a job of a record is set up on it: the key slot, the powers of H, E(K, J0); nothing of A yet
(R226). -/
def newTagJob (s : State) (ctx n : Nat) (bufs : List (BitVec 32)) : TagJob :=
  let j : TagJob := { ctx, recId := n, prio := tagPrio s n, suspended := true, bufs }
  match jobRec s n with
  | none => j
  | some r =>
    match keyOf s r.keySlot with
    | none => { j with slot := r.keySlot }
    | some k =>
      { j with slot := r.keySlot, hpow := hPowers k.key,
               ej0 := BitVec.ofNat 128 (unbe (aesEnc (be 32 k.key.toNat) (le 12 r.nonce.toNat ++ [0, 0, 0, 1]))) }

/-- TG holds a reference on the input of a check until its result is released (R230): the buffers, or none when one cannot be
held. -/
def holdInput (s : State) (n : Nat) : Option (List (BitVec 32) × State) :=
  match checkOf n with
  | none => some ([], s)
  | some (p, q, _) =>
    match readOf s p q with
    | none => none
    | some r =>
      let others := (s.tg.jobs.filter fun j => j.bufs.contains r.buf)
      if r.buf = nullHandle ∨ !others.isEmpty then some ([r.buf].filter (· != nullHandle), s)
      else
        let a := acquire s r.buf clsTg
        if a.1 = nullHandle then none else some ([r.buf], a.2)

/-- Buffers of a job are given back, but for those another job still reads: a class holds one reference (R152, R230). -/
def freeInput (s : State) (j : TagJob) : State :=
  releaseAll s (j.bufs.filter fun h => !(s.tg.jobs.any fun k => k.bufs.contains h)) clsTg

/-- TAG_JOB_START: a free context takes the job; it is served at once unless a job of its own or a higher priority is
active, and a job of lower priority is suspended (R226 to R228). -/
def tagJobStartS (s : State) (n : Nat) : State :=
  if s.tg.retired || !tagReady s n then s
  else
    match freeCtx s (tagPrio s n), holdInput s n with
    | some c, some (hs, s) =>
      let s := if (checkOf n).isSome then s else modRec s n fun j => { j with stage := .tagging }
      tagTurn { s with tg.jobs := s.tg.jobs ++ [newTagJob s c n hs] }
    | _, _ => s

/-- TAG_JOB_START. -/
def execTagJobStart (r : Nat) (s : State) : Out := .next (tagJobStartS s r)

/-! ## Ending (R229 to R233) -/

/-- A chain job is cut before its first record whose tag a retired TG can no longer check; one left with none goes (R231). -/
def cutChain (s : State) (j : ChainJob) : Option ChainJob :=
  if chainRuns s j.id then some j
  else
    let recs := match readOf s j.part j.seq with
      | some r => j.recs.takeWhile fun i => r.tagOk.contains i || !((r.content.bind fun d => d.recs[i]?).any Rec.tagged)
      | none => []
    if recs.isEmpty then none else some { j with recs }

/-- TG is retired: records not yet tagged go on with trailers of zeros and their pieces fail; no context is held, each buffer of checks is
given back once; readers that meet a tagged record end, and untagged work goes on (R152, R230, R231). -/
def retireTg (s : State) : State :=
  if s.tg.retired then s
  else
    let hs := (s.tg.jobs.flatMap TagJob.bufs).eraseDups
    let s := releaseAll { s with tg.retired := true, tg.jobs := [] } hs clsTg
    let s := { s with cx.chains := s.cx.chains.filterMap (cutChain s) }
    let s := faultRec s 0x04 true noUnit 0 0
    let s := queueEvent s evTagRetired 0 0 (evParams [])
    serveAll ((s.fm.recs.filter fun j => j.r.tagged && (j.stage == .compressed || j.stage == .tagging)).foldl untaggable s)

/-- The check of record i of dataset (p, q) is done, and the commands that wait for the dataset go on. -/
def checkDone (s : State) (p q i : Nat) : State :=
  serveVisit (modRead s p q fun r => { r with tagOk := r.tagOk ++ [i] }) p q

/-- A computed tag goes into its record's trailer (R168 stage 4); a record whose key is gone gets zeros (log 151). -/
def tagDone (s : State) (n : Nat) : State :=
  match recOf s n with
  | none => s
  | some j =>
    match keyOf s j.r.keySlot with
    | none => untaggable s j
    | some k =>
      let s := modRec (recReady s n) n fun j => { j with r := { j.r with trailer := tagOf k.key j.r } }
      handOff s j.bufs 4 clsFm

/-- TAG_JOB_DONE: the two copies agree at once, or on the repetition, or TG is retired (R230). -/
def tagJobDoneS (s : State) (ctx : Nat) (agree again : Bool) : State :=
  match s.tg.jobs.find? fun j => j.ctx == ctx && !j.suspended with
  | none => s
  | some j =>
    if agree || again then
      let s := freeInput { s with tg.jobs := s.tg.jobs.filter fun k => k.ctx != ctx } j
      let s := if agree then s else faultRec { s with tg.lsErr := satAdd 65535 s.tg.lsErr 1 } 0x03 false noUnit 0 0
      tagTurn (match checkOf j.recId with
        | some (p, q, i) => checkDone s p q i
        | none => tagDone s j.recId)
    else retireTg s

/-- TAG_JOB_DONE. -/
def execTagJobDone (ctx : Nat) (agree agreeAgain : Bool) (s : State) : Out := .next (tagJobDoneS s ctx agree agreeAgain)

end Sys2Proof.Machine
end

