-- ==== Sys2Proof/Machine/Decompress.lean ====
section
/-! DEFINITION. A dataset decoded, its stage 2 checks, and the decompression jobs of its chains (R185, R186, R202 to R206,
R209, R334). -/

namespace Sys2Proof.Machine

/-! ## Stage 2 (Table 5.8) -/

/-- Every record that the commands waiting for a dataset need of it passes stage 2: against its extent, or, where a locator read
finds it, by itself (R185). -/
def headersOk (s : State) (p seq : Nat) (ds : Dataset) : Bool :=
  match s.rcl.visits.find? fun v => v.isFor p seq with
  | none => true
  | some v => (v.cmds.filterMap (cmdOf s)).all fun c =>
      let is := neededIdx s c p seq ds
      is.all (recHeadOk ds) && (decide (locator c.sqe ≠ 0) ||
        (neededExt s c p seq).all (headerOk ds))

/-- DATASET_DECODED: every row of the dataset is there; its user area is read, its headers checked (R185). A header that
fails stage 2 sends the dataset into recovery (R334); one that C3 rebuilt fails its commands. -/
def decodedS (s : State) (p seq : Nat) (ds : Dataset) : State :=
  serveVisit (makeChains (modRead s p seq fun r => { r with decoded := true, content := some ds }) p seq) p seq

/-! ## Decompression jobs (R209) -/

/-- The tagged records of a chain have been checked, and a command still waits for it. -/
def chainChecked (s : State) (j : ChainJob) : Bool :=
  match readOf s j.part j.seq with
  | some r =>
    (match r.content with
     | some ds => !j.cmds.isEmpty && j.recs.all fun i => r.tagOk.contains i || !((ds.recs[i]?).any Rec.tagged)
     | none => false)
  | none => false

/-- What a job has to decode: the records of its chain not decoded yet in this visit, and the history that those before them leave (R193,
R209). -/
def chainRest (rd : ReadDs) (ds : Dataset) : List Byte → List Nat → List Byte × List Nat
  | h, [] => (h, [])
  | h, i :: is =>
    match rd.outs.find? (fun o => o.1 == i), ds.recs[i]? with
    | some o, some r => chainRest rd ds ((if r.hcont then h else []) ++ o.2) is
    | _, _ => (h, i :: is)

/-- The chain of a job is being decoded by another one (R209). -/
def chainTaken (s : State) (j : ChainJob) : Bool :=
  s.cx.chains.any fun k => chainRuns s k.id && k.part == j.part && k.seq == j.seq && k.recs.head? == j.recs.head?

/-- The chain job an idle decompressor takes: recovery first, then the oldest waiting command; no record is decoded twice (R209). -/
def nextChainJob (s : State) : Option ChainJob :=
  (s.cx.chains.filter fun j => chainChecked s j && !chainTaken s j).foldl
    (fun b j =>
      match b with
      | none => some j
      | some k =>
        if (j.recovery && !k.recovery) ||
            (j.recovery == k.recovery && decide (j.cmds.foldl min s.qe.nextId < k.cmds.foldl min s.qe.nextId)) then some j else b) none

/-- Pool 3 buffers for a job's output. -/
def chainBuffers (s : State) (rd : ReadDs) (ds : Dataset) (j : ChainJob) : Nat :=
  let n := ((chainRest rd ds [] j.recs).2.map fun i => ((ds.recs[i]?).map Rec.olen).getD 0).sum
  (n + (poolOf s 3).bufSize - 1) / (poolOf s 3).bufSize

/-- DECOMPRESSION_JOB_START. -/
def decompressionJobStartS (s : State) (e : Nat) : State :=
  if e < 8 ∨ e > 15 ∨ (engineOf s e).excluded ∨ (engineOf s e).job.isSome then s
  else match nextChainJob s with
    | none => s
    | some j =>
      match (readOf s j.part j.seq).bind fun rd => rd.content.map fun ds => (rd, ds) with
      | none => s
      | some (rd, ds) =>
        let a := unitAllocN s 3 clsCxd (chainBuffers s rd ds j) []
        match a.1 with
        | none => a.2
        | some hs =>
          let s := { a.2 with cx.chains := a.2.cx.chains.map fun k => if k.id = j.id then { k with bufs := hs } else k }
          setEngine s e { engineOf s e with job := some j.id }

/-- DECOMPRESSION_JOB_START. -/
def execDecompressionJobStart (engine : Nat) (s : State) : Out := .next (decompressionJobStartS s engine)

/-- A fault of a decompressor is counted and recorded (R204). -/
def countFault (s : State) (e : Nat) (res : RecResult) : State :=
  match res with
  | .fault d form =>
    { s with
      cx.dfCount := satAdd (2 ^ 32 - 1) s.cx.dfCount 1, cx.dfCode := d.status % 256, cx.dfEngine := e - 8,
      cx.dfForm := form, cx.dfOfs := d.off }
  | _ => s

/-- The status a failing record gives. -/
def RecResult.status : RecResult → Nat
  | .ok _ => stOk
  | .fault e _ => e.status
  | .badCrc => stCheckValueMismatch

/-- What became of a chain's records: those decoded go to pool 3, the first that fails is remembered, and the buffers that hold
nothing to deliver are released (R204). -/
def keepOuts (s : State) (j : ChainJob) (rs : List (Nat × RecResult)) : State :=
  let good := rs.filterMap fun r => match r.2 with | .ok b => some (r.1, b) | _ => none
  let bad := rs.filterMap fun r => match r.2 with | .ok _ => none | x => some (r.1, x.status)
  let size := (poolOf s 3).bufSize
  let total := (good.map fun g => g.2.length).sum
  let n := (total + size - 1) / size
  let s := handOff (fillBufs (releaseAll s (j.bufs.drop n) clsCxd) (j.bufs.take n) total) (j.bufs.take n) clsCxd clsQeOut
  modRead s j.part j.seq fun r => { r with
    outs := r.outs ++ good.filter (fun g => !(r.outs.any fun o => o.1 == g.1)), bad := r.bad ++ bad, outBufs := r.outBufs ++ j.bufs.take n }

/-- DECOMPRESSION_JOB_DONE: the chain's records up to the first that fails go to pool 3, and the commands that wait for the dataset
go on; those that need the failing record or a later one end with its status (R186, R188, R204) (log 53,
135). -/
def decompressionJobDoneS (s : State) (e : Nat) : State :=
  let en := engineOf s e
  if e < 8 then s
  else match en.job.bind fun i => s.cx.chains.find? fun j => j.id == i with
    | none => setEngine s e { en with job := none }
    | some j =>
      let s := { s with cx.chains := s.cx.chains.filter fun k => k.id != j.id }
      match (readOf s j.part j.seq).bind fun rd => rd.content.map fun ds => (rd, ds) with
      | none => releaseAll (setEngine s e { en with job := none }) j.bufs clsCxd
      | some (rd, ds) =>
        let rest := chainRest rd ds [] j.recs
        let rs := decodeChain rest.1 (rest.2.filterMap fun i => (ds.recs[i]?).map fun r => (i, r))
        let s := setEngine s e { en with job := none, jobs := satAdd 65535 en.jobs rs.length }
        let s := keepOuts s j rs
        let s := match rs.getLast? with | some r => countFault s e r.2 | none => s
        serveVisit s j.part j.seq

/-- DECOMPRESSION_JOB_DONE. -/
def execDecompressionJobDone (engine : Nat) (s : State) : Out := .next (decompressionJobDoneS s engine)

end Sys2Proof.Machine
end

