-- ==== Sys2Proof/Machine/FrontEnd.lean ====
section
/-! DEFINITION. A read front end: the values in force, the digital path from ADC codes to LLRs, timing recovery, the 16-state
detector, the defect detector, adaptation (R300 to R310, R316, R323, R326). What the spec leaves open of the filters, the loops and
the scales are constants of Config (notes/assumptions/124.md). -/

namespace Sys2Proof.Machine

/-! ## Front ends -/

/-- The state of front end (m, l). -/
def feOf (s : State) (m l : Nat) : FrontEnd := get s.rc.fes (64 * m + l) {}

/-- s with front end (m, l) changed. -/
def modFe (s : State) (m l : Nat) (f : FrontEnd → FrontEnd) : State :=
  { s with rc.fes := putD (64 * m + l) (f (feOf s m l)) {} s.rc.fes }

/-- A slot read by front end (m, l): stuck at an end of its output, or not (R491). -/
def feSlot (s : State) (m l : Nat) (stuck : Bool) : State :=
  modFe s m l fun f => { f with stuck, stuckRun := if stuck then f.stuckRun + 1 else 0 }

/-- Front end (m, l) is retired (R491). -/
def feRetired (s : State) (m l : Nat) : Bool := if m = 0 then s.rc.retiredA.getLsbD l else s.rc.retiredB.getLsbD l

/-! ## Values in force (R302, R304, R305, R340) -/

/-- A stored Ephemeris entry is one a front end can use (R305). -/
def ephemerisOk (e : List Byte) : Bool :=
  (e.getD 4 0).toNat == 32 && decide ((e.getD 0 0).toNat ≤ 144) && decide ((e.getD 1 0).toNat ≤ 36)

/-- What front end (m, l) loads for a wrap: the default column in ladder pass 5; else learned at this mount, else stored and valid,
else the default; and whether an invalid entry was met (R305, R340). -/
def ephemerisFor (s : State) (wrap m l : Nat) : List Byte × Bool :=
  let k := 4 * bandOf wrap + 2 * (wrap % 2) + m
  let stored := odVal s (0x4010 + k) (l + 1)
  if s.rc.passNo = 5 then (ephemerisDflt, false)
  else match s.rc.learned.find? fun e => e.1 == 64 * k + l with
  | some e => (e.2, false)
  | none =>
    if (stored.getD 20 0).getLsbD 0 then (if ephemerisOk stored then (stored, false) else (ephemerisDflt, true))
    else (ephemerisDflt, false)

/-- Learned values of a direction enter at calibration: they are in force for the mount, and written back where enough segments converged
and learning is enabled (R307, R308). -/
def calibrate (s : State) (dir : Nat) (ls : List (Nat × Nat × Nat × Bool × List Byte)) : State :=
  ls.foldl (fun s x =>
    let (b, m, l, ok, v) := x
    let k := 4 * b + 2 * dir + m
    let s := { s with rc.learned := put (64 * k + l) (fit 32 (v.take 20)) s.rc.learned }
    if ok && setN s 0x4030 1 == 1 && decide (m < 2 ∧ l < 64 ∧ b < 4) then
      match odFind (0x4010 + k) (l + 1) with
      | some e => odPut s (0x4010 + k) (l + 1) e (fit 20 v ++ [3, 0, 0, 0] ++ le 8 (meridian s))
      | none => s
    else s) { s with rc.fes := s.rc.fes.map fun x => (x.1, { x.2 with wrap := none }) }

/-- The first reverse access on a band in a mount calibrates its reverse direction, from copy 1 of the label (R524). -/
def revCalibrate (s : State) (wrap : Nat) : State :=
  let b := bandOf wrap
  if wrap % 2 = 0 ∨ s.media.revCal.contains b then s
  else
    calibrate { s with media.revCal := s.media.revCal ++ [b] } 1 (s.media.revLearn.filter fun x => x.1 == b)

/-- Byte i of an entry as INTEGER8. -/
def ephI (e : List Byte) (i : Nat) : Int := signed 8 (e.getD i 0).toNat

/-- A front end with the values of an Ephemeris entry: GAIN, BOOST, OFFSET, ASYM, E0 to E9, G1 to G4, SKEW (Table 10.2). -/
def FrontEnd.load (f : FrontEnd) (e : List Byte) : FrontEnd :=
  let g := min 144 (e.getD 0 0).toNat
  { f with
    gain := g, seed := g, agc := 65536 * g, boost := min 36 (e.getD 1 0).toNat, offset := ephI e 2,
    adapt := ([2, 3] ++ (List.range 10).map (· + 9) ++ (List.range 4).map (· + 5)).map fun i => 65536 * ephI e i,
    skew := ephI e 19 }

/-- Every front end in service of the given modules loads its values for a wrap, unless it has them and has adapted them since (R306);
invalid entries are recorded (R305, Table 17.5). -/
def loadEphemeris (s : State) (wrap : Nat) (modules : List Nat) : State :=
  (modules.flatMap fun m => (List.range 64).map fun l => (m, l)).foldl (fun s i =>
    if feRetired s i.1 i.2 || (s.rc.passNo != 5 && (feOf s i.1 i.2).wrap == some wrap) then s
    else
      let e := ephemerisFor s wrap i.1 i.2
      let s := modFe s i.1 i.2 fun f => { f.load e.1 with wrap := some wrap }
      if e.2 then setSubst { s with health.badEph := s.health.badEph + 1 } 4 else s) s

/-- The values that ladder pass 5 put aside are in force again (R340). -/
def restoreKept (s : State) : State :=
  if s.rc.kept.isEmpty then s
  else
    { s with
      rc.kept := [],
      rc.fes := s.rc.fes.map fun x =>
        let k := get s.rc.kept x.1 {}
        (x.1, { x.2 with gain := k.gain, seed := k.seed, agc := k.agc, boost := k.boost, offset := k.offset, adapt := k.adapt,
                         skew := k.skew, wrap := k.wrap }) }

/-- Value i in force, in the units of Table 10.2: 0 OFFSET, 1 ASYM, 2 to 11 E0 to E9, 12 to 15 G1 to G4 (log 125). -/
def FrontEnd.value (f : FrontEnd) (i : Nat) : Int := divRound (f.adapt.getD i 0) 65536

/-- The equaliser's taps. -/
def FrontEnd.taps (f : FrontEnd) : List Int := (List.range 10).map fun i => f.value (2 + i)

/-- The target; G0 stays 1.0 (Table 10.2). -/
def FrontEnd.target (f : FrontEnd) : List Int := 32 :: (List.range 4).map fun i => f.value (12 + i)

/-- Nominal channel bit rate of a wrap at a speed in mm/s, bit/s (R242, R243). -/
def bitRate (wrap mmps : Nat) : Nat := mmps * (if isEdge wrap then 32000 else 36000)

/-- The bit clock of a wrap, bit/s: it follows the speed reference; at rest that of a speed in mm/s (R296, R409). -/
def bitClock (s : State) (wrap idle : Nat) : Nat :=
  if s.ce.vref = 0 then bitRate wrap idle else s.ce.vref.natAbs * (16 * bitRate wrap 1000) / 2 ^ 31

/-- The settings of Tables 10.6 and 10.7 in force, with the changes of ladder passes 2 and 5 (R340, Table 11.2). -/
def adaptStep (s : State) : Nat := setN s 0x2129 4 + (if s.rc.passNo = 2 then 2 else 0)
def timingBandwidth (s : State) : Nat := setN s 0x2129 5 / (if s.rc.passNo = 2 then 2 else 1)
def dropoutLevel (s : State) : Nat := if s.rc.passNo = 5 then 20 else setN s 0x2128 1
def defectGuard (s : State) : Nat := if s.rc.passNo = 5 then 32 else setN s 0x2128 4

/-! ## From ADC codes to samples (R303, steps 1 to 4) -/

/-- Steps 1 and 2: OFFSET is subtracted, then the asymmetry corrected. -/
def linearise (offset asym code : Int) : Int :=
  let x := code - offset
  x - divRound (asym * x * x) 65536

/-- Step 3: k of D = 2^k, the largest for which at least 1.25 samples per bit remain of 360 MS/s. -/
def decimation (rate : Nat) : Nat :=
  (List.range 9).foldl (fun b k => if 5 * (2 ^ k * rate) ≤ 4 * 360000000 then k else b) 0

/-- Step 3: the low-pass filter's output at each sample kept; `past` holds the samples so far, newest first. -/
def decimateGo (k : Nat) : Nat → List Int → List Int → List Int
  | _, _, [] => []
  | n, past, x :: xs =>
    let r := decimateGo k (n + 1) (x :: past) xs
    if n % 2 ^ k = 0 then Config.lowPass k (x :: past) :: r else r

/-- Steps 1 to 3. -/
def decimate (offset asym : Int) (k : Nat) (codes : List Int) : List Int := decimateGo k 0 [] (codes.map (linearise offset asym))

/-- Step 4: the sample at an instant in 10^-9 bits, taken to 1/64 bit, by a 4-tap interpolator. -/
def interpolateAt (d : List Int) (k rate : Nat) (tau : Int) : Int :=
  let n := (divRound (64 * tau) 1000000000).toNat * 360000000
  let m := 64 * 2 ^ k * rate
  let i := n / m
  Config.interpolate (n % m) m ((List.range 4).map fun j => if i + j = 0 then 0 else d.getD (i + j - 1) 0)

/-! ## The detector's target and trellis (R304, R316) -/

/-- The magnetisation as a number. -/
def pol (m : Bool) : Int := if m then 1 else -1

/-- What the target makes of five magnetisations, newest first, in 1/64 ADC codes. -/
def targetOut (g : List Int) (ms : List Bool) : Int :=
  2 * (Config.unitLevel : Int) * (List.zipWith (fun a m => a * pol m) g ms).sum

/-- The four magnetisations of a state, newest first. -/
def stateMags (p : Nat) : List Bool := (List.range 4).map fun i => p.testBit i

/-- The squared distance of a sample from the branch that magnetisation m takes from state p. -/
def branchCost (g : List Int) (y : Int) (p : Nat) (m : Bool) : Nat := (y - targetOut g (m :: stateMags p)).natAbs ^ 2

/-- One step of the tentative path search: the metric of each state and the last 13 magnetisations of its best path. -/
def viterbiStep (g : List Int) (y : Int) (ps : List (Nat × Nat)) : List (Nat × Nat) :=
  (List.range 16).map fun n =>
    let m := n % 2 == 1
    let way := fun p : Nat => let q := ps.getD p (0, 0); (q.1 + branchCost g y p m, (2 * q.2 + n % 2) % 8192)
    let a := way (n / 2)
    let b := way (n / 2 + 8)
    if a.1 ≤ b.1 then a else b

/-- The tentative magnetisations 8 bits back, newest first (Table 10.3). -/
def tentative8 (ps : List (Nat × Nat)) : List Bool :=
  let best := ps.foldl (fun b x => if x.1 < b.1 then x else b) (ps.getD 0 (0, 0))
  (List.range 5).map fun i => best.2.testBit (8 + i)

/-- The preamble's magnetisations at bit t, newest first: its groups 0b1000 written NRZI (R309). -/
def preambleMags (t : Nat) : List Bool := (List.range 5).map fun i => decide (i ≤ t) && (t - i) / 4 % 2 == 0

/-! ## Timing recovery (R309, R310) -/

/-- What timing recovery works with; `start` is the bit of the codes with which the preamble is taken to begin. -/
structure Timing where
  d       : List Int
  k       : Nat
  rate    : Nat
  taps    : List Int
  g       : List Int
  seek    : Bool
  carried : Int
  ppm     : Nat
  start   : Int
deriving DecidableEq, Repr

/-- One channel bit: the interpolated and the equalised sample, and, for the bit decided, the equaliser error, the phase error, the
equaliser's inputs; whether it counts as a bit of its own. -/
structure BitRec where
  x   : Int
  y   : Int
  err : Int
  pe  : Int
  ins : List Int
  mags : List Bool
  own : Bool
deriving DecidableEq, Repr

/-- The loop between two bits: the sampling instant in 10^-9 bits, the bit rate above nominal in 10^-9, the path search, the bits so
far, newest first. -/
structure Loop where
  tau   : Int := 0
  freq  : Int := 0
  paths : List (Nat × Nat) := List.replicate 16 (0, 0)
  bits  : List BitRec := []
deriving DecidableEq, Repr

/-- The frequency after a bit: within 2.0 % of nominal in SEEK and 0.5 % of the one carried over else while the loop acquires; it follows
1 part in 10^6 per bit while it tracks (R310) (log 126). -/
def nextFreq (q : Timing) (t : Nat) (freq move : Int) : Int :=
  if t < 128 then
    (if q.seek then clampI (-20000000) 20000000 (freq + move) else clampI (q.carried - 5000000) (q.carried + 5000000) (freq + move))
  else freq + clampI (-1000) 1000 move

/-- Channel bit t of a segment (Table 10.3). -/
def loopBit (q : Timing) (z : Loop) (t : Nat) : Loop :=
  let tau := if t = 32 then z.tau + clampI (-4000000000) 4000000000 (Config.tonePhase ((z.bits.take 32).map BitRec.x)) else z.tau
  let x := interpolateAt q.d q.k q.rate tau
  let xs := x :: z.bits.map BitRec.x
  let y := (List.zipWith (fun a b => a * b) q.taps xs).sum
  let ys := y :: z.bits.map BitRec.y
  let paths := viterbiStep q.g y z.paths
  let lag := if t < 192 then 0 else 8
  let mags := if t < 192 then preambleMags t else tentative8 paths
  let err := ys.getD lag 0 - targetOut q.g mags
  let pe := Config.phaseError ((ys.drop lag).take 5) mags
  let gains := if t < 128 then Config.acquireGains else Config.trackGains q.ppm
  let move := if t < 32 then (0, 0) else ((gains.1 * pe).tdiv 65536, (gains.2 * pe).tdiv 65536)
  let freq := nextFreq q t z.freq move.2
  { tau := tau + (1000000000 * 1000000000 : Int).tdiv (1000000000 + freq) + move.1, freq, paths,
    bits := { x, y, err, pe, ins := (xs.drop lag).take 10, mags, own := decide (t < 192 ∨ 200 ≤ t) } :: z.bits }

/-- Bits of a slot that timing recovery runs through: a segment, and twice the widest window more (log 125). -/
abbrev heardBits : Nat := 17472

/-- Timing recovery over a segment: the bits in order, and the frequency carried into the next preamble. -/
def recoverTiming (q : Timing) : List BitRec × Int :=
  let z := (List.range heardBits).foldl (loopBit q) { tau := 1000000000 * q.start, freq := if q.seek then 0 else q.carried }
  (z.bits.reverse, z.freq)

/-! ## The soft-output detector (R316, R325) -/

/-- The cost of a branch with the prior of its channel bit: a positive LLR speaks for a 0 (R316). -/
def softCost (g : List Int) (y prior : Int) (p : Nat) (m : Bool) : Nat :=
  let one := m != p.testBit 0
  branchCost g y p m + (if one == decide (0 < prior) then prior.natAbs * (Config.llrUnit + 1) else 0)

/-- Forward metrics after a bit. -/
def forwardStep (c : Nat → Bool → Nat) (a : List Nat) : List Nat :=
  (List.range 16).map fun n =>
    min (a.getD (n / 2) 0 + c (n / 2) (n % 2 == 1)) (a.getD (n / 2 + 8) 0 + c (n / 2 + 8) (n % 2 == 1))

/-- Backward metrics before a bit. -/
def backwardStep (c : Nat → Bool → Nat) (b : List Nat) : List Nat :=
  (List.range 16).map fun p => min (c p false + b.getD (2 * p % 16) 0) (c p true + b.getD ((2 * p + 1) % 16) 0)

/-- The least cost of the paths in which the channel bit is v: it is 1 when the magnetisation changes (R245). -/
def bestPath (c : Nat → Bool → Nat) (a b : List Nat) (v : Bool) : Nat :=
  let way := fun p : Nat => let m := p.testBit 0 != v; a.getD p 0 + c p m + b.getD ((2 * p + b2n m) % 16) 0
  ((List.range 16).map way).foldl min (way 0)

/-- Max-log detection of samples with their priors from the forward metrics a: for each bit how much more a 1 costs than a 0, and the
backward metrics. -/
def maxLog (g : List Int) : List (Int × Int) → List Nat → List Int × List Nat
  | [], _ => ([], List.replicate 16 0)
  | x :: xs, a =>
    let c := softCost g x.1 x.2
    let r := maxLog g xs (forwardStep c a)
    (((bestPath c a r.2 true : Nat) - (bestPath c a r.2 false : Nat) : Int) :: r.1, backwardStep c r.2)

/-- The difference of costs for every sample; samples without a prior have 0. -/
def detect (g ys priors : List Int) : List Int :=
  (maxLog g (ys.zipIdx.map fun y => (y.1, priors.getD y.2 0)) (List.replicate 16 0)).1

/-- A difference of costs as a 6-bit LLR, -31 to 31 (R316). -/
def llrOf (d : Int) : Int := clampI (-31) 31 (d.tdiv (Config.llrUnit + 1 : Nat))

/-! ## The defect detector (R326) -/

/-- One kind of event being watched: the bit it began at, bits in a row that speak for a change, events so far. -/
structure Watch where
  since : Option Nat := none
  run   : Nat := 0
  evs   : List (Nat × Nat) := []
deriving DecidableEq, Repr

/-- One more bit: an event begins when its condition has held for `enter` bits, and ends when it has not for `leave`. -/
def Watch.bit (enter leave : Nat) (w : Watch) (x : Bool × Nat) : Watch :=
  match w.since with
  | none => if !x.1 then { w with run := 0 } else if w.run + 1 < enter then { w with run := w.run + 1 } else { w with since := some x.2, run := 0 }
  | some a => if x.1 then { w with run := 0 } else if w.run + 1 < leave then { w with run := w.run + 1 }
    else { w with since := none, run := 0, evs := (a, x.2) :: w.evs }

/-- The events of a run of bits: the bits at which each begins and ends; one still in progress ends with the last bit. -/
def eventsOf (enter leave : Nat) (on : List Bool) : List (Nat × Nat) :=
  let w := on.zipIdx.foldl (Watch.bit enter leave) {}
  match w.since with
  | some a => (a, on.length) :: w.evs
  | none => w.evs

/-- The sum of |y| over the last 32 bits, from the first bit that has so many. -/
def envelope (xs : List Int) : List (Option Nat) :=
  (List.range xs.length).map fun t =>
    if t < 31 then none else some (((xs.drop (t - 31)).take 32).map Int.natAbs).sum

/-- Dropouts and thermal asperities of one-per-bit samples, with the amplitude expected. -/
def defectsOf (s : State) (expected : Nat) (xs : List Int) : List (Nat × Nat) × List (Nat × Nat) :=
  let env := envelope xs
  let len := setN s 0x2128 2
  (eventsOf len len (env.map fun e => e.any fun v => decide (100 * v < dropoutLevel s * (32 * expected))),
   eventsOf 4 len (env.map fun e => e.any fun v => decide (setN s 0x2128 3 * (32 * expected) < 100 * v)))

/-- Bit t lies in an event or within its guard. -/
def inDefect (guard : Nat) (evs : List (Nat × Nat)) (t : Nat) : Bool :=
  evs.any fun e => decide (e.1 ≤ t + guard ∧ t ≤ e.2 + guard)

/-! ## What a front end makes of a segment slot -/

/-- One module's reading of a segment slot: the equalised samples, the differences of costs, the bits the defect detector zeroes, its
events, the noise over the preamble and over the slot (R323, Table 10.12), the phase error (Table 10.11), the frequency carried over,
the ADC stuck, and what adaptation would add to the gain and to the values (R306). -/
structure Heard where
  ys     : List Int := []
  diffs  : List Int := []
  zeroed : List Bool := []
  drops  : Nat := 0
  tas    : Nat := 0
  noise  : Nat := 0
  mse    : Nat := 0
  pherr  : Nat := 0
  freq   : Int := 0
  stuck  : Bool := false
  agc    : Int := 0
  moves  : List Int := []
deriving DecidableEq, Repr

/-- Hard decisions: they exist under a defect too. -/
def Heard.hard (h : Heard) : List Bool := h.diffs.map fun d => decide (d < 0)

/-- LLRs, zeroed where the defect detector says so (R326). -/
def Heard.llrs (h : Heard) : List Int := List.zipWith (fun d z => if z then 0 else llrOf d) h.diffs h.zeroed

/-- A mean of squares, 0 of none. -/
def meanSq (xs : List Int) : Nat := (xs.map fun x => x.natAbs ^ 2).sum / xs.length

/-- What adaptation adds to value i over the bits of a segment, by the error and the input the value weighs (R306). -/
def adaptMove (step : Nat) (rs : List BitRec) (i : Nat) : Int :=
  (rs.map fun r =>
    let at_ := if i = 0 then 1 else if i = 1 then r.ins.getD 0 0 ^ 2 else if i < 12 then r.ins.getD (i - 2) 0 else pol (r.mags.getD (i - 11) false)
    Config.lmsMove i step r.err at_).sum

/-- Front end (m, l) hears a segment slot at a nominal bit rate, the preamble predicted at bit `start` of the codes: R303, R309,
R316, R326, R306 in turn. A retired front end is powered down and hears nothing (R300). -/
def hear (s : State) (rate m l : Nat) (seek : Bool) (start : Int) (codes : List Int) : Heard :=
  if feRetired s m l then {} else
  let f := feOf s m l
  let k := decimation rate
  let r := recoverTiming {
    d := decimate (f.value 0) (f.value 1) k codes, k, rate, taps := f.taps, g := f.target, seek, carried := f.carried,
    ppm := timingBandwidth s, start }
  let xs := r.1.map BitRec.x
  let expected := Config.expectedLevel (f.seed :: f.boost :: f.adapt)
  let ev := defectsOf s expected xs
  let zeroed := (List.range heardBits).map (inDefect (defectGuard s) (ev.1 ++ ev.2))
  let own := (r.1.zip zeroed).filter fun b => b.1.own && !b.2
  let ys := r.1.map BitRec.y
  { ys, diffs := detect f.target ys [], zeroed, drops := ev.1.length, tas := ev.2.length,
    noise := meanSq ((r.1.take 192).map BitRec.err), mse := meanSq ((r.1.filter BitRec.own).map BitRec.err) / (Config.mseUnit + 1),
    pherr := Nat.sqrt (meanSq (r.1.map BitRec.pe)) * 256 / 1000000000, freq := r.2,
    stuck := codes ≠ [] && (codes.all (· == -128) || codes.all (· == 127)),
    agc := ((r.1.zip zeroed).zipIdx.map fun b => if b.1.2 then 0 else Config.agcMove (decide (b.2 < 128)) b.1.1.x expected).sum,
    moves := (List.range 16).map (adaptMove (adaptStep s) (own.map Prod.fst)) }

/-- The registers of a front end after a slot (Tables 10.10 to 10.12); the filter corner follows the speed index here (R302). -/
def noteHeard (s : State) (wrap mmps m l : Nat) (h : Heard) : State :=
  if feRetired s m l then s
  else
    modFe (feSlot s m l h.stuck) m l fun f =>
      { f with
        corner := bitRate wrap mmps / 2, carried := h.freq, fofs := h.freq.tdiv 1000, pherr := min 255 h.pherr,
        mse := min 65535 h.mse, defects := f.defects + h.drops + h.tas }

/-- Adaptation over a segment that converged: the automatic gain control stays within 6 dB of the Ephemeris GAIN and within 0 to
36 dB, the values within INTEGER8 (R302, R306). -/
def FrontEnd.adapted (f : FrontEnd) (agc : Int) (moves : List Int) : FrontEnd :=
  let a := clampI (65536 * max 0 (f.seed - 24)) (65536 * min 144 (f.seed + 24)) (f.agc + agc)
  let v := List.zipWith (fun a b => clampI (-8388608) 8323072 (a + b)) f.adapt moves
  let f := { f with agc := a, gain := (a / 65536).toNat, adapt := v }
  { f with offset := f.value 0 }

/-- What a decided segment means for a front end that read it: the counts of Table 17.7, and adaptation where it converged. -/
def feDecided (s : State) (m l : Nat) (ok : Bool) (agc : Int) (moves : List Int) : State :=
  if feRetired s m l then s
  else modFe s m l fun f =>
    let f := { f with accepted := f.accepted + b2n ok, noAccept := f.noAccept + b2n (!ok) }
    if ok then f.adapted agc moves else f

/-! ## Sync distances (R313), framing, verification -/

/-- What the trailing module makes of a segment just written (R277): the iterations in which C1 converged, how many codeword bits differ
from the hard decisions, how far the sync mark lies from its place, the 12 bytes of the segment header decoded, and whether the
reading front end was stuck for the slot. -/
structure VerdictObs where
  iterations : Option Nat := some 1
  differ : Nat := 0
  sync   : Option Int := some 0
  header : List Byte := []
  stuck  : Bool := false
deriving DecidableEq, Repr

/-- n values from place i on; a place outside the list holds d. -/
def sliceAt {α : Type} (d : α) (xs : List α) (i : Int) (n : Nat) : List α :=
  (List.range n).map fun (j : Nat) => if i + (j : Int) < 0 then d else xs.getD (i + (j : Int)).toNat d

/-- Bits in which 64 hard decisions differ from the sync mark. -/
def markDist (bs : List Bool) : Nat := (List.zipWith (fun a b => a != b) bs syncMark).countP id + (64 - bs.length)

/-- The positions at which a front end's distances are kept, relative to its predicted mark: all that a window or a continuous search
reaches. -/
def syncPlaces : List Int := (List.range 257).map fun (i : Nat) => (i : Int) - 128

/-- The distances of a reading at the positions. -/
def Heard.dists (h : Heard) : List Nat := syncPlaces.map fun p => markDist (sliceAt false h.hard (192 + p) 64)

/-- Whether 64 bits of the preamble's tone come immediately before each position (R315). -/
def Heard.tones (h : Heard) : List Bool := syncPlaces.map fun p => sliceAt false h.hard (128 + p) 64 == preGroups 16

/-- The value kept for position p. -/
def atPlace {α : Type} (d : α) (xs : List α) (p : Int) : α := if p + 128 < 0 then d else xs.getD (p + 128).toNat d

end Sys2Proof.Machine
end

