-- ==== Sys2Proof/Machine/Writer.lean ====
section
/-! DEFINITION. The writer: transport starts and stops, slots and trailers, verdicts, rewrites, lane health and
retirement, wrap ends and speed matching (R273 to R297, R586). -/

namespace Sys2Proof.Machine

/-! ## Speed matching (R243, R295, R296, R436, R584) -/

/-- Points of the settings' speed curve: rate in MB/s and speed index. -/
def curvePoints (s : State) : List (Nat × Nat) :=
  (List.range 16).map fun i => let v := setN s 0x4300 (i + 1); (bits v 0 16, bits v 16 5)

/-- A curve is non-decreasing. -/
def curveOk (ps : List (Nat × Nat)) : Bool := (ps.zip (ps.drop 1)).all fun x => decide (x.1.1 ≤ x.2.1 ∧ x.1.2 ≤ x.2.2)

/-- The speed curve in force: the default when the settings' was not non-decreasing at the latest Lodestar start (R296). -/
def speedCurve (s : State) : List (Nat × Nat) := if s.fm.curveBad then curveDefault else curvePoints s

/-- Lodestar start: the settings' curve is judged, and a refused one is recorded (R296). -/
def judgeCurve (s : State) : State :=
  if curveOk (curvePoints s) then { s with fm.curveBad := false } else setSubst { s with fm.curveBad := true } 2

/-- Highest speed index allowed: 4 with a faulty chopper, 12 under the thermal cap. -/
def speedCap (s : State) : Nat := if s.ps.chopF then 4 else if s.glb.thermalCap then 12 else 28

/-- The demanded speed index (R296). -/
def demandIdx (s : State) : Nat :=
  let c := speedCurve s
  let r := rateNow s / 1000000
  let r := if isEdge s.fm.wrap then r * 1125 / 1000 else r
  let d := if stagedLevel s ≥ mib * setN s 0x2124 1 then (c.getD 15 (0, 28)).2
    else c.foldl (fun a p => if p.1 ≤ r then p.2 else a) 0
  min d (speedCap s)

/-- A speed in mm/s as CE's target: Q1.31 of 16 m/s, negative in reverse. -/
def speedCode (mmps : Nat) (forward : Bool) : Int :=
  let v : Int := (mmps * 2 ^ 31 / 16000 : Nat)
  if forward then v else -v

/-- The writer's speed is set: CE's target follows, at once or after the stop it is on its way to. -/
def setSpeed (s : State) (idx : Nat) : State :=
  let v := speedCode (speedMmps idx) (isForward s.fm.wrap)
  if s.ce.posmode then { s with fm.speed := idx, ce.vafter := v } else { s with fm.speed := idx, ce.vtarget := v }

/-! ## Moves to a position (R297, R368, R405, R408, R436) -/

/-- A motion limit: the setting, and in Twilight its default (R503). -/
def motionLimit (s : State) (sub : Nat) : Nat :=
  if s.glb.twilight.isSome then (match odFind 0x4200 sub with | some e => unle e.dflt | none => 0) else setN s 0x4200 sub

/-- CE's acceleration limit in force, mm/s^2 (R404, R434, R436, R503). -/
def accelLimit (s : State) : Nat :=
  s.ce.aLimit.getD (if restricted s then min 1000 (motionLimit s 1) else motionLimit s 1)

/-- Run-up distance to a speed in mm/s from rest, in mm (R408). -/
def runUpMm (s : State) (v : Nat) : Nat :=
  let a := accelLimit s
  let j := motionLimit s 2
  if v * j ≥ a * a then v * v / (2 * a) + v * a / (2 * j) else Nat.sqrt (v * v * v / j)

/-- CE is sent to stop a distance in mm before an LPOS, against the direction of the wrap, and to run at a speed from
there (R297, R368, R405). A new move ends what a locked rotor left (log 22). -/
def goTo (s : State) (wrap lpos before mmps : Nat) : State :=
  let d := 5 * before
  { s with
    ce.posmode := true,
    ce.sup := { s.ce.sup with locked := false, lockRun := 0 }, ce.tkp := { s.ce.tkp with locked := false, lockRun := 0 },
    ce.stopAt := (if isForward wrap then lpos - d else min 5502999 (lpos + d)),
    ce.vlim := speedCode (setN s 0x212C 4) true,
    ce.vafter := speedCode mmps (isForward wrap) }

/-! ## Write currents (R273, R274) -/

/-- The word of 0x4100 and the trim of 0x4101 for lane l, module m on a band. -/
def currentSetting (s : State) (band l m : Nat) : Nat × Int :=
  (setN s 0x4100 (1 + 2 * band + m), setI s 8 0x4101 (1 + 64 * m + l))

/-- The current in force from a setting at a head temperature in 0.1 degrees, in 0.25 mA. The quotient is rounded to nearest
(log 16). -/
def writeCurrent (s : State) (x : Nat × Int) (t : Int) : Nat :=
  let table : Int := bits x.1 0 8
  (clampI 0 255 (table + x.2 + divRound (setI s 16 0x4102 1 * (t - 400)) 2500)).toNat

/-- The settings of a module are taken: at a dataset boundary, or while nothing is being written. -/
def takeCurrents (s : State) (m : Nat) : State :=
  { s with
    fm.wset := (List.range 64).foldl (fun w l => put (64 * m + l) (currentSetting s (bandOf s.fm.wrap) l m) w) s.fm.wset }

/-- The currents of a module as they are recomputed now. -/
def newCurrents (s : State) (m : Nat) (t : Int) : List (Nat × Nat) :=
  (List.range 64).foldl (fun w l => put (64 * m + l) (writeCurrent s (get s.fm.wset (64 * m + l) (0, 0)) t) w) s.fm.wcur

/-- Recomputed currents are in force at once: no slot is being written. -/
def updateCurrents (s : State) (m : Nat) (t : Int) : State := { s with fm.wcur := newCurrents s m t, fm.wnext := none }

/-- A slot begins: currents recomputed during the last one are in force, on all lanes at once (R274). -/
def slotCurrents (s : State) : State :=
  match s.fm.wnext with
  | some c => { s with fm.wcur := c, fm.wnext := none }
  | none => s

/-- The module that writes on a wrap: A forward, B in reverse (R239). -/
def writingModule (wrap : Nat) : Nat := if isForward wrap then 0 else 1

/-- WRITE_CURRENT_UPDATE: the head temperatures read every 100 ms (R574); a new value waits for the next slot boundary, and a change
of the settings for the next dataset boundary (R274). -/
def execWriteCurrentUpdate (tempA tempB : Option Int) (s : State) : Out :=
  .next (
    let t := [s.glb.temps.getD 0 0, s.glb.temps.getD 1 0, tempA.getD (s.glb.temps.getD 2 0), tempB.getD (s.glb.temps.getD 3 0)]
    let s := { s with glb.temps := t }
    let m := writingModule s.fm.wrap
    let v := t.getD (2 + m) 0
    if s.fm.current.isNone then updateCurrents (takeCurrents s m) m v else { s with fm.wnext := some (newCurrents s m v) })

/-! ## Whole-dataset rewrites (R282, R283) -/

/-- A sealed dataset prepared for its next writing. -/
def WriteDs.again (w : WriteDs) (lanes : List Nat) : WriteDs :=
  { w with
    attempt := w.attempt + 1, begun := false, ended := false, trailer := 0, due := [], fails := [], failCount := 0,
    rewrite := false, lanesOut := lanes, turn := false, interrupted := false }

/-- Lanes retired. -/
def retiredLanes (s : State) : List Nat := (List.range 64).filter fun l => s.fm.retired.getLsbD l

/-- A dataset passes, and so may the reallocations whose chains it holds or whose checkpoint it ends (R281, R350). -/
def passDs (s : State) (w : WriteDs) : State :=
  let p := w.ds.part
  let was := (partOf s p).bind Part.lastCkpt
  let s := advanceReallocs (passDataset s w) p
  match (partOf s p).bind Part.lastCkpt with
  | some f => if was = some f then s else reallocsDone s p f
  | none => s

/-- A dataset is given up, and so may reallocated chains in it be; `st` is the status of the WRITEs it hits (R178, R350). -/
def abandonDs (s : State) (w : WriteDs) (st : Nat) : State := reallocAbandoned (abandonDataset s w st) w

/-- A dataset is to be written again: ahead of every dataset not begun, or given up after ATTEMPT 3 (R282, R283). -/
def rewriteDs (s : State) (w : WriteDs) : State :=
  if w.attempt ≥ 3 then abandonDs s w stWriteVerifyFailed
  else
    let s := leaveDue s w
    let rest := s.fm.sealed.filter fun v => !(v.ds.part == w.ds.part && v.ds.seq == w.ds.seq)
    let isNew := fun v : WriteDs => !v.begun && v.attempt == 0
    { s with
      fm.sealed := rest.takeWhile (fun v => !isNew v) ++ [w.again (retiredLanes s)] ++ rest.dropWhile (fun v => !isNew v),
      fm.whole := satAdd 65535 s.fm.whole 1 }

/-- A sealed dataset is replaced. -/
def putDs (s : State) (w : WriteDs) : State :=
  { s with fm.sealed := s.fm.sealed.map fun v => if v.ds.part = w.ds.part ∧ v.ds.seq = w.ds.seq then w else v }

/-- Rows of a sub-dataset that have failed. -/
def failedRows (w : WriteDs) (sub : Nat) : Nat := w.fails.countP fun f => f.sub == sub

/-- The lane a pending rewrite takes in trailer slot b (R279). -/
def rewriteLane (s : State) (w : WriteDs) (f : FailRow) (b : Nat) (taken : List Nat) : Option Nat :=
  let l := (rowPlace f.sub f.row).1
  if b < f.slot + 4 then none
  else ((List.range 64).map fun k => (l + 32 + k) % 64).find? fun c =>
    c != l && !s.fm.retired.getLsbD c && !f.lanes.contains c && !taken.contains c && !(w.due.any fun g => g.slot == b && g.lane == c)

/-- The pending rewrites of a dataset, in the order of their verdicts (R279). -/
def WriteDs.pending (w : WriteDs) : List FailRow := w.fails.filter fun f => !f.passed && !f.out

/-- A rewrite is pending. -/
def pendingRewrite (w : WriteDs) : Bool := w.fails.any fun f => !f.passed && !f.out

/-- The rewrites among some that go into trailer slot b, with their lanes (R279). -/
def slotPlan (s : State) (w : WriteDs) (b : Nat) (fs : List FailRow) : List (FailRow × Nat) :=
  (fs.foldl (fun (acc : List (FailRow × Nat) × List Nat) f =>
    match rewriteLane s w f b acc.2 with
    | some c => (acc.1 ++ [(f, c)], acc.2 ++ [c])
    | none => acc) ([], [])).1

/-- Rewrites left without a place after n trailer slots from slot b on. -/
def leftOver (s : State) (w : WriteDs) : Nat → Nat → List FailRow → List FailRow
  | 0, _, fs => fs
  | n + 1, b, fs => leftOver s w n (b + 1) (fs.filter fun f => !((slotPlan s w b fs).any fun x => x.1 == f))

/-- Cause 1 of R281: a pending rewrite finds no place in slots 32 to 37, n being the next slot of the dataset. -/
def unplaceable (s : State) (w : WriteDs) (n : Nat) : Bool :=
  !w.pending.isEmpty && !(leftOver s w (38 - max 32 n) (max 32 n) w.pending).isEmpty

/-- The next slot of a dataset that is being written. -/
def segSlot (s : State) (w : WriteDs) : Option Nat :=
  match s.fm.current with
  | some (q, n) => if q = w.ds.seq ∧ w.ds.part = s.fm.wpart ∧ !w.ended then some n else none
  | none => none

/-- A cause of R281 holds: a rewrite without a place, more than 96 failed segments, more than 8 rows of one sub-dataset, or every
verdict in and a row without a passing copy. -/
def rewriteCause (s : State) (w : WriteDs) : Bool :=
  w.rewrite || decide (w.failCount > 96) || ((List.range 16).any fun b => decide (failedRows w b > 8)) ||
    (w.ended && w.due.isEmpty && w.fails.any fun f => !f.passed) || (segSlot s w).any fun n => unplaceable s w n

/-- The rewrite of a dataset still being written is decided the moment a cause holds (R281). -/
def noteRewrite (s : State) (w : WriteDs) : WriteDs := if rewriteCause s w then { w with rewrite := true } else w

/-- A dataset after a verdict or its end: passed, to be written again, or still open (R281). -/
def judgeDs (s : State) (w : WriteDs) : State :=
  if !w.begun then s
  else if rewriteCause s w then
    if w.ended then rewriteDs s w else putDs s { w with rewrite := true }
  else if w.ended && w.due.isEmpty then passDs s w
  else s

/-- One segment fails: its row needs a rewrite unless a copy has passed; it waits behind those of earlier verdicts (R279). -/
def WriteDs.segFails (w : WriteDs) (g : Seg) : WriteDs :=
  let same := fun f : FailRow => f.sub == g.sub && f.row == g.row
  let f : FailRow := match w.fails.find? same with
    | some f => { f with slot := g.slot, lanes := f.lanes ++ [g.lane], out := false }
    | none => { sub := g.sub, row := g.row, slot := g.slot, lanes := [g.lane] }
  { w with failCount := w.failCount + 1, fails := w.fails.filter (fun f => !same f) ++ [f] }

/-- A segment put in its place by sub-dataset and row. -/
def insSeg (g : Seg) : List Seg → List Seg
  | [] => [g]
  | h :: hs => if 128 * g.sub + g.row ≤ 128 * h.sub + h.row then g :: h :: hs else h :: insSeg g hs

/-- Segments fail together: they are taken by sub-dataset and then by row (R276, R279). -/
def WriteDs.failAll (w : WriteDs) (gs : List Seg) : WriteDs := (gs.foldr insSeg []).foldl WriteDs.segFails w

/-- One segment passes. -/
def WriteDs.segPasses (w : WriteDs) (g : Seg) : WriteDs :=
  { w with fails := w.fails.map fun f => if f.sub = g.sub ∧ f.row = g.row then { f with passed := true, out := false } else f }

/-! ## Lane health (R285 to R288) -/

/-- A piece has a record among some. -/
def pieceIn (rs : List Rec) (c : Cmd) (k : Piece) : Bool :=
  rs.any fun r => r.stream == stream c.sqe && r.version == c.version && r.piece == k.idx

/-- The open dataset of a partition is given up, with every record not placed yet: their pieces fail, and their WRITEs complete when
writing ends; records begun are placed all the same (R198, R288). -/
def dropOpen (s : State) (x : Part) : State :=
  let rs := (x.openDs.map OpenDs.recs).getD [] ++ (s.fm.recs.filter fun j => j.part == x.num).map RecJob.r
  let moved := (x.openDs.map OpenDs.realloc).getD [] ++ x.chains.map Prod.fst
  let s := moved.foldl (fun s q =>
    if s.fm.reallocs.any fun r => r.part == x.num && r.seq == q then dropRealloc s x.num q else s) s
  let hit := fun m : MirrorPiece => m.st == .open_ && (m.commit != some m.received ||
    rs.any fun r => r.stream == m.stream && r.version == m.version && r.piece == m.piece)
  let s := discardOpen (dropMirrored s x.num hit) x.num
  let s := ((writesOf s).filter fun c => partition c.sqe == x.num).foldl (fun s c =>
    match (c.pieces.filter fun k => !k.settled && pieceIn rs c k).map Piece.idx with
    | [] => s
    | i :: is => failFrom s c.id (is.foldl min i)) s
  sealIfDone s x.num

/-- FM seals no data dataset any more (R288). -/
def startClosing (s : State) : State :=
  s.fm.parts.foldl dropOpen { s with fm.closing := true, fm.closeStep := 0 }

/-- The writer enters HALTED and gives the transport up. -/
def haltWriter (s : State) : State :=
  let s := { s with fm.wstate := 6, fm.gate := false, fm.current := none }
  if s.ce.owner = 1 then { s with ce.owner := 0, ce.vtarget := 0, ce.posmode := false } else s

/-- Writing has ended: the writer halts, and what has not committed fails with LANES_EXHAUSTED; CHECKPOINTs that wait end with it too, and
no move gets its checkpoint any more (R288, R350). -/
def haltClosed (s : State) : State :=
  let s := clearCkpt (haltWriter s) fun _ => true
  let s := ((writesOf s).filter fun c => !c.dropped).foldl (fun s c => endWrite s c.id stLanesExhausted 0 false) s
  let s := endCheckpoints s (fun _ => true) stLanesExhausted 0
  s.fm.parts.foldl (fun s x => endReallocs s x.num) s

/-- Closing goes on once nothing sealed is left: one checkpoint in each partition written since its last one, then the span
closures, then the end (R288). -/
def closeOn : Nat → State → State
  | 0, s => s
  | fuel + 1, s =>
    if !s.fm.closing || s.fm.wstate == 6 || !s.fm.sealed.isEmpty || s.fm.parts.any (fun x => x.openDs.isSome) then s
    else match s.fm.closeStep with
      | 0 =>
        let s := { s with fm.closeStep := 1 }
        closeOn fuel ((s.fm.parts.filter fun x => (decide (x.dataSince > 0) || x.ckptWant) && !ckptBarred x).foldl
          (fun s x => wantCheckpoint s x.num x.ckptUnmount) s)
      | 1 =>
        let s := { s with fm.closeStep := 2 }
        closeOn fuel ((s.fm.parts.filter fun x => !sealBarred x).foldl (fun s x => closeSpan s x.num) s)
      | _ => haltClosed s


/-- The writer stops at a 9th retirement: datasets not yet written stay unwritten; pieces whose MARKER lies in the dataset
being written are settled at the next MOUNT (R288). -/
def ninthStop (s : State) : State :=
  let cur : Option (List Marker) := match s.fm.current with
    | some (q, _) =>
      (s.fm.sealed.find? fun w : WriteDs => w.ds.seq == q && w.begun && w.ds.part == s.fm.wpart).map fun w => w.ds.markers
    | none => none
  let ms := cur.getD []
  let s := clearCkpt (haltWriter s) fun _ => true
  let s := ((writesOf s).filter fun c => !c.dropped).foldl (fun s c =>
    let mine := fun k : Piece => ms.any fun m => m.stream == stream c.sqe && m.version == c.version && m.piece == k.idx
    let s := failPieces s c.id (partition c.sqe) (c.pieces.filter fun k => !k.settled && !mine k)
    endWrite s c.id stLanesExhausted 2 true) s
  let s := s.fm.sealed.foldl dropSealed (endCheckpoints s (fun _ => true) stLanesExhausted 0)
  s.fm.parts.foldl (fun s x => endReallocs s x.num) s

/-- Closing, looked at after each slot and verdict, and while the writer stands; a 9th retirement then ends it at once (R288). -/
def endClosing (s : State) : State :=
  if s.fm.closing && s.fm.wstate == 0 && decide (retiredCount s ≥ 9) then ninthStop s else closeOn 3 s

/-- A lane is retired: recorded in flash, reported, and from the 5th on writing closes (R286, R288). -/
def retireLane (s : State) (l : Nat) : State :=
  if s.fm.retired.getLsbD l || decide (l ≥ 64) then s
  else
    let r := s.fm.retired ||| BitVec.ofNat 64 (2 ^ l)
    let s := { s with fm.retired := r, flash.lanes := s.flash.lanes ||| BitVec.ofNat 64 (2 ^ l),
                         flash.laneAt := put l (meridian s) s.flash.laneAt }
    let s := faultRec s 0x07 true l 0 0
    let s := queueEvent s evLaneRetired 0 0 (evParams [(20, le 1 l), (21, le 1 (retiredCount s))])
    if retiredCount s ≥ 5 ∧ !s.fm.closing then startClosing s else s

/-- The permanent bucket of a lane rises (R285). -/
def addPb (s : State) (l n : Nat) : State :=
  let v := get s.fm.pb l 0 + n
  let s := { s with fm.pb := putD l v 0 s.fm.pb }
  if v ≥ setN s 0x2126 3 then retireLane s l else s

/-- The transient bucket of a lane rises by one. -/
def addTb (s : State) (l : Nat) : State :=
  let v := get s.fm.tb l 0 + 1
  if v ≥ setN s 0x2126 1 then addPb { s with fm.tb := putD l 0 0 s.fm.tb } l 1
  else { s with fm.tb := putD l v 0 s.fm.tb }

/-- A verdict reaches the lane's health (Table 9.2). -/
def laneVerdict (s : State) (l : Nat) (pass : Bool) : State :=
  if pass then { s with fm.consec := putD l 0 0 s.fm.consec }
  else
    let s := addTb s l
    let n := get s.fm.consec l 0 + 1
    if n ≥ setN s 0x2126 5 then addPb { s with fm.consec := putD l 0 0 s.fm.consec } l 1
    else { s with fm.consec := putD l n 0 s.fm.consec }

/-- TRANSIENT_LEAK (Table 9.2). -/
def execTransientLeak (lane : Nat) (s : State) : Out :=
  .next (
    let n := get s.fm.segsT lane 0
    let k := setN s 0x2126 2
    if n ≥ k then { s with fm.tb := putD lane (get s.fm.tb lane 0 - 1) 0 s.fm.tb, fm.segsT := putD lane (n - k) 0 s.fm.segsT }
    else s)

/-- PERMANENT_LEAK (Table 9.2). -/
def execPermanentLeak (lane : Nat) (s : State) : Out :=
  .next (
    let n := get s.fm.segsP lane 0
    let k := 2 ^ setN s 0x2126 4
    if n ≥ k then { s with fm.pb := putD lane (get s.fm.pb lane 0 - 1) 0 s.fm.pb, fm.segsP := putD lane (n - k) 0 s.fm.segsP }
    else s)

/-- WRITE_DRIVER_FAULT: the driver of the writing module reports an open or a short; the lane is retired at once. -/
def execWriteDriverFault (lane : Nat) (s : State) : Out :=
  .next (if lane < 64 then
      retireLane { s with fm.drvFault := insNat (64 * writingModule s.fm.wrap + lane) s.fm.drvFault } lane
    else s)

/-! ## Slots (R255 to R257, R276, R279, R280) -/

/-- The plain or C3-encoded user area a sealed dataset is written with (R175, R261). A member that could not be read back counts as
zeros (R509). -/
def dsUser (s : State) (w : WriteDs) : List Byte :=
  match w.ds.kind with
  | .parity =>
    let ms := s.fm.members.filter fun d => d.part == w.ds.part && d.spanFirst == w.ds.spanFirst
    let us := (List.range (maxOf 0 (ms.map fun d => d.spanIdx + 1))).map fun i =>
      match ms.find? fun d => d.spanIdx == i with
      | some d => userArea d
      | none => zeros userBytes
    let p := spanParity us
    if w.ds.spanIdx = 0 then p.1 else p.2
  | _ => userArea w.ds

/-- The row a segment carries on tape: header and row bytes. -/
def rowSegment (s : State) (w : WriteDs) (g : Seg) (rewrite : Nat) : List Byte :=
  segHeadBytes { seq := w.ds.seq, wrap := w.wrap, type := (if w.ds.kind = .parity then 1 else 0), attempt := w.attempt,
                 sub := g.sub, rewrite, row := g.row } ++ (subRows (dsUser s w) g.sub).getD g.row []

/-- A fill segment (R251). -/
def fillSegment (w : WriteDs) : List Byte :=
  segHeadBytes { seq := w.ds.seq, wrap := w.wrap, type := 2, attempt := w.attempt, sub := 0, rewrite := 0, row := 0 } ++ zeros 1876

/-- Flux transitions of channel bits: a 1 switches the magnetisation, PC/64 of a bit late right behind another 1; each with its place
in 1/64 bit and the magnetisation it switches to (R245, R275). -/
def fluxOf (pc : Nat) : Bool → Bool → Nat → List Bool → List (Nat × Bool)
  | _, _, _, [] => []
  | prev, pol, i, b :: bs =>
    if b then (64 * i + (if prev then pc else 0), !pol) :: fluxOf pc true (!pol) (i + 1) bs
    else fluxOf pc false pol (i + 1) bs

/-- The magnetisation a run of channel bits leaves. -/
def polAfter (pol : Bool) (bits : List Bool) : Bool := bits.foldl (fun p b => p != b) pol

/-- The magnetisation of a lane noted. -/
def setMag (s : State) (lane : Nat) (pol : Bool) : State :=
  let b := BitVec.ofNat 64 (2 ^ lane)
  { s with fm.mag := if pol then s.fm.mag ||| b else s.fm.mag &&& ~~~b }

/-- One segment goes to tape: NRZI from the magnetisation the lane's last slot left, precompensated as the writing module's setting
has it (R245, R273, R275). -/
def writeSeg (s : State) (slot lane : Nat) (payload : List Byte) : State :=
  let cb := segmentBits lane payload
  let pol := s.fm.mag.getLsbD lane
  let pc := bits (get s.fm.wset (64 * writingModule s.fm.wrap + lane) (0, 0)).1 18 4
  emit (setMag { s with fm.segsT := put lane (get s.fm.segsT lane 0 + 1) s.fm.segsT,
                        fm.segsP := put lane (get s.fm.segsP lane 0 + 1) s.fm.segsP } lane (polAfter pol cb))
    (.track lane slot (fluxOf pc false pol 0 cb))

/-- Lanes in service. -/
def lanesIn (s : State) : List Nat := (List.range 64).filter fun l => !s.fm.retired.getLsbD l

/-- Slot i, 0 to 31, of a dataset is written: one row on every lane in service (R255, R258). With the gate closed its
segments fail (R276). -/
def dataSlot (s : State) (w : WriteDs) (i : Nat) : State :=
  let gs : List Seg := (lanesIn s).map fun l => { slot := i, lane := l, sub := (placeRow l i).1, row := (placeRow l i).2 }
  let s := if s.fm.gate then gs.foldl (fun s g => writeSeg s i g.lane (rowSegment s w g 0)) s else s
  let s := if s.fm.gate then modTape s w fun t => { t with slots := i + 1 } else s
  let w := if s.fm.gate then { w with due := w.due ++ gs } else w.failAll gs
  let s := { s with fm.current := some (w.ds.seq, i + 1) }
  putDs s (noteRewrite s w)

/-- Trailer slot b is written: pending rewrites in the order of their verdicts, fill segments elsewhere (R279, R280). -/
def trailerSlot (s : State) (w : WriteDs) (b : Nat) : State :=
  let plan := slotPlan s w b w.pending
  let put1 := fun (s : State) (x : FailRow × Nat) =>
    writeSeg s b x.2 (rowSegment s w { slot := b, lane := x.2, sub := x.1.sub, row := x.1.row } (x.1.rewrites + 1))
  let s := if s.fm.gate then
      ((lanesIn s).filter fun l => !(plan.any fun x => x.2 == l)).foldl (fun s l => writeSeg s b l (fillSegment w)) (plan.foldl put1 s)
    else s
  let gs : List Seg := plan.map fun x => { slot := b, lane := x.2, sub := x.1.sub, row := x.1.row }
  let w := { w with
    fails := w.fails.map fun f =>
      if plan.any fun x => x.1.sub == f.sub && x.1.row == f.row then { f with out := true, rewrites := f.rewrites + 1 } else f,
    trailer := b - 31 }
  let s := if s.fm.gate then modTape s w fun t => { t with slots := b + 1 } else s
  let w := if s.fm.gate then { w with due := w.due ++ gs } else w.failAll gs
  let s := { s with fm.current := some (w.ds.seq, b + 1), fm.trw := satAdd (2 ^ 32 - 1) s.fm.trw plan.length }
  putDs s (noteRewrite s w)

/-- The dataset and its trailer are over: the append point moves behind them (R280, R281). -/
def endDataset (s : State) (w : WriteDs) : State :=
  let w := { noteRewrite s w with ended := true }
  let s := modTape (putDs s w) w fun t => { t with complete := true, trailer := w.trailer }
  let s := modPart s w.ds.part fun x => { x with pos := advance w.wrap w.pos (32 + w.trailer) }
  judgeDs { s with fm.current := none } w

/-- The position map takes an entry, and keeps every 64th SEQ and the first and the last dataset of each wrap; what corrects it stays until
the wrap's next entry (R367). -/
def mapPosition (s : State) (p seq wrap lpos : Nat) (corrects : Bool) : State :=
  let es := (s.fm.posMap.filter fun e => !(e.1 == p && e.2.1 == seq)) ++ [(p, seq, wrap, lpos)]
  let here := (es.filter fun e => e.1 == p && e.2.2.1 == wrap).map fun e => e.2.1
  let lo := here.foldl min seq
  let hi := here.foldl max seq
  { s with fm.posMap := if corrects then es else es.filter fun e =>
      !(e.1 == p && e.2.2.1 == wrap) || e.2.1 % 64 == 0 || e.2.1 == lo || e.2.1 == hi }

/-- A SEQ of the label region (R265). -/
def inLabels (seq : Nat) : Bool := decide (seq < 512)

/-- Room left for a dataset from the append point: on the wrap, or in the label copy's 25,000 LPOS (R265, R289). -/
def roomAt (x : Part) (w : WriteDs) : Nat :=
  if inLabels w.ds.seq then
    (if isForward x.wrap then posOf (lpBot + 25000) - x.pos else x.pos - posOf (lpEot - 25000))
  else roomLeft x.wrap x.pos

/-- Records of a dataset that begins on tape for the first time leave the staged level, and fix the locators of
host-indexed writes (R44, R293). -/
def noteOnTape (s : State) (w : WriteDs) : State :=
  if w.attempt ≠ 0 then s
  else w.ds.recs.foldl (fun s r =>
    match writeOf s w.ds.part r.stream r.version with
    | none => s
    | some c => modCmd s c.id fun c =>
      { c.modPiece r.piece (fun k => { k with onTape := k.onTape + r.olen }) with
        locator := (if r.offset = offset c.sqe then some w.ds.seq else c.locator) }) s

/-- The pool 1 buffer of a dataset that begins on tape passes from FM or ALM to FMV (R153, R168, stage 7); a rewrite has it already. -/
def toVerify (s : State) (h : BitVec 32) : State :=
  match (poolOf s (poolNo h)).buf (bufNo h) with
  | none => s
  | some b => if b.holders.getLsbD clsFm then handOff s [h] clsFm clsFmv
    else if b.holders.getLsbD clsAlm then handOff s [h] clsAlm clsFmv else s

/-- A sealed dataset begins at the append point of its partition: its first writing fixes WRAP and LPOS of its header; an older copy
that was cut short there is overwritten (R586), and so is the label dataset of its SEQ (R267). -/
def beginDataset (s : State) (x : Part) (w : WriteDs) : State :=
  let s := { s with fm.retired := s.flash.lanes }
  let home := (w.ds.home.getD (x.wrap, lposOf x.pos))
  let w := { w with begun := true, wrap := x.wrap, pos := x.pos, lanesOut := retiredLanes s, ds := { w.ds with home := some home } }
  let s := { s with
    fm.members := s.fm.members.map fun d => if d.part = w.ds.part ∧ d.seq = w.ds.seq then { d with home := some home } else d,
    media.cart := s.media.cart.map fun c => { c with
      tape := (c.tape.filter fun t => !(t.wrap == x.wrap && ((t.pos == x.pos && !t.complete) ||
          (w.attempt == 0 && inLabels w.ds.seq && t.ds.part == x.num && t.ds.seq == w.ds.seq)))) ++
        [{ ds := w.ds, attempt := w.attempt, wrap := x.wrap, lpos := lposOf x.pos, pos := x.pos, slots := 0, complete := false }] } }
  let s := mapPosition s x.num w.ds.seq x.wrap (lposOf x.pos) false
  let s := updateCurrents (takeCurrents s (writingModule x.wrap)) (writingModule x.wrap) (s.glb.temps.getD (2 + writingModule x.wrap) 0)
  dataSlot (noteOnTape (toVerify s w.buf) w) w 0

/-- The head is sent to a wrap: within a band the fine actuator moves alone, and servo stays as it is; to another band, or to where it homes
after a missed step, the coarse stepper takes it, and servo is off until it is there (R360, R364, R365, R442). -/
def aimHead (s : State) (wrap : Nat) : State :=
  if s.sv.moving || s.sv.rehome || s.sv.band != bandOf wrap then
    { servoOff s with sv.widx := wrapIdx wrap, sv.aim := bandOf wrap, sv.lostAt := none, sv.rehome := false, sv.moving := true }
  else { s with sv.widx := wrapIdx wrap, sv.lostAt := none }

/-- The head is sent to a wrap to be written; the trailing module, which verifies it, loads its values for it (R277, R305). -/
def aimVerifying (s : State) (wrap : Nat) : State := aimHead (loadEphemeris s wrap [1 - writingModule wrap]) wrap

/-! ## What the transport is asked for (R293, R294) -/

/-- Motion is possible: the tape is threaded, Nightwatch watches, CE is not held, no grip is granted (R437, R486). -/
def mayMove (s : State) : Bool :=
  s.media.threaded && s.nw.state == 0 && !s.nw.inReset && !s.ce.safe && !s.nw.grant && s.glb.twilight.isNone

/-- The transport is free for the writer (R375). -/
def freeForWriter (s : State) : Bool := s.rcl.batch.isNone && s.rc.ladder.isNone && !s.rcl.preempt && !s.ce.media

/-- DRAIN: every open dataset that holds a reserved record is sealed (R294) (log 56). -/
def enterDrain (s : State) : State :=
  s.fm.parts.foldl (fun s x =>
    match x.openDs with
    | some o => if !o.recs.isEmpty || o.outstanding > 0 then stopDs s x.num false else s
    | none => s) { s with fm.wstate := 4, fm.lowSince := none }

/-- STOP: deceleration along the ramp, the transport given up once nothing is left (R292). -/
def enterStop (s : State) : State :=
  { s with fm.wstate := 5, fm.gate := false, fm.current := none, fm.servoTry := false, fm.again := false, ce.vtarget := 0, ce.posmode := false }

/-- The dataset the writer takes next in its partition. -/
def nextDs (s : State) : Option WriteDs := s.fm.sealed.find? fun w => w.ds.part == s.fm.wpart && !w.begun

/-- TURN: the tape runs on, at the speed it has, to where the run-up to the partition's next wrap begins, in the turnaround zone or past
LP_BOT, and reverses there along the ramp to the speed demanded now (R291, R296, R408; log 119). -/
def enterTurn (s : State) (x : Part) : State :=
  let n := x.wrap + 1
  let v := s.fm.speed
  let s := setPart s { x with wrap := n, pos := wrapStart x.firstPair n }
  let s := { s with fm.wstate := 3, fm.gate := false, fm.current := none }
  let d := demandIdx s
  let s := goTo s n (if isForward n then lpBot else lpEot) (runUpMm s (speedMmps d) + setN s 0x2124 7) (speedMmps d)
  { s with fm.speed := d, ce.vlim := speedCode (speedMmps v) true }

/-- During the reversal the head moves to the wrap that comes next; a first reverse access on a band calibrates it (R291, R524). -/
def turnHead (s : State) : State :=
  match partOf s s.fm.wpart with
  | some x =>
    if s.fm.wstate = 3 ∧ !s.ce.posmode ∧ s.fm.wrap ≠ x.wrap then
      aimVerifying { revCalibrate s x.wrap with fm.wrap := x.wrap } x.wrap
    else s
  | none => s

/-- An open dataset is still to be sealed: the writer in DRAIN waits for it (R294). -/
def sealsAwaited (s : State) : Bool :=
  s.fm.parts.any fun x => match x.openDs with | some o => (o.stop || o.full) && !sealBarred x | none => false

/-- Nothing is left to write in the writer's partition: in STREAM it drains; in DRAIN it waits for verdicts and for datasets being
sealed, then stops; datasets sealed in other partitions need tape at once (R294). -/
def noneReady (s : State) : State :=
  if s.fm.wstate = 2 then enterDrain s
  else if s.fm.sealed.any (fun w => w.ds.part == s.fm.wpart) || sealsAwaited s then s
  else enterStop { s with fm.sealed := s.fm.sealed.map fun w => if w.begun then w else { w with interrupted := true } }

/-- A dataset begins a span: SPANFIRST is its own SEQ (R181). -/
def startsSpan (w : WriteDs) : Bool := w.ds.kind != .parity && w.ds.spanFirst == w.ds.seq

/-- A dataset without room at the append point: label datasets end their operation; a rewrite is given up, and so is a dataset whose span
lies on this wrap; behind the last wrap everything is; else the writer turns with the first dataset of a span (R263, R265, R283, R289,
R291; log 119). -/
def noRoom (s : State) (x : Part) (w : WriteDs) : Option State :=
  if inLabels w.ds.seq then some (dropSealed (modPart s x.num fun x => { x with labelFail := some w.ds.seq }) w)
  else if w.attempt ≠ 0 then some (abandonDs s w stWriteVerifyFailed)
  else if x.wrap ≥ x.lastWrap then some (closeForReserve (abandonDs s w stPartitionFull) x.num)
  else if !startsSpan w then some (abandonDs s w stWriteVerifyFailed)
  else none

/-- A data dataset whose position has come to lie in the reserve is not written there, unless reallocation put chains into it (R17;
log 119). -/
def reserveBars (x : Part) (w : WriteDs) : Bool := w.ds.kind == .data && w.realloc.isEmpty && x.freePositions == 0

/-- At a dataset boundary: the next dataset begins, or it is given up, or the wrap is over, or there is nothing to write (R17, R283,
R289, R291, R294). -/
def nextDataset : Nat → State → State
  | 0, s => s
  | fuel + 1, s =>
    match partOf s s.fm.wpart with
    | none => enterStop s
    | some x =>
      if s.rcl.preempt then enterStop s
      else match nextDs s with
        | some w =>
          if w.buf = nullHandle then
            let a := unitAlloc s 1 (if w.ds.kind = .checkpoint then clsAlm else clsFm)
            if a.1 = nullHandle then a.2 else nextDataset fuel (fillBuf (putDs a.2 { w with buf := a.1 }) a.1 0 encodedBytes)
          else if w.attempt ≠ 0 ∧ w.wrap ≠ x.wrap then nextDataset fuel (abandonDs s w stWriteVerifyFailed)
          else if w.turn ∨ roomAt x w < 38 * slotLen x.wrap then
            match noRoom s x w with
            | some t => nextDataset fuel t
            | none => enterTurn (putDs s { w with turn := false }) x
          else if reserveBars x w then nextDataset fuel (closeForReserve (abandonDs s w stPartitionFull) x.num)
          else beginDataset s x w
        | none =>
          let t := noneReady s
          if t.fm.wstate = 4 ∧ (nextDs t).isSome then nextDataset fuel t else t

/-- The speed is at its target: no step's ramp is in progress. -/
def rampOver (s : State) : Bool := !s.ce.posmode && s.ce.vref == s.ce.vtarget

/-- The staged level and the demand are looked at: since when the level has been low, and the demand, counted from the end of the last
step's ramp (R294, R296). -/
def trackLevels (s : State) : State :=
  let low := decide (stagedLevel s < mib * setN s 0x2124 3)
  let down := decide (demandIdx s + 2 ≤ s.fm.speed) && rampOver s
  { s with
    fm.lowSince := if low then some (s.fm.lowSince.getD s.now) else none,
    fm.downSince := if down then some (s.fm.downSince.getD s.now) else none }

/-- The gate closes between slot boundaries: the segments being written fail (R276). -/
def closeGate (s : State) : State :=
  if !s.fm.gate then s
  else
    let s := { s with fm.gate := false, fm.inhibits := satAdd 65535 s.fm.inhibits 1 }
    match s.fm.current with
    | none => s
    | some (q, n) =>
      match s.fm.sealed.find? fun w => w.ds.part == s.fm.wpart && w.ds.seq == q with
      | none => s
      | some w =>
        let gs := w.due.filter fun g => g.slot + 1 == n
        putDs s (noteRewrite s (WriteDs.failAll { w with due := w.due.filter fun g => g.slot + 1 != n } gs))

/-- The gate at a slot boundary: open only on track with servo held (R276). -/
def gateAt (s : State) (pesNm : Int) : State :=
  let ok := decide (pesNm.natAbs ≤ setN s 0x4103 1) && s.sv.state == 2
  if ok then { s with fm.gate := true }
  else if s.fm.gate then { s with fm.gate := false, fm.inhibits := satAdd 65535 s.fm.inhibits 1 }
  else s

/-- The slot that begins: the next one of the dataset in progress, a trailer slot while rows wait for a rewrite, or the next
dataset (R255, R279, R291). -/
def nextSlot (s : State) : State :=
  match s.fm.current with
  | none => nextDataset 4 s
  | some (q, n) =>
    match s.fm.sealed.find? fun w => w.ds.part == s.fm.wpart && w.ds.seq == q with
    | none => nextDataset 4 { s with fm.current := none }
    | some w =>
      if n < 32 then dataSlot s w n
      else if !w.rewrite && decide (n < 38) &&
          (pendingRewrite w || (decide (n > 32) && w.due.any fun g => decide (g.slot < 32))) then trailerSlot s w n
      else
        let s := endDataset s w
        let s := if s.fm.wstate = 4 ∧ s.glb.restarting.isNone ∧ (startNow s || agedWrite s) then { s with fm.wstate := 2 } else s
        if s.fm.wstate = 2 ∨ s.fm.wstate = 4 then nextDataset 4 s else s

/-- SLOT_BOUNDARY (R255, R276, R279, R280, R287, R288, R296) (log 83). -/
def slotBoundaryS (s : State) (pesNm : Int) : State :=
  if s.fm.wstate ≠ 2 ∧ s.fm.wstate ≠ 4 then s
  else if retiredCount s ≥ 9 then ninthStop s
  else
    let s := slotCurrents (if s.glb.restarting.isSome then { s with fm.wstate := 4 } else s)
    let s := trackLevels (gateAt s pesNm)
    let s := if demandIdx s > s.fm.speed then setSpeed s (s.fm.speed + 1)
      else if s.fm.speed > speedCap s then setSpeed s (s.fm.speed - 1) else s
    endClosing (nextSlot s)

/-- The row that a segment header accepted at a place of a dataset names is possible there: the place's own row in slots 0 to 31, in the
trailer any row on a lane not its own (R252, R255, R257). -/
def possibleAt (g : Seg) (h : SegHead) : Bool :=
  if g.slot < 32 then decide (h.type < 2) && h.rewrite == 0 && (h.sub, h.row) == placeRow g.lane g.slot
  else decide (h.type < 2) && h.rewrite != 0 && (rowPlace h.sub h.row).1 != g.lane

/-- A segment passes verification: C1 converged within 6 iterations, at most 96 codeword bits differ from the hard decisions, the sync
mark lies within 8 channel bits of its place, and the segment is accepted under R252 (R277). -/
def verdictPasses (wrap : Nat) (g : Seg) (x : VerdictObs) : Bool :=
  (match x.iterations with | some n => decide (n ≤ 6) | none => false) && decide (x.differ ≤ 96) &&
    (match x.sync with | some d => decide (d.natAbs ≤ 8) | none => false) &&
    (match segHeadOf x.header with | some h => h.wrap == wrap && possibleAt g h | none => false)

/-- Codeword bits from hard decisions of a body: the flag of each word decides, the scrambler is taken off (R246, R247). -/
def hardWords : Nat → List Bool → List Bool
  | 0, _ => []
  | n + 1, l => demodWord (l.take 33) ++ hardWords n (l.drop 33)

/-- Verification of a body at a position: at most 6 iterations, one round, no module but the trailing one (R277, R329). -/
def verifyAt (s : State) (lane : Nat) (h : Heard) (p : Int) : VerdictObs :=
  let body := (sliceAt 0 h.diffs (256 + p) 16896).map llrOf
  let r := c1Decode (setN s 0x2129 3) (setN s 0x2129 6) 6 0 [] (frameLlrs lane body)
  let hard := xorBits (hardWords 512 (sliceAt false h.hard (256 + p) 16896)) (scrSeq (laneSeed lane) 16384)
  { iterations := if r.ok then some r.iters else none,
    differ := (List.zipWith (fun a b => a != b) hard (hardBits r.post)).countP id, sync := some p,
    header := (payloadOf r.post).take 12, stuck := h.stuck }

/-- Verification of a segment that the trailing module has heard: the candidates of the window in rank order, at most three, those within 8
bits of the write clock's position tried in turn until one passes; no flywheel, nothing zeroed (R277, R313, R329). -/
def verify (s : State) (wrap : Nat) (g : Seg) (h : Heard) : VerdictObs :=
  let dist := h.dists
  let near := fun p : Int => if p = 0 then 0 else 2 * p.natAbs + b2n (decide (0 < p))
  let cs := syncPlaces.filter fun p => decide (p.natAbs ≤ 48) && decide (atPlace 64 dist p ≤ setN s 0x2127 1)
  let key := fun p : Int => 1024 * atPlace 64 dist p + near p
  let rank := cs.foldr (fun p l => l.filter (fun q => key q < key p) ++ p :: l.filter (fun q => !(key q < key p))) []
  let xs := ((rank.take 3).filter fun p => decide (p.natAbs ≤ 8)).map (verifyAt s g.lane h)
  match xs.find? (verdictPasses wrap g) with
  | some x => x
  | none => xs.headD { iterations := none, sync := none, stuck := h.stuck }

/-- The trailing module's hearing of a written segment: its registers, the defects it counts, and adaptation where C1 converged (R306,
R326, R329). -/
def noteVerify (s : State) (wrap lane : Nat) (h : Heard) (ok : Bool) : State :=
  let m := 1 - writingModule wrap
  let s := noteHeard s wrap (speedMmps s.fm.speed) m lane h
  let s := if ok ∧ !feRetired s m lane then modFe s m lane fun f => f.adapted h.agc h.moves else s
  { s with rc.lanes := putD lane { get s.rc.lanes lane {} with
      drops := satAdd 65535 (get s.rc.lanes lane {}).drops h.drops, tas := satAdd 255 (get s.rc.lanes lane {}).tas h.tas } {} s.rc.lanes }

/-- What a verdict means for the lane and for the front end that read the segment (Table 9.2, Table 17.7). -/
def noteVerdict (s : State) (wrap lane : Nat) (pass stuck : Bool) : State :=
  let m := 1 - writingModule wrap
  let s := if pass then s else modFe s m lane fun f => { f with failedVerdicts := f.failedVerdicts + 1 }
  let s := laneVerdict s lane pass
  if stuck then addPb s lane 4 else s

/-- A verdict that a segment of a dataset, or of one already judged, awaits (R277 to R281, R285). -/
def verdictS (s : State) (seq attempt slot lane : Nat) (x : VerdictObs) : State :=
  let here := fun g : Seg => g.slot == slot && g.lane == lane
  match s.fm.sealed.find? fun w => w.ds.seq == seq && w.attempt == attempt && w.begun && w.due.any here with
  | none =>
    (match s.fm.late.find? fun l => l.1 == seq && l.2.1 == attempt && here l.2.2.2 with
     | some l => endClosing (noteVerdict { s with fm.late := s.fm.late.erase l } l.2.2.1 lane (verdictPasses l.2.2.1 l.2.2.2 x) x.stuck)
     | none => s)
  | some w =>
    match w.due.find? here with
    | none => s
    | some g =>
      let pass := verdictPasses w.wrap g x
      let s := noteVerdict s w.wrap lane pass x.stuck
      let w := { w with due := w.due.filter fun h => !here h }
      let w := if pass then w.segPasses g else w.segFails g
      let s := judgeDs (putDs s w) w
      let s := if s.fm.wstate = 4 ∧ s.fm.current.isNone then nextDataset 4 s else s
      endClosing s

/-- The wrap and the place of a segment whose verdict is awaited. -/
def awaited (s : State) (seq attempt slot lane : Nat) : Option (Nat × Seg) :=
  let here := fun g : Seg => g.slot == slot && g.lane == lane
  match s.fm.sealed.find? fun w => w.ds.seq == seq && w.attempt == attempt && w.begun && w.due.any here with
  | some w => (w.due.find? here).map fun g => (w.wrap, g)
  | none => (s.fm.late.find? fun l => l.1 == seq && l.2.1 == attempt && here l.2.2.2).map fun l => l.2.2

/-- SEGMENT_VERDICT: the trailing module reads a written segment, and its verdict follows (R277, R329). -/
def segmentVerdictS (s : State) (seq attempt slot lane : Nat) (codes : List Int) : State :=
  match awaited s seq attempt slot lane with
  | none => s
  | some (wrap, g) =>
    let h := hear s (bitClock s wrap (speedMmps s.fm.speed)) (1 - writingModule wrap) lane false 0 codes
    let x := verify s wrap g h
    verdictS (noteVerify s wrap lane h x.iterations.isSome) seq attempt slot lane x

/-! ## Starting and stopping (R292 to R297) -/

/-- Writing ends in HALTED through SERVO_LOST or MOTION_FAULT: what is sealed is kept, the datasets on their way are
written again, and every WRITE completes at once (R586) (log 60). -/
def interruptWriting (s : State) (st : Nat) : State :=
  let cut := s.fm.sealed.filter fun w => w.begun && (!w.ended || !w.due.isEmpty || w.fails.any fun f => !f.passed)
  let first := cut.find? fun w => !w.ended
  let s := match first with
    | some w => modPart s w.ds.part fun x => { x with wrap := w.wrap, pos := w.pos }
    | none => s
  let keep := s.fm.sealed.filter fun w => !(cut.any fun v => v.ds.part == w.ds.part && v.ds.seq == w.ds.seq)
  let order := (match first with | some w => [w] | none => []) ++ cut.filter fun w => some w != first
  let (lost, again) := order.partition fun w => decide (w.attempt ≥ 3)
  let s := { s with
    fm.sealed := keep.filter (fun w => w.begun) ++ again.map (fun w => { w.again (retiredLanes s) with interrupted := true }) ++
      lost ++ (keep.filter fun w => !w.begun).map fun w => { w with interrupted := true },
    fm.whole := satAdd 65535 s.fm.whole again.length, fm.late := [],
    fm.wstate := 6, fm.gate := false, fm.current := none, fm.servoTry := false, fm.again := false,
    ce.vtarget := (if s.ce.owner = 1 then 0 else s.ce.vtarget), ce.posmode := s.ce.posmode && s.ce.owner != 1,
    ce.owner := (if s.ce.owner = 1 then 0 else s.ce.owner) }
  let s := lost.foldl (fun s w => abandonDs s w stWriteVerifyFailed) s
  ((writesOf s).filter fun c => !c.dropped).foldl (fun s c => endWrite s c.id st 3 true) s

/-- The cartridge may be written: it is mounted read-write, or a read-write MOUNT has come to its span closures (R49, R182). -/
def mayWrite (s : State) : Bool := s.media.mount == 1 || (match s.media.op with | some (.mount ..) => true | _ => false)

/-- The partition the writer takes up: that of the first dataset to be written, else of the oldest WRITE or CHECKPOINT. -/
def startPart (s : State) : Option Nat :=
  match s.fm.sealed.find? fun w => !w.begun with
  | some w => some w.ds.part
  | none =>
    (s.qe.cmds.find? fun c => !c.dropped && (opcode c.sqe == 0x40 || opcode c.sqe == 0x1A) &&
      (partOf s (partition c.sqe)).any fun x => !x.halted).map fun c => partition c.sqe

/-- The writer is HALTED for its partition alone, and another one waits for it (R178). -/
def haltedElsewhere (s : State) : Bool :=
  s.fm.wstate == 6 && (partOf s s.fm.wpart).any Part.halted && (tapeFault s).isNone && decide (retiredCount s ≤ 4) && !s.fm.closing &&
    (startPart s).any fun p => p != s.fm.wpart

/-- The writer may leave IDLE or STOP (Table 9.4), and HALTED where that holds for one partition alone. -/
def mayStart (s : State) : Bool :=
  (s.fm.wstate == 0 || s.fm.wstate == 5 || haltedElsewhere s) && mayWrite s && mayMove s &&
    freeForWriter s && s.glb.restarting.isNone && s.fw.holdAt.isNone && s.ce.owner != 2 && s.ce.owner != 3

/-- START: the backhitch begins; a first reverse access on a band calibrates it (R297, R524). -/
def startWriter (s : State) : State :=
  match (startPart s).bind (partOf s) with
    | none => s
    | some x =>
      let s := { revCalibrate s x.wrap with
        fm.wstate := 1, fm.wpart := x.num, fm.wrap := x.wrap, fm.startTries := 0, fm.servoTry := false, fm.again := false, fm.gate := false,
        fm.backhitch := satAdd 65535 s.fm.backhitch 1, ce.owner := 1, fm.current := none }
      let n := demandIdx s
      setSpeed (goTo (aimVerifying s x.wrap) x.wrap (lposOf x.pos) (runUpMm s (speedMmps n) + setN s 0x2124 7) (speedMmps n)) n

/-- The transport is asked for: a fault that tape commands meet ends them, but a media operation runs within the limits of
R436; else the writer starts when it may (R293, R436, R437). -/
def askStart (s : State) : State :=
  let idle := s.fm.wstate == 0 || s.fm.wstate == 5 || s.fm.wstate == 6
  match tapeFault s with
  | some st =>
    if idle && s.media.mount == 1 && (s.media.op.isNone || motionStop s) then interruptWriting s st
    else if mayStart s then startWriter s
    else s
  | none => if mayStart s then startWriter s else s

/-- The writer is asked to write: in DRAIN it goes back to STREAM, else the transport is asked for (R292, R293). -/
def writeOn (s : State) : State :=
  if s.fm.wstate = 4 then (if s.glb.restarting.isNone then { s with fm.wstate := 2 } else s) else askStart s

/-- WRITER_START (R293). -/
def execWriterStart (s : State) : Out := .next (if startNow s then writeOn s else s)

/-- Datasets that wait in another partition, as the writer comes to STOP, start it again at once: all that is sealed is written (R293,
R294). -/
def startAgain (s : State) : State :=
  if s.fm.wstate = 5 ∧ s.fm.sealed.any (fun w => !w.begun) ∧ mayStart s then startWriter s else s

/-- SLOT_BOUNDARY. -/
def execSlotBoundary (pesNm : Int) (s : State) : Out := .next (startAgain (slotBoundaryS s pesNm))

/-- SEGMENT_VERDICT. -/
def execSegmentVerdict (seq attempt slot lane : Nat) (codes : List Int) (s : State) : Out :=
  .next (startAgain (segmentVerdictS s seq attempt slot lane codes))

/-- START_AGE_EXPIRY: the oldest waiting WRITE has waited for the start age (R293). -/
def execStartAgeExpiry (s : State) : Out :=
  .next (
    if agedWrite s then writeOn s else s)

/-- APPEND_POINT_REACHED: the write clock locks and the gate opens, or the start is repeated, at most three times
(R297). -/
def execAppendPointReached (locked : Bool) (s : State) : Out :=
  .next (
    if s.fm.wstate ≠ 1 then s
    else if locked && s.sv.state == 2 then { s with fm.wstate := 2, fm.gate := true, fm.startTries := 0 }
    else if s.fm.startTries < 3 then
      match partOf s s.fm.wpart with
      | some x =>
        goTo { s with fm.startTries := s.fm.startTries + 1 } x.wrap (lposOf x.pos)
          (runUpMm s (speedMmps s.fm.speed) + setN s 0x2124 7) (speedMmps s.fm.speed)
      | none => s
    else interruptWriting s stServoLost)

/-- STOP_TIME_EXPIRY (R294). -/
def execStopTimeExpiry (s : State) : Out :=
  .next (match s.fm.lowSince with
    | some t => if s.fm.wstate = 2 ∧ elapsed s t (setN s 0x2124 4) then enterDrain s else s
    | none => s)

/-- SPEED_DOWN_DELAY_EXPIRY (R296). -/
def execSpeedDownDelayExpiry (s : State) : Out :=
  .next (match s.fm.downSince with
    | some t =>
      if (s.fm.wstate = 2 ∨ s.fm.wstate = 4) ∧ demandIdx s + 2 ≤ s.fm.speed ∧ elapsed s t (setN s 0x2124 5) then
        { setSpeed s (s.fm.speed - 1) with fm.downSince := none }
      else s
    | none => s)

/-- LPOS of the tape now: servo's while it is valid, else from the length on the take-up reel (R389). -/
def posNow (s : State) : Nat := if s.sv.lposOk then s.sv.lpos else ((s.ce.lT - s.ce.l0) / 200000).toNat

/-- Tape runs again after the reversal, the head is on the new wrap, and the place of its first dataset has come, to within 1 LPOS (R264,
R291, R297). -/
def turned (s : State) : Bool :=
  s.fm.wstate == 3 && !s.ce.posmode &&
    (partOf s s.fm.wpart).any fun x => x.wrap == s.fm.wrap && decide (((posNow s : Int) - lposOf x.pos).natAbs ≤ 1)

/-- TURN_COMPLETE: the new wrap's first dataset is at hand (R291). -/
def execTurnComplete (s : State) : Out := .next (if turned s then { s with fm.wstate := 2 } else s)

end Sys2Proof.Machine
end

