-- ==== Sys2Proof/Machine/ReadChannel.lean ====
section
/-! DEFINITION. The read channel: lane states, ranking of candidates, attempts, acceptance, rows, stored LLRs, misses of a
locate, front ends taken out of service (R300, R311 to R335, R367, R368, R491). -/

namespace Sys2Proof.Machine

/-! ## Lanes and front ends -/

/-- The read state of lane l. -/
def laneOf (s : State) (l : Nat) : Lane := get s.rc.lanes l {}

/-- s with lane l's read state changed. -/
def modLane (s : State) (l : Nat) (f : Lane → Lane) : State :=
  { s with rc.lanes := putD l (f (laneOf s l)) {} s.rc.lanes }

/-- The tape is being read for commands, by a recall run, which may be at its last dataset, or by read recovery. -/
def reading (s : State) : Bool := !s.rcl.run.isEmpty || s.rcl.ending || s.rc.ladder.isSome

/-- Reading starts: every lane with a front end in service seeks (R300, R311). -/
def lanesSeek (s : State) : State :=
  (List.range 64).foldl (fun s l =>
    if (feRetired s 0 l && feRetired s 1 l) || (laneOf s l).state != 0 then s else modLane s l fun x => { x with state := 1 }) s

/-- The partition whose wraps take in a wrap. -/
def partOfWrap (s : State) (w : Nat) : Option Part :=
  s.fm.parts.find? fun x => decide (2 * x.firstPair ≤ w ∧ w ≤ x.lastWrap)

/-! ## Positions (R311 to R315, R324) -/

/-- A position of the sync search relative to the predicted mark: the leading module's distance, the trailing module's at its best
within 2 bits, and where that is; whether the tone comes before it in each module (R313, R315). -/
structure Candidate where
  pos : Int
  dL  : Nat := 64
  dT  : Nat := 64
  e   : Int := 0
  tL  : Bool := false
  tT  : Bool := false
deriving DecidableEq, Repr

/-- A segment slot to be decided: its place where other lanes tell it; the places of its predicted marks in the leading and the trailing
module; the leading module's frame with the distance from its predicted mark to the present one, the trailing module's hearing and
its detector's target. -/
structure SegObs where
  at_   : Option (Nat × Nat) := none
  grid  : Int := 0
  gridT : Int := 0
  lead  : Option Frame := none
  shift : Int := 0
  trail : Heard := {}
  g     : List Int := []
  cands : List Candidate := []
deriving DecidableEq, Repr

/-- Joint distance; one module's distance alone when the other is out (R313). -/
def jointDist (lead : Nat) (single : Option Nat) (c : Candidate) : Nat :=
  match single with
  | some m => if m = lead then c.dL else c.dT
  | none => min c.dL 16 + min c.dT 16

/-- The order of R313. -/
def candBefore (lead : Nat) (single : Option Nat) (a b : Candidate) : Bool :=
  let x := (jointDist lead single a, a.pos.natAbs, a.pos)
  let y := (jointDist lead single b, b.pos.natAbs, b.pos)
  decide (x.1 < y.1) || (x.1 == y.1 && (decide (x.2.1 < y.2.1) || (x.2.1 == y.2.1 && decide (x.2.2 < y.2.2))))

/-- A candidate put in its place. -/
def insCand (lead : Nat) (single : Option Nat) (c : Candidate) : List Candidate → List Candidate
  | [] => [c]
  | d :: r => if candBefore lead single c d then c :: d :: r else d :: insCand lead single c r

/-- Candidates of the window in rank order. -/
def rankCands (lead : Nat) (single : Option Nat) (cs : List Candidate) : List Candidate := cs.foldr (insCand lead single) []

/-- The lanes in TRACK on module m (R315): m is not out of the lane's last decoding, nor retired. -/
def tracking (s : State) (m : Nat) : List (Nat × Lane) :=
  s.rc.lanes.filter fun x => x.2.state == 2 && !feRetired s m x.1 && !(x.2.single && x.2.modsel != (m == 1))

/-- The lane searches continuously in module m: it is in SEEK and fewer than 8 lanes track on the module (R315). -/
def seeksFreely (s : State) (m l : Nat) : Bool :=
  decide ((laneOf s l).state < 2) && decide ((tracking s m).length < 8)

/-- The middle of a list of places; of an even number the lower middle one (log 127). -/
def median (xs : List Int) : Int :=
  let sorted := xs.foldr (fun x l => l.filter (fun y => decide (y < x)) ++ x :: l.filter fun y => !decide (y < x)) []
  sorted.getD ((sorted.length - 1) / 2) 0

/-- Where a lane's sync marks lie in module m: the leading module's place, and Δ from it in the trailing one (R312). -/
def markIn (s : State) (m : Nat) (y : Lane) : Int := y.fly + (if m = writingModule s.rc.wrap then 0 else y.dskew)

/-- The place at which a lane's next sync mark is predicted in module m: the flywheel; in SEEK the median of the lanes that track plus the
lane's SKEW; in a continuous search where the tone was met (R312, R315). -/
def predicted (s : State) (m l : Nat) (x : Samples) : Int :=
  if (laneOf s l).state ≥ 2 then markIn s m (laneOf s l)
  else if seeksFreely s m l then x.start
  else median ((tracking s m).map fun y => markIn s m y.2) + (feOf s m l).skew

/-- The trailing module's best place about p: the first of p, p - 1, p + 1, p - 2, p + 2 with the least distance (R313) (log 127). -/
def bestNear (dist : List Nat) (p : Int) : Int × Nat :=
  [(-1 : Int), 1, -2, 2].foldl (fun b e => let d := atPlace 64 dist (p + e); if d < b.2 then (e, d) else b) (0, atPlace 64 dist p)

/-- Every position a search can reach, with what the modules found there (R313). -/
def positions (lead : Option Frame) (shift : Int) (trail : Heard) : List Candidate :=
  let dist := trail.dists
  let tone := trail.tones
  syncPlaces.map fun p =>
    let b := bestNear dist p
    { pos := p, dT := b.2, e := b.1, tT := atPlace false tone (p + b.1),
      dL := (match lead with | some f => atPlace 64 f.dist (p + shift) | none => 64),
      tL := (match lead with | some f => atPlace false f.tone (p + shift) | none => false) }

/-- What makes a position a candidate in a module, by its distance there and the tone before it: within the window and the threshold; in a
continuous search within the Seek threshold, after the tone (R311, R313, R315). -/
def nearEnough (s : State) (m l : Nat) (pos : Int) (d : Nat) (tone : Bool) : Bool :=
  if seeksFreely s m l then decide (d ≤ setN s 0x2127 4) && tone
  else decide (d ≤ setN s 0x2127 1) && decide (pos.natAbs ≤ if (laneOf s l).state < 2 then 96 else 48)

/-- Positions that are candidates (R311, R313, R315). -/
def candidates (s : State) (l : Nat) (single : Option Nat) (cs : List Candidate) : List Candidate :=
  let lead := writingModule s.rc.wrap
  rankCands lead single (cs.filter fun c =>
    let byL := nearEnough s lead l c.pos c.dL c.tL
    let byT := nearEnough s (1 - lead) l c.pos c.dT c.tT
    match single with
    | some m => if m = lead then byL else byT
    | none => byL || byT)

/-- The module a segment is decoded from alone, if it is (R324): 0 A, 1 B. -/
def singleModule (s : State) (l : Nat) (x : SegObs) : Option Nat :=
  let lead := writingModule s.rc.wrap
  let bad := fun m => feRetired s m l || (feOf s m l).biasf ||
    (if m = lead then (match x.lead with | some f => f.stuck | none => false) else x.trail.stuck)
  if bad 0 then some 1
  else if bad 1 then some 0
  else if x.lead.isNone then some (1 - lead)
  else if (laneOf s l).state < 2 then
    let a := !(candidates s l (some lead) x.cands).isEmpty
    let b := !(candidates s l (some (1 - lead)) x.cands).isEmpty
    if a && !b then some lead else if b && !a then some (1 - lead) else none
  else none

/-! ## Attempts (R317 to R325) -/

/-- Settings of decoding: rounds, iterations, offset, abort checks; recovery reads with 2 and 6 (R340, R344). -/
def decodeSettings (s : State) : Nat × Nat × Nat × Nat :=
  let rec_ := s.rc.ladder.isSome
  (if rec_ then 2 else setN s 0x2129 1, if rec_ then 6 else setN s 0x2129 2, setN s 0x2129 3, setN s 0x2129 6)

/-- TYPE, SUBDS and ROW are possible for the lane's place in the dataset, or for the lane when its place is not known: a row in its own
slot, a rewrite on another lane, a fill segment (R252, R255, R257). -/
def possible (l : Nat) (at_ : Option (Nat × Nat)) (h : SegHead) : Bool :=
  let own := match at_ with | some (_, slot) => decide (slot < 32) | none => true
  let trailer := match at_ with | some (_, slot) => decide (32 ≤ slot) | none => true
  match h.type with
  | 3 => false
  | 2 => trailer && h.sub == 0 && h.row == 0 && h.rewrite == 0
  | _ =>
    if h.rewrite = 0 then
      own && (match at_ with | some (_, slot) => (h.sub, h.row) == placeRow l slot | none => (rowPlace h.sub h.row).1 == l)
    else trailer && (rowPlace h.sub h.row).1 != l

/-- A decoded payload is an accepted segment (R252). -/
def accepted (s : State) (l : Nat) (at_ : Option (Nat × Nat)) (payload : List Byte) : Option SegHead :=
  match segHeadOf payload with
  | some h => if h.wrap = s.rc.wrap && possible l at_ h then some h else none
  | none => none

/-- What one attempt came to: an accepted segment with its payload and round, or the LLRs it leaves; abandonment. -/
structure TryResult where
  seg     : Option (SegHead × List Byte) := none
  round2  : Bool := false
  aborted : Bool := false
  unsat   : Nat := 1280
  llr     : List Int := []
  post    : List Int := []
deriving DecidableEq, Repr

/-- One framed attempt: the leading module's stored LLRs, the trailing module's, its equalised samples, its zeroed bits and its detector's
target; 16,896 of each (R318, R322, R325). -/
structure Attempt where
  lead   : List Int := []
  trail  : List Int := []
  ys     : List Int := []
  zeroed : List Bool := []
  g      : List Int := []
deriving DecidableEq, Repr

/-- The body framed at a position of the leading module, e bits off it in the trailing one (R317, R322). -/
def SegObs.attempt (x : SegObs) (p e : Int) : Attempt :=
  { lead := (match x.lead with | some f => sliceAt 0 f.llrs (48 + p + x.shift - f.from_) 16896 | none => List.replicate 16896 0),
    trail := sliceAt 0 x.trail.llrs (256 + p + e) 16896, ys := sliceAt 0 x.trail.ys (256 + p + e) 16896,
    zeroed := sliceAt false x.trail.zeroed (256 + p + e) 16896, g := x.g }

/-- Body bits zeroed in both modules; in the module that is decoded alone, when one is (R327) (log 127). -/
def SegObs.zeroedBits (x : SegObs) (lead : Nat) (single : Option Nat) (p e : Int) : Nat :=
  let zl := match x.lead with | some f => sliceAt false f.zeroed (256 + p + x.shift) 16896 | none => []
  let zt := sliceAt false x.trail.zeroed (256 + p + e) 16896
  match single with
  | some m => (if m = lead then zl else zt).countP id
  | none => (List.zipWith (fun a b => a && b) zl zt).countP id

/-- A bit of the segment was zeroed in either module, at the place predicted (R327). -/
def SegObs.defect (x : SegObs) : Bool :=
  (x.trail.zeroed.take 17184).any id || (match x.lead with | some f => (sliceAt false f.zeroed x.shift 17184).any id | none => false)

/-- Priors of the channel bits from the extrinsic values of a body's words: the scrambler is put back, and a bit that the flag governs takes
the flag's doubt with it; the flag has no prior (R318 the other way) (log 127). -/
def priorWords : Nat → List Int → List Int → List Int
  | 0, _, _ => []
  | n + 1, body, ext =>
    0 :: ((ext.take 32).zipIdx.map fun x => if x.2 % 2 = 0 then softXor (body.getD 0 0) x.1 else x.1) ++
      priorWords n (body.drop 33) (ext.drop 32)

/-- The trailing module's detector run again with C1's extrinsic values as priors (R317, R325). -/
def rerunTrail (l : Nat) (a : Attempt) (body llr post : List Int) : List Int :=
  let ext := List.zipWith (fun p q => clampI (-31) 31 (p - q)) post llr
  let ext := List.zipWith (fun e p => if p then -e else e) ext (scrSeq (laneSeed l) 16384)
  List.zipWith (fun d z => if z then 0 else llrOf d) (detect a.g a.ys (priorWords 512 body ext)) a.zeroed

/-- One attempt: round 1, and round 2 with the trailing module's rerun detector (R317, R325). -/
def tryAttempt (s : State) (l wl : Nat) (at_ : Option (Nat × Nat)) (a : Attempt) : TryResult :=
  let (rounds, n, off, abort) := decodeSettings s
  let body := combine wl a.lead a.trail
  let llr := frameLlrs l body
  let r := c1Decode off abort n 0 [] llr
  let hit := if r.ok then (accepted s l at_ (payloadOf r.post)).map fun h => (h, payloadOf r.post) else none
  let one : TryResult := { seg := hit, aborted := r.aborted, unsat := r.unsat, llr, post := r.post.flatten }
  if hit.isSome || r.aborted || rounds < 2 then one
  else
    let llr2 := frameLlrs l (combine wl a.lead (rerunTrail l a body llr r.post.flatten))
    let q := c1Decode off abort n r.iters [] llr2
    let hit := if q.ok then (accepted s l at_ (payloadOf q.post)).map fun h => (h, payloadOf q.post) else none
    if hit.isSome || decide (q.unsat < r.unsat) then
      { seg := hit, round2 := true, aborted := q.aborted, unsat := q.unsat, llr := llr2, post := q.post.flatten }
    else { one with aborted := q.aborted }

/-- Attempts in turn until one is accepted: its place among the positions and its result; else the number abandoned and
the attempt with the fewest unsatisfied checks (R317, R335). -/
def tryAll (s : State) (l wl : Nat) (at_ : Option (Nat × Nat)) : Nat → Nat → Option TryResult → List Attempt →
    Option (Nat × TryResult) × Nat × Option TryResult
  | _, ab, best, [] => (none, ab, best)
  | i, ab, best, a :: as =>
    let r := tryAttempt s l wl at_ a
    let ab := ab + b2n r.aborted
    if r.seg.isSome then (some (i, r), ab, best)
    else
      let best := match best with
        | some b => if r.unsat < b.unsat then some r else some b
        | none => some r
      tryAll s l wl at_ (i + 1) ab best as

/-! ## Rows (R328, R335) -/

/-- Dataset (p, q) is wanted by the run in progress, by read recovery or by its span read. -/
def wanted (s : State) (p q : Nat) : Bool :=
  s.rcl.run.contains (p, q) || s.rc.ladder == some (p, q) ||
  (match s.rc.span with
   | some sp => sp.part == p && decide (sp.first ≤ q ∧ q ≤ sp.first + sp.count + 1)
   | none => false)

/-- Pool 2 buffers that hints alone hold (R379). -/
def hintHeld (s : State) : Nat :=
  s.rc.reads.countP fun r => r.buf != nullHandle &&
    s.rcl.visits.any fun v => v.isFor r.part r.seq && v.cmds.isEmpty && !v.hints.isEmpty

/-- A visit that only hints need (R370). -/
def hintOnly (s : State) (p q : Nat) : Bool := s.rcl.visits.any fun v => v.isFor p q && v.cmds.isEmpty

/-- A pool 2 buffer for a wanted dataset. -/
def openRead (s : State) (p q : Nat) : State :=
  if (readOf s p q).isSome || !wanted s p q || (hintOnly s p q && decide (hintHeld s ≥ 256)) then s
  else
    let a := unitAlloc s 2 clsCd
    if a.1 = nullHandle then a.2 else { a.2 with rc.reads := a.2.rc.reads ++ [{ part := p, seq := q, buf := a.1, wrap := s.rc.wrap }] }

/-- A row joins a read dataset: the first copy stays, but for a suspect one that a better copy replaces (R328). -/
def ReadDs.addRow (r : ReadDs) (n : Row) : ReadDs :=
  let same := fun x : Row => x.sub == n.sub && x.row == n.row
  let r := { r with stored := r.stored.filter fun k => !(k.sub == n.sub && k.row == n.row) }
  if r.rows.any same then
    { r with rows := r.rows.map fun x => if same x && x.suspect && !n.suspect then n else x }
  else { r with rows := r.rows ++ [n] }

/-- The buffers of stored LLRs that a dataset no longer needs go back (R335). -/
def trimPool6 (s : State) (p q : Nat) : State :=
  match readOf s p q with
  | none => s
  | some r =>
    let need := (r.stored.length + 340) / 341
    let s := releaseAll s (r.pool6.drop need) clsRcv
    modRead s p q fun r => { r with pool6 := r.pool6.take need }

/-- An accepted segment's row goes into its dataset's buffer; one without an open buffer is counted as stray (R328); copies
of an abandoned SEQ are ignored (R259). -/
def storeRow (s : State) (l : Nat) (h : SegHead) (payload : List Byte) (suspect : Bool) : State :=
  match partOfWrap s h.wrap with
  | none => modLane s l fun x => { x with stray := satAdd 255 x.stray 1 }
  | some x =>
    let ignored := h.type == 2 || x.abandoned.contains h.seq
    let s := if ignored then s else openRead s x.num h.seq
    if (readOf s x.num h.seq).isNone then modLane s l fun x => { x with stray := satAdd 255 x.stray 1 }
    else if ignored then s
    else
      let buf := ((readOf s x.num h.seq).map ReadDs.buf).getD nullHandle
      trimPool6 (modRead (fillBuf s buf ((128 * h.sub + h.row) * 1888) 1888) x.num h.seq fun r =>
        r.addRow { sub := h.sub, row := h.row, bytes := slice payload 12 1876, suspect }) x.num h.seq

/-- CD keeps the LLRs of the best attempt of a failing row, while pool 6 has room for them (R335, R339). -/
def keepLlrs (s : State) (p q sub row : Nat) (best : TryResult) : State :=
  match readOf s p q with
  | none => s
  | some r =>
    let here := fun k : Stored => k.sub == sub && k.row == row
    let new : Stored := { sub, row, unsat := best.unsat, llr := best.llr, post := best.post }
    if r.rows.any fun x => x.sub == sub && x.row == row then s
    else if r.stored.any here then
      modRead s p q fun r => { r with stored := r.stored.map fun k => if here k && decide (new.unsat < k.unsat) then new else k }
    else if r.stored.length ≥ 682 then s
    else if r.stored.length < 341 * r.pool6.length then
      let n := r.stored.length
      modRead (fillBuf s (r.pool6.getD (n / 341) nullHandle) (12288 * (n % 341)) 12288) p q fun r => { r with stored := r.stored ++ [new] }
    else
      let a := unitAlloc s 6 clsRcv
      if a.1 = nullHandle then a.2
      else modRead (fillBuf a.2 a.1 0 12288) p q fun r => { r with pool6 := r.pool6 ++ [a.1], stored := r.stored ++ [new] }

/-! ## Misses of a locate (R368) -/

/-- Tape stops at the pre-position and runs up again: lanes, their values and servo start afresh (R305, R311, R360). -/
def relocate (s : State) : State :=
  lanesOff (aimHead (loadEphemeris { s with
    rcl.located := false, rcl.found := false, rcl.under := none, rcl.inside := false, rcl.again := false } s.rc.wrap [0, 1]) s.rc.wrap)

/-- A locate to read dataset (p, q) on the wrap being read, at a speed in mm/s (R368): the stop at the pre-position, then
the read. The cap of the speed index holds for it too (R436, R584). -/
def seek (s : State) (p q mmps : Nat) : State :=
  let mmps := min mmps (speedMmps (speedCap s))
  let before := mmps * mmps / (2 * accelLimit s) + setN s 0x2124 7
  goTo (relocate { s with rc.mmps := mmps }) s.rc.wrap (estimate s p q).2 before mmps

/-- Reading that goes on comes down to the cap of the speed index, through the ramp; it goes up again with the next locate (R584;
log 109). -/
def capReading (s : State) : State :=
  let mmps := speedMmps (speedCap s)
  if !reading s || decide (s.rc.mmps ≤ mmps) then s
  else
    let v := speedCode mmps (isForward s.rc.wrap)
    if s.ce.posmode then { s with rc.mmps := mmps, ce.vafter := v } else { s with rc.mmps := mmps, ce.vtarget := v }

/-- The locate of the run's first dataset, at the recall read speed. -/
def seekRun (s : State) : State := match s.rcl.run with | (p, q) :: _ => seek s p q 8000 | [] => relocate s

/-- A dataset of the run is done with; the run is over with its last one (R374). -/
def leaveRun (s : State) (p q : Nat) : State :=
  let run := s.rcl.run.filter fun r => r != (p, q)
  let s := { s with rcl.found := s.rcl.found && run.head? == s.rcl.run.head? }
  if run.isEmpty && !s.rcl.run.isEmpty && s.rc.ladder.isNone then endRun s else { s with rcl.run := run }

/-- The dataset that a locate seeks: that of the ladder, the first of a span read, the run's first unread one (R339, R344, R368). -/
def sought (s : State) : Option (Nat × Nat) :=
  match s.rc.span, s.rc.ladder with
  | some sp, _ => some (sp.part, sp.first)
  | none, some x => some x
  | none, none => s.rcl.run.head?

/-- A dataset ended in MEDIA_UNRECOVERED (Table 11.8). -/
def countFailed (s : State) : State := { s with rc.failed := satAdd 65535 s.rc.failed 1 }

/-- The sought dataset has not been met where it should be: the locate is repeated, at most twice. Then the commands of a recall run
end with reason 7, and a pass of read recovery goes on to its end without a row (R342, R344, R368). -/
def locateMiss (s : State) : State :=
  match sought s with
  | none => s
  | some (p, q) =>
    if s.rcl.misses < 2 then
      let s := if s.rc.ladder.isNone then { s with rc.wrap := (estimate s p q).1 } else s
      seek { s with rcl.misses := s.rcl.misses + 1 } p q s.rc.mmps
    else if s.rc.ladder.isSome then s
    else
      let s := failVisit (countFailed s) p q stMediaUnrecovered (7 * 256)
      let s := leaveRun { s with rcl.misses := 0 } p q
      if s.rcl.run.isEmpty then s else seekRun s

/-- Where the dataset of a segment in its own slot begins, as the head reads it (R255). -/
def datasetAt (s : State) (h : SegHead) : Nat :=
  let d := (rowPlace h.sub h.row).2 * slotLen h.wrap / frameLen
  if isForward h.wrap then s.sv.lpos - d else s.sv.lpos + d

/-- The header of a segment read in its own slot gives the position map an entry: for a SEQ that has none, or in any case where it corrects
the map (R367). -/
def mapSegment (s : State) (h : SegHead) (corrects : Bool) : State :=
  match partOfWrap s h.wrap with
  | some x =>
    if !s.sv.lposOk || h.type == 2 || h.rewrite != 0 || (!corrects && s.fm.posMap.any fun e => e.1 == x.num && e.2.1 == h.seq) then s
    else mapPosition s x.num h.seq h.wrap (datasetAt s h) corrects
  | none => s

/-- The SEQ of an accepted segment tells where the head is: the sought dataset is found, or the map is corrected and the locate repeated,
since it lies behind the head or, before the head has come near it, more than 64 datasets ahead (R367, R368). -/
def checkLocate (s : State) (h : SegHead) : State :=
  let s := mapSegment s h false
  match sought s with
  | none => s
  | some (_, q) =>
    if h.seq = q then { s with rcl.located := true, rcl.found := true, rcl.misses := 0 }
    else if s.rcl.found then s
    else if h.seq > q ∨ (!s.rcl.located ∧ h.seq + 64 < q) then locateMiss (mapSegment s h true)
    else { s with rcl.located := true }

/-! ## A segment slot -/

/-- The leading module's part of a slot as the delay store keeps it (R322). -/
def frameOf (seek : Bool) (grid : Int) (h : Heard) : Frame :=
  let dist := h.dists
  let best := syncPlaces.foldl (fun b p => if atPlace 64 dist p < b.2 then (p, atPlace 64 dist p) else b) ((0 : Int), 64)
  let from_ := if seek then best.1 else 0
  { grid, from_, dist, tone := h.tones, noise := h.noise, stuck := h.stuck, agc := h.agc, moves := h.moves,
    llrs := (sliceAt 0 h.llrs (208 + from_) 16992).map fun v => clampI (-7) 7 (divRound v 4),
    zeroed := h.zeroed }

/-- Both front ends of a lane read a slot: the leading module's goes into the delay store; the trailing module's meets the frame of its own
slot, once the store has held three more (R322, R324). The preamble of each is predicted on its own grid (R309, R312). -/
def intake (s : State) (l : Nat) (x : SegSlot) : State × SegObs :=
  let lead := writingModule s.rc.wrap
  let y := laneOf s l
  let seek := decide (y.state < 2)
  let rate := bitClock s s.rc.wrap s.rc.mmps
  let pL := predicted s lead l x.lead
  let pT := predicted s (1 - lead) l x.trail
  let hL := hear s rate lead l seek (pL - x.lead.start) x.lead.codes
  let hT := hear s rate (1 - lead) l seek (pT - x.trail.start) x.trail.codes
  let store := y.store ++ [frameOf seek pL hL]
  let frame := if store.length < 4 then none else store.head?
  let grid := if seek then (match frame with | some f => f.grid | none => pT - y.dskew) else y.fly
  let shift := match frame with | some f => grid - f.grid | none => 0
  let g := (feOf s (1 - lead) l).target
  let s := noteHeard (noteHeard s s.rc.wrap s.rc.mmps lead l hL) s.rc.wrap s.rc.mmps (1 - lead) l hT
  (modLane s l fun y =>
    { y with
      store := (if frame.isSome then store.drop 1 else store),
      drops := satAdd 65535 y.drops (hL.drops + hT.drops), tas := satAdd 255 y.tas (hL.tas + hT.tas) },
   { at_ := x.at_, grid, gridT := pT, lead := frame, shift, trail := hT, g, cands := positions frame shift hT })

/-- A slot without an accepted segment (R311, R327, R335). -/
def noSegment (s : State) (l : Nat) (x : SegObs) (best : Option TryResult) (flagged : Bool) : State :=
  let s := modLane s l fun y =>
    { y with
      state := (if y.state ≥ 2 then 3 else y.state), coastn := y.coastn + 1,
      none_ := satAdd 65535 y.none_ 1 }
  match x.at_, partOfWrap s s.rc.wrap with
  | some (q, slot), some part =>
    if slot < 32 then
      let rc := placeRow l slot
      let s := if best.isSome || flagged then openRead s part.num q else s
      let s := match best with
        | some b => keepLlrs s part.num q rc.1 rc.2 b
        | none => s
      if flagged then modRead s part.num q fun r => { r with flagged := rc :: r.flagged.erase rc } else s
    else s
  | _, _ => s

/-- A segment accepted at a position: the flywheel and the distance of the modules follow (R311, R312, R314, R328). -/
def segmentAccepted (s : State) (l : Nat) (x : SegObs) (place : Int) (top : List Candidate) (i : Nat) (single contested suspect : Bool)
    (r : TryResult) (h : SegHead) (payload : List Byte) : State :=
  let flyHit := decide (i ≥ top.length)
  let s := modLane s l fun y =>
    { y with
      state := 2, coastn := 0, fly := x.grid + place,
      dskew := (match top[i]? with | some c => if contested || single then y.dskew else x.gridT - x.grid + c.e | none => y.dskew),
      first := satAdd 65535 y.first (b2n (!flyHit && i == 0)), alt := satAdd 65535 y.alt (b2n (!flyHit && i != 0)),
      flyCnt := satAdd 65535 y.flyCnt (b2n flyHit), round2 := satAdd 65535 y.round2 (b2n r.round2),
      suspect := satAdd 255 y.suspect (b2n suspect) }
  checkLocate (storeRow s l h payload suspect) h

/-- A segment is clear with one candidate, or with a second one far enough behind; else contested (R314). -/
def contestedBy (s : State) (lead : Nat) (single : Option Nat) : List Candidate → Bool
  | [_] => false
  | a :: b :: _ => decide (jointDist lead single b < jointDist lead single a + setN s 0x2127 2)
  | [] => true

/-- A segment slot of lane l is decided (R313 to R328); `late`: the attempts made before those that remain are abandoned (R321). -/
def decideSegment (s : State) (l : Nat) (x : SegObs) (late : Option Nat) : State :=
  let st := (laneOf s l).state
  let lead := writingModule s.rc.wrap
  let single := singleModule s l x
  let wl := match single with
    | some m => if m = lead then 8 else 0
    | none => leadWeight ((x.lead.map Frame.noise).getD 0) x.trail.noise
  let cs := candidates s l single x.cands
  let top := cs.take 3
  let contested := contestedBy s lead single cs
  let fly := decide (st ≥ 2) && !(top.any fun c => c.pos == 0)
  let at_ := top.map (fun c => (c.pos, c.e)) ++ (if fly then [(0, 0)] else [])
  let at_ := match late with | some n => at_.take n | none => at_
  let (hit, ab, best) := tryAll s l wl x.at_ 0 0 none (at_.map fun p => x.attempt p.1 p.2)
  let s := match x.lead with | some f => feDecided s lead l hit.isSome f.agc f.moves | none => s
  let s := feDecided s (1 - lead) l hit.isSome x.trail.agc x.trail.moves
  let s := modLane s l fun y =>
    { y with
      single := single.isSome, modsel := single == some 1, wl, abort := satAdd 255 y.abort ab,
      contested := satAdd 65535 y.contested (b2n contested), budget := satAdd 65535 y.budget (b2n (late.isSome && hit.isNone)) }
  match hit with
  | some (i, r) =>
    (match r.seg with
     | none => s
     | some (h, payload) =>
       let p := at_.getD i (0, 0)
       let suspect := decide (x.zeroedBits lead single p.1 p.2 > setN s 0x2128 5)
       segmentAccepted s l x p.1 top i single.isSome contested suspect r h payload)
  | none => noSegment s l x best x.defect

/-- The head has come to a slot of a dataset, where other lanes tell it. -/
def readingAt (s : State) (x : SegSlot) : State :=
  match x.at_, partOfWrap s s.rc.wrap with
  | some (q, _), some part => { s with rcl.under := some (part.num, q), rcl.inside := true }
  | _, _ => s

/-- A lane can be read: tape is read, and a front end of it is in service (R300). -/
def laneReads (s : State) (l : Nat) : Bool := decide (l < 64) && reading s && !(feRetired s 0 l && feRetired s 1 l)

/-- SEGMENT_DECODE of lane l. -/
def segmentDecodeS (s : State) (l : Nat) (x : SegSlot) (late : Option Nat) : State :=
  if !laneReads s l then s
  else if x.missed && !s.rcl.found then locateMiss s
  else
    let s := readingAt s x
    let s := if (laneOf s l).state = 0 then modLane s l fun x => { x with state := 1 } else s
    let a := intake s l x
    decideSegment a.1 l a.2 late

/-- COAST_LIMIT_EXPIRY (R311). -/
def execCoastLimitExpiry (lane : Nat) (s : State) : Out :=
  .next (
    let y := laneOf s lane
    if y.state = 3 ∧ y.coastn ≥ setN s 0x2127 3 then modLane s lane fun y => { y with state := 1 } else s)

/-! ## Front ends out of service (R301, R491) -/

/-- A front end is retired; a lane left with none is retired too (R286, R491). -/
def retireFe (s : State) (l m : Nat) : State :=
  if feRetired s m l || decide (l ≥ 64) || decide (m ≥ 2) then s
  else
    let b := BitVec.ofNat 64 (2 ^ l)
    let s := if m = 0 then { s with rc.retiredA := s.rc.retiredA ||| b, flash.feA := s.flash.feA ||| b }
      else { s with rc.retiredB := s.rc.retiredB ||| b, flash.feB := s.flash.feB ||| b }
    let s := faultRec { s with flash.feAt := put (64 * m + l) (meridian s) s.flash.feAt } 0x08 true (64 * m + l) 0 0
    if feRetired s (1 - m) l then retireLane s l else s

/-- BIAS_FAULT: the source removes its bias; the front end is retired, and while it verifies writing the lane's permanent
bucket rises (R301, R491, Table 9.2). -/
def execBiasFault (lane module : Nat) (s : State) : Out :=
  .next (if lane ≥ 64 ∨ module ≥ 2 then s
    else
      let s := modFe s module lane fun f => { f with biasf := true }
      let verifying := (s.fm.wstate == 2 || s.fm.wstate == 4) && writingModule s.fm.wrap != module
      let s := if verifying then addPb s lane 4 else s
      retireFe s lane module)

/-- FRONT_END_STUCK_RETIRE: stuck in 16 consecutive slots in which it was read (R491). -/
def execFrontEndStuckRetire (lane module : Nat) (s : State) : Out :=
  .next (if (feOf s module lane).stuckRun ≥ 16 then retireFe s lane module else s)

end Sys2Proof.Machine
end

