-- ==== Sys2Proof/Machine/Recovery.lean ====
section
/-! DEFINITION. Read recovery: erasure-aided C2, outer soft rounds, the retry ladder, the span rebuild by C3, stage 2 of the
read pipeline and what the host sees (R185, R332 to R348). -/

namespace Sys2Proof.Machine

/-! ## Step 1: erasure-aided C2 (R336) -/

/-- The rows of sub-dataset b, by number. -/
def ReadDs.subRows (r : ReadDs) (b : Nat) : List (Option (List Byte)) :=
  (List.range 128).map fun i => (r.rows.find? fun x => x.sub == b && x.row == i).map Row.bytes

/-- Suspect rows of sub-dataset b. -/
def ReadDs.suspects (r : ReadDs) (b : Nat) : List Nat := (r.rows.filter fun x => x.sub == b && x.suspect).map Row.row

/-- Failing rows of sub-dataset b (R332). -/
def ReadDs.failing (r : ReadDs) (b : Nat) : List Nat :=
  (List.range 128).filter fun i => !(r.rows.any fun x => x.sub == b && x.row == i)

/-- Failing rows of the worst sub-dataset. -/
def ReadDs.worst (r : ReadDs) : Nat := maxOf 0 ((List.range 16).map fun b => (r.failing b).length)

/-- One column of sub-dataset b corrected: suspect rows as valid first, then as erasures. -/
def ReadDs.column (r : ReadDs) (b c : Nat) : Option (List Nat) :=
  match c2Column (r.subRows b) [] c with
  | some x => some x.1
  | none => (c2Column (r.subRows b) (r.suspects b) c).map Prod.fst

/-- The 210,112 data bytes of sub-dataset b, when every column decodes. -/
def ReadDs.subData (r : ReadDs) (b : Nat) : Option (List Byte) :=
  ((List.range rowBytes).mapM fun c => r.column b c).map fun cols =>
    (List.range 112).flatMap fun i => cols.map fun col => BitVec.ofNat 8 (col.getD i 0)

/-- The user area, when every sub-dataset is recovered. -/
def ReadDs.recover (r : ReadDs) : Option (List Byte) := ((List.range 16).mapM r.subData).map List.flatten

/-- A dataset with every row accepted and none suspect. -/
def ReadDs.whole (r : ReadDs) : Bool :=
  ((List.range 16).all fun b => (r.failing b).isEmpty) && !(r.rows.any Row.suspect)

/-- Its user area, read off its data rows. -/
def ReadDs.direct (r : ReadDs) : List Byte :=
  (List.range 16).flatMap fun b => ((r.subRows b).take 112).flatMap fun x => x.getD []

/-! ## Step 2: outer soft product rounds (R337) -/

/-- Stored-LLR rows of sub-dataset b, fewest unsatisfied checks first. -/
def ReadDs.ranked (r : ReadDs) (b : Nat) : List Stored :=
  let rec ins (x : Stored) : List Stored → List Stored
    | [] => [x]
    | y :: ys => if x.unsat < y.unsat then x :: y :: ys else y :: ins x ys
  (r.stored.filter fun k => k.sub == b).foldr ins []

/-- Hard decisions of a row's current posteriors: its bytes 12 to 1,887. -/
def tentative (k : Stored) : List Byte := slice (payloadOf (toBlocks k.post)) 12 rowBytes

/-- Columns of sub-dataset b decoded with the tentative rows as data: the corrected column, where it succeeds. -/
def ReadDs.outerColumns (r : ReadDs) (b : Nat) (t : List Stored) : List (Option (List Nat)) :=
  let rows := (List.range 128).map fun i =>
    match t.find? fun k => k.row == i with
    | some k => some (tentative k)
    | none => (r.subRows b).getD i none
  (List.range rowBytes).map fun c => (c2Column rows [] c).map Prod.fst

/-- Bits of row i that the decoded columns pin, and the LLRs it enters with. -/
def pinnedRow (llr : List Int) (cols : List (Option (List Nat))) (i : Nat) : List Bool × List Int :=
  let at_ := fun n : Nat => if n < 96 then none else ((cols.getD (n / 8 - 12) none).map fun c => (c.getD i 0).testBit (7 - n % 8))
  ((List.range 16384).map fun n => (at_ n).isSome,
   (List.range 16384).map fun n => match at_ n with | some true => -31 | some false => 31 | none => llr.getD n 0)

/-- The re-decoding of failing row i of sub-dataset b: the accepted row, or its new posteriors. -/
def outerRow (s : State) (r : ReadDs) (b i : Nat) (cols : List (Option (List Nat))) : ReadDs × Bool :=
  let llr := match r.stored.find? fun k => k.sub == b && k.row == i with | some k => k.llr | none => []
  let p := pinnedRow llr cols i
  let d := c1Decode (setN s 0x2129 3) 1280 (2 * (decodeSettings s).2.1) 0 p.1 p.2
  let good := d.ok && (match segHeadOf (payloadOf d.post) with
    | some h => h.wrap == r.wrap && h.seq == r.seq && h.sub == b && h.row == i && h.type != 2 && h.type != 3
    | none => false)
  if good then (r.addRow { sub := b, row := i, bytes := slice (payloadOf d.post) 12 rowBytes }, true)
  else
    ({ r with stored := r.stored.map fun k => if k.sub == b && k.row == i then { k with post := d.post.flatten } else k }, false)

/-- One round of one sub-dataset: the dataset after it, and whether a row was accepted. -/
def outerSub (s : State) (r : ReadDs) (b : Nat) : ReadDs × Bool :=
  let f := r.failing b
  let fl := r.ranked b
  let k := min fl.length (f.length - 12)
  if f.length ≤ 16 || f.length > k + 16 || (r.subData b).isSome then (r, false)
  else
    let cols := r.outerColumns b (fl.take k)
    if cols.all Option.isNone then (r, false)
    else f.foldl (fun a i => let n := outerRow s a.1 b i cols; (n.1, a.2 || n.2)) (r, false)

/-- One round over the 16 sub-datasets: the dataset after it, and whether a row was accepted. -/
def outerRound (s : State) (r : ReadDs) : ReadDs × Bool :=
  (List.range 16).foldl (fun a b => let x := outerSub s a.1 b; (x.1, a.2 || x.2)) (r, false)

/-- Step 2 on a dataset that step 1 left unrecovered: it, the rounds run, and its user area when recovered. A round begins with step 1 on
the sub-datasets that have come to at most 16 failing rows (R337). -/
def outerRounds (s : State) : Nat → Nat → ReadDs → ReadDs × Nat × Option (List Byte)
  | 0, n, r => (r, n, none)
  | fuel + 1, n, r =>
    if r.recover.isSome then (r, n + 1, r.recover)
    else
      let a := outerRound s r
      if a.2 then outerRounds s fuel (n + 1) a.1 else (a.1, n + 1, none)

/-- Steps 1 and 2 on a dataset. -/
def steps12 (s : State) (limit : Nat) (r : ReadDs) : ReadDs × Nat × Option (List Byte) :=
  if r.recover.isSome then (r, 0, r.recover) else outerRounds s limit 0 r

/-- Steps 1 and 2 run on dataset (p, q): rounds counted, rows merged, and the user area if it is recovered; whether step 2
was needed. -/
def runSteps (s : State) (p q : Nat) : State × Option (List Byte) × Bool :=
  match readOf s p q with
  | none => (s, none, false)
  | some r =>
    let a := steps12 s (setN s 0x212A 2) r
    let s := modRead s p q fun _ => a.1
    (trimPool6 { s with rc.rounds := satAdd 65535 s.rc.rounds a.2.1 } p q, a.2.2, decide (a.2.1 > 0))

/-! ## Ends of recovery (R346, R347, R354) -/

/-- CD.RCVLAST shows a dataset (Table 11.9). -/
def noteLast (s : State) (p q step : Nat) : State :=
  match readOf s p q with
  | none => s
  | some r => { s with rc.lastStep := step, rc.lastPass := r.pass, rc.lastRows := min 255 r.worst, rc.lastSeq := q % 65536 }

/-- The tape settings that a ladder pass changed return to their values (R340). -/
def endPass (s : State) : State := restoreKept { s with sv.headOffset := 0, ce.tScale := 100, rc.passNo := 0 }

/-- The ladder or span read that owned the transport is over: its buffers go, tape stops (R340, R345). -/
def closeLadder (s : State) : State :=
  let s := match s.rc.span with | some sp => releaseAll s sp.bufs clsRcv | none => s
  relocate (endPass { s with rc.ladder := none, rc.span := none, ce.vtarget := 0, ce.posmode := false })

/-- A dataset is recovered by a step: its user area stands ready for stage 2 (R336, R339, R345, R354). -/
def recovered (s : State) (p q step : Nat) (user : List Byte) (byC3 : Bool) : State :=
  let s := noteLast s p q step
  let s := modRead s p q fun r => { r with step, user := some user, rebuilt := byC3, recovered := decide (step ≥ 3), stored := [] }
  let s := trimPool6 s p q
  match step with
  | 1 => { s with rc.step1 := satAdd 65535 s.rc.step1 1 }
  | 2 => { s with rc.step2 := satAdd 65535 s.rc.step2 1 }
  | 3 => { s with rc.step3 := satAdd 65535 s.rc.step3 1 }
  | _ => { s with rc.step4 := satAdd 65535 s.rc.step4 1 }

/-- Detail 2 of MEDIA_UNRECOVERED (Table 11.4). -/
def detail2 (step pass reason missing rows : Nat) : Nat :=
  step % 8 + 8 * (pass % 8) + 256 * (reason % 16) + 4096 * min 15 missing + 65536 * min 255 rows

/-- Recovery fails: commands that wait end with a status; the read dataset and its pool 6 buffers go (R347). -/
def failRecovery (s : State) (p q st step reason missing : Nat) : State :=
  match readOf s p q with
  | none => s
  | some r =>
    let s := noteLast s p q step
    let s := if st = stMediaUnrecovered then countFailed s else s
    let d := if st = stMediaUnrecovered then detail2 step r.pass reason missing r.worst else 0
    leaveRun (failVisit s p q st d) p q

/-! ## Step 3: the retry ladder (R339 to R342) -/

/-- What changes for pass n (Table 11.2): speed index, head offset, tension, the default column; the locate goes to the dataset, or to the
first of its span, on its own wrap. -/
def beginPass (s : State) (n : Nat) : State :=
  let idx := if n = 1 then 12 else if n ≤ 4 then 4 else 0
  let o : Int := setN s 0x212A 6
  let wrap := match s.rc.ladder with | some (p, q) => ((readOf s p q).map ReadDs.wrap).getD s.rc.wrap | none => s.rc.wrap
  let s := { s with
    sv.headOffset := (if n = 3 then o else if n = 4 then -o else 0),
    ce.tScale := (if n = 6 then 115 else 100), rc.passNo := n, rc.kept := (if n = 5 then s.rc.fes else []),
    rc.wrap := wrap, rcl.misses := 0, ce.owner := 3 }
  match sought s with
  | some (p, q) => seek s p q (speedMmps idx)
  | none => relocate s

/-- The first parity dataset from SEQ f on whose fellow is on tape too: P0 of the span that begins with f (R260, R343). -/
def parityFrom (ts : List TapeDs) (f : Nat) : Option Nat :=
  let par := (ts.filter fun t => t.ds.kind == .parity).map fun t => t.ds.seq
  (par.filter fun q => decide (f ≤ q)).foldl (fun b q =>
    if par.contains (q + 1) then some (match b with | some a => min a q | none => q) else b) none

/-- A closed span that dataset q belongs to: SPANFIRST and the number of data members. SPANFIRST is read from a surviving data member,
else it follows the previous span's P1; m is P0's SEQ less SPANFIRST (R262, R343). -/
def spanOf (s : State) (p q : Nat) : Option (Nat × Nat) :=
  match partOf s p with
  | none => none
  | some x =>
    let ts := copiesIn s x.num
    let covers := fun f : Nat => match parityFrom ts f with | some e => decide (f ≤ q ∧ q ≤ e + 1) | none => false
    let member := ts.find? fun t => t.complete && t.ds.kind != .parity && t.ds.seq != q && covers t.ds.spanFirst
    let before := maxOf 0 ((ts.filter fun t => t.ds.kind == .parity && t.ds.seq < q &&
      ts.any fun u => u.ds.kind == .parity && u.ds.seq + 1 == t.ds.seq).map fun t => t.ds.seq + 1)
    let f := match member with | some t => t.ds.spanFirst | none => before
    match parityFrom ts f with
    | some e => if f ≤ q ∧ q ≤ e + 1 then some (f, e - f) else none
    | none => none

/-- Step 4 begins once both its pool 6 buffers are there: the span is read at speed index 12; until then it waits (R160, R344, R345). -/
def startSpan (s : State) (p q : Nat) : State :=
  match spanOf s p q with
  | none => s
  | some (f, m) =>
    let a := unitAllocN s 6 clsRcv 2 []
    match a.1 with
    | none => a.2
    | some bufs =>
      beginPass { a.2 with
        rc.span := some { part := p, seq := q, first := f, count := m, bufs, s0 := zeros userBytes, s1 := zeros userBytes } } 1

/-- A span read that waits for its buffers. -/
def resumeSpan (s : State) : State :=
  match s.rc.ladder, s.rc.span with
  | some (p, q), none => if (readOf s p q).any fun r => r.step == 4 then startSpan s p q else s
  | _, _ => s

/-- The ladder has run its passes without success: SERVO_LOST, reason 8, or step 4 begins; whether the recovery is over (R334, R342,
R343) (log 66). -/
def ladderOver (s : State) (p q : Nat) : State × Bool :=
  match readOf s p q with
  | none => (s, true)
  | some r =>
    if r.pass > 0 ∧ !r.heldServo then (failRecovery s p q stServoLost 3 0 0, true)
    else if r.headerFail then (failRecovery s p q stMediaUnrecovered 3 8 0, true)
    else
      let why := fun n : Nat => if r.limited then 3 else n
      if setN s 0x212A 4 ≠ 1 then (failRecovery s p q stMediaUnrecovered 3 (why 2) 0, true)
      else if (spanOf s p q).isNone then (failRecovery s p q stMediaUnrecovered 3 (why 1) 0, true)
      else
        let s := noteLast (modRead s p q fun r => { r with step := 4 }) p q 4
        (startSpan { s with ce.vtarget := 0, ce.posmode := false } p q, false)

/-- The time since a dataset entered step 3 exceeds the limit (R341). -/
def timeOver (s : State) (r : ReadDs) : Bool := decide (s.now > r.step3At + msCycles * setN s 0x212A 3)

/-- No pass is begun any more: all have been run, or the time is over (R341). -/
def ladderSpent (s : State) (r : ReadDs) : Bool := decide (r.pass ≥ setN s 0x212A 1) || r.limited || timeOver s r

/-- The next pass, or the end of the ladder; whether the recovery is over (R341). -/
def nextPass (s : State) (p q : Nat) : State × Bool :=
  match readOf s p q with
  | none => (s, true)
  | some r =>
    if ladderSpent s r then
      let late := decide (r.pass < setN s 0x212A 1)
      ladderOver (modRead s p q fun r => { r with limited := r.limited || late }) p q
    else (beginPass s (r.pass + 1), false)

/-- The transport goes to the next dataset that waits for its ladder, or back to the recall batch (R339, R375); while Lodestar restarts
that waits (R497). -/
def startLadders : Nat → State → State
  | 0, s => s
  | fuel + 1, s =>
    if s.rc.ladder.isSome || s.glb.restarting.isSome then s
    else match s.rc.reads.find? fun r => r.step == 3 && r.user.isNone && !r.decoded with
      | none => { s with ce.owner := if s.rcl.batch.isSome then 2 else 0 }
      | some r =>
        let a := nextPass { s with rc.ladder := some (r.part, r.seq), ce.owner := 3 } r.part r.seq
        if a.2 then startLadders fuel (closeLadder a.1) else a.1

/-- Read recovery of one dataset gives the transport up. -/
def leaveLadder (s : State) : State := startLadders (s.rc.reads.length + 1) (closeLadder s)

/-- A ladder pass that a restart of Lodestar cuts short: tape stops, and the pass waits to be repeated (R497). -/
def cutPass (s : State) : State := { endPass s with rcl.ending := false, ce.vtarget := 0, ce.posmode := false, ce.vafter := 0 }

/-- After a restart of Lodestar: the pass it cut short is repeated, a span read too, and ladders that wait begin (R497, R498). -/
def resumeLadders (s : State) : State :=
  match s.rc.ladder with
  | some (p, q) =>
    let s := { s with rcl.ending := false }
    if s.rc.span.isSome then beginPass s 1
    else match readOf s p q with
      | some r => if r.step = 4 then startSpan s p q else beginPass s (r.pass + 1)
      | none => s
  | none =>
    if s.rcl.run.isEmpty && !s.rcl.ending && s.rc.reads.any (fun r => r.step == 3 && r.user.isNone && !r.decoded) then
      startLadders (s.rc.reads.length + 1) s
    else s

/-- The head has come to the end of a dataset: a run that was to end at the next boundary ends, and a ladder that waits begins; a pass
that a restart of Lodestar ends there ends (R339, R376, R497). -/
def boundary (s : State) : State :=
  let s := { s with rcl.inside := false }
  if !s.rcl.ending then s
  else if s.rc.ladder.isSome then cutPass s
  else startLadders (s.rc.reads.length + 1) (endRun s)

/-- The head has come to the end of dataset (p, q). -/
def endOfDataset (s : State) (p q : Nat) : State := if s.rcl.under = some (p, q) then boundary s else s

/-- SEGMENT_DECODE: a slot of the next dataset tells that the head has passed a boundary; then the slot is decided. -/
def execSegmentDecode (lane : Nat) (x : SegSlot) (s : State) : Out :=
  .next (
    let next := match x.at_, s.rcl.under with | some (q, _), some (_, u) => q != u | _, _ => false
    segmentDecodeS (if next then boundary s else s) lane x none)

/-- DECODER_BUDGET_EXHAUSTED: the attempts that remain for the oldest segment are abandoned; where none before them was accepted, its row
becomes an erasure (R321). Recovery passes have no budget (R340). -/
def execDecoderBudgetExhausted (x : LateSlot) (s : State) : Out :=
  .next (if s.rc.ladder.isSome then s else segmentDecodeS s x.lane x.slot (some x.tries))

/-- A dataset enters the ladder: the recall run ends at the next dataset boundary, and the passes begin; where the head is within no
other dataset, at once (R339, R375, R376). -/
def enterLadder (s : State) (p q : Nat) : State :=
  let s := noteLast (modRead s p q fun r => { r with step := 3, pass := 0, step3At := s.now, heldServo := false, limited := false }) p q 3
  if s.rc.ladder.isSome then s
  else if s.rcl.inside && (s.rcl.ending || !s.rcl.run.isEmpty) then { s with rcl.run := [], rcl.ending := true }
  else startLadders (s.rc.reads.length + 1) (endRun s)

/-! ## The members of a span read (R344, R345) -/

/-- SEQ of position i. -/
def SpanRead.seqOf (sp : SpanRead) (i : Nat) : Nat := if i < 30 then sp.first + i else sp.first + sp.count + (i - 30)

/-- The positions of a span with m data members: 0 to m - 1, P0 and P1. -/
def spanPositions (m : Nat) : List Nat := List.range m ++ [30, 31]

/-- A member's user area is added to the two syndromes (R345). -/
def SpanRead.add (sp : SpanRead) (i : Nat) (user : List Byte) : SpanRead :=
  let k := gfExp (31 - i)
  { sp with
    s0 := List.zipWith (fun a b => a ^^^ b) sp.s0 user,
    s1 := List.zipWith (fun (a b : Byte) => a ^^^ BitVec.ofNat 8 (gfMul b.toNat k)) sp.s1 user,
    done := sp.done ++ [i] }

/-- A member read in the span read goes through steps 1 and 2 and, when recovered, into the syndromes; a buffer nothing
else needs goes back (R344, R345). -/
def takeMember (s : State) (i : Nat) : State :=
  match s.rc.span with
  | none => s
  | some sp =>
    let q := sp.seqOf i
    if sp.done.contains i || (partOf s sp.part).any (fun x => x.abandoned.contains q) then s
    else match readOf s sp.part q with
      | none => s
      | some r =>
        let got := match r.user with | some u => some u | none => if r.whole then some r.direct else none
        let a : State × Option (List Byte) := match got with
          | some u => (s, some u)
          | none => let a := runSteps s sp.part q; (a.1, a.2.1)
        match a.2 with
        | none => a.1
        | some u =>
          let s := { a.1 with rc.span := some (sp.add i u) }
          if q = sp.seq then modRead s sp.part q fun r => { r with user := some u }
          else if s.rcl.visits.any fun v => v.isFor sp.part q then modRead s sp.part q fun r => { r with user := some u }
          else dropRead s sp.part q

/-- The position of a dataset in the span being read. -/
def memberAt (s : State) (p q : Nat) : Option Nat :=
  match s.rc.span with
  | some sp => if sp.part = p then (spanPositions sp.count).find? fun i => sp.seqOf i == q else none
  | none => none

/-- RECOVERY_ENTRY: the dataset's slots and trailer have been read; steps 1 and 2 run on what is in staging. A member of the span being
read goes into the syndromes; a sought dataset of which no copy was met is a miss of its locate (R332, R333, R336, R337, R344, R345,
R368). -/
def recoveryEntryS (s : State) (p q : Nat) : State :=
  let s := endOfDataset (openRead s p q) p q
  match readOf s p q with
  | none => s
  | some r =>
    match memberAt s p q with
    | some i => takeMember s i
    | none =>
      if r.whole || r.step != 0 || r.decoded then s
      else if r.rows.isEmpty && s.rcl.run.head? == some (p, q) then locateMiss s
      else
        let a := runSteps (modRead s p q fun r => { r with step := 1 }) p q
        match a.2.1 with
        | some u => recovered a.1 p q (if a.2.2 then 2 else 1) u false
        | none => enterLadder a.1 p q

/-- RECOVERY_ENTRY. -/
def execRecoveryEntry (part seq : Nat) (s : State) : Out := .next (recoveryEntryS s part seq)

/-- LADDER_PASS_DONE: steps 1 and 2 run again on the merged rows; the ladder ends with success, or after its last pass, or
once its time is over, else the next pass begins. A pass that did not locate the dataset is one that accepted no row (R339, R341,
R342). -/
def ladderPassDoneS (s : State) (p q : Nat) (servoHeld : Bool) : State :=
  if s.rc.ladder ≠ some (p, q) ∨ s.rc.span.isSome ∨ (readOf s p q).any (fun r => r.step == 4) ∨ s.glb.restarting.isSome then s
  else
    let s := endPass (modRead s p q fun r => { r with pass := r.pass + 1, heldServo := r.heldServo || servoHeld })
    let a := runSteps s p q
    match a.2.1 with
    | some u => leaveLadder (recovered a.1 p q 3 u false)
    | none =>
      let a := nextPass (noteLast a.1 p q 3) p q
      if a.2 then leaveLadder a.1 else a.1

/-- LADDER_PASS_DONE. Whether the dataset was located makes no difference beside its rows (R342). -/
def execLadderPassDone (part seq : Nat) (servoHeld : Bool) (_located : Bool) (s : State) : Out :=
  .next (ladderPassDoneS s part seq servoHeld)

/-- RECOVERY_TIME_LIMIT_EXPIRY: the pass in progress is completed and no further one begins (R341). -/
def execRecoveryTimeLimitExpiry (part seq : Nat) (s : State) : Out :=
  .next (match readOf s part seq with
    | some r =>
      if r.step = 3 ∧ r.user.isNone ∧ timeOver s r then
        modRead s part seq fun r => { r with limited := true }
      else s
    | none => s)

/-! ## Step 4: C3 span rebuild (R343 to R345) -/

/-- The missing members rebuilt from the syndromes: position and user area; none when the check fails (R345). -/
def SpanRead.rebuild (sp : SpanRead) : List Nat → Option (List (Nat × List Byte))
  | [] => some []
  | [a] =>
    let k := gfExp (31 - a)
    if (List.zipWith (fun (x y : Byte) => gfMul x.toNat k == y.toNat) sp.s0 sp.s1).all id then some [(a, sp.s0)] else none
  | [a, b] =>
    let ka := gfExp (31 - a)
    let kb := gfExp (31 - b)
    let inv := gfInv (ka ^^^ kb)
    let yb := List.zipWith (fun (x y : Byte) => BitVec.ofNat 8 (gfMul (y.toNat ^^^ gfMul ka x.toNat) inv)) sp.s0 sp.s1
    some [(a, List.zipWith (fun (x y : Byte) => x ^^^ y) sp.s0 yb), (b, yb)]
  | _ => none

/-- The data members that C3 rebuilt besides the target are reallocated too (Table 11.3). -/
def reallocRebuilt (s : State) (p target : Nat) (sp : SpanRead) (xs : List (Nat × List Byte)) : State :=
  xs.foldl (fun s x =>
    if x.1 ≥ 30 ∨ sp.seqOf x.1 = target then s
    else match parseDataset x.2 with
      | some ds => if headersOk s p (sp.seqOf x.1) ds then startRealloc s p (sp.seqOf x.1) ds else s
      | none => s) s

/-- Read datasets of the span that no visit needs are given up. -/
def dropSpanReads (s : State) (sp : SpanRead) : State :=
  (spanPositions sp.count).foldl (fun s i =>
    let q := sp.seqOf i
    if q = sp.seq ∨ (s.rcl.visits.any fun v => v.isFor sp.part q) then s else dropRead s sp.part q) s

/-- SPAN_READ_DONE: the missing members are counted; with at most two they are rebuilt, the target or others; with more the span is read
once more, and then the commands end (R344, R345, R354). -/
def spanReadDoneS (s : State) (p q : Nat) (servoHeld : Bool) : State :=
  match s.rc.span with
  | none => s
  | some sp =>
    if sp.part ≠ p ∨ sp.seq ≠ q ∨ s.glb.restarting.isSome then s
    else
      let s := modRead s p q fun r => { r with spanReads := r.spanReads + 1, spanLost := r.spanLost + b2n (!servoHeld) }
      let s := (spanPositions sp.count).foldl takeMember s
      match s.rc.span, readOf s p q with
      | some sp, some r =>
        let missing := (spanPositions sp.count).filter fun i => !sp.done.contains i
        let t := q - sp.first
        let at_ := if t < sp.count then t else 30 + (t - sp.count)
        if missing.length ≤ 2 then
          match sp.rebuild missing, (if missing.contains at_ then none else r.user) with
          | none, none => leaveLadder (dropSpanReads (failRecovery s p q stMediaUnrecovered 4 5 missing.length) sp)
          | xs, got =>
            let xs := xs.getD []
            let u := match xs.find? fun x => x.1 == at_ with | some x => x.2 | none => got.getD []
            let s := recovered (modRead s p q fun r => { r with missing := missing.length }) p q 4 u (missing.contains at_)
            let s := { s with rc.step4 := satAdd 65535 s.rc.step4 (xs.countP fun x => x.1 != at_) }
            leaveLadder (dropSpanReads (reallocRebuilt s p q sp xs) sp)
        else if r.spanReads < 2 then beginPass s 2
        else if r.spanLost ≥ 2 then leaveLadder (dropSpanReads (failRecovery s p q stServoLost 4 0 missing.length) sp)
        else leaveLadder (dropSpanReads (failRecovery s p q stMediaUnrecovered 4 4 missing.length) sp)
      | _, _ => leaveLadder s

/-- SPAN_READ_DONE. -/
def execSpanReadDone (part seq : Nat) (servoHeld : Bool) (s : State) : Out := .next (spanReadDoneS s part seq servoHeld)

/-! ## Stage 2 (R185, R334) -/

/-- A dataset whose headers fail stage 2: back to the ladder with no row kept, or the end (R334, R345). -/
def headerFailed (s : State) (p q : Nat) (r : ReadDs) : State :=
  let s := modRead s p q fun r => { r with recheck := false }
  if r.rebuilt then failRecovery s p q stMediaUnrecovered 4 5 r.missing
  else if r.headerFail then failRecovery s p q stMediaUnrecovered 3 6 0
  else
    let mine := fun j : ChainJob => j.part == p && j.seq == q
    let s := releaseAll (releaseAll s r.outBufs clsQeOut) ((s.cx.chains.filter mine).flatMap ChainJob.bufs) clsCxd
    let s := { s with cx.chains := s.cx.chains.filter fun j => !mine j }
    let s := modRead s p q fun r => { r with
      headerFail := true, rows := [], flagged := [], stored := [], user := none, outs := [], outBufs := [], bad := [], tagOk := [] }
    enterLadder (trimPool6 s p q) p q

/-- Datasets whose headers failed a command that had joined them after decoding (R185, R334). -/
def recheckHeads (s : State) : State :=
  (s.rc.reads.filter ReadDs.recheck).foldl (fun s r => headerFailed s r.part r.seq r) s

/-- A dataset header read gives the position map an entry for a SEQ that has none (R367). -/
def mapHome (s : State) (p q : Nat) (ds : Dataset) : State :=
  match ds.home with
  | some h => if s.fm.posMap.any fun e => e.1 == p && e.2.1 == q then s else mapPosition s p q h.1 h.2 false
  | none => s

/-- DATASET_DECODED: the user area is complete, its headers are checked, and its records go on to the read pipeline; a
data dataset that used step 3 or 4 is reallocated; a member of the span being read goes into its syndromes (R185, R334, R345, R348). -/
def datasetDecodedS (s : State) (p q : Nat) : State :=
  let s := endOfDataset s p q
  let s := match memberAt s p q with | some i => takeMember s i | none => s
  match (if s.rc.ladder = some (p, q) then none else readOf s p q) with
  | none => s
  | some r =>
    let user := match r.user with | some u => some u | none => if r.whole then some r.direct else none
    match user with
    | none => s
    | some u =>
      if r.decoded then s
      else match parseDataset u with
        | none => headerFailed s p q r
        | some ds =>
          if ds.part ≠ p ∨ ds.seq ≠ q ∨ !headersOk s p q ds then headerFailed s p q r
          else
            let s := leaveRun (decodedS (mapHome s p q ds) p q ds) p q
            let s := if r.recovered && ds.kind == .checkpoint then modPart s p fun x => { x with baseNext := true } else s
            let s := if r.recovered then startRealloc s p q ds else s
            closeVisit s p q

/-- DATASET_DECODED. -/
def execDatasetDecoded (part seq : Nat) (s : State) : Out := .next (datasetDecodedS s part seq)

end Sys2Proof.Machine
end

