-- ==== Sys2Proof/Machine/RecallSched.lean ====
section
/-! DEFINITION. The recall scheduler: runs, their times and scores, batches, aging, hints (R369 to R379). Times are held in
microseconds; quotients and roots are rounded down (log 18). -/

namespace Sys2Proof.Machine

/-! ## Time of a locate (R369) -/

/-- L(D) for a distance of d micrometres. -/
def locateTime (s : State) (d : Nat) : Nat :=
  let v := setN s 0x212C 4
  let a := accelLimit s
  if d * a ≥ v * v * 1000 then d * 1000 / v + v * 1000000 / a else 2 * Nat.sqrt (d * 1000000000 / a)

/-- t_run, with the read speed of 8.00 m/s. -/
def runUpTime (s : State) : Nat := 8000 * 1000000 / accelLimit s + setN s 0x2124 7 * 1000000 / 8000

/-- Run-up distance to the read speed plus the margin, in LPOS (R368). -/
def preDist (s : State) : Nat := (8000 * 8000 / (2 * accelLimit s) + setN s 0x2124 7) * 5

/-- The wrap the head is on. -/
def headWrap (s : State) : Nat := 96 * s.sv.band + s.sv.widx

/-- T: the time to the start of reading a wrap at an LPOS. -/
def timeTo (s : State) (wrap lpos : Nat) : Nat :=
  let pre : Int := if isForward wrap then (lpos : Int) - preDist s else lpos + preDist s
  let d := (pre - s.sv.lpos).natAbs * 200
  let h := headWrap s
  let bands := ((bandOf wrap : Int) - bandOf h).natAbs
  let lat := if bands > 0 then bands * 150000 else if wrap = h then 0 else 3000
  max (locateTime s d) lat + runUpTime s

/-! ## Runs (R370) -/

/-- The order of visits along the tape: partition, wrap, SEQ. -/
def visitBefore (a b : Visit) : Bool :=
  decide (a.part < b.part) || (a.part == b.part && (decide (a.wrap < b.wrap) || (a.wrap == b.wrap && decide (a.seq < b.seq))))

/-- A visit put in its place. -/
def insVisit (v : Visit) : List Visit → List Visit
  | [] => [v]
  | w :: r => if visitBefore v w then v :: w :: r else w :: insVisit v r

/-- Sorted visits cut where a gap of more than g datasets, another wrap or another partition begins. -/
def splitRuns (g : Nat) : List Visit → List (List Visit)
  | [] => []
  | v :: r =>
    match splitRuns g r with
    | (w :: ws) :: rs =>
      if v.part = w.part ∧ v.wrap = w.wrap ∧ w.seq ≤ v.seq + 1 + g then (v :: w :: ws) :: rs else [v] :: (w :: ws) :: rs
    | rs => [v] :: rs

/-- A visit's dataset is still to be read: it is not decoded, on its way to be, or in read recovery (R370, R376, R379). -/
def toFetch (s : State) (v : Visit) : Bool :=
  (readOf s v.part v.seq).all fun r => !r.decoded && r.user.isNone && r.step == 0 && !r.whole

/-- The pending runs. -/
def runsOf (s : State) : List (List Visit) :=
  splitRuns (setN s 0x212B 7) ((s.rcl.visits.filter (toFetch s)).foldr insVisit [])

/-- Visits of a run that commands need. -/
def needed (r : List Visit) : List Visit := r.filter fun v => !v.cmds.isEmpty

/-- T of a run. -/
def runTime (s : State) (r : List Visit) : Nat := match r with | v :: _ => timeTo s v.wrap v.lpos | [] => 0

/-- Most urgent priority of a run. -/
def runPrio (r : List Visit) : Nat := r.foldl (fun a v => min a v.prio) 3

/-- Admission of a run's oldest command; now for one of hints alone. -/
def runSince (s : State) (r : List Visit) : Nat := (needed r).foldl (fun a v => min a v.since) s.now

/-- S of a run, in microseconds (R372). -/
def runScore (s : State) (r : List Visit) : Int :=
  let age : Int := ((s.now - runSince s r) / 216 : Nat)
  runTime s r - 1000 * setI s 32 0x212B (3 + runPrio r) - setN s 0x212B 2 * age / 16

/-- A hint-only run is eligible only within the hint cost limit (R379). -/
def eligible (s : State) (r : List Visit) : Bool :=
  !(needed r).isEmpty || decide (runTime s r ≤ setN s 0x212B 10 * 1000)

/-- Run a is selected before run b (R372). -/
def runBefore (s : State) (a b : List Visit) : Bool :=
  let x := runScore s a
  let y := runScore s b
  decide (x < y) || (x == y && (decide (runTime s a < runTime s b) ||
    (runTime s a == runTime s b && decide (runSince s a < runSince s b))))

/-- The run the scheduler selects: the one with the oldest aged visit, else the one of lowest score (R372, R373). -/
def selectRun (s : State) : Option (List Visit) :=
  let rs := (runsOf s).filter (eligible s)
  let aged := (s.rcl.visits.filter fun v => v.aged && !v.cmds.isEmpty && toFetch s v).foldl
    (fun (b : Option Visit) v => match b with | some w => if v.since < w.since then some v else b | none => some v) none
  match aged with
  | some v => rs.find? fun r => r.any fun w => w.isFor v.part v.seq
  | none => rs.foldl (fun b r => match b with | some q => if runBefore s r q then some r else b | none => some r) none

/-! ## Batches (R375) -/

/-- A batch is over: no visit but of hints is left, its time is up, or pool 0 runs short. -/
def batchOver (s : State) : Bool :=
  match s.rcl.batch with
  | none => false
  | some t =>
    (s.rcl.visits.all fun v => v.cmds.isEmpty) || elapsed s t (setN s 0x212B 9) ||
      decide (4 * (poolOf s 0).freeCount < (poolOf s 0).total)

/-- The transport is given up by recall. -/
def endBatch (s : State) : State :=
  endRun { s with rcl.batch := none, ce.owner := (if s.ce.owner = 2 then 0 else s.ce.owner), ce.vtarget := 0, ce.posmode := false }

/-- The tape may serve recall now: a cartridge is mounted and no media operation moves it, nothing holds motion, the
transport is free (R375). -/
def recallMay (s : State) : Bool :=
  (s.media.mount == 1 || s.media.mount == 2) && !s.ce.media && s.rc.ladder.isNone && s.rcl.run.isEmpty && !s.rcl.ending && mayMove s &&
    s.glb.restarting.isNone && (s.fw.holdAt.isNone || s.rcl.batch.isSome) && (s.fm.wstate == 0 || s.fm.wstate == 6)

/-- Commands that wait on tape end with the status of a fault that tape commands meet (Table 17.1). -/
def failVisits (s : State) (st : Nat) : State :=
  s.rcl.visits.foldl (fun s v => if v.cmds.isEmpty then s else endVisit s v.part v.seq st) s

/-- A run is taken up: locate, and the reverse direction of a band is calibrated at its first access (R368, R374,
R524). -/
def startRun (s : State) (r : List Visit) : State :=
  match r with
  | [] => s
  | v :: _ =>
    seekRun { revCalibrate s v.wrap with
      rcl.batch := some (s.rcl.batch.getD s.now), rcl.preempt := false, rcl.misses := 0, rcl.servoTries := 0, rcl.ending := false,
      rcl.run := r.map fun w => (w.part, w.seq), rc.wrap := v.wrap, ce.owner := 2 }

/-- Readers leave the visits whose bytes can be served from staging by now (R376). -/
def trimAll (s : State) : State := s.qe.cmds.foldl (fun s c => trimVisits s c.id) s

/-- RECALL_RUN_SELECT: with the transport free, the scheduler selects a run; a priority 0 visit asks the writer to give the
transport up (R372 to R375). -/
def recallRunSelectS (s : State) : State :=
  let s := trimAll s
  if s.rcl.visits.isEmpty && s.rcl.batch.isNone then s
  else if batchOver s && s.rcl.run.isEmpty && !s.rcl.ending then endBatch s
  else if !recallMay s then
    if (decide (1 ≤ s.fm.wstate) && decide (s.fm.wstate ≤ 4)) && s.rcl.batch.isNone &&
        s.rcl.visits.any fun v => !v.cmds.isEmpty && v.prio == 0 then
      { s with rcl.preempt := true }
    else s
  else match tapeFault s with
    | some st => failVisits s st
    | none => (match selectRun s with
      | some r => startRun s r
      | none => s)

/-- RECALL_RUN_SELECT. -/
def execRecallRunSelect (s : State) : Out := .next (recallRunSelectS s)

/-- RECALL_AGE_LIMIT_EXPIRY: a visit becomes aged; hint-only visits never do (R373). -/
def execRecallAgeLimitExpiry (part seq : Nat) (s : State) : Out :=
  .next { s with
    rcl.visits := s.rcl.visits.map fun v =>
      if v.isFor part seq ∧ !v.cmds.isEmpty ∧ elapsed s v.since (setN s 0x212B 1) then { v with aged := true } else v }

/-- WRITE_PREEMPTION_AGE_EXPIRY: the oldest visit has waited long enough; the writer finishes its dataset and trailer and
gives the transport up (R375). -/
def execWritePreemptionAgeExpiry (s : State) : Out :=
  .next (
    if s.rcl.batch.isNone && decide (1 ≤ s.fm.wstate ∧ s.fm.wstate ≤ 4) &&
        s.rcl.visits.any (fun v => !v.cmds.isEmpty && elapsed s v.since (setN s 0x212B 8)) then
      { s with rcl.preempt := true }
    else s)

/-- RECALL_BATCH_TIME_EXPIRY: the batch ends, a run in progress being served to its end first (R374, R375) (log 65). -/
def execRecallBatchTimeExpiry (s : State) : Out :=
  .next (match s.rcl.batch with
    | some t => if elapsed s t (setN s 0x212B 9) ∧ s.rcl.run.isEmpty ∧ !s.rcl.ending ∧ s.rc.ladder.isNone then endBatch s else s
    | none => s)

/-! ## Hints (R378, R379) -/

/-- A hint is withdrawn; a visit left with no command or hint goes, and so does what was read for it. -/
def dropHint (s : State) (id : Nat) : State :=
  match s.rcl.hints.find? fun h => h.id == id with
  | none => s
  | some h =>
    let s := { s with rcl.hints := s.rcl.hints.filter (fun g => g.id != id) }
    closeVisit (setVisits s (s.rcl.visits.map fun v =>
      if v.hints.contains id then Visit.refresh s { v with hints := v.hints.filter (· != id) } else v)) h.part h.seq

/-- HINT_EXPIRY (R378). -/
def execHintExpiry (hint : Nat) (s : State) : Out :=
  .next (match s.rcl.hints.find? fun h => h.id == hint with
    | some h => if elapsed s h.since (setN s 0x212B 11) then dropHint s hint else s
    | none => s)

end Sys2Proof.Machine
end

