-- ==== Sys2Proof/Machine/Servo.lean ====
section
/-! DEFINITION. The servo unit: frames, words, LPOS, states, the position error, channels taken out of service (R241, R355 to
R366, R492). -/

namespace Sys2Proof.Machine

/-- Channel k is retired. -/
def chRetired (s : State) (k : Nat) : Bool := s.sv.retired.getLsbD k

/-- Tape is commanded forward: as CE's speed reference says, or at rest as the wrap is read. -/
def forwardNow (s : State) : Bool := if s.ce.vref = 0 then isForward (headWrap s) else decide (s.ce.vref > 0)

/-- Servo band that channel k's reader should see (R358). -/
def bandSeen (s : State) (k : Nat) : Nat := s.sv.band + k % 2

/-- Channel k reads the trailing module. -/
def trailing (s : State) (k : Nat) : Bool := (decide (k ≥ 2)) == forwardNow s

/-- A channel's frame is valid (R357, R358). -/
def frameOk (s : State) (x : ServoCh) : Bool :=
  decide (2 ≤ x.mStripes ∧ x.mStripes ≤ 4) && x.uStripes == 4 && x.vStripes == 4 && x.forward == forwardNow s &&
    decide (0 < x.tF)

/-- Lateral position in nm, the mean of y_1 and y_2 rounded to nearest (R356, log 19). -/
def lateral (x : ServoCh) : Int :=
  let num : Int := 200000 * ((x.tVU : Int) - x.tUV) - 60000 * x.tF
  divRound (num * 100000) (2 * 28109 * x.tF)

/-- Speed in mm/s from the frame period in control-clock cycles. -/
def frameSpeed (x : ServoCh) : Nat := 43200000 / x.tF

/-- The 31 bits of a word in order of rising LPOS: index and band when the CRC-6 is right (R241, R357). -/
def wordOf (bs : List Bool) : Option (Nat × Nat) :=
  let v := fun (l : List Bool) => l.foldl (fun a b => 2 * a + b2n b) 0
  if bs.length = 31 ∧ crc6 (bs.take 25) = v (bs.drop 25) then some (v (bs.take 18), v ((bs.drop 18).take 3)) else none

/-- A marker frame on channel k ends a word: the word is accepted with the LPOS it gives the head, or rejected (R357 to
R359). -/
def endWord (s : State) (k : Nat) (c : ServoChan) : ServoChan :=
  if !c.marked then { c with marked := true, bits := [], bad := false }
  else
    let fwd := forwardNow s
    -- c.bits holds the newest frame first: the order of rising LPOS on a reverse wrap
    let w := if c.bad then none else wordOf (if fwd then c.bits.reverse else c.bits)
    let next := { c with bits := [], bad := false, alien := false }
    match w with
    | some (i, b) =>
      if b ≠ bandSeen s k then { next with worderr := satAdd 255 c.worderr 1, word := none, off := none, alien := true }
      else
        let here : Int := 32 * i + (if fwd then 32 else 0) + (if trailing s k then (if fwd then 6 else -6) else 0)
        let step : Int := if fwd then 32 else -32
        let follows := match c.word with | some p => here == p + step | none => false
        { next with bandrd := b, word := some here.toNat, fresh := true, off := if follows then some (here - s.sv.lpos) else none }
    | none => { next with worderr := satAdd 255 c.worderr 1, word := none, off := none }

/-- One channel's view of a frame. -/
def chanFrame (s : State) (k : Nat) (c : ServoChan) (x : ServoCh) : ServoChan :=
  if chRetired s k then { c with valid := false, word := none, off := none, fresh := false }
  else
    let ok := frameOk s x
    let c := { c with valid := ok, fresh := false, frames := c.frames + 1, invalid := c.invalid + b2n (!ok),
                      y := if ok then lateral x else c.y }
    if x.mStripes = 4 ∧ ok then endWord s k c
    else if !c.marked then c
    else { c with bits := decide (x.mStripes = 3) :: c.bits, bad := c.bad || !ok || decide (c.bits.length ≥ 31) }

/-- LPOS after the words of a frame: valid once two consecutive words on a channel agree, the lowest channel's where several do in one
frame and differ; a word that disagrees with the count is counted; two channels whose words agree with each other and not with the
count are adopted (R359) (log 142). -/
def settleLpos (s : State) : State :=
  let new := s.sv.ch.filterMap fun c => if c.fresh then c.word.map fun w => (w, c.off) else none
  let sure := s.sv.ch.filterMap ServoChan.off
  if !s.sv.lposOk then
    match new.filterMap fun w => w.2.map fun _ => w.1 with
    | w :: _ => { s with sv.lpos := w, sv.lposOk := true, sv.ch := s.sv.ch.map fun c => { c with off := none } }
    | [] => s
  else
    let bad := new.countP fun w => w.1 != s.sv.lpos
    let s := { s with sv.lposerr := satAdd 65535 s.sv.lposerr bad }
    match sure.find? fun d => d != 0 && decide (2 ≤ sure.count d) with
    | some d =>
      { s with sv.lpos := ((s.sv.lpos : Int) + d).toNat, sv.ch := s.sv.ch.map fun c => { c with off := none } }
    | none => s

/-- The target of R363, nm. -/
def servoTarget (s : State) : Int := 370 * s.sv.widx - 17575 + s.sv.headOffset

/-- Channels valid in the latest frame. -/
def validChans (s : State) : List ServoChan := s.sv.ch.filter ServoChan.valid

/-- The position error of the latest frame: mean of the valid channels' y less the target (R362). -/
def pesOf (s : State) : Int :=
  let v := validChans s
  divRound (v.map ServoChan.y).sum v.length - servoTarget s

/-- The hold test of Table 12.1. -/
def holdOk (s : State) : Bool :=
  decide (2 ≤ (validChans s).length) && decide ((pesOf s).natAbs ≤ setN s 0x212C 1)

/-- Words accepted on both servo bands name k and k + 1 (R366). -/
def bandConfirmed (s : State) : Bool :=
  let w := fun k => ((s.sv.ch[k]?).bind ServoChan.word).isSome
  (w 0 || w 2) && (w 1 || w 3)

/-- The instant at which a frame's V group ended, as the reader met the groups. Forward, the frame is over with the next U group, whose
middle lies t_VU behind that of its V group; in reverse, with the M stripes, whose reference lies 130 um less 8 um for each further
stripe and y tan 8 deg behind it (R355, R356, R362; log 19). -/
def vGroupEnd (s : State) (x : ServoCh) : Nat :=
  if forwardNow s then s.now - x.tVU
  else
    let nm : Int := 130000 - 8000 * ((x.mStripes : Int) - 1) - divRound (lateral x * 140545) 1000000
    s.now - (divRound (nm * x.tF) 200000).toNat

/-- A locate that has lost servo is being repeated (R361). -/
def repeating (s : State) : Bool := decide (0 < s.rcl.servoTries) || s.fm.servoTry

/-- The state machine of Table 12.1 after a frame whose V group ended at an instant, and the sample for CE (R362). A repeat that only
acquires is timed from there (R361; log 141). -/
def servoNext (s : State) (vEnd : Nat) : State :=
  let hold := holdOk s
  let sample := fun (s : State) =>
    { s with sv.pes := pesOf s, sv.pesAt := vEnd, sv.pesN := (validChans s).length, sv.pesOk := true, sv.pesAim := servoTarget s }
  match s.sv.state with
  | 0 => if s.sv.speed ≥ 500 ∧ !s.sv.moving then
      { s with sv.state := 1, sv.lostAt := if repeating s && s.sv.lostAt.isNone then some s.now else s.sv.lostAt } else s
  | 1 =>
    let s := if bandConfirmed s then { s with sv.bandOk := true, sv.confirmed := s.sv.band } else s
    if s.sv.lposOk && s.sv.bandOk && hold then sample { s with sv.state := 2, sv.coast := 0, sv.lostAt := none } else s
  | 2 => if hold then sample s else { s with sv.state := 3, sv.coast := 1, sv.pesOk := false }
  | 3 =>
    if hold then sample { s with sv.state := 2, sv.coast := 0, sv.lostAt := none }
    else { s with sv.coast := s.sv.coast + 1, sv.pesOk := false }
  | _ => { s with sv.state := 1 }

/-- The 10 s of R492 are over: a channel invalid in more than half of its frames is retired, while two others were valid
throughout (log 67). -/
def servoWindow (s : State) : State :=
  match s.sv.winAt with
  | none => { s with sv.winAt := some s.now, sv.ch := s.sv.ch.map fun c => { c with frames := 0, invalid := 0 } }
  | some t =>
    if !elapsed s t 10000 then s
    else
      let cs := s.sv.ch.zipIdx
      let bad := cs.find? fun c => !chRetired s c.2 && decide (2 * c.1.invalid > c.1.frames) &&
        decide (2 ≤ cs.countP fun d => d.2 != c.2 && !chRetired s d.2 && d.1.invalid == 0 && decide (0 < d.1.frames))
      let s := match bad with
        | some c =>
          let r := s.sv.retired ||| BitVec.ofNat 4 (2 ^ c.2)
          faultRec { s with sv.retired := r, flash.servo := r } 0x09 true c.2 0 0
        | none => s
      { s with sv.winAt := some s.now, sv.ch := s.sv.ch.map fun c => { c with frames := 0, invalid := 0 } }

/-- SERVO_FRAME (R356 to R363, R276, R442, R492). Speed and instant are taken from the first channel with a valid frame, the direction from
the first one whose U and V groups are whole (log 142). In COAST, LPOS is counted from tach instead (R360). -/
def servoFrameS (s : State) (xs : List ServoCh) : State :=
  let fwd := forwardNow s
  let lpos := if s.sv.lposOk && s.sv.state != 3 then (if fwd then s.sv.lpos + 1 else s.sv.lpos - 1) else s.sv.lpos
  let s := { s with sv.lpos := lpos }
  let chans := (s.sv.ch.zip xs).zipIdx.map fun (p : (ServoChan × ServoCh) × Nat) => chanFrame s p.2 p.1.1 p.1.2
  let reverse := match xs.find? fun (x : ServoCh) => x.uStripes == 4 && x.vStripes == 4 with
    | some x => !x.forward
    | none => s.sv.reverse
  let seen := xs.find? (frameOk s)
  let speed := match seen with | some x => frameSpeed x % 65536 | none => s.sv.speed
  let vEnd := match seen with | some x => vGroupEnd s x | none => s.now
  let s := { s with sv.ch := chans, sv.reverse := reverse, sv.speed := speed }
  let s := { s with sv.rehome := s.sv.rehome || (s.sv.state == 1 && s.sv.ch.any ServoChan.alien) }
  let s := servoNext (settleLpos (servoWindow s)) vEnd
  if s.sv.state ≠ 2 ∨ s.sv.pes.natAbs > setN s 0x4103 1 then closeGate s else s

/-- SERVO_FRAME. -/
def execServoFrame (ch0 ch1 ch2 ch3 : ServoCh) (s : State) : Out := .next (servoFrameS s [ch0, ch1, ch2, ch3])

/-- SERVO_COAST_EXPIRY: the position is lost: LOST is entered and counted, and left for ACQUIRE at once (R360). -/
def execServoCoastExpiry (s : State) : Out :=
  .next (
    if s.sv.state = 3 ∧ s.sv.coast ≥ setN s 0x212C 2 then
      { s with
        sv.state := 1, sv.loss := satAdd 65535 s.sv.loss 1, sv.lostAt := some s.now, sv.lposOk := false, sv.bandOk := false,
        sv.ch := s.sv.ch.map fun c => { c with word := none, off := none, marked := false, bits := [] } }
    else s)

/-- What the transport carries is brought to a stop along the ramp (R361). -/
def slowDown (s : State) : State := { s with ce.vtarget := 0, ce.posmode := false }

/-- CE's ramp is at rest. -/
def rampAtRest (s : State) : Bool := s.ce.vref == 0 && s.ce.aref == 0

/-- A locate that lost servo is made once more from a stop, by a recall run to its first unread dataset, by the writer to its append point
(R361). -/
def repeatLocate (s : State) : State :=
  if !rampAtRest s then s
  else if s.rcl.again then seekRun { s with rcl.again := false }
  else if s.fm.again && s.fm.wstate == 1 then
    let s := { s with fm.again := false }
    match partOf s s.fm.wpart with
    | some x =>
      goTo (aimVerifying s x.wrap) x.wrap (lposOf x.pos) (runUpMm s (speedMmps s.fm.speed) + setN s 0x2124 7) (speedMmps s.fm.speed)
    | none => s
  else s

/-- A recall run or its locate has lost servo: tape stops and it is repeated once, and then its commands end with SERVO_LOST (R361). -/
def runServoLost (s : State) : State :=
  if s.rcl.servoTries = 0 then repeatLocate (slowDown { s with rcl.servoTries := 1, rcl.again := true })
  else slowDown (endRun { s.rcl.run.foldl (fun s r => failVisit s r.1 r.2 stServoLost 0) s with rcl.servoTries := 0 })

/-- The writer has lost servo: while it locates, its locate is repeated once from a stop; else writing ends (R361). -/
def writerServoLost (s : State) : State :=
  if s.fm.wstate = 1 ∧ !s.fm.servoTry then repeatLocate (slowDown { s with fm.servoTry := true, fm.again := true })
  else interruptWriting s stServoLost

/-- SERVO_REACQUIRE_TIMEOUT: servo was not held again in time; what follows depends on the transport's owner (R361). A
ladder pass is a completed pass without a row (R342): LADDER_PASS_DONE follows. -/
def execServoReacquireTimeout (s : State) : Out :=
  .next (match s.sv.lostAt with
    | some t =>
      if s.sv.state = 2 ∨ !elapsed s t (setN s 0x212C 3) then s
      else
        let s := { s with sv.lostAt := none }
        if s.ce.owner = 1 then writerServoLost s
        else if s.ce.owner = 2 ∧ !s.rcl.run.isEmpty then runServoLost s
        else slowDown s
    | none => s)

/-- BAND_CHANGE_DONE: the coarse stepper stands on a band; SV acquires (R360, R365). -/
def execBandChangeDone (band : Nat) (s : State) : Out :=
  .next (if s.sv.moving ∧ band < 4 then 
      { s with sv.moving := false, sv.band := band, sv.bandOk := false, sv.state := 1, ce.stepNow := 2433280 * (band : Int) }
    else s)

end Sys2Proof.Machine
end

