-- ==== Sys2Proof/Machine/Motion.lean ====
section
/-! DEFINITION. Motion faults, Nightwatch's safe stop and its clear, the chopper's and the shunts' faults, the auxiliary
drivers and the robot interlock (R391 to R395, R410, R424 to R444, R485 to R488, R493). -/

namespace Sys2Proof.Machine

/-! ## Reels -/

/-- CE's record of a reel. -/
def reelOf (s : State) : Reel → ReelState
  | .supply => s.ce.sup
  | .takeup => s.ce.tkp

/-- s with a reel's record changed. -/
def modReel (s : State) (r : Reel) (f : ReelState → ReelState) : State :=
  match r with
  | .supply => { s with ce.sup := f s.ce.sup }
  | .takeup => { s with ce.tkp := f s.ce.tkp }

/-! ## The safe stop (R395, R437, R438) -/

/-- Reading stops: pending visits of commands end with a status, what is being read is given up, recall and read recovery
leave the transport. -/
def endReading (s : State) (st : Nat) : State :=
  let s := failVisits s st
  let s := match s.rc.span with | some sp => releaseAll s sp.bufs clsRcv | none => s
  let s := endRun (endPass { s with rc.ladder := none, rc.span := none, rcl.batch := none, rcl.preempt := false })
  (s.rc.reads.filter fun r => !r.decoded).foldl (fun s r => dropRead s r.part r.seq) s

/-- The writer stops in HALTED, and its commands end (R437, R586). -/
def endWriter (s : State) (st : Nat) : State :=
  if 1 ≤ s.fm.wstate ∧ s.fm.wstate ≤ 5 then endCheckpoints (interruptWriting s st) (fun _ => true) st 0 else { s with fm.wstate := 6 }

/-- The cause word of R438. -/
def causeWord (cause : Nat) (rs rt : Bool) : Nat := cause + 256 * b2n rs + 512 * b2n rt

/-- A cause is recorded in NW.CAUSE (R438). -/
def noteCause (s : State) (cause : Nat) (rs rt : Bool) : State :=
  { s with nw.cause := cause, nw.reelS := rs, nw.reelT := rt }

/-- A safe stop: from WATCH, Nightwatch takes the reels into BRAKE, or into CLAMP above the hard limit; the commands that use
tape end with MOTION_FAULT, the writer halts, the event and the fault record follow. In BRAKE only the hard limit changes
the state; in the other states a cause changes nothing (R395, R437, R438). -/
def safeStop (s : State) (cause : Nat) (rs rt : Bool) : State :=
  let s := if 1 ≤ cause ∧ cause ≤ 6 then { s with ce.cause := cause } else s
  if s.nw.inReset then s
  else if s.nw.state = 1 ∧ cause = 0x11 then { noteCause s cause rs rt with nw.state := 2, nw.causes := s.nw.causes ++ [cause] }
  else if s.nw.state ≠ 0 then s
  else
    let w := causeWord cause rs rt
    let s := { noteCause s cause rs rt with
      nw.state := (if cause = 0x11 then 2 else 1), nw.stops := satAdd 65535 s.nw.stops 1, nw.absentSince := false,
      nw.clearOkAt := none, nw.kFull := false, nw.causes := [cause], ce.safe := true,
      ce.sup.realign := s.ce.sup.realign || (cause == 0x10 && rs), ce.tkp.realign := s.ce.tkp.realign || (cause == 0x10 && rt) }
    let s := faultRec s 0x0C false noUnit w 0
    let s := setIstat (queueEvent s evSafeStop 0 0 (evParams [(20, le 4 w)])) 1
    let s := endReading (endWriter s stMotionFault) stMotionFault
    { s with ce.owner := 0, ce.vtarget := 0, ce.posmode := false }

/-- The supply bit and the take-up bit of a cause. -/
def reelBits : Reel → Bool × Bool
  | .supply => (true, false)
  | .takeup => (false, true)

/-- PLAUSIBILITY_FAULT: a reel has disagreed with the tach for the plausibility time (R392). -/
def execPlausibilityFault (reel : Reel) (s : State) : Out :=
  .next (
    if (reelOf s reel).disagree ≥ 24 * setN s 0x4200 9 then
      match reel with
      | .supply => safeStop s 1 true false
      | .takeup => safeStop s 2 false true
    else s)

/-- TENSION_LOSS: tension below the loss level, or the residual above its limit, for the loss time (R393). -/
def execTensionLoss (residual : Bool) (s : State) : Out :=
  .next (
    let n := if residual then s.ce.residRun else s.ce.lossRun
    if n ≥ 24 * setN s 0x4200 7 then safeStop s (if residual then 4 else 3) false false else s)

/-- TACH_QUADRATURE_FAULT: sixteen illegal transitions within 1 ms (R394). -/
def execTachQuadratureFault (s : State) : Out := .next (if s.ce.illegal.length ≥ 16 then safeStop s 6 false false else s)

/-- OVERCURRENT: a phase current above 9.0 A puts the reel in the zero vector for the rest of the period; sixteen such periods
in a row are a safe stop. A period counts once for each reel that meets it (R426; log 144). -/
def execOvercurrent (reel : Reel) (s : State) : Out :=
  .next (
    if (reelOf s reel).ocNow then s
    else
      let n := (reelOf s reel).ocRun + 1
      let s := modReel { s with ps.ocp := satAdd 65535 s.ps.ocp 1 } reel fun r => { r with ocNow := true, ocRun := n, duty := [0, 0, 0] }
      if n ≥ 16 then safeStop s 0x12 (reelBits reel).1 (reelBits reel).2 else s)

/-- The halls can serve as the angle of a reel (R429). -/
def hallsUsable (s : State) (r : ReelState) : Bool := setN s 0x4203 1 == 1 && !r.hallBad

/-- Parts 1 and 2 of the alignment step of a reel: its electrical angle, from the hall sector or from the d-axis pull
(log 78). -/
def alignReel (s : State) (k : Reel) : State :=
  modReel s k fun r =>
    if hallsUsable s r && r.hall != 0 then { r with thetaE := Config.hallAngle r.hall r.hall, angleKnown := true, realign := false }
    else { r with thetaE := 0, angleKnown := true, realign := false }

/-- OBSERVER_LOST: the residual was above its bound in 3 consecutive periods; the angle comes from the halls, and without
usable halls Nightwatch brakes (R428, R429). -/
def execObserverLost (reel : Reel) (s : State) : Out :=
  .next (
    let r := reelOf s reel
    if r.obsBad < 3 ∨ r.obsLost then s
    else if hallsUsable s r then modReel s reel fun r => { r with obsLost := true, obsGood := 0, ang := 2 }
    else
      safeStop (modReel s reel fun r => { r with obsLost := true, obsGood := 0, ang := 3, angleKnown := false }) 0x10
        (reelBits reel).1 (reelBits reel).2)

/-- LOCKED_ROTOR: no commutation for 50 ms under high current; the reel gets no current, the other holds tension, the
commands of the transport's owner end (R430, R431). -/
def execLockedRotor (reel : Reel) (s : State) : Out :=
  .next (
    let r := reelOf s reel
    if r.lockRun < 4800 ∨ r.locked then s
    else
      let s := modReel s reel fun r => { r with locked := true, iref := 0 }
      let s := noteCause s 0x20 (reelBits reel).1 (reelBits reel).2
      let s := faultRec s 0x0D false noUnit (causeWord 0x20 (reelBits reel).1 (reelBits reel).2) 0
      let s := match s.ce.owner with
        | 1 => endWriter s stMotionFault
        | 2 => endReading s stMotionFault
        | 3 => endReading s stMotionFault
        | _ => s
      { s with ce.owner := 0, ce.vtarget := 0, ce.posmode := false })

/-! ## Chopper and shunts (R424, R432 to R436) -/

/-- Speed in mm/s of a Q1.31 value of 16 m/s. -/
def mmpsOf (q : Int) : Nat := q.natAbs * 16000 / 2 ^ 31

/-- The deceleration limit halved, down to the floors of R434, and the stop that replaces the owner's target. -/
def halveDecel (s : State) : State :=
  let v := mmpsOf s.ce.vref
  let a := accelLimit s
  let ahead := if s.ce.vref ≥ 0 then (5502999 - posNow s) / 5 else posNow s / 5
  let stop := if ahead > 1000 then v * v / (2 * (ahead - 1000)) else a
  let a' := max (a / 2) (min a (max stop (setN s 0x4200 1 / 64)))
  let d := v * v / (2 * a') * 5
  { s with
    ce.aLimit := some a', ps.halvedAt := s.now, ce.posmode := true, ce.vafter := 0, ce.vlim := s.ce.vref.natAbs,
    ce.stopAt := (if s.ce.vref ≥ 0 then posNow s + d else posNow s - d) }

/-- CE's samples show a faulty chopper: commanded on with less than 25 % of the expected current for 50 us, or VMOT up by
more than 0.5 V within 1 ms (R433). -/
def chopperBad (s : State) : Bool :=
  decide (s.ps.chopLow ≥ 5) || (match s.ps.chopMv with
    | v :: r => r.any fun w => decide (v > w + 500)
    | [] => false)

/-- The chopper fault's event, once the reels are at rest (R433). -/
def chopperEvent (s : State) : State :=
  if s.ps.chopEvent then queueEvent { s with ps.chopEvent := false } evChopper 0 0 (evParams [(20, le 2 (s.ps.chopPeak / 100))])
  else s

/-- CHOPPER_FAULT: judged once and sticky; what uses tape ends, CE stops the tape and halves its deceleration (R433, R434,
R436, R438). -/
def execChopperFault (s : State) : Out :=
  .next (
    if s.ps.chopF || !chopperBad s then s
    else
      let s := { s with ps.chopF := true, ps.chopEvent := true, ps.chopPeak := 10 * s.ps.vmot }
      let s := noteCause s 0x21 false false
      let s := setIstat (faultRec s 0x0E true noUnit (causeWord 0x21 false false) 0) 6
      let s := if s.ce.owner = 0 then s else endReading (endWriter s stMotionFault) stMotionFault
      let s := if s.ce.vref = 0 ∧ s.ce.aref = 0 then { s with ce.aLimit := none } else halveDecel s
      let s := if s.nw.atRest then chopperEvent s else s
      if s.ce.media then s else { s with ce.owner := 0 })

/-- DECELERATION_HALVING: every 2 ms while VMOT stays at or above Chopper off (R434). -/
def execDecelerationHalving (s : State) : Out :=
  .next (
    if s.ps.chopF && !rampAtRest s && elapsed s s.ps.halvedAt 2 && decide (10 * s.ps.vmot ≥ setN s 0x4204 2) then
      halveDecel s
    else s)

/-- SHUNT_OFFSET_MEASURED: the offsets u, v and w that CE has averaged over 1,024 parked periods of a reel are applied to it; one above
0.5 A is a permanent fault (R424). -/
def execShuntOffsetMeasured (reel : Reel) (u v w : Int) (s : State) : Out :=
  .next (
    if (reelOf s reel).shuntAvg = some [u, v, w] then
      let bad := [u, v, w].any fun x => decide (x.natAbs > 2 ^ 26)
      let was := (reelOf s reel).ofsf
      let s := modReel s reel fun r => { r with shunt := [u, v, w], ofsf := r.ofsf || bad, shuntAvg := none }
      if bad && !was then faultRec s 0x0F true noUnit 0 0 else s
    else s)

/-! ## Nightwatch's own monitors (Table 14.2) -/

/-- GATE_DRIVER_FAULT: desaturation or supply undervoltage of a half-bridge. -/
def execGateDriverFault (reel : Reel) (s : State) : Out := .next (safeStop s 0x13 (reelBits reel).1 (reelBits reel).2)

/-- NIGHTWATCH_TACH_MISMATCH: the two tach speeds have differed by more than 1 % for 5 ms. -/
def execNightwatchTachMismatch (s : State) : Out := .next (safeStop s 0x14 false false)

/-- VMOT_UNDERVOLTAGE: VMOT has been below 18 V for 1 ms. -/
def execVmotUndervoltage (s : State) : Out := .next (safeStop s 0x15 false false)

/-- REEL_TURNS_UNDER_GRANT (R439, R486). -/
def execReelTurnsUnderGrant (s : State) : Out := .next (if s.nw.grant then safeStop s 0x22 false false else s)

/-! ## Rest, hold, clear (R437, R441, R493) -/

/-- REELS_AT_REST: BRAKE and CLAMP end in HOLD or RELEASED; the permit of the reels is given back; a chopper event waiting
for rest goes out; a Nightwatch kept out of reset to brake enters it (R433, R434, R437, R485, R514) (log 49). -/
def reelsAtRestS (s : State) : State :=
  let s := { servoOff s with
    nw.restAt := (if s.nw.atRest then s.nw.restAt else s.now), nw.atRest := true, nw.permit := false, ps.zvb := false,
    ce.aLimit := none, nw.kFull := false }
  let known := s.ce.sup.angleKnown && s.ce.tkp.angleKnown
  let s := if s.nw.state = 1 ∨ s.nw.state = 2 then { s with nw.state := if known then 3 else 4 } else s
  let s := chopperEvent s
  if s.glb.heldByReel then
    { s with glb.heldByReel := false, nw := { hardLimit := s.nw.hardLimit, sns := s.nw.sns, req := s.nw.req,
                                               atEject := s.nw.atEject },
             glb.bootAt := if s.glb.resetInN && s.glb.vin12 && !s.glb.testEn && !s.glb.tripped then some s.now else none }
  else s

/-- The reels are at rest: the tach has not changed for 20 ms, and where Nightwatch shorts the reels, the current amplitude of each is below
0.1 A (R437). -/
def reelsRest (s : State) : Bool :=
  let small := fun r : ReelState => decide ((r.iD * r.iD + r.iQ * r.iQ) * 25600 < 2 ^ 62)
  decide (1920 ≤ s.nw.still) && ((s.nw.state != 1 && s.nw.state != 2) || (small s.ce.sup && small s.ce.tkp))

/-- REELS_AT_REST. -/
def execReelsAtRest (s : State) : Out := .next (if reelsRest s then reelsAtRestS s else s)

/-- HOLD_SLIP: the tach moved by more than 1 LPOS in HOLD. -/
def execHoldSlip (s : State) : Out :=
  .next (if s.nw.state = 3 then { s with nw.state := 4, nw.atRest := false } else s)

/-- Nightwatch accepts a clear: what each cause of the stop in force asks for has come about (R441); by a session, at stage 5 of start-up, or
otherwise. -/
def clearAccepted (s : State) (startup : Bool) : Bool :=
  (s.nw.state == 3 || s.nw.state == 4) && s.nw.atRest && elapsed s s.nw.restAt 100 &&
    decide (10 * s.ps.vmot < setN s 0x4204 2) &&
    s.nw.causes.all fun c => match c with
     | 0x10 => !s.ce.sup.realign && !s.ce.tkp.realign
     | 0x03 => sessionOpen s || s.nw.absentSince
     | 0x04 => sessionOpen s || s.nw.absentSince
     | 0x22 => !s.nw.grant
     | 0x23 => startup
     | _ => true

/-- The writer's HALTED may end once motion is safe: no more than 4 lanes are retired, writing is not closing, and no partition's writer is
halted under R178 (Table 9.4). -/
def haltOver (s : State) : Bool :=
  s.fm.wstate == 6 && decide (retiredCount s ≤ 4) && !s.fm.closing && !s.fm.parts.any Part.halted

/-- Nightwatch returns to WATCH; CE starts with its ramp at rest and its integrators at zero, and a writer that may write
again leaves HALTED for IDLE (R395, R441, Table 9.4). -/
def nwClear (s : State) : State :=
  let zero := fun r : ReelState => { r with
    intD := 0, intQ := 0, vD := 0, vQ := 0, iref := 0, disagree := 0, ocRun := 0, lockRun := 0, locked := false,
    ang := 1, duty := [0, 0, 0] }
  { s with
    nw.state := 0, nw.clearOkAt := none, nw.causes := [], ce.safe := false, ce.vref := 0, ce.aref := 0, ce.vtarget := 0,
    ce.posmode := false, ce.vafter := 0, ce.intV := 0, ce.intT := 0, ce.actInt := 0, ce.lossRun := 0, ce.residRun := 0,
    ce.illegal := [], ce.ovrRun := 0, ce.sup := zero s.ce.sup, ce.tkp := zero s.ce.tkp,
    fm.wstate := (if haltOver s then 0 else s.fm.wstate) }

/-- Lodestar runs the alignment step of the reels that a stop with cause 0x10 left without an angle, once they are at rest (R441, R522). -/
def realignReels (s : State) : State :=
  if !s.nw.atRest then s
  else
    let s := if s.ce.sup.realign then alignReel s .supply else s
    if s.ce.tkp.realign then alignReel s .takeup else s

/-- Nightwatch is asked to clear, and does when the conditions hold (R441). -/
def askClear (s : State) (startup : Bool) : State :=
  let t := realignReels s
  if clearAccepted t startup then nwClear t else s

/-- Lodestar asks for a clear of its own accord in AUTO_CLEAR; otherwise from an unlocked service session, to carry out an UNMOUNT, or at
stage 5 of start-up (R493, R521; log 136). -/
def mayAskClear (s : State) : Bool :=
  s.glb.restarting.isNone && s.glb.twilight.isNone &&
    (sessionOpen s || s.glb.stage == 5 || (match s.media.op with | some (.unmount ..) => true | _ => false))

/-- NIGHTWATCH_CLEAR: Lodestar asks, and Nightwatch clears when the conditions hold (R441, R493). A cause 0x23 that is still there at
stage 5 was found at the start, since any other ends in Nightwatch's reset: the clear is the one of R521. -/
def execNightwatchClear (s : State) : Out :=
  .next (if mayAskClear s then askClear s (s.glb.stage == 5) else s)

/-- Automatic clears of the last 60 minutes. -/
def recentClears (s : State) : List Nat := s.nw.clears.filter fun t => !elapsed s t 3600000

/-- AUTO_CLEAR: 1 s after the conditions hold, but not for causes 3 and 4, and at most 3 times in 60 minutes; for cause 0x10
the alignment step has run first (R493). The instant at which the conditions came to hold is noted when it is first seen. -/
def execAutoClear (s : State) : Out :=
  .next (
    let s := if s.glb.twilight.isSome || s.glb.restarting.isSome then s else realignReels s
    if s.glb.twilight.isSome || s.glb.restarting.isSome || s.nw.causes.contains 3 || s.nw.causes.contains 4 || !clearAccepted s false then
      { s with nw.clearOkAt := none }
    else match s.nw.clearOkAt with
      | none => { s with nw.clearOkAt := some s.now }
      | some t =>
        if elapsed s t 1000 ∧ (recentClears s).length < 3 then
          { nwClear s with nw.clears := s.now :: recentClears s }
        else s)

/-! ## Auxiliary drivers (R442) -/

/-- ACTUATOR_FAULT: an open or a short of the fine actuator: write gate closed, SV LOST, permanent fault (R442, Table
17.1). -/
def execActuatorFault (s : State) : Out :=
  .next (
    let s := if s.ps.auxF then s else faultRec { s with ps.auxF := true } 0x10 true noUnit 0 0
    let s := closeGate s
    if s.sv.state = 4 then s
    else { s with
      sv.state := 4, sv.loss := satAdd 65535 s.sv.loss 1, sv.lostAt := some s.now, sv.lposOk := false, sv.bandOk := false,
      sv.pesOk := false })

/-- THREADER_STALL: current at its limit for 200 ms stops the threader. -/
def execThreaderStall (s : State) : Out := .next { s with ps.thrStall := true, nw.permit := false }

/-- LOADER_TIMEOUT: the loader has not reached its home sensor in *Loader timeout*, and stops. -/
def execLoaderTimeout (s : State) : Out :=
  .next (match s.ps.ldrAt with
    | some t => if elapsed s t (setN s 0x4205 3) then emit { s with nw.permit := false, ps.ldrAt := none } (.motion 1) else s
    | none => s)

/-! ## The robot interlock (R485 to R488) -/

/-- A synchronised sample of GRIP_REQ: a high one sets GRANT while TAPE_SAFE is high or a permit window is open (R486). -/
def sampleGrip (s : State) : State :=
  if !s.nw.req || s.nw.inReset || s.nw.grant then s
  else if tapeSafe s || s.nw.window then
    { s with nw.grant := true, nw.window := false, nw.grants := satAdd 65535 s.nw.grants 1 }
  else s

/-- GRIP_REQ_RISE: the level is high from the next sample on. -/
def execGripReqRise (s : State) : Out := .next (sampleGrip { s with nw.req := true })

/-- GRIP_REQ_FALL: the first synchronised low sample clears GRANT (R486). -/
def execGripReqFall (s : State) : Out := .next { s with nw.req := false, nw.grant := false }

/-- MOTION_PERMIT_REQUEST: SAFE_OK is cleared for a window of 8 cycles; a grip sampled in it is granted and the request waits,
else the permit takes effect; while a grip is granted, or below 20 V, the request waits (R486, R487, R515). -/
def execMotionPermitRequest (gripSampled : Bool) (s : State) : Out :=
  .next (
    let wait := some (s.nw.waitSince.getD s.now)
    if s.nw.inReset then s
    else if s.nw.grant || decide (s.ps.vmot < 2000) then { s with nw.waitSince := wait }
    else if gripSampled || s.nw.req then
      { s with nw.req := true, nw.grant := true, nw.grants := satAdd 65535 s.nw.grants 1, nw.waitSince := wait }
    else { s with nw.permit := true, nw.waitSince := none })

end Sys2Proof.Machine
end

