-- ==== Sys2Proof/Machine/ControlEngine.lean ====
section
/-! DEFINITION. One base period of the control engine: sampling, current loops, observer and halls, the 24 kHz slot (reel
model, plausibility, ramp, tension, velocity and tension-limit loops, selection), the head actuator loop and the coarse stepper, modulation,
chopper, Nightwatch's per-period work (R382 to R434, R437, R440). Each term of a formula is one product, with the model's constants in it,
rounded to nearest at bit 31 and saturated; sums saturate (log 20). -/

namespace Sys2Proof.Machine

/-! ## Q1.31 arithmetic (R386, R387) -/

/-- A value with the mark that an operation on the way to it saturated. -/
structure Qv where
  v : Int
  o : Bool := false
deriving DecidableEq, Repr

/-- A value brought into Q1.31. -/
def qSat (x : Int) : Qv := { v := clampI (-(2 ^ 31)) (2 ^ 31 - 1) x, o := decide (x < -(2 ^ 31)) || decide (x > 2 ^ 31 - 1) }

/-- A value held within bounds. -/
def qBound (lo hi x : Int) : Qv := { v := clampI lo hi x, o := decide (x < lo) || decide (x > hi) }

/-- A product rounded at bit 31. -/
def qMul (a b : Int) : Qv := qSat (divRound (a * b) (2 ^ 31))

/-- A sum and a difference. -/
def Qv.add (a b : Qv) : Qv := let r := qSat (a.v + b.v); { r with o := a.o || b.o || r.o }
def Qv.sub (a b : Qv) : Qv := let r := qSat (a.v - b.v); { r with o := a.o || b.o || r.o }

/-- A quantity times a quotient of constants and reciprocals, as one product. -/
def Qv.times (a : Qv) (num : Int) (den : Nat) : Qv := let r := qSat (divRound (a.v * num) den); { r with o := a.o || r.o }

/-- The reciprocal of a Q1.31 value, with 31 bits behind the point (log 20). -/
def qRecip (x : Nat) : Nat := if x = 0 then 2 ^ 62 else (divRound (2 ^ 62) x).toNat

/-- A square root rounded to nearest. -/
def sqrtRound (n : Nat) : Nat := (Nat.sqrt (4 * n) + 1) / 2

/-- A PI step: output and integrator within bounds; the integrator may be held (R396, R397, R399, R400; the form: log 20). -/
def piStep (kp ki e int lo hi : Int) (hold : Bool) : Int × Int × Bool :=
  let i := if hold then { v := int } else qBound lo hi (int + (qMul ki e).v)
  let p := qMul kp e
  let u := qBound lo hi (p.v + i.v)
  (u.v, i.v, i.o || p.o || u.o)

/-- Flag b of CE.SAT is set when c holds. -/
def satFlag (s : State) (b : Nat) (c : Bool) : State :=
  if c then { s with ce.sat := s.ce.sat ||| BitVec.ofNat 9 (2 ^ b) } else s

/-! ## Sine (R388, R417) -/

/-- sin of x, x in radians times 2^40, for 0 to pi/2: the series to x^15. -/
def sinSeries (x : Int) : Int :=
  let m := fun a b : Int => a * b / 2 ^ 40
  let x2 := m x x
  let step := fun (acc : Int) (k : Int) => 2 ^ 40 - m x2 acc / k
  m x (step (step (step (step (step (step (step (2 ^ 40) 210) 156) 110) 72) 42) 20) 6)

/-- The sine of an angle given as a 32-bit fraction of a turn, in Q1.31. -/
def sinQ (a : BitVec 32) : Int :=
  let n : Nat := a.toNat
  let q : Nat := n / 2 ^ 30
  let f : Nat := n % 2 ^ 30
  let g : Nat := if q % 2 = 0 then f else 2 ^ 30 - f
  let v := sinSeries ((g : Int) * 1727108826179 / 2 ^ 30)
  let w := min (2 ^ 31 - 1) (divRound v (2 ^ 9))
  if q < 2 then w else -w

/-- The cosine. -/
def cosQ (a : BitVec 32) : Int := sinQ (a + 0x40000000)

/-! ## Constants of a reel -/

/-- Subindex offset of a reel in Table 13.8: 0 supply, 1 take-up. -/
def reelIdx : Reel → Nat
  | .supply => 0
  | .takeup => 1

/-- Torque constant, mN m / A. -/
def ktOf (s : State) (r : Reel) : Nat := setN s 0x4201 (7 + reelIdx r)

/-- The direction in which forward tape turns the reel: s_T = +1, s_S = -1 (R392). -/
def sideOf : Reel → Int
  | .supply => -1
  | .takeup => 1

/-- I_lim of a reel in Q1.31 of 16 A: 8 A or 4 A (R425, R584). -/
def iLim (s : State) (r : ReelState) : Int := if r.ilim4 || s.ps.hotLimit then 2 ^ 29 else 2 ^ 30

/-! ## Sampling and reconstruction (R421 to R424) -/

/-- Phase duty d leaves a valid window: (1 - d) T - 20 ns at least 1.2 us. -/
def windowOk (d : Nat) : Bool := decide ((65536 - d) * 2250000 ≥ 1220 * 216 * 65536)

/-- A sample less the offset of its channel, Q1.31 of 16 A. -/
def lessOffset (x off : Int) : Int := (qSat (x - off)).v

/-- A value turned into the other frame by an angle: first and second component. -/
def turnBy (a b c n : Int) : Int × Int := (((qMul a c).add (qMul b n)).v, ((qMul b c).sub (qMul a n)).v)

/-- d and q of three currents that sum to zero, amplitude invariant. -/
def park (u v w : Int) (th : BitVec 32) : Int × Int :=
  let be := ((qSat (v - w)).times 1000000000 1732050808).v
  turnBy u be (cosQ th) (sinQ th)

/-- alpha and beta of a d-q pair at an angle. -/
def toAlphaBeta (d q : Int) (th : BitVec 32) : Int × Int := turnBy d q (cosQ th) (-(sinQ th))

/-- The voltage that duties apply at a VMOT in mV: alpha and beta in uV; none under the zero vector. -/
def appliedUv (duty : List Nat) (vmot : Nat) : Int × Int :=
  let v := fun i : Nat => (duty.getD i 0 * vmot * 1000 / 65536 : Nat)
  let u : Int := v 0
  let w1 : Int := v 1
  let w2 : Int := v 2
  (divRound (2 * u - w1 - w2) 3, divRound ((w1 - w2) * 1000000000) 1732050808)

/-- i_pred of one axis: i + (T / L)(v - R i - e), voltages in uV and mV. -/
def predict (s : State) (i vUv eMv : Int) : Int :=
  let r := setN s 0x4203 2
  let l := setN s 0x4203 3
  let net := vUv - divRound (i * r * 16000) (2 ^ 31) - 1000 * eMv
  (qSat (i + divRound (net * 2250 * 2 ^ 31) (216 * l * 16000000))).v

/-- The currents of a reel in a period; whether they were predicted. The voltage is the one applied since the last sample (R423). -/
def currents (s : State) (k : Reel) (r : ReelState) (x : ReelSample) (vmot : Nat) : ReelState × Bool :=
  let ok := r.duty.map windowOk
  let i := fun n y => lessOffset y (r.shunt.getD n 0)
  let u := i 0 x.iU
  let v := i 1 x.iV
  let w := i 2 x.iW
  let set := fun u v w : Int =>
    let p := park u v w r.thetaE
    ({ r with iD := p.1, iQ := p.2, predRun := 0 }, false)
  match ok.getD 0 true, ok.getD 1 true, ok.getD 2 true with
  | true, true, true =>
    let m := divRound (u + v + w) 3
    set (u - m) (v - m) (w - m)
  | false, true, true => set (-(v + w)) v w
  | true, false, true => set u (-(u + w)) w
  | true, true, false => set u v (-(u + v))
  | _, _, _ =>
    let ab := appliedUv r.dutyWas vmot
    let v := turnBy ab.1 ab.2 (cosQ r.thetaE) (sinQ r.thetaE)
    let e := divRound (r.omega * ktOf s k) 1500
    ({ r with
       iD := predict s r.iD v.1 0, iQ := predict s r.iQ v.2 e, predRun := r.predRun + 1,
       cap := r.cap || decide (r.predRun + 1 ≥ 4) }, true)

/-- In PARKED the samples of the three channels are summed, and averaged over 1,024 periods (R424). -/
def offsets (s : State) (r : ReelState) (x : ReelSample) : ReelState :=
  if s.glb.power ≠ 2 ∨ s.ce.run then { r with shuntSum := [0, 0, 0], shuntN := 0 }
  else
    let sum := List.zipWith (· + ·) r.shuntSum [x.iU, x.iV, x.iW]
    if r.shuntN + 1 < 1024 then { r with shuntSum := sum, shuntN := r.shuntN + 1 }
    else { r with shuntSum := [0, 0, 0], shuntN := 0, shuntAvg := some (sum.map fun y => divRound y 1024) }

/-- The thermal accumulator and the limit it asks for (R425). -/
def thermal (r : ReelState) : ReelState :=
  let n := r.theta + (r.iD * r.iD + r.iQ * r.iQ).toNat - 16 * 2 ^ 54
  let full := 48 * 96000 * 2 ^ 54
  { r with theta := n, ilim4 := if r.ilim4 then decide (2 * n ≥ full) else decide (n ≥ full) }

/-! ## Rotor angle (R427 to R430) -/

/-- Winding speed of a reel from tach and radius, mechanical mrad/s. -/
def tachOmega (s : State) (k : Reel) (r : ReelState) : Int :=
  if r.radius = 0 then 0 else sideOf k * divRound (s.ce.vtach * 250000) r.radius

/-- The reel turns at *Observer floor* or faster: by its observer's speed, or by tach and radius while the observer is lost (log 21). -/
def aboveFloor (s : State) (k : Reel) (r : ReelState) : Bool :=
  decide ((if r.obsLost then tachOmega s k r else r.omega).natAbs ≥ setN s 0x4203 4)

/-- Advance of the electrical angle for a tape length, in 2^-32 of a turn: num/den m. -/
def angleOf (k : Reel) (r : ReelState) (num : Int) (den : Nat) : Int :=
  if r.radius = 0 then 0
  else sideOf k * divRound (num * 8 * 2 ^ 32 * 2 ^ 31 * 10 ^ 12) (den * 402123859659 * r.radius)

/-- The flux observer (R427): it integrates v - R i, removes L i, and its PLL follows the flux vector. Below the floor it is not used: it
stands at the angle in use, with the speed of tach and radius (log 21). -/
def observe (s : State) (k : Reel) (r : ReelState) (vmot : Nat) : ReelState :=
  let i := toAlphaBeta r.iD r.iQ r.thetaE
  let li := fun x : Int => divRound (x * 16000000 * setN s 0x4203 3) (2 ^ 31)
  let pm : Int := ktOf s k * 10 ^ 9 / 12
  let w := tachOmega s k r
  if !aboveFloor s k r then
    { r with
      pll := r.thetaE, pllRate := angleOf k r (s.ce.vtach * 16) (96000 * 2 ^ 31), omega := w, residual := 0,
      psiA := divRound (pm * cosQ r.thetaE) (2 ^ 31) + li i.1, psiB := divRound (pm * sinQ r.thetaE) (2 ^ 31) + li i.2 }
  else
    let v := appliedUv r.dutyWas vmot
    let flux := fun (p v i : Int) => p + divRound ((v - divRound (i * 16000 * setN s 0x4203 2) (2 ^ 31)) * 2250) 216
    let a := flux r.psiA v.1 i.1
    let b := flux r.psiB v.2 i.2
    let fa := a - li i.1
    let fb := b - li i.2
    let len := Nat.sqrt (fa * fa + fb * fb).toNat
    let e := if len = 0 then 0 else (qSat (divRound (fb * cosQ r.pll - fa * sinQ r.pll) len)).v
    let rate := r.pllRate + divRound (Config.pllGains.2 * e) (2 ^ 31)
    { r with
      psiA := a, psiB := b, pllRate := rate, pll := r.pll + BitVec.ofInt 32 (rate + divRound (Config.pllGains.1 * e) (2 ^ 31)),
      omega := if r.obsLost then w else divRound (rate * 96000 * 6283185) (8 * 2 ^ 32 * 1000),
      residual := ((len : Int) - pm).natAbs * 100 / max 1 pm.natAbs }

/-- A hall code that halls give, and a step between neighbouring codes. -/
def hallStep (a b : Nat) : Bool := decide (1 ≤ b ∧ b ≤ 6) && (decide (a = 0) || decide (popBits 3 (a ^^^ b) ≤ 1))

/-- Hall states followed: an edge's angle, the speed over the last two edges, and whether they are implausible (R428, R429). -/
def halls (s : State) (k : Reel) (r : ReelState) (x : ReelSample) (above : Bool) : ReelState :=
  let h := x.halls % 8
  let edge := decide (h ≠ r.hall)
  let gap := if edge then r.hallAge + 1 else r.hallGap
  let th := if edge then Config.hallAngle r.hall h else r.hallTh
  -- 2 pi / (48 gap T) in mrad/s, and the same from tach and radius
  let wh := 12566371 / gap
  let wt := (tachOmega s k r).natAbs
  let off := above && decide (0 < gap) && setN s 0x4203 1 == 1 && decide (5 * (Int.natAbs (wh - wt)) > wt)
  { r with
    hall := h, hallGap := gap, hallAge := (if edge then 0 else r.hallAge + 1), hallBad := !hallStep r.hall h || off,
    hallTh := th, hallRate := (if edge then divRound (th - r.hallTh).toInt gap else r.hallRate) }

/-- The electrical angle of a reel advanced over a period, from the observer, from tach and radius, or from the halls. -/
def angle (s : State) (k : Reel) (r : ReelState) (x : ReelSample) (distNm : Int) : ReelState :=
  let above := aboveFloor s k r
  let bad := above && decide (r.residual > setN s 0x4203 5)
  let good := if bad then 0 else r.obsGood + 1
  let was := r.hall
  let r := halls s k r x above
  let lost := r.obsLost && decide (good < 960)
  let src := if !above then 1 else if !lost then 0 else if hallsUsable s r then 2 else 3
  let th := match src with
    | 0 => r.pll
    | 2 => if r.hall ≠ was then r.hallTh else r.thetaE + BitVec.ofInt 32 r.hallRate
    | _ => r.thetaE + BitVec.ofInt 32 (angleOf k r distNm (10 ^ 9))
  let moved := th.toNat * 6 / 2 ^ 32 != r.thetaE.toNat * 6 / 2 ^ 32
  let d := (th - r.thetaE).toInt
  let pp := if d > 0 ∧ th.toNat < r.thetaE.toNat then (r.polePair + 1) % 8
    else if d < 0 ∧ th.toNat > r.thetaE.toNat then (r.polePair + 7) % 8 else r.polePair
  let high := decide (10 * r.iref.natAbs > 3 * (iLim s r).natAbs)
  { r with
    thetaE := th, polePair := pp, ang := src, obsLost := lost, obsBad := (if bad then r.obsBad + 1 else 0), obsGood := good,
    angleKnown := r.angleKnown || src == 0, lockRun := (if moved || !high then 0 else r.lockRun + 1) }

/-- Nightwatch's view of a reel's phase currents: the age of the last change of sign, and the gap between the last two (R440). -/
def shortCircuit (r : ReelState) (x : ReelSample) : ReelState :=
  let sign := decide (lessOffset x.iU (r.shunt.getD 0 0) ≥ 0)
  if sign != r.scSign then { r with scSign := sign, scGap := r.scAge + 1, scAge := 0 } else { r with scAge := r.scAge + 1 }

/-! ## Current loops and modulation (R400, R417, R418, R420, R423) -/

/-- Largest |v_dq| as a loop value for m in hundredths at a VMOT in mV. -/
def vLimit (vmot m : Nat) : Nat := vmot * m * 2 ^ 31 * 10000000 / (1732050808 * Config.voltMv)

/-- The current loops of a reel: the voltage vector, limited to m = 1 or to the cap by shortening v_q, and v_d where it alone exceeds the
limit; the flag tells that something saturated. -/
def currentLoops (s : State) (r : ReelState) (ref : Int) (vmot : Nat) : ReelState × Bool :=
  let kp : Int := setN s 0x4202 1
  let ki : Int := setN s 0x4202 2
  let eD := qSat (-r.iD)
  let eQ := qSat (ref - r.iQ)
  let d := piStep kp ki eD.v r.intD (-(2 ^ 31)) (2 ^ 31 - 1) false
  let q := piStep kp ki eQ.v r.intQ (-(2 ^ 31)) (2 ^ 31 - 1) false
  let free := d.1.natAbs ^ 2 + q.1.natAbs ^ 2
  let c88 := vLimit vmot 88
  let below := decide (free < c88 ^ 2)
  let good := if below then r.capGood + 1 else 0
  let cap := r.cap && decide (good < 96)
  let top := if cap then c88 else vLimit vmot 100
  let cut := decide (free > top ^ 2)
  let vd := clampI (-(top : Int)) top d.1
  let vq : Int := if cut then (Nat.sqrt (top ^ 2 - vd.natAbs ^ 2) : Int) * q.1.sign else q.1
  ({ r with intD := d.2.1, intQ := q.2.1, vD := vd, vQ := vq, cap, capGood := good }, eD.o || eQ.o || d.2.2 || q.2.2 || cut)

/-- The phase advance at an electrical speed given by mechanical mrad/s: interpolated over 25 Hz steps, held above 775 Hz
(R420). -/
def phaseAdvance (s : State) (omega : Int) : Nat :=
  let t := odVal s 0x4212 1
  let e := fun k => unle (slice t (2 * k) 2)
  -- electrical frequency in mHz: 8 omega / 2 pi
  let f := omega.natAbs * 8000 / 6283
  let k := f / 25
  if f ≥ 775000 then e 31
  else
    let k := k / 1000
    let a : Int := e k
    let b : Int := e (k + 1)
    (a + (b - a) * (f - 25000 * k) / 25000).toNat

/-- A loop voltage in mV. -/
def toMv (v : Int) : Int := divRound (v * Config.voltMv) (2 ^ 31)

/-- The duties of space-vector modulation with centred zero vectors, in 1/65,536. -/
def duties (s : State) (r : ReelState) (vmot : Nat) : List Nat :=
  let th := r.thetaE + BitVec.ofInt 32 (r.omega.sign * (phaseAdvance s r.omega * 65536 : Nat))
  let ab := toAlphaBeta r.vD r.vQ th
  let h := ((⟨ab.2, false⟩ : Qv).times 1732050808 2000000000).v
  let half := divRound ab.1 2
  let vs := [ab.1, -half + h, -half - h].map toMv
  let mid := (vs.foldl max (vs.getD 0 0) + vs.foldl min (vs.getD 0 0)) / 2
  vs.map fun v => (clampI 0 65536 (32768 + divRound ((v - mid) * 65536) (max 1 vmot))).toNat

/-! ## The reel model (R389 to R391, R401, R402) -/

/-- Radius, Q1.31 of 64 mm, and inertia, in 1e-15 kg m^2, of a reel with a tape length in nm (R388, R390). -/
def reelModel (s : State) (k : Reel) (lenNm : Int) : Qv × Nat :=
  let h := 1000 * setN s 0x4201 (1 + reelIdx k)
  let r2 := h * h + lenNm.toNat * setN s 0x4201 3 * 1000000000000000 / 3141592653589793
  (qSat (sqrtRound (r2 * 2 ^ 62 / 64000000 ^ 2)),
   setN s 0x4201 (4 + reelIdx k) * 1000000 + setN s 0x4201 6 * (r2 ^ 2 - h ^ 4) / 10 ^ 24)

/-- The cogging term of a reel, Q1.31 of 16 A; 0 until its mechanical angle is referenced (R401). -/
def cogging (s : State) (k : Reel) (r : ReelState) : Qv :=
  if !r.mref then ⟨0, false⟩
  else
    let t := odVal s 0x4210 (1 + reelIdx k)
    let m := r.thetaE.toNat / 8 + 2 ^ 29 * r.polePair
    let e := fun i => signed 16 (unle (slice t (2 * (i % 1024)) 2)) * 65536
    let i := m / 2 ^ 22 % 1024
    (⟨e i, false⟩ : Qv).add ((qSat (e (i + 1) - e i)).times (m / 4096 % 1024 : Nat) 1024)

/-- A tension in mN as Q1.31 of 4 N. -/
def tensQ (mN : Nat) : Qv := qSat (divRound (mN * 2 ^ 31) 4000)

/-- The tension that an angular acceleration takes at a reel: J alpha / R, Q1.31 of 4 N. -/
def inertial (r : ReelState) (alpha : Int) : Qv := qSat (divRound (r.inertia * alpha * qRecip r.radius) 256000000000000000)

/-- The tension that a current gives at a reel: Kt i / R, Q1.31 of 4 N. -/
def pull (s : State) (k : Reel) (r : ReelState) (i : Qv) : Qv := i.times (ktOf s k * qRecip r.radius) (16 * 2 ^ 31)

/-- F_r of R391, Q1.31 of 4 N. -/
def reelTension (s : State) (k : Reel) (r : ReelState) : Qv :=
  if r.radius = 0 then ⟨0, false⟩ else (pull s k r ((⟨r.iQ, false⟩ : Qv).sub (cogging s k r))).sub (inertial r r.alpha)

/-- The current that a tension asks for at a reel's radius: F R / Kt. -/
def tensCurrent (s : State) (k : Reel) (r : ReelState) (f : Qv) : Qv := f.times (16 * r.radius) (ktOf s k * 2 ^ 31)

/-- The current that a tape acceleration asks for: J a / (R Kt). -/
def accCurrent (s : State) (k : Reel) (r : ReelState) (a : Int) : Qv :=
  if r.radius = 0 then ⟨0, false⟩ else qSat (divRound (r.inertia * a * qRecip r.radius) (16000000000 * ktOf s k * 2 ^ 31))

/-- F_set (R340, R396). -/
def fSet (s : State) : Int := (tensQ (setN s 0x4200 3 * s.ce.tScale / 100)).v

/-- The head drag of the friction table at the bin in force, Q1.31 of 4 N (R402). -/
def headDrag (s : State) : Qv := tensQ (unle (slice (odVal s 0x4211 1) (2 * s.ce.frBin) 2))

/-- The blend b of R402: v_ref / 0.05 m/s limited to -1 .. 1, in Q1.31. -/
def blend (s : State) : Int := (qSat (s.ce.vref * 320)).v

/-- The drag assigned to a reel. -/
def dragOf (s : State) (k : Reel) : Qv :=
  let f := headDrag s
  f.times (max 0 (sideOf k * blend s)) (2 ^ 31)

/-- Surface speed of a reel along the tape, Q1.31 of 16 m/s (R392). -/
def surface (k : Reel) (r : ReelState) : Qv := qSat (sideOf k * divRound (r.omega * r.radius) 250000)

/-! ## The ramp (R404 to R407, R419, R434, R436) -/

/-- The jerk limit in force: eight times the setting while a reduction of R434 is followed. -/
def jerkLimit (s : State) : Nat :=
  let j := motionLimit s 2
  if s.ce.aLimit.isSome ∧ s.ce.aref.natAbs > accelLimit s * 2 ^ 31 / 64000 then 8 * j else j

/-- The highest |v_target|: 12 m/s, what VMOT allows at m = 0.80 on the faster reel, 2.00 m/s within the limits of R436. -/
def speedTop (s : State) : Int :=
  let emf := fun (k : Reel) (r : ReelState) => (s.ps.vmot * r.radius * 120000000 / (17320508 * 250 * max 1 (ktOf s k)) : Nat)
  let v : Int := min (speedCode 12000 true) (min (emf .supply s.ce.sup) (emf .takeup s.ce.tkp) : Nat)
  if restricted s then min v (speedCode 2000 true) else v

/-- v_target of position mode: sign(dx) min(v_lim, sqrt(2 a max(|dx| - d_j, 0))), the root rounded at bit 31 (R405). -/
def posTarget (s : State) : Int :=
  let dx : Int := (s.ce.stopAt : Int) - posNow s
  let a := accelLimit s
  let j := motionLimit s 2
  let far := 6 * dx.natAbs * j * j - 5 * a * a * a
  let v : Int := min s.ce.vlim (sqrtRound (2 * a * far * 2 ^ 62 / (30 * j * j * 16000 ^ 2)) : Nat)
  dx.sign * (if v < speedCode 50 true then (if dx.natAbs ≤ 1 then 0 else speedCode 50 true) else v)

/-- What is asked of the ramp: 0 in STANDBY and PARKED and where a reel or the safe stop holds it, else the owner's target (R404, R405, R410,
R431). -/
def askedSpeed (s : State) : Int :=
  if s.ce.tramp || s.nw.state != 0 || s.ce.sup.locked || s.ce.tkp.locked || s.glb.power != 0 then 0
  else if s.ce.posmode then posTarget s else s.ce.vtarget

/-- v_target of this tick. -/
def targetNow (s : State) : Int := clampI (-(speedTop s)) (speedTop s) (askedSpeed s)

/-- RAMP_TICK (R404, R406): v_ref and a_ref advance; CE.SAT.RAMP tells that the limits delayed the target (R406, R419). -/
def rampTick (s : State) : State :=
  let vt := targetNow s
  let j := jerkLimit s
  let aMax : Int := accelLimit s * 2 ^ 31 / 64000
  let jT2 : Int := j * 2 ^ 31 / (16000 * 24000 ^ 2)
  let jT : Int := j * 2 ^ 31 / (64000 * 24000)
  let vEnd := (qSat (s.ce.vref + divRound (s.ce.aref * s.ce.aref.natAbs * 128000) (2 ^ 31 * j))).v
  let goal := if vEnd < vt - jT2 then aMax else if vEnd > vt + jT2 then -aMax else 0
  let a := (qSat (s.ce.aref + clampI (-jT) jT (goal - s.ce.aref))).v
  let v := (qSat (s.ce.vref + divRound a 6000)).v
  let there := decide ((v - vt).natAbs ≤ jT2.natAbs) && decide (a.natAbs ≤ jT.natAbs)
  let s := satFlag s 7 (!there || decide (askedSpeed s != vt))
  if there then { s with ce.vref := vt, ce.aref := 0 } else { s with ce.vref := v, ce.aref := a }

/-- A stop reached: the speed that follows takes over (R297, R368, R405). -/
def stopReached (s : State) : State :=
  if s.ce.posmode && s.ce.vref == 0 && s.ce.aref == 0 && decide (((s.ce.stopAt : Int) - posNow s).natAbs ≤ 1) then
    let t := { servoOff s with ce.posmode := false, ce.vtarget := s.ce.vafter, ce.vafter := 0 }
    if reading s && s.ce.vafter != 0 then lanesSeek t else t
  else s

/-- Servo is off as tape comes to a stop, a reversal's too (Table 12.1; log 128). -/
def stillTape (was s : State) : State := if was.ce.vref ≠ 0 ∧ was.ce.vref.sign ≠ s.ce.vref.sign then servoOff s else s

/-! ## The 24 kHz slot (R382, R389 to R399, R410) -/

/-- v_tach from the counts and the edge times of the slot; without an edge in it 0, and the edge before stays the reference (R392;
log 144). -/
def tachSpeed (s : State) : Qv :=
  let dt := s.ce.edgeNow - s.ce.edgeAt
  if dt = 0 ∨ s.ce.counts = 0 then ⟨0, false⟩
  else qSat (divRound (s.ce.counts * setN s 0x4201 9 * 216 * 2 ^ 31) (setN s 0x4201 10 * dt * 16))

/-- delta_r in 0.1 % and whether the reel disagrees (R392); the mark of its arithmetic. -/
def plausible (s : State) (k : Reel) (r : ReelState) : ReelState × Bool :=
  let v := surface k r
  let d := v.sub ⟨s.ce.vtach, false⟩
  let base := max s.ce.vtach.natAbs (speedCode (setN s 0x4200 10) true).natAbs
  ({ r with
     delta := min 1023 (1000 * d.v.natAbs / max 1 base),
     disagree := if 1000 * d.v.natAbs > setN s 0x4200 8 * base then r.disagree + 1 else 0 }, d.o)

/-- The tension reference in force: F_set, or on its way down for PARKED and up again at 4 N/s (R410). -/
def tensionRef (s : State) : State :=
  let step : Int := 2 ^ 31 / 24000
  if s.glb.power = 2 then
    let t := max 0 ((if s.ce.tramp then s.ce.tref else s.ce.fc) - step)
    { s with ce.tref := t, ce.tramp := true, ce.run := s.ce.run && decide (t > 0) }
  else if s.ce.tramp then
    let t := min (fSet s) (s.ce.tref + step)
    let near := decide (10 * (s.ce.f - fSet s).natAbs ≤ (fSet s).natAbs) && decide (t = fSet s)
    { s with ce.tref := t, ce.run := true, ce.tramp := !near }
  else { s with ce.tref := fSet s }

/-- A reel's model in the 24 kHz slot: radius, inertia, acceleration (R390, R391; log 21). -/
def modelReel (r : ReelState) (m : Qv × Nat) : ReelState :=
  { r with radius := m.1.v.toNat, inertia := m.2, alpha := (r.omega - r.omegaWas) * 24000, omegaWas := r.omega }

/-- The reel model, the tension estimates, the residual and the counters of R392 and R393. -/
def modelSlot (s : State) : State :=
  let ms := reelModel s .supply (s.ce.lTotal - s.ce.lT)
  let mt := reelModel s .takeup s.ce.lT
  let v := tachSpeed s
  let s := { s with
    ce.vtach := v.v, ce.counts := 0, ce.edgeAt := s.ce.edgeNow, ce.sup := modelReel s.ce.sup ms, ce.tkp := modelReel s.ce.tkp mt,
    ce.frBin := (if s.sv.state = 2 ∧ s.sv.lposOk then min (s.sv.lpos / 32768) 255 else s.ce.frBin) }
  let fs := reelTension s .supply s.ce.sup
  let ft := reelTension s .takeup s.ce.tkp
  let drag := headDrag s
  let slow := decide (mmpsOf s.ce.vtach < setN s 0x4200 10)
  let gap := if s.ce.vtach ≥ 0 then (ft.sub fs).sub drag else (fs.sub ft).sub drag
  let rho := if slow then 0 else min (2 ^ 31 - 1) gap.v.natAbs
  let f := (qSat (divRound fs.v 2)).add (qSat (divRound ft.v 2))
  let moving := !slow || decide (s.ce.sup.omega.natAbs > 1000) || decide (s.ce.tkp.omega.natAbs > 1000)
  let low := moving && decide (100 * f.v < setN s 0x4200 5 * s.ce.fc)
  let excess := moving && decide ((rho : Int) > (tensQ (setN s 0x4200 6)).v)
  let ps := plausible s .supply { s.ce.sup with tension := fs.v }
  let pt := plausible s .takeup { s.ce.tkp with tension := ft.v }
  let s := { s with
    ce.sup := ps.1, ce.tkp := pt.1, ce.f := f.v, ce.resid := rho, ce.lossRun := (if low then s.ce.lossRun + 1 else 0),
    ce.residRun := (if excess then s.ce.residRun + 1 else 0) }
  satFlag s 6 (ms.1.o || mt.1.o || v.o || fs.o || ft.o || drag.o || (!slow && gap.o) || ps.2 || pt.2)

/-- u_V, u_L and the selection for a reel: sel, i_ref, and the flags of the velocity and of the tension-limit loop (R387, R397 to R399). -/
def selectReel (s : State) (k : Reel) (r : ReelState) (ua : Int) : Nat × Int × Bool × Bool :=
  let c := cogging s k r
  let other := match k with | .supply => s.ce.tkp.locked | .takeup => s.ce.sup.locked
  let acc := qSat (s.ce.aref + ua)
  let a := if other then 0 else acc.v
  let fc : Qv := ⟨s.ce.fc, false⟩
  let uV := (((tensCurrent s k r fc).add (accCurrent s k r (sideOf k * a))).add (tensCurrent s k r (dragOf s k))).add c
  let fMax := tensQ (setN s 0x4200 4)
  let ja := qSat (divRound (r.inertia * r.alpha * 2 ^ 27) (1000000000000000 * max 1 (ktOf s k)))
  let p := (fMax.sub ⟨r.tension, false⟩).times (setN s 0x4202 7) (2 ^ 31)
  let uL := (((tensCurrent s k r fMax).add ja).add p).add c
  let u := min uV.v (min uL.v (iLim s r))
  let sel := if u = uV.v then 0 else if u = uL.v then 1 else 2
  (sel, if r.locked then 0 else u, acc.o || uV.o, uL.o)

/-- The loops of the slot: ramp, tension, velocity, tension limits, selection. -/
def loopSlot (s : State) : State :=
  let s := tensionRef (stopReached (stillTape s (rampTick s)))
  let hold2 := s.ce.sup.sel == 2 || s.ce.tkp.sel == 2
  let holdV := s.ce.sup.sel != 0 || s.ce.tkp.sel != 0 || s.ce.sup.locked || s.ce.tkp.locked
  let eT := qSat (s.ce.tref - s.ce.f)
  let eV := qSat (s.ce.vref - s.ce.vtach)
  let t := piStep (setN s 0x4202 5) (setN s 0x4202 6) eT.v s.ce.intT (-(2 ^ 31)) (2 ^ 31 - 1) hold2
  let fc := qSat (t.1 + s.ce.tref)
  let v := piStep (setN s 0x4202 3) (setN s 0x4202 4) eV.v s.ce.intV (-(2 ^ 31)) (2 ^ 31 - 1) holdV
  let s := { s with ce.intT := t.2.1, ce.fc := fc.v, ce.intV := v.2.1 }
  let a := selectReel s .supply s.ce.sup v.1
  let b := selectReel s .takeup s.ce.tkp v.1
  let s := satFlag (satFlag (satFlag (satFlag s 3 (eT.o || t.2.2 || fc.o)) 2 (eV.o || v.2.2 || a.2.2.1 || b.2.2.1)) 4 a.2.2.2) 5 b.2.2.2
  { s with
    ce.sup := { s.ce.sup with sel := a.1, iref := a.2.1 }, ce.tkp := { s.ce.tkp with sel := b.1, iref := b.2.1 } }

/-! ## The head actuator loop (R411, R412) -/

/-- One tick of the reference profile towards a target in pm, limited to 40 m/s^2 and 40 mm/s: the speed from which the rest of the way
brakes at that limit (R411; log 20). -/
def actProfile (s : State) (target : Int) : State :=
  let d := target - s.ce.actRef
  let goal := d.sign * min 833333 (Nat.sqrt (2 * 17361 * d.natAbs))
  let v := clampI (s.ce.actVel - 17361) (s.ce.actVel + 17361) goal
  if d.natAbs ≤ 17361 ∧ v.natAbs ≤ 17361 then { s with ce.actRef := target, ce.actVel := 0 }
  else { s with ce.actRef := s.ce.actRef + v, ce.actVel := v }

/-- The coarse stepper's part of the slot during a band change: microsteps towards the centre of the band, at 0.5 A per phase, the fine
actuator at zero (R365, R412, R442; log 143). -/
def stepperSlot (s : State) : State :=
  let way : Int := 2433280 * (s.sv.aim : Int) - s.ce.stepNow
  let size := max 1 (setN s 0x4205 1)
  let left := way.natAbs / size
  { s with
    ce.stepNow := s.ce.stepNow + way.sign * (min left (Config.coarseSteps left) * size : Nat), ce.stepMa := 500, ce.actOut := 0 }

/-- The actuator slot of an odd period: the PID loop on the newest sample, its age compensated, against the reference profile; the
derivative is that of successive errors (R411, R412; log 20). -/
def actuatorSlot (s : State) : State :=
  if s.sv.moving then stepperSlot s
  else if s.ps.auxF then { s with ce.actOut := 0, ce.stepMa := setN s 0x4205 2 }
  else
    let s := actProfile { s with ce.stepMa := setN s 0x4205 2 } (1000 * servoTarget s)
    let s := if s.sv.pesOk ∧ s.sv.pesAt ≠ s.ce.pes1.2 then
        { s with ce.pes2 := s.ce.pes1, ce.pes1 := (s.sv.pes + s.sv.pesAim, s.sv.pesAt) } else s
    let frame := 43200000 / max 1 s.sv.speed
    let age := s.now - s.ce.pes1.2
    let stale := !s.sv.pesOk || decide (age > 2 * frame)
    if stale then s
    else
      let gap := s.ce.pes1.2 - s.ce.pes2.2
      let drift := if gap = 0 then 0 else divRound ((s.ce.pes1.1 - s.ce.pes2.1) * 1000 * (min age (2 * frame) : Nat)) gap
      -- picometres from what the profile asks for now
      let pm := s.ce.pes1.1 * 1000 + drift - s.ce.actRef
      let e := qSat (divRound (-pm * 2 ^ 31) 32000000)
      let u := piStep (setN s 0x4202 8) (setN s 0x4202 9) e.v s.ce.actInt (-(2 ^ 30)) (2 ^ 30) false
      let step := qSat (e.v - s.ce.actErr)
      let d := qMul (setN s 0x4202 10) step.v
      let o := qBound (-(2 ^ 30)) (2 ^ 30) (u.1 + d.v)
      satFlag { s with ce.actInt := u.2.1, ce.actErr := e.v, ce.actOut := o.v } 8 (e.o || u.2.2 || step.o || d.o || o.o)

/-! ## Bus voltage (R432 to R434) -/

/-- A reel runs ahead of the tach by more than 1 %. -/
def ahead (s : State) (v : Int) : Bool := decide (v.natAbs * 100 > s.ce.vtach.natAbs * 101)

/-- A fraction in 1/65,536 from a PI law in Q1.31: the fraction and the integrator (R434, R440). -/
def fractionLaw (g : Int × Int) (e int : Int) : Nat × Int :=
  let u := piStep g.1 g.2 e int 0 (2 ^ 31 - 1) false
  ((u.1 * 65536 / 2 ^ 31).toNat, u.2.1)

/-- The fraction k of zero-vector braking from the difference of the two surface speeds, the other reel's less that of the reel that runs
ahead (R434). -/
def zvLaw (s : State) : State :=
  let vs := (surface .supply s.ce.sup).v
  let vt := (surface .takeup s.ce.tkp).v
  let d : Int := (vt.natAbs : Int) - vs.natAbs
  let e := if ahead s vs then d else if ahead s vt then -d else 0
  let k := fractionLaw Config.zeroVectorGains (qSat e).v s.ps.zvInt
  { s with ps.zvK := k.1, ps.zvInt := k.2 }

/-- VMOT and the chopper: CHOPPER_SWITCH, what CE sees of a failing chopper, zero-vector braking and its end. -/
def busVoltage (s : State) (x : CeSample) : State :=
  let v := x.vmotMv
  let on := if v ≥ setN s 0x4204 1 then true else if v ≤ setN s 0x4204 2 then false else s.ps.chopOn
  let low := on && s.ps.chopOn && decide (4 * x.chopMa * setN s 0x4204 5 < 1000 * v)
  let zvb := if v < setN s 0x4204 2 then false else s.ps.zvb || (s.ps.chopF && decide (v > setN s 0x4204 3))
  let s := { s with
    ps.vmot := min 65535 (v / 10), ps.peak := max s.ps.peak (min 65535 (v / 10)), ps.chopOn := on,
    ps.chopLow := (if low then s.ps.chopLow + 1 else 0), ps.chopMv := (if on then (v :: s.ps.chopMv).take 97 else []),
    ps.chopPeak := (if s.ps.chopF then max s.ps.chopPeak v else s.ps.chopPeak), ps.zvb := zvb }
  if zvb then zvLaw s else { s with ps.zvInt := 0 }

/-- The duties of a reel under zero-vector braking: the zero vector on the reel that runs ahead by more than 1 %, on the
other for the fraction k, which is 1 while the current predicted would flow into the bus (R434). -/
def zvDuty (s : State) (k : Reel) (r : ReelState) (duty : List Nat) : List Nat :=
  let back := decide (r.vD * r.iD + r.vQ * r.iQ < 0)
  if ahead s (surface k r).v || back then [0, 0, 0] else duty.map fun d => d * (65536 - s.ps.zvK) / 65536

/-! ## Nightwatch's work of a period (R434, R435, R437, R440) -/

/-- Surface speed of a reel from the frequency of its short-circuit currents: f / 8 times its radius, Q1.31 of 16 m/s (R440). -/
def scSpeed (r : ReelState) : Int := (qSat (37699112 / (max 1 (max r.scGap r.scAge)) * r.radius / 250000 : Nat)).v

/-- Nightwatch's tension at a reel, from its current amplitude, the tach acceleration and its radius, in the form of R391 (R440). -/
def scTension (s : State) (k : Reel) (r : ReelState) : Qv :=
  if r.radius = 0 then ⟨0, false⟩
  else
    let amp : Int := Nat.sqrt (r.iD * r.iD + r.iQ * r.iQ).toNat
    (pull s k r (qSat amp)).sub (inertial r (sideOf k * divRound ((s.ce.vtach - s.nw.vWas) * 6000000000) r.radius))

/-- The zero-vector fractions of BRAKE, set at 24 kHz: fixed for the faulted reel, or all of it after a gate driver fault; a PI law on the
surface speeds for the other; moved by the tension estimate, by how much being left open; all ones above Overvoltage until Chopper off, and
while the chopper is faulty (R434, R435, R438, R440; log 48). -/
def brakeFractions (s : State) (x : CeSample) : State :=
  let est := (qSat (divRound (scTension s .supply s.ce.sup).v 2)).add (qSat (divRound (scTension s .takeup s.ce.tkp).v 2))
  let s := { s with nw.vWas := s.ce.vtach, nw.tension := est.v }
  if s.nw.state ≠ 1 then { s with nw.kInt := 0 }
  else
    let full := if x.vmotMv > setN s 0x4204 3 then true else s.nw.kFull && decide (x.vmotMv > setN s 0x4204 2)
    let supplyFault := s.nw.reelS || !s.nw.reelT
    let leavesS := decide (s.ce.vtach ≥ 0)
    let fixed := fun leaves : Bool => if leaves || s.nw.causes.contains 0x13 then 65536 else 39322
    let e := if supplyFault then scSpeed s.ce.tkp - scSpeed s.ce.sup else scSpeed s.ce.sup - scSpeed s.ce.tkp
    let k := fractionLaw Config.brakeGains e s.nw.kInt
    let ks := if supplyFault then fixed leavesS else k.1
    let kt := if supplyFault then k.1 else fixed (!leavesS)
    let f := freshFree { s with nw.kInt := k.2 }
    let s := f.2
    let low := fun n => min n ((Config.freeWord f.1).toNat % 65537)
    let slack := decide (2 * s.nw.tension < fSet s)
    let tight := decide (s.nw.tension > (tensQ (setN s 0x4200 4)).v)
    let up := if slack then some leavesS else if tight then some (!leavesS) else none
    let ks := match up with | some true => 65536 | some false => low ks | none => ks
    let kt := match up with | some true => low kt | some false => 65536 | none => kt
    let ks := if s.nw.causes.contains 0x13 && s.nw.reelS then 65536 else ks
    let kt := if s.nw.causes.contains 0x13 && s.nw.reelT then 65536 else kt
    let all := full || s.ps.chopF
    { s with nw.kFull := full, nw.kS := if all then 65536 else ks, nw.kT := if all then 65536 else kt }

/-- What the half-bridges of a reel do from now on (Table 14.1): in WATCH what CE puts out, nothing while its outputs are disabled; under a
grant nothing but the zero vector or no switch at all (R395, R437, R486; log 143). -/
def reelDrive (s : State) (k : Reel) (r : ReelState) : Drive :=
  if s.nw.inReset then .off
  else match s.nw.state with
    | 0 => if !s.ce.run then .off else if s.nw.grant then .zero else .duties
    | 1 => .brake (match k with | .supply => s.nw.kS | .takeup => s.nw.kT)
    | 2 => .zero
    | 3 => if s.nw.grant then .zero else .hold (tensCurrent s k r ⟨fSet s, false⟩).v
    | _ => .off

/-- Both reels' drives. -/
def setDrives (s : State) : State :=
  { s with
    ce.sup := { s.ce.sup with drive := reelDrive s .supply s.ce.sup }, ce.tkp := { s.ce.tkp with drive := reelDrive s .takeup s.ce.tkp } }

/-! ## The writer at rest (Table 9.4) -/

/-- STOP ends in IDLE at rest; HALTED ends in IDLE once motion is safe and writing is allowed again. -/
def writerAtRest (s : State) : State :=
  if s.ce.vref ≠ 0 ∨ s.ce.aref ≠ 0 ∨ s.ce.posmode then s
  else if s.fm.wstate = 5 then { s with fm.wstate := 0, ce.owner := if s.ce.owner = 1 then 0 else s.ce.owner }
  else if haltOver s ∧ (tapeFault s).isNone then { s with fm.wstate := 0 }
  else s

/-! ## The period (R382 to R385) -/

/-- Tape moved since the last period, in nm. -/
def tachDist (s : State) (x : CeSample) : Int := divRound (x.tachCount * setN s 0x4201 9 * 1000) (setN s 0x4201 10)

/-- One reel in every period: currents, offsets, thermal state, observer, angle, current loops. A predicted period counts once for each
reel (R422; log 144). -/
def reelPeriod (s : State) (k : Reel) (x : ReelSample) (dist : Int) (vmot flag : Nat) : State :=
  let c := currents s k (offsets s (shortCircuit (reelOf s k) x) x) x vmot
  let r := angle s k (observe s k (thermal c.1) vmot) x dist
  let l := currentLoops s r (if s.ps.zvb then 0 else r.iref) vmot
  let oc := fun r : ReelState => { r with ocRun := (if r.ocNow then r.ocRun else 0), ocNow := false }
  let s := if c.2 then { s with ps.pred := satAdd 65535 s.ps.pred 1 } else s
  satFlag (modReel s k fun _ => oc l.1) flag l.2

/-- Nightwatch follows the tach by itself (R437). -/
def stillPeriod (s : State) (x : CeSample) : State :=
  { s with nw.still := (if x.tachCount = 0 then s.nw.still + 1 else 0), nw.atRest := s.nw.atRest && x.tachCount == 0 }

/-- The tape length, the tach, LPOS in COAST, and illegal transitions of a period (R360, R389, R392, R394). -/
def tachPeriod (s : State) (x : CeSample) : State :=
  let dist := tachDist s x
  let lT := if s.sv.state = 2 ∧ s.sv.lposOk then s.ce.l0 + 200000 * s.sv.lpos else s.ce.lT + dist
  { s with
    ce.lT := lT, sv.lpos := (if s.sv.state = 3 ∧ s.sv.lposOk then (divRound (lT - s.ce.l0) 200000).toNat else s.sv.lpos),
    ce.counts := s.ce.counts + x.tachCount, ce.edgeNow := (if x.tachCount = 0 then s.ce.edgeNow else x.tachEdge),
    ce.illegal := List.replicate x.tachIllegal 0 ++ (s.ce.illegal.map fun a => a + 1).filter fun a => decide (a < 96), ce.actMa := x.actMa }

/-- Halls that cannot stand in for a lost observer, and VMOT above the hard limit, make Nightwatch act in the same period
(R429, R434). -/
def nightwatchPeriod (s : State) (x : CeSample) : State :=
  let bad := fun r : ReelState => r.obsLost && !hallsUsable s r
  let s := if bad s.ce.sup ∨ bad s.ce.tkp then
      let s' := safeStop s 0x10 (bad s.ce.sup) (bad s.ce.tkp)
      { s' with ce.sup.angleKnown := s'.ce.sup.angleKnown && !bad s.ce.sup, ce.tkp.angleKnown := s'.ce.tkp.angleKnown && !bad s.ce.tkp }
    else s
  if x.vmotMv > s.nw.hardLimit then safeStop s 0x11 false false else s

/-- CE runs its periods, which are numbered from Lodestar's start: the end of stage 1, when its image has been verified (R382, R516;
log 145). -/
def ceRuns (s : State) : Bool := s.glb.bootAt.isSome && decide (2 ≤ s.glb.stage)

/-- What a reel gets latched in a period: CE's duties, the zero vector while its outputs are disabled, or those of zero-vector braking. -/
def newDuty (s : State) (k : Reel) (vmot : Nat) : List Nat :=
  let r := reelOf s k
  let d := duties s r vmot
  if !s.ce.run then [0, 0, 0] else if s.ps.zvb then zvDuty s k r d else d

/-- The outputs of a period latched: the new ones, or where they are late those of the period before; the duties applied till now are kept for
the prediction (R383, R384, R423). -/
def latch (s : State) (x : CeSample) (actOut : Int) : State :=
  let one := fun (k : Reel) (r : ReelState) => { r with dutyWas := r.duty, duty := if x.late then r.duty else newDuty s k x.vmotMv }
  { s with
    ce.sup := one .supply s.ce.sup, ce.tkp := one .takeup s.ce.tkp, ce.actOut := (if x.late then actOut else s.ce.actOut),
    ce.period := s.ce.period + 1, ce.ovrRun := if x.late then s.ce.ovrRun + 1 else 0,
    ce.ovr := if x.late then satAdd 65535 s.ce.ovr 1 else s.ce.ovr }

/-- BASE_PERIOD. -/
def basePeriodS (s : State) (x : CeSample) : State :=
  if !ceRuns s then brakeFractions (stillPeriod s x) x
  else
    let n := s.ce.period.toNat
    let dist := tachDist s x
    let old := s.ce.actOut
    let s := busVoltage (tachPeriod (stillPeriod s x) x) x
    let s := reelPeriod (reelPeriod s .supply x.s dist x.vmotMv 0) .takeup x.t dist x.vmotMv 1
    let s := if n % 4 = 0 then brakeFractions (loopSlot (modelSlot s)) x else s
    let s := if n % 2 = 1 then actuatorSlot s else s
    let s := latch s x old
    let s := if x.late then faultRec s 0x0B false noUnit 0 0 else s
    let s := if s.ce.ovrRun ≥ 2 then safeStop s 5 false false else s
    writerAtRest (setDrives (nightwatchPeriod s x))

end Sys2Proof.Machine
end

