-- ==== Sys2Proof/Machine/Admit.lean ====
section
/-! DEFINITION. Admission: how a queue entry becomes a command in flight, or ends at once with the status of the first check
it fails (R38, R64, R68 to R75, R78, R103, R106, R122, R127, R497, R504). -/

namespace Sys2Proof.Machine

/-- An admin command other than EVENT_WAIT of queue g is still running (R75). -/
def adminBusy (s : State) (g : Nat) : Bool := (cmdsOf s g).any fun c => opcode c.sqe != 0x3F && isAdminOp (opcode c.sqe)

/-- An admin command other than EVENT_WAIT waits: the previous one of its queue is running, or firmware activation holds admin
commands (R75, R542). -/
def adminBlocked (s : State) (g : Nat) : Bool := adminBusy s g || s.fw.holdAt.isSome

/-- Queue q gives up an entry now: it is created, neither frozen nor in a reset nor being deleted, its function is ENABLED,
in D0 (R94), Lodestar is up or held by Twilight, and there is room in flight, in its CQ and among the range locks (R68, R71,
R72, R75, R78, R497). -/
def mayAdmit (s : State) (q : Queue) : Bool :=
  !q.frozen && !q.resetBusy && q.deleting.isNone && (fnOf s q.fn).state == 1 && !(fnOf s q.fn).d3hot && s.glb.restarting.isNone &&
    decide (inFlight s < 65536) && decide ((cmdsOf s q.g).length + unreleased q + 2 ≤ q.cqDepth) &&
    !(q.cls == 1 && decide (s.qe.locks.length ≥ 4096))

/-- What admission makes of an entry. -/
inductive Adm where
  /-- nothing is admitted -/
  | none
  /-- the command has ended -/
  | over (s : State)
  /-- the command is in flight -/
  | run (s : State) (c : Cmd)
deriving DecidableEq, Repr

/-- The command an entry of queue q becomes. -/
def newCmd (s : State) (q : Queue) (u : Sub) : Cmd :=
  let f := fnOf s q.fn
  { id := s.qe.nextId, fn := q.fn, q := q.g, sqe := u.sqe, epoch := q.epoch.toNat, since := s.now, time := meridian s,
    prio := get s.qe.qprio q.g 2, kbase := f.kbase, kcount := f.kcount, both := mirroring s && setN s 0x6001 3 == 0 }

/-- The issuing function may not give this command: PF0 only, a partition outside its mask, a stream or a key slot outside
its windows (R38, R106, R122). -/
def denied (s : State) (fn : Nat) (w : SqeBits) : Bool :=
  let f := fnOf s fn
  let o := opcode w
  let keyOut := !(decide (f.kbase ≤ keySlot w ∧ keySlot w < f.kbase + f.kcount))
  (pf0Only o && fn != 0) || ((namesPartition o) && !f.pmask.getLsbD (partition w)) ||
    ((o == 0x20 || o == 0x21) && keyOut) ||
    (isIoOp o &&
      (!f.pmask.getLsbD (partition w) || stream w &&& f.mask != f.prefix_ ||
        ([0x40, 0x41, 0x42].contains o && tagBit w && keyOut)))

/-- The first failing check of the entry itself: Twilight, the opcode against the queue class, fields, windows (R74, R103,
R127 steps 1 to 4); an INVALID_FIELD names the failing byte (log 79). -/
def entryCheck (s : State) (q : Queue) (u : Sub) : Except (Nat × Nat) (List DescBits) :=
  let o := opcode u.sqe
  if s.glb.twilight.isSome then .error (stTwilight, 0)
  else if (if q.cls = 2 then !isAdminOp o else !isIoOp o) then .error (stInvalidOpcode, 0)
  else match fieldCheck u.sqe u.list with
    | .error b => .error (stInvalidField, b)
    | .ok ds => if denied s q.fn u.sqe then .error (stAccessDenied, 0) else .ok ds

/-- An entry is admitted, as far as the checks of the entry itself go. A second SET_POWER is not held behind a deferred one: it
ends (R93). -/
def admitOne (s : State) (u : Sub) : Adm :=
  match queueOf s u.q with
  | none => .none
  | some q =>
    if !mayAdmit s q ||
        (isAdminOp (opcode u.sqe) && opcode u.sqe != 0x3F && !(opcode u.sqe == 0x05 && s.glb.setPower.isSome) &&
          adminBlocked s q.g) then .none
    else
      let s := if listReadFailed u.sqe u.list then emit s (.aerReport q.fn) else s
      let c := newCmd s q u
      let s := { s with qe.nextId := s.qe.nextId + 1, qe.cmds := s.qe.cmds ++ [c] }
      match entryCheck s q u with
      | .error e => .over (finish s c { status := e.1, d1 := e.2 })
      | .ok ds => .run (setCmd s { c with descs := ds }) { c with descs := ds }

/-- One command of a given opcode: admitted, it goes on with k; else nothing happens or it has ended. -/
def runCmd (s : State) (op : Nat) (u : Sub) (k : State → Cmd → State) : State :=
  if opcode u.sqe ≠ op then s
  else match admitOne s u with
    | .none => s
    | .over t => t
    | .run t c => k t c

/-- A command's data goes to the host buffers its descriptors name. -/
def toHost (s : State) (c : Cmd) (bs : List Byte) : State := dmaOut s c (scatter c.descs bs)

end Sys2Proof.Machine
end

