-- ==== Sys2Proof/Machine/PairForm.lean ====
section
/-! DEFINITION. The comparison of a pair's cartridges, the catch-up of the secondary, and divergence (R457, R458). -/

namespace Sys2Proof.Machine

/-- The highest committed version the Almanac names in a partition. -/
def committedTop (s : State) (p : Nat) : Nat :=
  maxOf 0 ((s.fm.almanac.filter fun e => e.part == p).map Extent.version)

/-- The mirror watermark of a partition's latest checkpoint on tape; none stands for all ones (R458, Table 5.6). -/
def ckptMark (s : State) (p : Nat) : Option Nat :=
  (((copiesIn s p).filter fun t => t.complete && t.ds.ckpt.isSome).foldl (fun (b : Option TapeDs) t =>
    match b with | some u => if u.ds.seq ≤ t.ds.seq then some t else b | none => some t) none).bind fun t =>
      t.ds.ckpt.bind Ckpt.watermark

/-- A partition holds extents above the mirror watermark of its latest checkpoint (R458). -/
def divergedPart (s : State) (x : Part) : Bool :=
  match ckptMark s x.num with
  | some w => s.fm.almanac.any fun e => e.part == x.num && decide (e.version > w)
  | none => false

/-- A unit that takes the secondary role reads the watermark of each partition's latest checkpoint, and flags what lies above it (R458). -/
def markDiverged (s : State) : State :=
  { s with fm.parts := s.fm.parts.map fun x => { x with watermark := ckptMark s x.num, diverged := divergedPart s x } }

/-- The partition tables of the two volume labels agree: number, state, FIRSTPAIR, PAIRS and name of every partition (R457). -/
def tablesEqual (s : State) (i : PeerInfo) : Bool :=
  let own := match s.media.cart.bind volOf with
    | some v => v.entries.map fun (e : VolEntry) => (e.num, e.st, e.firstPair, e.pairs, fit 32 e.name)
    | none => []
  let peer := i.tables.map fun e => (e.1, e.2.1, e.2.2.1, e.2.2.2.1, fit 32 e.2.2.2.2)
  own.all peer.contains && peer.all own.contains

/-- The version the peer holds in a partition. -/
def peerTop (s : State) (p : Nat) : Nat := get s.pl.peerCommitted p 0

/-- Why a pair does not mirror (R457): tables, one cartridge, divergence, and a secondary that lacks versions which a
host-indexed partition cannot name through the Almanac (log 80). -/
def pairReason (s : State) (i : PeerInfo) : Nat :=
  let mounted := s.media.mount == 1 || s.media.mount == 2
  if mounted != i.mounted then 2
  else if mounted && !tablesEqual s i then 1
  else if !s.pl.peerDiverged.isEmpty || (s.pl.role == 2 && s.fm.parts.any Part.diverged) then 5
  else if s.pl.role == 1 && (s.fm.parts.any fun x => x.hostIndexed && decide (peerTop s x.num < x.version)) then 4
  else 0

/-- Extents by the records they lie in, each record once. -/
def oncePerRecord (es : List Extent) : List Extent :=
  es.foldl (fun l e => if l.any fun f => f.seq == e.seq && f.index == e.index then l else l ++ [e]) []

/-- The catch-up of one partition: every live extent above the peer's version is to go again as a RECORD, then a PIECE_COMMIT for
every piece it completes (R457). -/
def catchUpPart (s : State) (p : Nat) : State :=
  let es := s.fm.almanac.filter fun e => e.part == p && decide (e.version > peerTop s p)
  let rs := (oncePerRecord es).filterMap (recordAt s)
  let keys := rs.foldl (fun (l : List (StreamId × Nat × Nat)) r =>
    if l.contains (r.stream, r.version, r.piece) then l else l ++ [(r.stream, r.version, r.piece)]) []
  let commits := keys.map fun k =>
    Msg.pieceCommit p k.1 k.2.1 k.2.2 (rs.countP fun r => r.stream == k.1 && r.version == k.2.1 && r.piece == k.2.2)
  { s with
    pl.catchQ := s.pl.catchQ ++ rs.map (Msg.record p) ++ commits,
    pl.unverified := s.pl.unverified ++ keys.map fun k => (p, k.1, k.2.1, k.2.2) }

/-- A mirroring primary brings its secondary up to date; the mirror watermark starts at what the peer holds (R457, R458)
(log 81). -/
def catchUp (s : State) : State :=
  let late := s.fm.parts.filter fun x => decide (peerTop s x.num < committedTop s x.num)
  let s := late.foldl (fun s x => catchUpPart s x.num) s
  goOnCatch { s with pl.catchup := true }

/-- The tables and versions are compared; a primary that may mirror brings its secondary up to date (R457). -/
def comparePair (s : State) (i : PeerInfo) : State :=
  if s.pl.role = 0 then s
  else
    let s := { s with pl.peerCommitted := i.committed }
    let n := pairReason s i
    if n = 0 then
      let s := { s with pl.reason := 0 }
      if s.pl.role = 1 then catchUp s else s
    else if mirroring s then breakPair s n
    else { s with pl.reason := n }

end Sys2Proof.Machine
end

