-- ==== Sys2Proof/Machine/RollForward.lean ====
section
/-! DEFINITION. What a MOUNT reads of a partition: label copies, checkpoint chains, roll-forward to end of data, the append
point, the pieces it finds and the version the sequence continues from (R26, R49, R179, R184, R269, R351, R509, R525 to
R528). -/

namespace Sys2Proof.Machine

/-! ## Copies -/

/-- Copies of partition p's datasets on its own wraps. -/
def copiesOf (c : Cart) (p first pairs : Nat) : List TapeDs :=
  c.tape.filter fun t => t.ds.part == p && decide (2 * first ≤ t.wrap ∧ t.wrap < 2 * (first + pairs))

/-- A copy can be read, with read recovery where needed: its 32 slots were written, and nothing else keeps it from being read
(R288, R509; log 68). -/
def copyReads (w : MountWorld) (t : TapeDs) : Bool := decide (32 ≤ t.slots) && !w.unreadable.contains (t.ds.part, t.ds.seq)

/-- The newest copy of SEQ q among some. -/
def newestOf (ts : List TapeDs) (q : Nat) : Option TapeDs :=
  ts.foldl (fun b t =>
    if t.ds.seq ≠ q then b
    else match b with
      | some x => if x.attempt ≤ t.attempt then some t else b
      | none => some t) none

/-- How far along its wrap a copy lies. -/
def along (t : TapeDs) : Nat := if isForward t.wrap then t.pos else posOf lpEnd - t.pos

/-- A comes before b along the serpentine. -/
def serpBefore (a b : TapeDs) : Bool := decide (a.wrap < b.wrap) || (a.wrap == b.wrap && decide (along a < along b))

/-- The first copy along the serpentine. -/
def firstCopy (ts : List TapeDs) : Option TapeDs :=
  ts.foldl (fun b t => match b with | some x => if serpBefore t x then some t else b | none => some t) none

/-- The last copy along the serpentine. -/
def lastCopy (ts : List TapeDs) : Option TapeDs :=
  ts.foldl (fun b t => match b with | some x => if serpBefore x t then some t else b | none => some t) none

/-! ## Labels (R266, R269, R524) -/

/-- A label copy of the partition reads live: copy 0 lies on wrap 2k, copy 1 on wrap 2k + 1. -/
def labelReads (rs : List TapeDs) (e : VolEntry) (copy : Nat) : Option LabelBody :=
  (rs.find? fun t => match t.ds.label with
    | some l => l.live && l.copy == copy && l.firstPair == e.firstPair && l.pairs == e.pairs && l.part == e.num
    | none => false).bind fun t => t.ds.label

/-- A label copy of the partition reads deleted: the partition is absent (R267). -/
def labelDeleted (rs : List TapeDs) (e : VolEntry) : Bool :=
  rs.any fun t => match t.ds.label with
    | some l => !l.live && l.firstPair == e.firstPair && l.pairs == e.pairs && l.part == e.num
    | none => false

/-- Copy 1 is read only when copy 0 is unreadable or not live. -/
def labelOf (rs : List TapeDs) (e : VolEntry) : Option LabelBody := (labelReads rs e 0).or (labelReads rs e 1)

/-! ## Checkpoint chains (R183, R184) -/

/-- The checkpoint dataset that begins checkpoint f. -/
def ckptFirst (rs : List TapeDs) (f : Nat) : Option Ckpt :=
  (newestOf rs f).bind fun t => t.ds.ckpt.bind fun c => if c.index = 0 then some c else none

/-- The readable datasets of checkpoint f: each names f as its end of data at seal. -/
def ckptMembers (rs : List TapeDs) (f : Nat) : List TapeDs :=
  rs.filter fun t => match t.ds.ckpt with | some c => c.eod == f | none => false

/-- Every dataset of checkpoint f is readable. -/
def ckptWhole (rs : List TapeDs) (f : Nat) : Bool :=
  match ckptFirst rs f with
  | none => false
  | some c => (List.range c.count).all fun i =>
      (ckptMembers rs f).any fun t => match t.ds.ckpt with | some d => d.index == i | none => false

/-- The chain of checkpoint f from its base on, oldest first. -/
def ckptChain (rs : List TapeDs) : Nat → Nat → Option (List Nat)
  | 0, _ => none
  | fuel + 1, f =>
    if !ckptWhole rs f then none
    else match ckptFirst rs f with
      | none => none
      | some c =>
        if !c.delta then some [f]
        else match c.prev with
          | none => none
          | some g => (ckptChain rs fuel g).map fun l => l ++ [f]

/-- Two extents name the same record. -/
def sameExtent (a b : Extent) : Bool := a.stream == b.stream && a.offset == b.offset && a.version == b.version

/-- Extents with later ones put in place of those of the same record. -/
def mergeExtents (base new : List Extent) : List Extent :=
  base.filter (fun a => !new.any fun b => sameExtent a b) ++ new

/-- Extents of a list of checkpoints. -/
def ckptExtents (rs : List TapeDs) (fs : List Nat) : List Extent :=
  fs.foldl (fun l f => mergeExtents l ((ckptMembers rs f).flatMap fun t => (t.ds.ckpt.map Ckpt.extents).getD [])) []

/-- First SEQs of the checkpoints that can be read at their start. -/
def ckptFirsts (rs : List TapeDs) : List Nat :=
  (rs.filter fun t => (ckptFirst rs t.ds.seq).isSome).map fun t => t.ds.seq

/-- The latest checkpoint up to SEQ top whose chain can be loaded. -/
def bestCkpt (rs : List TapeDs) (top : Nat) : Option Nat :=
  ((ckptFirsts rs).filter fun f => decide (f ≤ top) && (ckptChain rs (rs.length + 1) f).isSome).foldl
    (fun b f => match b with | some g => some (max g f) | none => some f) none

/-! ## The search of R525 -/

/-- The checkpoint that the mount record names, when a checkpoint with that SEQ lies there; else the one that LASTCKPT of the
first dataset of the last written wrap names, or SEQ 512. -/
def ckptCandidate (recs : List MountRec) (serial : List Byte) (ts rs : List TapeDs) (p first : Nat) : Nat :=
  let known := recs.find? fun r => r.serial == serial && r.part == p &&
    rs.any fun t => t.ds.seq == r.seq && t.ds.ckpt.isSome && t.wrap == r.wrap && t.lpos == r.lpos
  match known with
  | some r => r.seq
  | none =>
    let data := ts.filter fun t => decide (t.ds.seq ≥ 512)
    let w := maxOf (2 * first) (data.map TapeDs.wrap)
    let head := rs.find? fun t => t.wrap == w && t.pos == wrapStart first w
    (head.bind fun t => t.ds.lastCkpt).getD 512

/-! ## Roll-forward (R526, R509) -/

/-- Datasets on tape that cannot be read, with one that can within the next 5 SEQs: a whole-dataset rewrite of the first was still to
come, and the completed writes behind it stay (R47, R526); and checkpoint datasets with any readable one behind them (R184)
(log 112). -/
def passedOver (ts rs : List TapeDs) : List Nat :=
  (ts.filter fun t => !(rs.any fun u => u.ds.seq == t.ds.seq) &&
    rs.any fun u => decide (t.ds.seq < u.ds.seq) && (t.ds.ckpt.isSome || decide (u.ds.seq ≤ t.ds.seq + 5))).map fun t => t.ds.seq

/-- The last SEQ accepted from q on, e so far (log 69). -/
def acceptFrom (rs : List TapeDs) (ab : List Nat) : Nat → Nat → Nat → Nat
  | 0, _, e => e
  | fuel + 1, q, e =>
    if ab.contains q then acceptFrom rs ab fuel (q + 1) e
    else if rs.any fun t => t.ds.seq == q then acceptFrom rs ab fuel (q + 1) q
    else e

/-- End of data as roll-forward finds it. -/
structure Eod where
  /-- last accepted SEQ and the SEQ of the next dataset -/
  last : Nat
  next : Nat
  /-- append point -/
  wrap : Nat
  pos  : Nat
  /-- the unrecoverable dataset given up (R509) -/
  gone : Option Nat
deriving DecidableEq, Repr

/-- End of data after SEQ e: a P0 without its P1 is not kept, and an unrecoverable dataset that follows on the same wrap is
abandoned and overwritten from its slot 0, a parity dataset without being abandoned. -/
def endOfData (ts rs : List TapeDs) (ab : List Nat) (first e : Nat) : Eod :=
  let isP0 : Bool := match newestOf rs e with | some t => t.ds.kind == .parity && t.ds.spanIdx == 0 | none => false
  let e' := if isP0 then e - 1 else e
  let at_ := match lastCopy (ts.filter fun t => t.ds.seq == e') with
    | some t => (t.wrap, advance t.wrap t.pos t.slots)
    | none => (2 * first, wrapStart first (2 * first))
  let after := ts.filter fun t => t.ds.seq == e' + 1 && !ab.contains t.ds.seq
  match firstCopy after with
  | some t =>
    let parity : Bool := t.ds.kind == DsKind.parity
    if t.wrap ≠ at_.1 then { last := e', next := e' + 1, wrap := at_.1, pos := at_.2, gone := none }
    else if parity then { last := e', next := e' + 1, wrap := t.wrap, pos := t.pos, gone := none }
    else { last := e', next := e' + 2, wrap := t.wrap, pos := t.pos, gone := some (e' + 1) }
  | none => { last := e', next := maxOf e' (ab.filter fun q => decide (q ≤ e' + 8)) + 1, wrap := at_.1, pos := at_.2, gone := none }

/-- Readable copies of datasets with records or MARKERs from SEQ o to SEQ e, the newest of each. -/
def acceptedDs (rs : List TapeDs) (ab : List Nat) (o e : Nat) : List TapeDs :=
  rs.filter fun t => decide (o ≤ t.ds.seq ∧ t.ds.seq ≤ e) && t.ds.kind != .parity && !ab.contains t.ds.seq &&
    newestOf rs t.ds.seq == some t

/-- A RECORD entry as roll-forward sees it. -/
structure Found where
  x  : Extent
  piece : Nat
  hostIndexed : Bool
deriving DecidableEq, Repr

/-- The RECORD entries of some datasets. -/
def foundIn (ds : List TapeDs) : List Found :=
  ds.flatMap fun t => t.ds.recs.zipIdx.map fun r =>
    { x := { part := t.ds.part, stream := r.1.stream, offset := r.1.offset, length := r.1.olen, version := r.1.version,
             seq := t.ds.seq, index := r.2 }, piece := r.1.piece, hostIndexed := t.ds.hostIndexed }

/-- Records counted once each, the copy in the higher SEQ kept; one that has a copy from before host-indexed mode was written before it
(R44, R351). -/
def keepLatest (fs : List Found) : List Found :=
  fs.foldl (fun l f =>
    match l.find? fun g => sameExtent g.x f.x with
    | some g =>
      let both := g.hostIndexed && f.hostIndexed
      l.map fun h => if h = g then { (if g.x.seq < f.x.seq then f else g) with hostIndexed := both } else h
    | none => l ++ [f]) []

/-- The records of the piece a MARKER names. -/
def pieceOf (fs : List Found) (m : Marker) : List Found :=
  fs.filter fun f => f.x.stream == m.stream && f.x.version == m.version && f.piece == m.piece

/-- A MARKER's record count matches (R179). -/
def countMatches (fs : List Found) (m : Marker) : Bool := (pieceOf fs m).length == m.records

/-- Every lower piece of the same WRITE is included too: through its own MARKER, or captured by the checkpoints (R179). -/
def lowerIncluded (fs : List Found) (ms : List Marker) (chain : List Extent) (m : Marker) : Bool :=
  (List.range m.piece).all fun j =>
    (ms.any fun k => k.stream == m.stream && k.version == m.version && k.piece == j && countMatches fs k) ||
      (let start := m.offset - pieceSize * (m.piece - j)
       chain.any fun e => e.stream == m.stream && e.version == m.version && decide (e.offset ≤ start ∧ start < e.offset + e.length))

/-- Extents that roll-forward adds to those of the chain: of the pieces it includes, and of records found again in a higher
SEQ (R179, R351). -/
def rolledExtents (all : List Found) (ms later : List Marker) (chain : List Extent) (o : Nat) : List Extent :=
  let inc := later.filter fun m => countMatches all m && lowerIncluded all ms chain m
  let new := (inc.flatMap (pieceOf all)).filterMap fun f => if f.hostIndexed then none else some f.x
  let moved := (all.filter fun f => decide (f.x.seq ≥ o) &&
    chain.any fun e => sameExtent e f.x && decide (e.seq < f.x.seq)).map Found.x
  (mergeExtents new moved).filter fun e => !chain.contains e

/-! ## One partition -/

/-- What a MOUNT makes of a partition. -/
structure Rolled where
  part : Part
  extents : List Extent
  /-- the members of the open span as read back (R49) -/
  members : List Dataset
  /-- position map entries -/
  map  : List (Nat × Nat × Nat × Nat)
  /-- no checkpoint could be loaded (R528); an earlier one was used (R184); closed by UNMOUNT (R527) -/
  unloadable : Bool
  skipped : Bool
  closed : Bool
deriving DecidableEq, Repr

/-- Roll-forward of a partition whose table entry and label have been read. -/
def rollPart (recs : List MountRec) (serial : List Byte) (c : Cart) (w : MountWorld) (e : VolEntry) (l : Option LabelBody)
    (now : Nat) : Rolled :=
  let ts := copiesOf c e.num e.firstPair e.pairs
  let readable := ts.filter (copyReads w)
  let ab := readable.flatMap fun t => t.ds.abandoned
  let rs := readable.filter fun t => !ab.contains t.ds.seq
  let cand := ckptCandidate recs serial ts rs e.num e.firstPair
  let start := bestCkpt rs cand
  let begin_ := match start with
    | some f => maxOf f ((ckptMembers rs f).map fun t => t.ds.seq)
    | none => 511
  let ov := passedOver ts rs
  let z := endOfData ts rs ab e.firstPair (acceptFrom rs (ab ++ ov) (ts.length + ab.length + ov.length + 1) (begin_ + 1) begin_)
  let best := match start with | some f => (bestCkpt rs z.last).or (some f) | none => none
  let chain := (best.bind (ckptChain rs (rs.length + 1))).getD []
  let ck := best.bind (ckptFirst rs)
  let o := (ck.map Ckpt.origin).getD 512
  let loaded := if best.isSome then ckptExtents rs chain else ckptExtents rs (ckptFirsts rs)
  let all := keepLatest (foundIn (acceptedDs rs ab 512 z.last))
  let ms := (acceptedDs rs ab 512 z.last).flatMap fun t => t.ds.markers
  let later := (acceptedDs rs ab o z.last).flatMap fun t => t.ds.markers
  let added := rolledExtents all ms later loaded o
  let lastMember := match best with
    | some f => maxOf f ((ckptMembers rs f).map fun t => t.ds.seq)
    | none => 511
  let tail := rs.filter fun t => decide (lastMember < t.ds.seq ∧ t.ds.seq ≤ z.last) && t.ds.kind != .parity
  let closed := (match ck with | some k => k.byUnmount | none => false) && tail.isEmpty && z.gone.isNone
  let top := maxOf ((ck.map Ckpt.maxVersion).getD 0) (readable.flatMap fun t => t.ds.recs.map Rec.version)
  let version := if closed then (ck.map Ckpt.maxVersion).getD 0 else (top / 2 ^ 32 + 1) * 2 ^ 32 - 1
  let endDs := newestOf rs z.last
  let open_ := match endDs with
    | some t => if t.ds.kind == DsKind.parity then none else some (t.ds.spanFirst, t.ds.spanIdx + 1)
    | none => none
  let span := match z.gone, open_ with
    | some q, none => some (q, 1)
    | some _, some s => some (s.1, s.2 + 1)
    | none, s => s
  let passed := ov.filter fun q => decide (begin_ < q ∧ q ≤ z.last) && !(ts.any fun t => t.ds.seq == q && t.ds.kind == .parity)
  let gone := passed.drop (passed.length + z.gone.toList.length - 8) ++ z.gone.toList
  let isMap := fun t : TapeDs => t.ds.seq % 64 == 0 || t.ds.ckpt.isSome || t.pos == wrapStart e.firstPair t.wrap ||
    !rs.any fun u => u.wrap == t.wrap && decide (t.ds.seq < u.ds.seq ∧ u.ds.seq ≤ z.last)
  let part : Part := {
    num := e.num, firstPair := e.firstPair, pairs := e.pairs, name := ((l.map LabelBody.name).getD e.name),
    labelWp := ((l.map LabelBody.wp).getD e.wp), faultWp := (ck.map Ckpt.faultProt).getD false,
    exhausted := (ck.map Ckpt.exhausted).getD false,
    hostIndexed := (ck.map Ckpt.hostIndexed).getD false || (acceptedDs rs ab o z.last).any fun t => t.ds.hostIndexed,
    version, nextSeq := z.next, span, pendingAb := gone, abandoned := ab ++ gone, lastCkpt := best,
    lastBase := chain.headD 512, sinceBase := chain.length - 1, baseNext := w.ckptRecovered.contains e.num,
    dataSince := rs.countP fun t => decide (lastMember < t.ds.seq ∧ t.ds.seq ≤ z.last) && t.ds.kind == .data,
    ckptAt := now, added, watermark := ck.bind Ckpt.watermark, wrap := z.wrap, pos := z.pos }
  { part, extents := mergeExtents loaded added,
    members := match span with
      | some (f, _) => (acceptedDs rs [] f z.last).map TapeDs.ds
      | none => [],
    map := ((rs.filter fun t => decide (512 ≤ t.ds.seq ∧ t.ds.seq ≤ z.last) && isMap t).map fun t =>
      (e.num, t.ds.seq, t.wrap, t.lpos)) ++ [(e.num, 256, 2 * e.firstPair, lpBot)],
    unloadable := best.isNone, skipped := start.any (fun f => decide (f ≠ cand)), closed }

end Sys2Proof.Machine
end

