-- ==== Sys2Proof/Machine/Media.lean ====
section
/-! DEFINITION. The cartridge: volume generations, MOUNT, UNMOUNT and the unload steps, PARTITION_CREATE and PARTITION_DELETE,
PARTITION_LIST, the library's requests and the mount records (R106, R107, R116 to R121, R265 to R271, R480, R493, R506, R522
to R529, R585). -/

namespace Sys2Proof.Machine

/-! ## How a media operation ends -/

/-- A media operation asked for by a command or a library request ends. -/
def mediaDone (s : State) (cmd lib : Option Nat) (st info : Nat) : State :=
  let s := match cmd with | some id => finishId s id { status := st, info } | none => s
  match lib with
  | some q => { s with fi.resSeq := q, fi.resStatus := st, fi.resState := 2 }
  | none => s

/-- s without a holder of the media lock. -/
def unlock (s : State) : State := { s with media.op := none, ce.media := false }

/-! ## Volume generations (R268 to R270) -/

/-- The cartridge serial: that of the volume label in force (R271). What IDENTIFY shows with nothing mounted the spec leaves open: the serial
of the cartridge in the loader, none without one (R108; log 148). -/
def serialOf (s : State) : List Byte := ((s.media.cart.bind volOf).map VolLabel.serial).getD []

/-- Entries of the next generation: a pending partition that exists turns live, one that does not is freed. -/
def settleEntries (live : Nat → Bool) (es : List VolEntry) : List VolEntry :=
  (es.filter fun e => e.st == 2 || live e.num).map fun e => { e with st := 2 }

/-- The 8 segments of a volume generation on a lane, each from the magnetisation that the one before it left: lane, repetition, flux
transitions; and the magnetisation they leave (R245, R250, R268). -/
def volumeLane (s : State) (wrap gen : Nat) (body : List Byte) (l : Nat) : List (Nat × Nat × List (Nat × Bool)) × Bool :=
  let pc := bits (currentSetting s (bandOf wrap) l 0).1 18 4
  (List.range 8).foldl (fun acc r =>
    let cb := segmentBits l
      (segHeadBytes { seq := gen, wrap, type := 3, attempt := 0, sub := 0, rewrite := 0, row := r } ++ body)
    (acc.1 ++ [(l, r, fluxOf pc false acc.2 0 cb)], polAfter acc.2 cb)) ([], s.fm.mag.getLsbD l)

/-- The volume slot of a generation is written on one of its wraps: the segments, the rest of the slot erased (R268). -/
def writeVolSlot (s : State) (wrap gen : Nat) (body : List Byte) : State :=
  let ls := (lanesIn s).map fun l => (l, volumeLane s wrap gen body l)
  emit (ls.foldl (fun s l => setMag s l.1 l.2.2) s) (.volumeSlot wrap (volumeLpos gen) (ls.flatMap fun l => l.2.1))

/-- The next volume generation is written on wraps 96 and 192, with its entries changed by f after the pending ones have been
settled. -/
def writeVolume (s : State) (live : Nat → Bool) (f : Nat → List VolEntry → List VolEntry) : State :=
  match s.media.cart with
  | none => s
  | some c =>
    match volOf c with
    | none => s
    | some v =>
      let g := v.gen + 1
      let n : VolLabel := { gen := g, serial := v.serial, entries := f g (settleEntries live v.entries) }
      let s := { s with media.cart := some { c with vols := n :: c.vols } }
      let body := volumeBody n Config.instanceNo.toNat (meridian s)
      writeVolSlot (writeVolSlot s 96 g body) 192 g body

/-- Partitions of the mounted cartridge are those that exist. -/
def liveNow (s : State) (p : Nat) : Bool := (partOf s p).any fun x => !x.shadow

/-! ## Mount records (R525) -/

/-- The mount record of a partition's latest checkpoint is stored; records of the 64 latest cartridges are kept. -/
def storeRecord (s : State) (p : Nat) : State :=
  let sn := serialOf s
  match (partOf s p).bind fun x => x.lastCkpt, s.media.cart with
  | some f, some _ =>
    match newestOf (copiesIn s p) f with
    | none => s
    | some t =>
      let rest := s.flash.mounts.filter fun r => !(r.serial == sn && r.part == p)
      let l := rest ++ [{ serial := sn, part := p, seq := f, wrap := t.wrap, lpos := t.lpos, at_ := s.now }]
      let serials := l.reverse.foldl (fun (a : List (List Byte)) r => if a.contains r.serial then a else a ++ [r.serial]) []
      { s with flash.mounts := l.filter fun r => (serials.take 64).contains r.serial }
  | _, _ => s

/-- MOUNT_RECORD_UPDATE: after a checkpoint has passed, at most once every 60 s. -/
def execMountRecordUpdate (part : Nat) (s : State) : Out :=
  .next (
    let sn := serialOf s
    let fresh := s.flash.mounts.any fun r => r.serial == sn && r.part == part && !elapsed s r.at_ 60000
    let same := s.flash.mounts.any fun r => r.serial == sn && r.part == part && (partOf s part).any fun x => x.lastCkpt == some r.seq
    if fresh || same || s.glb.restarting.isSome || s.glb.twilight.isSome then s else storeRecord s part)

/-! ## Unload (R585) -/

/-- What the write pipeline still holds of a cartridge is given back: WRITEs remembered for pieces whose outcome the next MOUNT settles,
records, open and sealed datasets (R178, R586). -/
def releaseWork (s : State) : State :=
  let s := (writesOf s).foldl (fun s c =>
    let s := c.bufs.foldl dropBuf s
    if c.dropped then removeCmd s c.id else s) s
  let s := s.fm.recs.foldl (fun s j => j.bufs.foldl dropRecBuf s) s
  let s := s.fm.parts.foldl (fun s x => releaseAll s (x.openDs.map OpenDs.buf).toList clsFm) s
  s.fm.sealed.foldl dropSealed s

/-- Nothing of a cartridge is mounted any more: partitions, Almanac, position map, hints and learned values go (R367, R376). -/
def forgetCart (s : State) : State :=
  let s := releaseWork s
  { s with
    fm.parts := [], fm.almanac := [], fm.posMap := [], fm.reallocs := [], fm.mirror := [], fm.recs := [], fm.sealed := [],
    fm.members := [], fm.late := [], fm.closeStep := 0,
    fm.wstate := 0, fm.closing := false, fm.gate := false, fm.current := none,
    rcl.hints := [], rcl.visits := [], rcl.run := [], rcl.batch := none, rcl.preempt := false, rcl.ending := false, rcl.inside := false,
    rcl.under := none, rcl.again := false, fm.servoTry := false, fm.again := false,
    rc.learned := [], media.revCal := [], media.revLearn := [], ce.media := false, ce.owner := 0,
    sv.state := 0, sv.lposOk := false, sv.pesOk := false }

/-- The tape has been unthreaded: the reels are switched off and the threader is home. -/
def unthreaded (s : State) : State :=
  { s with
    media.threaded := false, nw.sns := s.nw.sns ||| 4, nw.atRest := true, nw.permit := false, ce.run := false, ce.vref := 0,
    ce.aref := 0, ce.vtarget := 0, ce.posmode := false, ce.tref := 0,
    ce.sup := { s.ce.sup with mref := false }, ce.tkp := { s.ce.tkp with mref := false } }

/-- The unload steps from the point the tape has reached: the state they leave, and whether they failed. -/
def unloadSteps (s : State) (fails : Option Nat) (eject : Bool) : State × Bool :=
  let bad := fun n => fails == some n
  let s := setMount (forgetCart s) 0
  if s.media.threaded && (bad 1 || bad 2 || bad 3) then
    ({ s with ps.thrStall := s.ps.thrStall || bad 3 }, true)
  else
    let s := if s.media.threaded then unthreaded s else s
    if eject then
      if bad 4 then ({ s with ps.ldrAt := some s.now }, true)
      else
        (emit { s with media.seated := false, nw.atEject := true, nw.sns := s.nw.sns &&& 7 } (.motion 2), false)
    else (s, false)

/-! ## Alignment (R522) -/

/-- The correlation of a turn's currents with a reel's cogging table moved by a pole-pair offset, in millionths (log 129). -/
def cogMatch (xs ys : List Int) (o : Nat) : Int :=
  let ys := ys.drop (128 * o) ++ ys.take (128 * o)
  let n : Int := xs.length
  let sx := xs.sum
  let sy := ys.sum
  let vx := n * (xs.map fun x => x * x).sum - sx * sx
  let vy := n * (ys.map fun y => y * y).sum - sy * sy
  let cov := n * (List.zipWith (· * ·) xs ys).sum - sx * sy
  if vx ≤ 0 ∨ vy ≤ 0 then 0 else cov * 1000000 / (Nat.sqrt (vx * vy).toNat : Nat)

/-- Part 3 of the alignment step: the best of the 8 pole-pair offsets is adopted when its correlation is at least 0.6 and exceeds the
second best by at least 0.2; otherwise the reel has no mechanical reference (R522). -/
def alignTurn (s : State) (k : Reel) (xs : List Int) : State :=
  if xs.length ≠ 1024 then modReel s k fun r => { r with mref := false }
  else
    let t := odVal s 0x4210 (1 + reelIdx k)
    let ys := (List.range 1024).map fun i => signed 16 (unle (slice t (2 * i) 2))
    let cs := (List.range 8).map fun o => (cogMatch xs ys o, o)
    let best := cs.foldl (fun (b : Int × Nat) c => if b.1 < c.1 then c else b) (-1000001, 0)
    let second := (cs.filter fun c => c.2 != best.2).foldl (fun (b : Int) c => max b c.1) (-1000001)
    let ok := decide (best.1 ≥ 600000 ∧ best.1 - second ≥ 200000)
    modReel s k fun r => { r with mref := ok, polePair := if ok then (r.polePair + best.2) % 8 else r.polePair }

/-! ## Mount (R523, Table 18.4) -/

/-- The tape length on a reel in nm, from the tape's speed and the reel's: R = |v / ω|, L = π (R² − h²) / d (Table 18.4 step 7). -/
def lengthOn (s : State) (k : Reel) (v omega : Nat) : Int :=
  let r : Int := v * 1000000000 / omega
  let h : Int := 1000 * setN s 0x4201 (1 + reelIdx k)
  3141592653589793 * (r * r - h * h) / (1000000000000000 * setN s 0x4201 3)

/-- The partitions that exist, with what roll-forward makes of them (R267, R269). -/
def rollAll (s : State) (c : Cart) (v : VolLabel) (w : MountWorld) : List Rolled :=
  (v.entries.filter fun e =>
    let rs := (copiesOf c e.num e.firstPair e.pairs).filter (copyReads w)
    let first := (newestOf rs 512).any fun t => t.ds.ckpt.isSome
    !labelDeleted rs e && ((e.st == 2 && (labelOf rs e).isSome) || (e.st == 1 && first))).map fun e =>
      let rs := (copiesOf c e.num e.firstPair e.pairs).filter (copyReads w)
      rollPart s.flash.mounts v.serial c w e (labelOf rs e) s.now

/-- Datasets beyond end of data are overwritten by what a read-write mount writes next (R509) (log 73). -/
def dropBeyond (c : Cart) (rs : List Rolled) : Cart :=
  { c with
      tape := c.tape.filter fun t => !(rs.any fun r =>
      r.part.num == t.ds.part && decide (2 * r.part.firstPair ≤ t.wrap ∧ t.wrap ≤ r.part.lastWrap) &&
        decide (512 ≤ t.ds.seq) &&
        (decide (t.ds.seq ≥ r.part.nextSeq) || r.part.pendingAb.contains t.ds.seq)) }

/-- Step 11 for one partition: what was loaded enters the state; a version sequence that restarts too high is exhausted (R27). -/
def addRolled (s : State) (r : Rolled) : State :=
  let s := { s with
    fm.parts := s.fm.parts ++ [r.part], fm.almanac := s.fm.almanac ++ r.extents, fm.posMap := s.fm.posMap ++ r.map,
    fm.members := s.fm.members ++ r.members }
  let s := checkExhausted s r.part.num
  let s := if r.skipped then setSubst s 7 else s
  if r.unloadable then faultProtect s r.part.num else s

/-- The span closure and the checkpoint after roll-forward (R49, R182, R527). -/
def afterRoll (s : State) (p : Nat) : State :=
  if (partOf s p).any fun x => x.faultWp then s else wantCheckpoint (closeSpan s p) p false

/-- Front ends' counts start afresh at a MOUNT (Table 17.7). -/
def freshCounts (s : State) : State :=
  { s with rc.fes := s.rc.fes.map fun x => (x.1, { x.2 with failedVerdicts := 0, accepted := 0, noAccept := 0, defects := 0 }) }

/-- The first condition of steps 1 and 2 that fails (R119, R523). -/
def mountRefused (s : State) (w : MountWorld) : Option Nat :=
  if s.media.op.isSome then some stMediaBusy
  else if !s.nw.sns.getLsbD 0 then some stCartridgeAbsent
  else if s.media.mount ≠ 0 then some stMediaBusy
  else if s.ps.vmot < 2000 ∨ motionStop s then some stMotionFault
  else if s.nw.grant || !s.nw.sns.getLsbD 1 || w.permitLate then some stMediaBusy
  else none

/-- The state a MOUNT has reached at the step that fails, with the status; or the state after step 8. Step 4 has waited for the background
writing of check words (R517). -/
def mountSteps (s : State) (w : MountWorld) : State × Option Nat :=
  if !w.seated then ({ s with media.seated := false, ps.ldrAt := some s.now }, some stMotionFault)
  else
    let s := carve { s with media.seated := true, nw.atEject := false, nw.sns := s.nw.sns ||| 8, glb.background := true }
    let s := alignReel { s with ce.run := true } .supply
    if !w.threaded then ({ s with ps.thrStall := true }, some stMotionFault)
    else
      let s := alignReel { s with media.threaded := true, nw.sns := s.nw.sns &&& 11, ps.thrStall := false, nw.atRest := false } .takeup
      if !w.tensioned then (s, some stMotionFault)
      else
        let lT := lengthOn s .takeup w.vTach w.omegaT
        let total := lengthOn s .supply w.vTach w.omegaS + lT
        let s := alignTurn (alignTurn { s with ce.tref := fSet s, ce.tramp := false, ce.lTotal := total } .supply w.turnS) .takeup w.turnT
        if total < 1080000000000 ∨ 1160000000000 < total then (s, some stMediaIncompatible)
        else if !w.servoHeld || decide (w.firstLpos > 24999) then (s, some stServoLost)
        else
          let now_ := lT + 1000 * w.advance
          let s := { s with
            ce.l0 := now_ - 200000 * w.firstLpos, ce.lT := now_, media.l0known := true,
            sv.band := 1, sv.aim := 1, ce.stepNow := 2433280, sv.widx := 0, sv.bandOk := false, sv.confirmed := 1, sv.lpos := w.firstLpos }
          match s.media.cart.bind volOf with
          | none => (s, some stMediaIncompatible)
          | some _ => (s, w.readFails.map fun st => if st = stMotionFault then stMotionFault else stServoLost)

/-- Steps 9 to 11: volume label, labels and calibration, checkpoints and roll-forward; the state, and the result of the MOUNT. -/
def mountTape (s : State) (ro : Bool) (w : MountWorld) : State × Nat :=
  match s.media.cart with
  | none => (s, 0)
  | some c =>
    match volOf c with
    | none => (s, 0)
    | some v =>
      let rs := rollAll s c v w
      let exist := fun p => rs.any fun r => r.part.num == p
      let s := if !ro && !(v.on96 && v.on192) then writeVolume s exist (fun _ es => es) else s
      let bands := rs.map fun r => bandOf (2 * r.part.firstPair)
      let s := calibrate s 0 (w.learned.filter fun x => bands.contains x.1)
      let s := if w.labelRecovered then setSubst s 5 else s
      let s := freshCounts { s with
        fm.parts := [], fm.almanac := [], fm.posMap := [], fm.members := [], fm.wstate := if retiredCount s > 4 then 6 else 0,
        media.revCal := [], media.revLearn := w.learnedRev.filter fun x => bands.contains x.1 }
      let s := rs.foldl addRolled s
      let s := { s with fm.wrap := 96, nw.restAt := s.now, nw.atRest := true }
      let s := if ro then s else { s with media.cart := s.media.cart.map fun c => dropBeyond c rs }
      (s, existsMask s + 65536 * b2n (rs.any fun r => !r.closed))

/-- Step 12: the cartridge is mounted, the event is queued, the MOUNT completes. -/
def finishMount (s : State) (cmd lib : Option Nat) (ro : Bool) (info : Nat) (peer : Option PeerInfo) : State :=
  let s := setMount (unlock s) (if ro then 2 else 1)
  let s := queueEvent s evMounted 0 0 (evParams [(20, le 2 (existsMask s)), (22, le 1 (b2n ro))])
  let s := match peer with | some i => comparePair s i | none => s
  mediaDone s cmd lib stOk info

/-- The end of step 11: a read-write MOUNT closes the open spans and writes a checkpoint in every partition, and goes on once they are
on tape; with more than 4 lanes retired the writer is halted and nothing is written (R49, R182, R288, R527; log 72). -/
def mountWrites (s : State) (cmd lib : Option Nat) (ro : Bool) (info : Nat) (w : MountWorld) : State :=
  let ps := s.fm.parts.filter fun x => !x.faultWp
  if ro || ps.isEmpty || decide (retiredCount s > 4) then finishMount s cmd lib ro info w.peer
  else
    let s := { s with media.op := some (.mount cmd lib info { fails := w.unloadFails } w.peer) }
    let s := if lib.isSome then { s with fi.resState := 1, fi.resSeq := lib.getD 0 } else s
    ps.foldl (fun s x => afterRoll s x.num) s

/-- MOUNT (R119, R523): the first step that fails ends it, after the unload steps from the point it had reached. -/
def mountS (s : State) (cmd lib : Option Nat) (ro : Bool) (w : MountWorld) : State :=
  match mountRefused s w with
  | some st => mediaDone s cmd lib st 0
  | none =>
    let r := mountSteps (wake s) w
    match r.2 with
    | some st => mediaDone { (unloadSteps r.1 w.unloadFails false).1 with nw.permit := false } cmd lib st 0
    | none =>
      let m := mountTape r.1 ro w
      mountWrites m.1 cmd lib ro m.2 w

/-- A MOUNT in progress fails: the unload steps follow from where the tape is (R523, R585). -/
def failMount (s : State) (cmd lib : Option Nat) (w : UnloadWorld) (st : Nat) : State :=
  mediaDone { (unloadSteps (unlock s) w.fails false).1 with nw.permit := false } cmd lib st 0

/-- One look at a MOUNT in progress: once the span closures and checkpoints are on tape and the writer is at rest, it is over; a
partition whose checkpoint could not be written is write-protected by fault by then (R283). -/
def advanceMount (s : State) (cmd lib : Option Nat) (info : Nat) (w : UnloadWorld) (peer : Option PeerInfo) : State :=
  if motionStop s then failMount s cmd lib w stMotionFault
  else if s.fm.parts.all (fun x => (!x.ckptWant && x.ckptCur.isNone) || x.faultWp) && s.fm.sealed.isEmpty &&
      (s.fm.wstate == 0 || decide (retiredCount s > 4)) then
    finishMount s cmd lib false info peer
  else s

/-- MOUNT. -/
def execMount (c : Sub) (w : MountWorld) (s : State) : Out :=
  .next (runCmd s 0x18 c fun s k => mountS s (some k.id) none ((sqeBytes k.sqe 28 1) % 2 == 1) w)

/-! ## Unmount (R120, R352, R493) -/

/-- A reader waits for a recall and moves no data: none of its visits is in the run in progress or decoded. -/
def waitsForRecall (s : State) (c : Cmd) : Bool :=
  c.done == 0 && (s.rcl.visits.any fun v => v.cmds.contains c.id) &&
    !(s.rcl.visits.any fun v => v.cmds.contains c.id &&
      (s.rcl.run.contains (v.part, v.seq) || (readOf s v.part v.seq).any fun r => r.decoded))

/-- Reallocations not yet placed are dropped (R352). -/
def dropUnplaced (s : State) (p : Nat → Bool) : State :=
  (s.fm.reallocs.filter fun r => p r.part && !r.moved && (partOf s r.part).any fun x => x.chains.any fun k => k.1 == r.seq).foldl
    (fun s r => dropRealloc s r.part r.seq) s

/-- An UNMOUNT takes the media lock: readers that wait for a recall end, hints are discarded; past its limit of automatic
clears Nightwatch is asked again (R120, R376, R493). -/
def unmountS (s : State) (cmd lib : Option Nat) (eject : Bool) (w : UnloadWorld) : State :=
  if s.media.op.isSome then mediaDone s cmd lib stMediaBusy 0
  else if s.media.mount = 0 then mediaDone s cmd lib stNotMounted 0
  else
    let s := if s.nw.state ≠ 0 then askClear s false else s
    if motionStop s then mediaDone s cmd lib stMotionFault 0
    else
      let s := wake { s with media.op := some (.unmount cmd lib eject w 0) }
      let s := if lib.isSome then { s with fi.resState := 1, fi.resSeq := lib.getD 0 } else s
      let waiting := s.qe.cmds.filter fun c => (opcode c.sqe == 0x41 || opcode c.sqe == 0x42) && !c.dropped && waitsForRecall s c
      let s := waiting.foldl (fun s c => finishRead s c stNotMounted 0 0) s
      let s := s.rcl.hints.foldl (fun s h => dropHint s h.id) s
      dropUnplaced s fun _ => true

/-- UNMOUNT. -/
def execUnmount (c : Sub) (w : UnloadWorld) (s : State) : Out :=
  .next (runCmd s 0x19 c fun s k => unmountS s (some k.id) none ((sqeBytes k.sqe 28 1) % 2 == 1) w)

/-- A WRITE, a reader or a CHECKPOINT is still in flight. -/
def tapeWork (s : State) : Bool :=
  s.qe.cmds.any fun c => !c.dropped && [0x40, 0x41, 0x42, 0x1A].contains (opcode c.sqe)

/-- No checkpoint of any partition is due or under way (log 75). -/
def noCheckpoint (s : State) : Bool := s.fm.parts.all fun x => (!x.ckptWant || ckptBarred x) && x.ckptCur.isNone

/-- The writer has nothing left to write, or cannot write. -/
def writerDone (s : State) : Bool :=
  (s.fm.sealed.isEmpty && (s.fm.wstate == 0 || s.fm.wstate == 6)) || s.ps.auxF || readOnly s ||
    (s.fm.wstate == 6 && decide (retiredCount s > 4))

/-- The rest of UNMOUNT once everything is on tape: pending entries turn live, records and Meridian are stored, and the
cartridge is unloaded (R270, R387, R468, R525, R585). -/
def finishUnmount (s : State) (cmd lib : Option Nat) (eject : Bool) (w : UnloadWorld) : State :=
  let rw := s.media.mount == 1
  let pending := (s.media.cart.bind volOf).any fun v => v.entries.any fun e => e.st == 1
  let s := if rw && pending then writeVolume s (liveNow s) (fun _ es => es) else s
  let s := s.fm.parts.foldl (fun s x => storeRecord s x.num) s
  let was := s.media.mount != 0
  let s := { s with health.satAtUnmount := s.ce.sat, flash.meridian := if s.mt.running then meridian s else s.flash.meridian }
  let u := unloadSteps (unlock s) w.fails eject
  let s := if was then
      queueEvent u.1 evUnmounted 0 0 (evParams [(20, le 1 (if u.2 then 2 else if lib.isSome then 1 else 0))])
    else u.1
  mediaDone s cmd lib (if u.2 then stMotionFault else stOk) 0

/-- One look at an UNMOUNT in progress: it waits for the commands, then writes checkpoints, then span closures, then
moves the tape itself and unloads; a safe stop ends it (R375; log 74). -/
def advanceUnmount (s : State) (cmd lib : Option Nat) (eject : Bool) (w : UnloadWorld) (phase : Nat) : State :=
  if motionStop s then mediaDone (unlock s) cmd lib stMotionFault 0
  else
    match phase with
    | 0 =>
      if tapeWork s || !noCheckpoint s || s.fm.reallocs.any (fun r => !r.moved) then s
      else
        let s := { s with media.op := some (.unmount cmd lib eject w 1) }
        if readOnly s || s.ps.auxF then s
        else (s.fm.parts.filter fun x => !writeProtected s x && !ckptBarred x).foldl (fun s x => wantCheckpoint s x.num true) s
    | 1 =>
      let s := s.fm.parts.foldl (fun s x => afterSeal s x.num) s
      if noCheckpoint s || writerDone s then
        let s := { s with media.op := some (.unmount cmd lib eject w 2) }
        if readOnly s || s.ps.auxF then s
        else (s.fm.parts.filter fun x => !sealBarred x && !writeProtected s x).foldl (fun s x => closeSpan s x.num) s
      else s
    | 2 => if writerDone s && s.ce.vref == 0 then { s with media.op := some (.unmount cmd lib eject w 3), ce.media := true } else s
    | _ => finishUnmount s cmd lib eject w

/-! ## PARTITION_CREATE (R116, R265, R266, R270, R455) -/

/-- The body of a partition's label (Table 8.8); the copy number is set when it is written. -/
def labelOfEntry (e : VolEntry) (gen time : Nat) : LabelBody :=
  { live := true, wp := e.wp, firstPair := e.firstPair, pairs := e.pairs, copy := 0, part := e.num,
    inst := Config.instanceNo.toNat, time, gen, name := e.name }

/-- The 256 datasets of a label copy: 8 spans of 30 label datasets and their parity (R265). -/
def labelSets (s : State) (l : LabelBody) : List Dataset :=
  let seq0 := if l.copy = 0 then 256 else 0
  (List.range 256).map fun i =>
    let parity := decide (i % 32 ≥ 30)
    { part := l.part, seq := seq0 + i, kind := (if parity then .parity else .label),
      spanIdx := (if parity then i % 32 - 30 else i % 32), spanFirst := seq0 + i / 32 * 32, sealTime := meridian s,
      label := if parity then none else some l }

/-- A label copy is sealed, to be written from the start of its region (R265). -/
def startLabels (s : State) (l : LabelBody) (copy : Nat) : State :=
  let ds := labelSets s { l with copy }
  let s := { s with
    fm.sealed := s.fm.sealed ++ ds.map fun d => { ds := d }, fm.members := s.fm.members ++ ds.filter fun d => d.kind == .label }
  modPart s l.part fun x => { x with
    wrap := 2 * x.firstPair + copy, pos := if copy = 0 then posOf lpBot else posOf lpEot }

/-- What lies on the wraps of a partition to be created is not read again (log 51). -/
def wipeWraps (s : State) (first pairs : Nat) : State :=
  { s with media.cart := s.media.cart.map fun c => { c with
      tape := c.tape.filter fun t => !(decide (2 * first ≤ t.wrap ∧ t.wrap < 2 * (first + pairs))) } }

/-- The failing condition of PARTITION_CREATE (R116), with the failing byte (log 76). -/
def createRefused (s : State) (q : SqeBits) : Option (Nat × Nat) :=
  let p := partition q
  let first := sqeBytes q 28 1
  let n := sqeBytes q 29 1
  if s.media.op.isSome then some (stMediaBusy, 0)
  else if s.media.mount = 0 then some (stNotMounted, 0)
  else if readOnly s then some (stWriteProtected, 0)
  else if (partOf s p).isSome then some (stInvalidField, 6)
  else if n = 0 ∨ first + n > 192 then some (stInvalidField, 29)
  else if s.fm.parts.any fun x => decide (x.firstPair < first + n ∧ first < x.firstPair + x.pairs) then some (stInvalidField, 28)
  else if retiredCount s > 4 then some (stLanesExhausted, 0)
  else match tapeFault s with
    | some st => some (st, 0)
    | none => none

/-- A mirroring primary forwards a partition command once it holds the media lock; the sequence its answer carries. -/
def forwardOp (s : State) (q : SqeBits) : State × Option Nat :=
  if mirroring s then (plSend { s with pl.forwardOp := none } (.partitionOp q), some (s.pl.msgSeq + 1)) else (s, none)

/-- The answer of the peer to a forwarded operation: its status once it is there, PEER_LOST once the pair is gone. -/
def peerAnswer (s : State) (peer : Option Nat) : Option Nat :=
  match peer with
  | none => some stOk
  | some n =>
    match s.pl.forwardOp with
    | some (q, st) => if q = n then some st else none
    | none => if mirroring s then none else some stPeerLost

/-- A partition operation has ended on this unit: the peer's status counts where this unit's is OK; a failure of the secondary
alone breaks the pair with reason 3 (R455). Detail 1 is the SEQ of a label or checkpoint dataset given up (Table 3.15). -/
def opEnds (s : State) (cmd : Option Nat) (st info peer : Nat) (d1 : Nat := 0) : State :=
  let s := if st = stOk ∧ peer ≠ stOk ∧ s.pl.role = 1 ∧ peer ≠ stPeerLost then breakPair s 3 else s
  let s := { unlock s with pl.forwardOp := none }
  match cmd with
  | some id => finishId s id { status := (if st = stOk then peer else st), info := (if st = stOk ∧ peer = stOk then info else 0), d1 }
  | none => plSend s (.opDone peer st)

/-- A partition that was not made after all, or is gone: it and what hangs on it leave the state. -/
def removePart (s : State) (p : Nat) : State :=
  { s with
    fm.parts := s.fm.parts.filter fun x => x.num != p, fm.almanac := s.fm.almanac.filter fun e => e.part != p,
    fm.posMap := s.fm.posMap.filter fun e => e.1 != p, fm.mirror := s.fm.mirror.filter fun m => m.part != p,
    fm.members := s.fm.members.filter fun d => d.part != p,
    rcl.hints := s.rcl.hints.filter fun h => h.part != p }

/-- The sealed datasets of a partition are given up: its operation has failed. -/
def dropPart (s : State) (p : Nat) : State :=
  let s := (s.fm.sealed.filter fun w => w.ds.part == p).foldl dropSealed s
  removePart (if s.fm.wpart = p ∧ 1 ≤ s.fm.wstate ∧ s.fm.wstate ≤ 4 then enterStop s else s) p

/-- PARTITION_CREATE past its checks: the pending generation, then label copy 1 to be written; `peer` is the sequence of the
PARTITION_OP that this unit runs, or of the one it has sent (R116, R265, R270, R455). -/
def createS (s : State) (q : SqeBits) (cmd peer : Option Nat) : State :=
  let p := partition q
  let e : VolEntry := { num := p, st := 1, firstPair := sqeBytes q 28 1, pairs := sqeBytes q 29 1,
                        wp := (sqeBytes q 30 1) % 2 == 1, name := le 16 (sqeBytes q 48 16) }
  let s := writeVolume s (liveNow s) fun g es => es.filter (fun x => x.num != p) ++ [{ e with pendingGen := g }]
  let g := ((s.media.cart.bind volOf).map VolLabel.gen).getD 0
  let x : Part := { num := p, firstPair := e.firstPair, pairs := e.pairs, name := e.name, labelWp := e.wp, nextSeq := 512,
                    wrap := 2 * e.firstPair, pos := wrapStart e.firstPair (2 * e.firstPair), ckptAt := s.now, shadow := true }
  let s := wipeWraps { s with
    fm.parts := s.fm.parts ++ [x], media.op := some (.create cmd p peer 1 g (meridian s)),
    fm.posMap := s.fm.posMap ++ [(p, 256, 2 * e.firstPair, lpBot)] } e.firstPair e.pairs
  startLabels s (labelOfEntry e g (meridian s)) 1

/-- PARTITION_CREATE. -/
def execPartitionCreate (c : Sub) (s : State) : Out :=
  .next (runCmd s 0x10 c fun s k =>
    if secondary s then finishSt s k stRoleStale
    else match createRefused s k.sqe with
      | some e => finish s k { status := e.1, d1 := e.2 }
      | none =>
        let fw := forwardOp (wake s) k.sqe
        createS fw.1 k.sqe (some k.id) fw.2)

/-- Nothing of a partition is still to be written or verified. -/
def writtenOut (s : State) (p : Nat) : Bool := !(s.fm.sealed.any fun w => w.ds.part == p)

/-- A partition operation ends now: it is the peer's, or the peer has answered (R455). -/
def mayEnd (s : State) (cmd peer : Option Nat) : Bool := cmd.isNone || (peerAnswer s peer).isSome

/-- A partition operation ends on this unit with a status, in state t: its command waits for the peer's outcome too (R455). -/
def endOp (s t : State) (cmd peer : Option Nat) (st info : Nat) (d1 : Nat := 0) : State :=
  if !mayEnd s cmd peer then s
  else opEnds t cmd st info (if cmd.isSome then (peerAnswer s peer).getD stOk else peer.getD 0) d1

/-- The SEQ, its low 32 bits, of the dataset whose abandonment ends an operation: a label dataset, or the first checkpoint's (Table 3.15). -/
def givenUp (x : Part) : Nat := (x.labelFail.getD (x.abandoned.getLast?.getD 0)) % 2 ^ 32

/-- One look at a PARTITION_CREATE in progress: label copy 1, then copy 0, then SEQ 512, each once what came before it has passed; it
ends when SEQ 512 has passed, or with the first part of it that cannot be written. On a secondary `peer` is the sequence of the
PARTITION_OP (R116, R265, R283). -/
def advanceCreate (s : State) (cmd : Option Nat) (p : Nat) (peer : Option Nat) (phase gen time : Nat) : State :=
  match partOf s p with
  | none => endOp s s cmd peer stWriteVerifyFailed 0
  | some x =>
    let failed := x.labelFail.isSome || x.faultWp || decide (retiredCount s > 8)
    if motionStop s then endOp s (dropPart s p) cmd peer stMotionFault 0
    else if failed then endOp s (dropPart s p) cmd peer stWriteVerifyFailed 0 (givenUp x)
    else if x.lastCkpt.isSome then
      let t := setPart s { x with shadow := false }
      if mayEnd s cmd peer then endOp s t cmd peer stOk 1 else t
    else if !writtenOut s p then s
    else match phase with
      | 1 =>
        let e : VolEntry := { num := p, st := 1, firstPair := x.firstPair, pairs := x.pairs, wp := x.labelWp, name := x.name }
        startLabels { s with media.op := some (.create cmd p peer 0 gen time) } (labelOfEntry e gen time) 0
      | 0 =>
        let s := setPart { s with media.op := some (.create cmd p peer 2 gen time) }
          { x with wrap := 2 * x.firstPair, pos := wrapStart x.firstPair (2 * x.firstPair) }
        wantCheckpoint s p false
      | _ => s

/-! ## PARTITION_DELETE (R117, R267, R270) -/

/-- The failing condition of PARTITION_DELETE. -/
def deleteRefused (s : State) (q : SqeBits) : Option (Nat × Nat) :=
  if s.media.op.isSome then some (stMediaBusy, 0)
  else if s.media.mount = 0 then some (stNotMounted, 0)
  else if readOnly s then some (stWriteProtected, 0)
  else if !((partOf s (partition q)).any fun x => !x.shadow) then some (stInvalidField, 6)
  else match tapeFault s with
    | some st => some (st, 0)
    | none => none

/-- A WRITE of a partition being deleted: what no sealed dataset holds the MARKER of can never commit, and fails with MEDIA_BUSY
(R117; log 120). -/
def failUnsealed (s : State) (c : Cmd) : State :=
  match (c.pieces.filter fun k => !k.settled && k.st != .markerSealed).map Piece.idx with
  | [] => s
  | i :: is => failWrite s c.id (is.foldl min i) stMediaBusy 0 0 none

/-- A partition is to be deleted: FM seals nothing more in it, and its reallocations and pending checkpoints are dropped (R117). -/
def deleteStart (s : State) (cmd : Option Nat) (p : Nat) (peer : Option Nat) : State :=
  let s := { s with media.op := some (.delete cmd p peer 2 none) }
  let s := modPart s p fun x => { x with deleting := true, ckptWant := false, spanClose := false }
  let s := match partOf s p with | some x => dropOpen s x | none => s
  let s := endReallocs s p
  let s := ((writesOf s).filter fun c => partition c.sqe == p).foldl failUnsealed s
  (s.qe.cmds.filter fun c => opcode c.sqe == 0x1A && partition c.sqe == p && c.awaits.isNone && !c.dropped).foldl
    (fun s c => finish s c { status := stMediaBusy }) s

/-- PARTITION_DELETE. -/
def execPartitionDelete (c : Sub) (s : State) : Out :=
  .next (runCmd s 0x11 c fun s k =>
    if secondary s then finishSt s k stRoleStale
    else match deleteRefused s k.sqe with
      | some e => finish s k { status := e.1, d1 := e.2 }
      | none =>
        let fw := forwardOp (wake s) k.sqe
        deleteStart fw.1 (some k.id) (partition k.sqe) fw.2)

/-- A command that names the partition is in flight (R117). -/
def namesPart (s : State) (p : Nat) : Bool :=
  s.qe.cmds.any fun c => !c.dropped && (isIoOp (opcode c.sqe) || opcode c.sqe == 0x1A) && partition c.sqe == p

/-- The label of a partition as its copies hold it: its time of creation and pending generation stay (Table 8.8). -/
def labelNow (s : State) (x : Part) : LabelBody :=
  match ((copiesIn s x.num).filter fun t => t.wrap / 2 == x.firstPair).findSome? fun t => t.ds.label with
  | some l => l
  | none => labelOfEntry { num := x.num, st := 2, firstPair := x.firstPair, pairs := x.pairs, wp := x.labelWp, name := x.name } 0 0

/-- The freeing generation is written: from now on the partition is absent, and the deleted labels follow (R117, R267, R270). -/
def freePart (s : State) (cmd : Option Nat) (x : Part) (peer : Option Nat) : State :=
  let l := { labelNow s x with live := false }
  let s := setPart s { x with shadow := true }
  let s := writeVolume s (liveNow s) fun _ es => es.filter fun y => y.num != x.num
  let s := { s with
    fm.almanac := s.fm.almanac.filter fun e => e.part != x.num, media.op := some (.delete cmd x.num peer 1 (some l)) }
  startLabels s l 1

/-- One look at a PARTITION_DELETE in progress: once no command names the partition and what was sealed is written, the freeing
generation, then the two deleted label copies; the partition is gone even when a copy fails (R117, R267). -/
def advanceDelete (s : State) (cmd : Option Nat) (p : Nat) (peer : Option Nat) (phase : Nat) (label : Option LabelBody) : State :=
  match partOf s p with
  | none => endOp s s cmd peer stOk 0
  | some x =>
    if phase = 2 then
      if motionStop s then
        opEnds (setPart s { x with deleting := false }) cmd stMotionFault 0 (if cmd.isSome then stOk else peer.getD 0)
      else if namesPart s p || !writtenOut s p || x.openDs.isSome then s
      else freePart s cmd x peer
    else if motionStop s then endOp s (dropPart s p) cmd peer stMotionFault 0
    else if x.labelFail.isSome || decide (retiredCount s > 8) then endOp s (dropPart s p) cmd peer stWriteVerifyFailed 0 (givenUp x)
    else if !writtenOut s p then s
    else match phase, label with
      | 1, some l => startLabels { s with media.op := some (.delete cmd p peer 0 label) } l 0
      | _, _ => endOp s (removePart s p) cmd peer stOk 0

/-- The media operation in progress goes on (looked at every base period) (log 71). -/
def advanceMedia (s : State) : State :=
  if s.glb.restarting.isSome || s.glb.twilight.isSome then s
  else match s.media.op with
    | some (.mount cmd lib info w peer) => advanceMount s cmd lib info w peer
    | some (.unmount cmd lib eject w phase) => advanceUnmount s cmd lib eject w phase
    | some (.create cmd p peer phase gen time) => advanceCreate s cmd p peer phase gen time
    | some (.delete cmd p peer phase label) => advanceDelete s cmd p peer phase label
    | none => s

/-- What waits for the tape to stop, for buffers or for its turn is looked at: a locate to be repeated (R361), the reversal in TURN, a
closing while the writer stands (R288), the media operation in progress, a span read (R160), datasets whose headers failed a later reader
(R185), READs held for want of a reference (R153; log 139). -/
def lookAround (s : State) : State :=
  let s := turnHead (repeatLocate s)
  let s := advanceMedia (if s.fm.wstate = 0 ∨ s.fm.wstate = 5 then endClosing s else s)
  let s := recheckHeads (resumeSpan s)
  retryHeld s.qe.cmds.length s

/-- BASE_PERIOD: CE's period, and a look at what waits. -/
def execBasePeriod (x : CeSample) (s : State) : Out := .next (lookAround (basePeriodS s x))

/-! ## PARTITION_LIST (R118) -/

/-- SEQ of end of data: the one after the last dataset written, the lowest whose first writing is not over (R16, R118; log 140). -/
def endSeq (s : State) (x : Part) : Nat :=
  (s.fm.sealed.filter fun w => w.ds.part == x.num && w.attempt == 0 && !w.ended).foldl (fun a w => min a w.ds.seq) x.nextSeq

/-- Entry p for a function. -/
def listEntry (s : State) (fn p : Nat) : List Byte :=
  match partOf s p with
  | none => zeros 64
  | some x =>
    if x.shadow || !(fnOf s fn).pmask.getLsbD p then zeros 64
    else
      fit 64 (le 1 (1 + 2 * b2n (writeProtected s x) + 4 * b2n x.hostIndexed + 8 * b2n x.labelWp + 16 * b2n x.exhausted) ++
        le 1 x.firstPair ++ le 2 x.pairs ++ zeros 4 ++ le 8 x.version ++ le 8 (endSeq s x) ++ le 8 x.freePositions ++
        fit 16 x.name)

/-- PARTITION_LIST. -/
def execPartitionList (c : Sub) (s : State) : Out :=
  .next (runCmd s 0x12 c fun s k =>
    finish (toHost s k ((List.range 16).flatMap (listEntry s k.fn))) k { status := stOk, info := existsMask s })

/-! ## CHECKPOINT (R121) -/

/-- CHECKPOINT: admitted under the checks of an I/O command, it waits for its checkpoint to pass. -/
def checkpointS (s : State) (k : Cmd) : State :=
  let p := partition k.sqe
  match mediaCheck s p with
  | some e => finish s k { status := e.1, d1 := e.2 }
  | none =>
    if secondary s then finishSt s k stRoleStale
    else match partOf s p with
      | none => s
      | some x =>
        if writeProtected s x then finishSt s k stWriteProtected
        else if retiredCount s > 4 then finishSt s k stLanesExhausted
        else match tapeFault s with
          | some st => finishSt s k st
          | none => wantCheckpoint (modCmd (wake s) k.id fun c => { c with st := .waiting }) p false

/-- CHECKPOINT. -/
def execCheckpoint (c : Sub) (s : State) : Out := .next (runCmd s 0x1A c checkpointS)

/-! ## GRIP_WAIT_LIMIT_EXPIRY (R487) -/

/-- Reading and writing that wait for the transport end with MEDIA_BUSY. -/
def endWaiting (s : State) : State :=
  let s := endReading s stMediaBusy
  if 1 ≤ s.fm.wstate ∧ s.fm.wstate ≤ 5 then endCheckpoints (interruptWriting s stMediaBusy) (fun _ => true) stMediaBusy 0
  else endCheckpoints (((writesOf s).filter fun c => !c.dropped).foldl (fun s c => endWrite s c.id stMediaBusy 3 true) s)
    (fun _ => true) stMediaBusy 0

/-- What a motion was asked for ends with MEDIA_BUSY. -/
def gripTimeout (s : State) : State :=
  match s.media.op with
  | some (.unmount cmd lib _ _ _) => mediaDone (unlock s) cmd lib stMediaBusy 0
  | some (.mount cmd lib _ w _) => failMount s cmd lib w stMediaBusy
  | some (.create cmd p peer ..) => opEnds (dropPart s p) cmd stMediaBusy 0 (if cmd.isSome then stOk else peer.getD 0)
  | some (.delete cmd p peer phase _) =>
    let s := if phase = 2 then modPart s p fun x => { x with deleting := false } else dropPart s p
    opEnds s cmd stMediaBusy 0 (if cmd.isSome then stOk else peer.getD 0)
  | _ => endWaiting s

/-- A motion request has waited on a grant beyond the grip wait limit. -/
def execGripWaitLimitExpiry (s : State) : Out :=
  .next (
    match s.nw.waitSince with
    | none => s
    | some t => if !elapsed s t (setN s 0x6020 1) then s else gripTimeout { s with nw.waitSince := none })

/-! ## The library's requests (R480, R506) -/

/-- A library request: its sequence is noted; while another runs it ends at once with MEDIA_BUSY under its own sequence. -/
def libRequest (s : State) (code seq : Nat) (w : LibWorld) (twilightRun : State → State) : State :=
  if seq = s.fi.libSeq then s
  else
    let s := { s with fi.libSeq := seq, fi.libCode := code }
    let done := fun (s : State) (st : Nat) => { s with fi.resSeq := seq, fi.resStatus := st, fi.resState := 2 }
    let running := match s.media.op with
      | some (.unmount _ (some _) _ _ _) => true
      | some (.mount _ (some _) ..) => true
      | _ => false
    if code = 0 ∨ code > 5 then done s stInvalidField
    else if s.glb.twilight.isSome then (if code = 5 then twilightRun s else done s stTwilight)
    else if running then { s with fi.resSeq := seq, fi.resStatus := stMediaBusy }
    else match code with
      | 1 => mountS s none (some seq) false w.mount
      | 2 => mountS s none (some seq) true w.mount
      | 3 => unmountS s none (some seq) false w.unload
      | _ => unmountS s none (some seq) true w.unload

/-- Request 5 in Twilight: Nightwatch has CE rewind, runs the threader home and the loader to the eject position (R506). -/
def twilightUnload (seq : Nat) (w : UnloadWorld) (s : State) : State :=
  let s := if s.nw.state ≠ 0 then askClear s false else s
  let s := if s.media.threaded && !s.ce.sup.angleKnown then alignReel s .supply else s
  let s := if s.media.threaded && !s.ce.tkp.angleKnown then alignReel s .takeup else s
  if motionStop s then { s with fi.resSeq := seq, fi.resStatus := stMotionFault, fi.resState := 2 }
  else
    let u := unloadSteps (unlock s) w.fails true
    { u.1 with fi.resSeq := seq, fi.resStatus := (if u.2 then stMotionFault else stOk), fi.resState := 2 }

/-- A request of a given code (log 111). -/
def libraryS (s : State) (code seq : Nat) (w : LibWorld) : State := libRequest s code seq w (twilightUnload seq w.unload)

/-- LIBRARY_MOUNT_READ_WRITE. -/
def execLibraryMountReadWrite (seq : Nat) (w : LibWorld) (s : State) : Out := .next (libraryS s 1 seq w)
/-- LIBRARY_MOUNT_READ_ONLY. -/
def execLibraryMountReadOnly (seq : Nat) (w : LibWorld) (s : State) : Out := .next (libraryS s 2 seq w)
/-- LIBRARY_UNMOUNT. -/
def execLibraryUnmount (seq : Nat) (w : LibWorld) (s : State) : Out := .next (libraryS s 3 seq w)
/-- LIBRARY_UNMOUNT_EJECT. -/
def execLibraryUnmountEject (seq : Nat) (w : LibWorld) (s : State) : Out := .next (libraryS s 4 seq w)
/-- REWIND_AND_UNLOAD. -/
def execRewindAndUnload (seq : Nat) (w : LibWorld) (s : State) : Out := .next (libraryS s 5 seq w)

/-! ## SNS_CHANGE (R521, R523, R569) -/

/-- The sensors change: a cartridge that appears is in the loader slot, with nothing known of it but a readable volume label of
generation 0 where the model holds none (log 23); one that disappears is gone, and GLB reports the change. -/
def execSnsChange (sns : BitVec 4) (s : State) : Out :=
  .next (
    let was := s.nw.sns.getLsbD 0
    let now_ := sns.getLsbD 0
    let s := { s with nw.sns := sns, nw.absentSince := s.nw.absentSince || !now_ }
    let s := if sns.getLsbD 3 then { s with nw.atEject := false } else s
    if now_ && !was then
      match s.media.cart with
      | some _ => s
      | none => { s with media.cart := some { vols := [{ gen := 0, serial := Config.cartSerial s.free }] }, free := s.free + 1 }
    else if was && !now_ && s.media.mount == 0 && !s.media.threaded then { s with media.cart := none, media.seated := false }
    else s)

end Sys2Proof.Machine
end

