-- ==== Sys2Proof/Machine/Time.lean ====
section
/-! DEFINITION. Meridian: its sources, steps and trims, PPS_IN and PPS_OUT, the CANopen SYNC and TIME objects (R465 to R472,
R478). -/

namespace Sys2Proof.Machine

/-! ## Steps and trims (R465, R467, R469) -/

/-- A second in nanoseconds. -/
abbrev secNs : Int := 1000000000

/-- The whole second nearest to an instant, in ns. -/
def nearestSec (t : Int) : Int := (t + 500000000) / secNs * secNs

/-- The second of PPS_OUT that an instant lies in, after the output offset (R472). -/
def ppsSecond (s : State) (t : Int) : Nat := ((t - setI s 32 0x6012 1) / secNs).toNat

/-- Meridian is stepped by d ns; the first PPS_IN edge after it defines the second again, and PPS_OUT goes on at the next whole
second of the new time (R469, R471, R472). -/
def stepBy (s : State) (d : Int) : State :=
  let t := code 64 ((meridian s : Int) + d)
  let s := { s with
    mt.acc := BitVec.ofNat 96 (t * 2 ^ 32 + s.mt.acc.toNat % 2 ^ 32), mt.steps := satAdd 255 s.mt.steps 1, mt.defines := true }
  { s with mt.lastOut := some (ppsSecond s t) }

/-- The increment for a trim in 0.01 ppm. -/
def trimmedInc (trim : Int) : BitVec 64 := BitVec.ofNat 64 ((nominalInc : Int) + nominalInc * trim / 100000000).toNat

/-- MT is trimmed for an offset, within 500 ppm of nominal (R469). -/
def trimBy (s : State) (d : Int) : State :=
  let t := clampI (-50000) 50000 (Config.trimLaw d s.mt.trim)
  { s with mt.trim := t, mt.inc := trimmedInc t }

/-- A correction measured by a source: stepped when it is the first after UNSET or above the threshold, else trimmed (R469). -/
def correct (s : State) (d : Int) : State :=
  let s' := if s.mt.sync = 0 ∨ d.natAbs > 1000 * setN s 0x6010 4 then stepBy s d else trimBy s d
  { s' with mt.sync := 2 }

/-- What MT.OFS shows of an offset. -/
def ofsOf (d : Int) : Int := clampI (-2147483648) 2147483647 d

/-! ## Set Meridian (R470) -/

/-- The effect of a write to Set Meridian, with its status. -/
def setMeridianOp (s : State) (ns : BitVec 64) : State × Nat :=
  if s.pl.role = 2 ∨ !s.mt.running then (s, stAccessDenied)
  else match setN s 0x6010 2 with
    | 0 => ({ stepBy s ((ns.toNat : Int) - meridian s) with mt.sync := 1 }, stOk)
    | 3 =>
      let frac := (meridian s : Int) % secNs
      let t := nearestSec ns.toNat + frac
      let s' := if t = meridian s then s else stepBy s (t - meridian s)
      ({ s' with mt.defines := s.mt.defines, mt.sync := if s.mt.sync = 0 then 1 else s.mt.sync }, stOk)
    | _ => (s, stAccessDenied)

/-- SET_MERIDIAN. -/
def execSetMeridian (_path : Path) (ns : BitVec 64) (s : State) : Out :=
  .next (if s.glb.restarting.isSome || s.glb.twilight.isSome then s else (setMeridianOp s ns).1)

/-! ## PPS_IN and PPS_OUT (R471, R472) -/

/-- PPS_IN disciplines Meridian: sources 2 and 3, and a pair secondary (R462, R469). -/
def ppsUsed (s : State) : Bool := s.pl.role == 2 || setN s 0x6010 2 == 2 || setN s 0x6010 2 == 3

/-- PPS_IN_EDGE: the edge is stamped, rejected or accepted, and its offset from the nearest whole second corrected
(log 82). -/
def ppsInEdgeS (s : State) : State :=
  let t : Int := meridian s
  let off := t - nearestSec t
  let early := match s.mt.lastPps with | some u => !elapsed s u 900 | none => false
  let free := s.mt.sync == 0 || s.mt.defines
  if !s.mt.running then s
  else if !free && (decide (off.natAbs > 100000000) || early) then { s with mt.ppsrej := satAdd 255 s.mt.ppsrej 1 }
  else
    let s := { s with mt.lastPps := some s.now, mt.ofs := ofsOf off }
    let s := { s with mt.defines := false }
    if ppsUsed s then correct s (-off) else s

/-- PPS_IN_EDGE. -/
def execPpsInEdge (s : State) : Out := .next (ppsInEdgeS s)

/-- PPS_HOLDOVER: no edge accepted for 3 s. -/
def execPpsHoldover (s : State) : Out :=
  .next (match s.mt.lastPps with
    | some t => if ppsUsed s && s.mt.sync == 2 && elapsed s t 3000 then { s with mt.sync := 3 } else s
    | none => s)

/-- PPS_OUT: the edge of a whole second plus the output offset, each second once. -/
def execPpsOut (s : State) : Out :=
  .next (
    let k := ppsSecond s (meridian s)
    if !s.mt.running || s.mt.lastOut == some k then s else emit { s with mt.lastOut := some k } .ppsOut)

/-- MERIDIAN_STORE: every 60 s Lodestar stores Meridian in flash (R468). -/
def execMeridianStore (s : State) : Out :=
  .next (if s.mt.running && s.glb.lsUp then { s with flash.meridian := meridian s } else s)

/-! ## SYNC and TIME (R478) -/

/-- FI sends and receives more than heartbeats: Pre-operational or Operational, and not bus-off (R476). -/
def fiUp (s : State) : Bool := (s.fi.nmt == 1 || s.fi.nmt == 2) && s.fi.bus != 2

/-- SYNC_RECEIVE: the stamp of its start of frame. -/
def execSyncReceive (s : State) : Out :=
  .next (if fiUp s && !(setN s 0x1005 0).testBit 30 && s.glb.twilight.isNone then { s with fi.synct := BitVec.ofNat 32 (meridian s) } else s)

/-- SYNC_PRODUCE: Meridian has crossed a whole multiple of the period, and each is served once; 0x1006 counts microseconds. -/
def execSyncProduce (s : State) : Out :=
  .next (
    let period := 1000 * setN s 0x1006 0
    let k := meridian s / period
    if fiUp s && (setN s 0x1005 0).testBit 30 && s.glb.twilight.isNone && decide (period ≠ 0) && s.fi.syncLast != some k then
      emit { s with fi.syncLast := some k } (.canFrame 0x080 [])
    else s)

/-- Meridian of a TIME_OF_DAY: UTC from 1984-01-01, converted to TAI and to the epoch in force (R466, R478). -/
def timeOfDay (s : State) (ms days : Nat) : Int :=
  (((days + 5113 : Nat) : Int) * 86400000 + ms) * 1000000 + setN s 0x6010 3 * secNs - s.mt.epoch

/-- A time of day t arrives, off ns after Meridian: under source 1 the offset is applied, under source 2 the frame numbers the
seconds. -/
def takeTime (s : State) (t off : Int) : State :=
  if setN s 0x6010 2 = 1 then correct { s with mt.ofs := ofsOf off } off
  else if setN s 0x6010 2 = 2 then
    let d := nearestSec t - nearestSec (meridian s)
    if d = 0 ∧ s.mt.sync ≠ 0 then s
    else
      let s₁ := stepBy s d
      { s₁ with mt.defines := s.mt.defines, mt.sync := if s.mt.sync = 0 then 1 else s.mt.sync }
  else s

/-- TIME_RECEIVE. -/
def execTimeReceive (ms days : Nat) (s : State) : Out :=
  .next (
    let c := setN s 0x1012 0
    if !fiUp s || !c.testBit 31 || c.testBit 30 || s.pl.role == 2 || !s.mt.running || s.glb.twilight.isSome then s
    else takeTime s (timeOfDay s ms days) (timeOfDay s ms days + 1000 * setN s 0x6013 2 - meridian s))

/-- Whole seconds of UTC since 1970-01-01, of Meridian now. -/
def utcSecond (s : State) : Nat := (((meridian s : Int) + s.mt.epoch - setN s 0x6010 3 * secNs) / secNs).toNat

/-- Milliseconds after midnight and days since 1984-01-01 of a whole UTC second. -/
def timeFrame (sec : Nat) : List Byte := le 4 (sec % 86400 * 1000) ++ le 2 (sec / 86400 - 5113)

/-- TIME_PRODUCE: every TIME period a frame for the whole UTC second that has begun, each period once. -/
def execTimeProduce (s : State) : Out :=
  .next (
    let k := utcSecond s / setN s 0x6013 1
    if fiUp s && (setN s 0x1012 0).testBit 30 && s.glb.twilight.isNone && s.mt.running && s.fi.timeLast != some k then
      emit { s with fi.timeLast := some k } (.canFrame 0x100 (timeFrame (utcSecond s)))
    else s)

end Sys2Proof.Machine
end

