-- ==== Sys2Proof/Machine/Settings.lean ====
section
/-! DEFINITION. The rules that bind several settings together, and the validity of a settings bank (R124, R294, R296, R443,
R478, R479, R544). -/

namespace Sys2Proof.Machine

/-- A value as a list of settings holds it, or its default. -/
def listVal (od : List (Nat × List Byte)) (idx sub : Nat) : List Byte :=
  get od (odKey idx sub) (match odFind idx sub with | some e => e.dflt | none => [])

/-- The same as an unsigned number. -/
def listN (od : List (Nat × List Byte)) (idx sub : Nat) : Nat := unle (listVal od idx sub)

/-- The start level lies above the stop level (Table 9.5). -/
def levelsOk (od : List (Nat × List Byte)) : Bool := decide (listN od 0x2124 3 < listN od 0x2124 1)

/-- The tension limit is at least 1.2 times the set-point (Table 13.5). -/
def tensionOk (od : List (Nat × List Byte)) : Bool := decide (12 * listN od 0x4200 3 ≤ 10 * listN od 0x4200 4)

/-- Chopper off < chopper on < overvoltage < hard limit (R443), and the brake resistance is at least the hard limit over
15 A (R576) (log 39). -/
def voltsOk (od : List (Nat × List Byte)) : Bool :=
  decide (listN od 0x4204 2 < listN od 0x4204 1 ∧ listN od 0x4204 1 < listN od 0x4204 3 ∧
    listN od 0x4204 3 < listN od 0x4204 4 ∧ listN od 0x4204 4 ≤ 15 * listN od 0x4204 5)

/-- No point of the speed curve names an index above 28 (Table 9.6). -/
def indexOk (od : List (Nat × List Byte)) : Bool := (List.range 16).all fun i => decide (bits (listN od 0x4300 (i + 1)) 16 5 ≤ 28)

/-- TIME is not produced and consumed at once (R478). -/
def timeCobOk (od : List (Nat × List Byte)) : Bool := !((listN od 0x1012 0).testBit 30 && (listN od 0x1012 0).testBit 31)

/-- A PDO mapping names entries the PDO may map, in their own sizes, and at most 64 bytes (R479). -/
def mapOk (od : List (Nat × List Byte)) (idx : Nat) : Bool :=
  let n := listN od idx 0
  let es := (List.range n).map fun i => listN od idx (i + 1)
  let may := fun v : Nat => if idx ≥ 0x1A00 then tpdoMay (v / 65536) (bits v 8 8) else rpdoMay (v / 65536) (bits v 8 8)
  (es.all fun v => may v && (match odFind (v / 65536) (bits v 8 8) with | some e => decide (bits v 0 8 = 8 * e.size) | none => false)) &&
    decide ((es.map fun v => bits v 0 8).sum ≤ 512)

/-- The mapping objects of the eight PDOs. -/
def mapObjects : List Nat := [0x1A00, 0x1A01, 0x1A02, 0x1A03, 0x1600, 0x1601, 0x1602, 0x1603]

/-- The rules that bind an entry to others hold after it has changed. -/
def bindsOk (od : List (Nat × List Byte)) (idx : Nat) : Bool :=
  if idx = 0x2124 then levelsOk od
  else if idx = 0x4200 then tensionOk od
  else if idx = 0x4204 then voltsOk od
  else if idx = 0x4300 then indexOk od
  else if idx = 0x1012 then timeCobOk od
  else if mapObjects.contains idx then mapOk od idx
  else true

/-- A migrated settings bank is valid: every entry exists, is persistent, has its size and lies within its range, and every
rule that binds entries holds (R544). -/
def bankValid (od : List (Nat × List Byte)) : Bool :=
  (od.all fun x =>
    match odFind (x.1 / 256) (x.1 % 256) with
    | some e => e.pers && (if e.var then decide (x.2.length ≤ e.size) else x.2.length == e.size) && odInRange e x.2
    | none => false) &&
  levelsOk od && tensionOk od && voltsOk od && indexOk od && timeCobOk od && mapObjects.all (mapOk od)

end Sys2Proof.Machine
end

