-- ==== Sys2Proof/Machine/Lodestar.lean ====
section
/-! DEFINITION. Lodestar: its restarts, the boot ROM's choice of an image, the confirmation of a trial image; and Twilight
(R495 to R507, R534, R539, R543 to R546, R550). -/

namespace Sys2Proof.Machine

/-! ## The service session's end (R539, R550) -/

/-- The USDO client that stands for the USB service port in replies. -/
abbrev usbClient : Nat := 0

/-- The session ends: a download in progress is aborted and its receive buffer discarded; JTAG returns to BYPASS (R539, R550; log 152). -/
def endSession (s : State) : State :=
  let s := if s.fw.usbDone then emit s (.usdoReply usbClient 0x08000022 []) else s
  { s with
    fw.session := 0, fw.sessionEnd := 0, fw.jtagOpen := false,
    fw.usbBuf := (if s.fw.usbDone then [] else s.fw.usbBuf), fw.usbDone := false }

/-! ## Twilight (R502 to R505) -/

/-- One command in flight ends with TWILIGHT; what it had committed or delivered counts. -/
def twilightCmd (s : State) (id : Nat) : State :=
  match cmdOf s id with
  | none => s
  | some c =>
    if opcode c.sqe = 0x3F then s
    else if c.dropped then sweepCmd (failFrom s id 0) c
    else if opcode c.sqe = 0x40 ∧ c.version ≠ 0 then endWrite s id stTwilight 0 false
    else if opcode c.sqe = 0x41 ∨ opcode c.sqe = 0x42 then finishRead s c stTwilight 0 0
    else finishSt s c stTwilight

/-- The outstanding EVENT_WAITs of every function end with TWILIGHT. -/
def twilightWaits (s : State) : State :=
  let ws := s.qe.fns.flatMap fun f => f.2.waits
  let s := { s with qe.fns := s.qe.fns.map fun f => (f.1, { f.2 with waits := [] }) }
  ws.foldl (fun s w => finishId s w { status := stTwilight }) s

/-- Twilight: Lodestar is held in reset, writing stops where it is, commands end, the tape stops, PF0 is told (R503). -/
def enterTwilight (s : State) (cause : Nat) : State :=
  if s.glb.twilight.isSome then s
  else
    let s := endSession { s with glb.twilight := some cause, glb.restarting := none, glb.lsUp := false, glb.setPower := none }
    let s := faultRec s 0x16 true noUnit cause 0
    let s := { s with fm.wstate := 6, fm.gate := false, fm.current := none, fi.sessions := [] }
    let s := match s.media.op with
      | some (.mount _ (some q) ..) => mediaDone (unlock s) none (some q) stTwilight 0
      | some (.unmount _ (some q) _ _ _) => mediaDone (unlock s) none (some q) stTwilight 0
      | _ => unlock s
    let s := (s.qe.cmds.map Cmd.id).foldl twilightCmd s
    let s := s.fm.sealed.foldl dropSealed s
    let s := match s.rc.span with | some sp => releaseAll s sp.bufs clsRcv | none => s
    let s := endRun (endPass { s with
      fm.recs := [], rc.ladder := none, rc.span := none, rcl.batch := none, rcl.preempt := false,
      ce.owner := 0, ce.vtarget := 0, ce.posmode := false, ce.vafter := 0 })
    let s := setIstat (queueEvent s evTwilight 0 0 (evParams [(20, le 4 cause)])) 0
    twilightWaits s

/-- FLASH_WRITE_FAILED: a write to the settings store (0), the nonce reservation (1) or the role epoch (2) has failed three
times in a row (Table 17.1, 0x15; Table 17.3, cause 5). -/
def execFlashWriteFailed (_target : Nat) (s : State) : Out :=
  .next (if s.glb.twilight.isSome then s else enterTwilight (faultRec s 0x15 true noUnit 0 0) 5)

/-! ## Restarts (R495 to R500) -/

/-- Restarts of the last 10 minutes. -/
def recentRestarts (s : State) : List Nat := s.glb.restarts.filter fun t => !elapsed s t 600000

/-- Sessions of USDO are aborted. -/
def abortUsdo (s : State) (abort : Nat) : State :=
  s.fi.sessions.foldl (fun s x => emit s (.usdoReply x.1 abort [])) { s with fi.sessions := [] }

/-- Lodestar restarts: fetching stops, the writer drains what is sealed, recall and the ladder end at the dataset boundary,
CE decelerates, FI aborts its sessions (R497) (log 95). -/
def beginRestart (s : State) : State :=
  let s := setIstat { s with glb.restarting := some s.now, glb.lsUp := false } 2
  let s := abortUsdo (endSession s) 0x08000022
  let s := if s.fm.wstate = 2 then { s with fm.wstate := 4, fm.lowSince := none }
    else if s.fm.wstate = 1 then enterStop s else s
  let s := keepRun s []
  if s.rc.ladder.isNone then s else if s.rcl.inside then { s with rcl.ending := true } else cutPass s

/-- A failure of Lodestar: a restart, or Twilight when it would be the third in 10 minutes. During an activation it counts as
a failed attempt of the trial image (R500, R545). -/
def lodestarFailed (s : State) (fcode : Nat) : State :=
  if s.glb.twilight.isSome || (!s.glb.lsUp && s.glb.restarting.isNone) then s
  else if s.fw.slot = 3 ∧ s.glb.restarting.isSome then
    let s := if fcode = 0 then s else faultRec s fcode false noUnit (recentRestarts s).length 0
    { s with flash.attempts := s.flash.attempts + 1 }
  else
    let rs := recentRestarts s
    let n := rs.length + 1
    let s := if fcode = 0 then s else
      let r : FaultRec := { seq := 0, time := meridian s, code := fcode, permanent := false, unit := noUnit, p1 := n, p2 := 0 }
      { s with health.lateFaults := s.health.lateFaults ++ [r] }
    if n ≥ 3 then enterTwilight s 1
    else
      beginRestart { s with
        glb.restarts := s.now :: rs, glb.restartCount := satAdd (2 ^ 32 - 1) s.glb.restartCount 1 }

/-- LOCKSTEP_MISMATCH (Table 17.1, 0x12). -/
def execLockstepMismatch (_complex : Nat) (s : State) : Out := .next (lodestarFailed s 0x12)

/-- WATCHDOG_EXPIRY (Table 17.1, 0x13). -/
def execWatchdogExpiry (_complex : Nat) (s : State) : Out := .next (lodestarFailed s 0x13)

/-- RESTART_TIMEOUT: a restart that has not completed within 400 ms is a further failure; an activation has its own bound
(R498, R543). -/
def execRestartTimeout (s : State) : Out :=
  .next (match s.glb.restarting with
    | some t => if s.fw.slot ≠ 3 ∧ elapsed s t 400 then lodestarFailed s 0 else s
    | none => s)

/-! ## The boot ROM (R546) -/

/-- The boot slot: A is false. -/
def bootSlot (s : State) (b : Bool) : Slot := if b then s.flash.slotB else s.flash.slotA

/-- s with a boot slot changed. -/
def modBoot (s : State) (b : Bool) (f : Slot → Slot) : State :=
  if b then { s with flash.slotB := f s.flash.slotB } else { s with flash.slotA := f s.flash.slotA }

/-- The image of a slot passes R532 when it is started: its bytes are intact, and its security version is not below the floor. -/
def bootPasses (s : State) (w : BootWorld) (b : Bool) : Bool :=
  (bootSlot s b).valid && (if b then w.slotBok else w.slotAok) && decide (s.flash.floor ≤ (bootSlot s b).svn)

/-- What runs after the boot ROM has chosen. -/
inductive Booted where
  /-- the trial image of this slot -/
  | trial (b : Bool)
  /-- a confirmed image -/
  | image (b : Bool)
  /-- nothing can be started -/
  | nothing
deriving DecidableEq, Repr

/-- Without a trial: the running slot, else the other slot when it holds a confirmed image not marked incompatible. -/
def bootConfirmed (s : State) (w : BootWorld) : Booted :=
  let r := s.flash.runB
  if bootPasses s w r then .image r
  else if bootPasses s w (!r) && (bootSlot s (!r)).confirmed && !(bootSlot s (!r)).incompatible then .image (!r)
  else .nothing

/-- The trial is over without confirmation: the boot control record drops it and 0x8506 is queued at the next start; the slot
is free (log 85). -/
def trialFailed (s : State) (b : Bool) : State :=
  { s with
    flash.trial := none, flash.attempts := 0, flash.fallback := some (bootSlot s b).version, fw.slot := 0,
    flash.slotA := (if b then s.flash.slotA else { s.flash.slotA with valid := false }),
    flash.slotB := (if b then { s.flash.slotB with valid := false } else s.flash.slotB) }

/-- The boot ROM's choice: starts of the trial that stopped before it confirmed use up its two attempts. -/
def bootRom (s : State) (w : BootWorld) : State × Booted :=
  match s.flash.trial with
  | none => (s, bootConfirmed s w)
  | some b =>
    if s.flash.attempts + w.stops < 2 && bootPasses s w b then
      ({ s with flash.attempts := s.flash.attempts + w.stops + 1 }, .trial b)
    else
      let s := trialFailed s b
      (s, bootConfirmed s w)

/-! ## Confirmation and fallback (R543 to R545) -/

/-- The settings in force are those of the active bank; volatile entries keep their values when `keep`. -/
def loadBank (s : State) (keep : Bool) : State :=
  let b := (activeBank s).copy0.getD ((activeBank s).copy1.getD [])
  let vol := if keep then s.od.filter fun x =>
      (match odFind (x.1 / 256) (x.1 % 256) with | some e => !e.pers | none => false)
    else []
  { s with od := vol.foldl (fun l x => put x.1 x.2 l) b }

/-- A trial image has run: it confirms itself when the migrated settings are valid, and the other bank becomes active; else it
marks itself incompatible, and the previous image runs with the unchanged bank. -/
def settleTrial (s : State) (w : BootWorld) (b : Bool) : State :=
  let good := match w.migrated with | some od => bankValid od | none => false
  if good then
    let od := w.migrated.getD []
    let bank : Bank := { schema := (bootSlot s b).schema, copy0 := some od, copy1 := some od }
    let s := if s.flash.active1 then { s with flash.bank0 := bank, flash.active1 := false }
      else { s with flash.bank1 := bank, flash.active1 := true }
    let sl := bootSlot s b
    let s := modBoot s b fun x => { x with confirmed := true }
    let s := { s with
      flash.runB := b, flash.trial := none, flash.attempts := 0, fw.slot := 0, fw.source := 0, fw.digest := [],
      flash.floor := if sl.raiseFloor then max s.flash.floor sl.svn else s.flash.floor }
    let s := modBoot s b fun x => { x with image := [] }
    queueEvent (loadBank s true) evActivated 0 0 (evParams [(20, le 4 sl.version)])
  else
    let s := modBoot s b fun x => { x with incompatible := true }
    let rejected := (bootSlot s b).version
    let s := { s with flash.trial := none, flash.attempts := 0, fw.slot := 0, fw.source := 0, fw.digest := [], flash.fallback := some rejected }
    s

/-- A fallback is reported once Lodestar runs (R545, R546). -/
def reportFallback (s : State) : State :=
  match s.flash.fallback with
  | none => s
  | some v =>
    queueEvent { s with flash.fallback := none } evFallback 0 0
      (evParams [(20, le 4 v), (24, le 4 (bootSlot s s.flash.runB).version)])

/-! ## The end of a restart (R498, R499, R501, R534) -/

/-- Extents that waited in the journal are applied. -/
def applyJournal (s : State) : State :=
  let es := s.ls.journal
  es.foldl (fun s e => addExtents s e.part [e]) { s with ls.journal := [] }

/-- A piece of a WRITE is confirmed by the peer (R456). -/
def peerVerified (s : State) (p : Nat) (st : StreamId) (v i : Nat) : State :=
  let left := s.pl.unverified.filter fun u => u != (p, st, v, i)
  let s := { s with pl.unverified := left }
  match writeOf s p st v with
  | none => s
  | some c => settleWrite (modCmd s c.id fun c => c.modPiece i fun k => { k with peerOk := true }) c.id

/-- Lodestar is up again: what waited for it follows, LODESTAR_RESTARTED is queued, QE fetches (log 84). -/
def finishRestart (s : State) : State :=
  let s := applyJournal { s with glb.restarting := none }
  let s := s.health.lateFaults.foldl ringAdd { s with health.lateFaults := [] }
  let late := s.health.lateEvents
  let s := late.foldl (fun s e => queueNow s e.1 e.2.1 e.2.2.1 e.2.2.2) { s with health.lateEvents := [] }
  let s := queueEvent (judgeCurve { s with glb.lsUp := true }) evLodestar 0 0 (evParams [(20, le 1 (recentRestarts s).length)])
  let s := reportFallback (setIstat s 3)
  let vs := s.pl.verified
  resumeLadders (vs.foldl (fun s v => peerVerified s v.1 v.2.1 v.2.2.1 v.2.2.2) { s with pl.verified := [] })

/-- LODESTAR_RESTART_COMPLETE: after a failure the same image runs again; in an activation the boot ROM has chosen (R498,
R543 to R546). -/
def lodestarRestartCompleteS (s : State) (w : BootWorld) : State :=
  if s.glb.restarting.isNone then s
  else if s.fw.slot ≠ 3 then finishRestart s
  else
    let a := bootRom s w
    match a.2 with
    | .trial b => finishRestart (settleTrial { a.1 with glb.restarting := none } w b)
    | .image b => finishRestart { a.1 with flash.runB := b }
    | .nothing => enterTwilight a.1 2

/-- LODESTAR_RESTART_COMPLETE. -/
def execLodestarRestartComplete (w : BootWorld) (s : State) : Out := .next (lodestarRestartCompleteS s w)

end Sys2Proof.Machine
end

