-- ==== Sys2Proof/Machine/Pair.lean ====
section
/-! DEFINITION. The pair: link and flits, formation, mirroring and its confirmation, peer loss, takeover, divergence, the
exchange of time (R446 to R462, R501, R505, R536). -/

namespace Sys2Proof.Machine

/-! ## The link (R446, R447) -/

/-- LINK_TRAINING: the lanes that train are in use; a link that is up shows that the peer is present (log 25); what waited for
a retrain goes out. The link trains from the end of stage 0 of start-up (R520). -/
def execLinkTraining (lane0 lane1 : Bool) (s : State) : Out :=
  .next (
    if s.glb.stage = 0 then s
    else
      sendIdle (pumpLink { s with
        pl.lanes := BitVec.ofNat 2 (b2n lane0 + 2 * b2n lane1), pl.present := s.pl.present || lane0 || lane1 }))

/-- FLIT_ERROR: a flit that fails its CRC, is of a reserved type or arrives out of sequence is negatively acknowledged: the NAK
asks for the next expected sequence. -/
def execFlitError (_flitSeq : Nat) (s : State) : Out :=
  .next (if linkUp s then emit s (flitOf s 3 s.pl.txSeq (le 2 (nextFlit s.pl.rxSeq))) else s)

/-- A flit is acknowledged by an acknowledged sequence: it lies not after it. -/
def ackedBy (ack seq : Nat) : Bool := decide ((ack % 4096 + 4096 - seq % 4096) % 4096 < 2048)

/-- Every flit carries an acknowledged sequence: acknowledged flits leave the replay buffer, and the buffers of RECORDs acknowledged to
their last flit are released (R447, R452). -/
def acknowledge (s : State) (ack : Nat) : State :=
  let left := s.pl.unacked.filter fun f => !ackedBy ack f.1
  let acked := s.pl.sent - left.length
  let done := s.pl.sentRecs.filter fun r => decide (r.1 ≤ acked)
  let s := { s with
    pl.ackSeq := ack % 4096, pl.unacked := left, pl.sentRecs := s.pl.sentRecs.filter fun r => !decide (r.1 ≤ acked) }
  done.foldl (fun s r => release s (BitVec.ofNat 32 r.2) clsPl) s

/-- What is acknowledged makes room for the flits that wait. -/
def idleFlitS (s : State) (ack : Nat) : State := pumpLink (acknowledge s ack)

/-- NAK: the flits before a sequence have arrived; those from it on go out again from the replay buffer, and are counted; then what waits
can go. -/
def execNak (replayFrom : Nat) (s : State) : Out :=
  .next (
    if linkUp s then
      let s := acknowledge s (replayFrom % 4096 + 4095)
      let s := s.pl.unacked.foldl (fun s f => emit s f.2) { s with pl.replay := satAdd 65535 s.pl.replay s.pl.unacked.length }
      pumpLink s
    else s)

/-- IDLE_FLIT. -/
def execIdleFlit (ack : Nat) (s : State) : Out := .next (idleFlitS s ack)

/-! ## Peer loss and takeover (R460, R461, R539) -/

/-- What the link had still to carry to a peer that is gone goes nowhere, and the buffers of its RECORDs are released (log 94). -/
def dropLink (s : State) : State :=
  let recs := s.pl.sentRecs
  recs.foldl (fun s r => release s (BitVec.ofNat 32 r.2) clsPl) { s with pl.waiting := [], pl.unacked := [], pl.sentRecs := [] }

/-- Records of a partition that lie on tape or are on their way there. -/
def ownVersions (s : State) (p : Nat) : List Nat :=
  let onTape := (copiesIn s p).flatMap fun t => t.ds.recs.map Rec.version
  let sealed_ := (s.fm.sealed.filter fun w => w.ds.part == p).flatMap fun w => w.ds.recs.map Rec.version
  let open_ := match (partOf s p).bind Part.openDs with | some o => o.recs.map Rec.version | none => []
  onTape ++ sealed_ ++ open_ ++ (s.fm.recs.filter fun j => j.part == p).map fun j => j.r.version

/-- A secondary whose peer is lost becomes primary: the peer is fenced, pieces without PIECE_COMMIT fail, version sequences
restart, and what it holds is the watermark (R26, R27, R458, R461) (log 93). -/
def takeOver (s : State) : State :=
  let s := { emit s .pairRstOut with pl.role := 1, flash.roleEpoch := s.flash.roleEpoch + 1 }
  let lost := s.fm.mirror.filter fun m => m.st != .committed && m.st != .failed && m.commit.isNone
  let s := lost.foldl (fun s m => discardMirror s m.part m.stream m.version m.piece) s
  let s := { s with
    pl.reason := 0,
    fm.parts := s.fm.parts.map fun (x : Part) =>
      let top := maxOf 0 (ownVersions s x.num)
      { x with version := (top / 2 ^ 32 + 1) * 2 ^ 32 - 1, watermark := some top, diverged := false } }
  roleEvent (s.fm.parts.foldl (fun (s : State) (x : Part) =>
    openForMarkers (commitReady (checkExhausted s x.num) x.num) x.num) s)

/-- The peer is lost (R460): on a primary WRITEs that wait for it alone end, and the event is queued; a secondary takes over
at once when it may. -/
def losePeer (s : State) : State :=
  if s.pl.lost ∨ s.pl.role = 0 then s
  else
    let s := freezeMarks s
    let s := { s with
      pl.lost := true, pl.suspect := false, pl.suspectAt := none, pl.credits := 0, pl.verified := [],
      fw.prop := (if s.fw.prop = 1 then 6 else s.fw.prop),
      fw.peerBuf := (if s.fw.slot = 1 ∧ s.fw.source = 2 then s.fw.peerBuf else []), fw.peerDone := false }
    if s.pl.role = 1 then
      let s := (writesOf s).foldl (fun s c => settleWrite s c.id) s
      queueEvent s evPeerLost 0 0 (evParams [(20, le 4 s.flash.roleEpoch)])
    else if setN s 0x6001 5 = 1 then takeOver s
    else s

/-- TAKEOVER: 0x6002:01 written with 1 on a secondary whose peer is lost. -/
def execTakeover (s : State) : Out :=
  .next (if s.pl.role = 2 ∧ s.pl.lost ∧ s.glb.restarting.isNone ∧ s.glb.twilight.isNone then takeOver s else s)

/-- PEER_SUSPECT: ten heartbeat periods without a heartbeat (R459). -/
def execPeerSuspect (s : State) : Out :=
  .next (match s.pl.hbAt with
    | some t =>
      if s.pl.role ≠ 0 ∧ !s.pl.lost ∧ !s.pl.suspect ∧ elapsed s t 1 then
        { s with pl.suspect := true, pl.suspectAt := some s.now }
      else s
    | none => s)

/-- PEER_RESTART_TIMEOUT: LODESTAR_UP has stayed 0 for more than 1 s (R501). -/
def execPeerRestartTimeout (s : State) : Out :=
  .next (match s.pl.lsDownAt with
    | some t =>
      if s.pl.role ≠ 0 ∧ !s.pl.lost ∧ !s.pl.suspect ∧ elapsed s t 1000 then
        { s with pl.suspect := true, pl.suspectAt := some s.now }
      else s
    | none => s)

/-- PEER_LOST: the peer has been suspect for the peer-lost time. -/
def execPeerLost (s : State) : Out :=
  .next (match s.pl.suspectAt with
    | some t => if s.pl.suspect ∧ elapsed s t (setN s 0x6001 6) then dropLink (losePeer s) else s
    | none => s)

/-- PAIR_PRESENT_FALL: the peer is gone, and with it the link. -/
def execPairPresentFall (s : State) : Out := .next (dropLink (losePeer { s with pl.present := false, pl.lanes := 0 }))

/-- WRITEs that need the pair end with a status: those under the both-copies policy. -/
def endPairWrites (s : State) (st : Nat) : State :=
  ((writesOf s).filter fun c => !c.dropped && c.both).foldl (fun s c => endWrite s c.id st 0 false) s

/-- A forwarded partition operation hears no more from the peer: it counts as answered with a status. -/
def answerOp (s : State) (st : Nat) : State :=
  match s.media.op with
  | some (.create (some _) _ (some n) ..) => { s with pl.forwardOp := some (n, st) }
  | some (.delete (some _) _ (some n) ..) => { s with pl.forwardOp := some (n, st) }
  | _ => s

/-- PAIR_RST_IN: PL is reset, the role is none, and what needs the pair ends with ROLE_STALE (R461 step 1) (log 94). -/
def pairRstInS (s : State) : State :=
  let s := if s.pl.role = 1 then answerOp (endPairWrites (freezeMarks s) stRoleStale) stRoleStale else s
  let s := (s.pl.sentRecs).foldl (fun s r => release s (BitVec.ofNat 32 r.2) clsPl) s
  { s with pl := { present := s.pl.present, forwardOp := s.pl.forwardOp } }

/-- PAIR_RST_IN. -/
def execPairRstIn (s : State) : Out := .next (pairRstInS s)

/-! ## Roles and epochs (R449, R450) -/

/-- This unit becomes primary at formation (R449); preferences that clash leave the choice to the instance numbers
(log 91). -/
def choosePrimary (mine peer own other : Nat) : Bool :=
  let me := mine != 2 && peer != 1
  let him := mine != 1 && peer != 2
  if me != him then me else decide (own < other)

/-- PAIR_FORMATION: both units are enabled and linked: roles, epoch, comparison of the cartridges; a formed pair compares
again (R449, R457). -/
def pairFormationS (s : State) (i : PeerInfo) : State :=
  if !linkUp s || setN s 0x6001 1 != 1 || !s.glb.lsUp then s
  else if s.pl.role ≠ 0 ∧ !s.pl.lost then comparePair s i
  else
    let first := choosePrimary (setN s 0x6001 2) i.pref Config.instanceNo.toNat i.instanceNo
    let s := { s with
      pl.lost := false, pl.suspect := false, pl.suspectAt := none, pl.hbAt := some s.now, pl.lsDownAt := none,
      pl.reason := 0, pl.credits := 0, pl.peerDiverged := [], pl.timeSet := false }
    let s := setRole s (if first then 1 else 2) (max s.flash.roleEpoch i.epoch + 1)
    let s := if first then s else plSend (markDiverged s) (.credit (poolOf s 7).freeCount)
    comparePair s i

/-- PAIR_FORMATION. -/
def execPairFormation (peer : PeerInfo) (s : State) : Out := .next (pairFormationS s peer)

/-- A unit that was primary is demoted: the peer it had is lost to it, then it has the new role, and the unit whose message it has is its
peer: the loss lasts no longer than this step (R450, R460, log 147). -/
def adoptRole (s : State) (role epoch : Nat) : State :=
  let s := if s.pl.role = 1 ∧ role ≠ 1 then losePeer s else s
  let s := if s.pl.role = role then { s with flash.roleEpoch := epoch } else setRole s role epoch
  let s := { s with pl.lost := false, pl.suspect := false, pl.suspectAt := none, pl.hbAt := some s.now }
  if role = 2 then markDiverged s else s

/-- The role a sender's role implies for the receiver. -/
def impliedRole (s : State) (sender : Nat) : Nat := if sender = 1 then 2 else if sender = 2 then 1 else s.pl.role

/-- The flits of a message have been received: the sequence this unit acknowledges is that of the last one, and what that one acknowledges
leaves the replay buffer (R447). -/
def received (s : State) (flit ack : Nat) : State := idleFlitS { s with pl.rxSeq := flit % 4096 } ack

/-- A message arrives: the link takes its flits and answers with their sequence. It is processed unless Lodestar is down in Twilight; one
of an older role epoch is answered with ROLE_STALE and goes no further, a newer epoch is adopted first (R447, R450). -/
def acceptMsg (s : State) (h : MsgHead) (k : State → State) : State :=
  if !linkUp s then s
  else
    let s := received s h.flit h.ack
    sendIdle (
      if s.glb.twilight.isSome then s
      else if h.epoch < s.flash.roleEpoch then
        plSend { s with pl.staleSent := satAdd 65535 s.pl.staleSent 1 } (.roleStale s.pl.role s.flash.roleEpoch h.seq)
      else if s.flash.roleEpoch < h.epoch then k (adoptRole s (impliedRole s h.role) h.epoch)
      else k s)

/-- A partition operation whose forwarding message was rejected ends with ROLE_STALE (R450, R457). -/
def endRejectedOp (s : State) (rejected : Nat) : State :=
  match s.media.op with
  | some (.create (some _) _ (some n) ..) => if n = rejected then answerOp s stRoleStale else s
  | some (.delete (some _) _ (some n) ..) => if n = rejected then answerOp s stRoleStale else s
  | _ => s

/-- The commands that needed a rejected message end with ROLE_STALE: the WRITE under the both-copies policy that it served, or the
partition operation it forwarded (R450). -/
def endRejected (s : State) (rejected : Nat) : State :=
  let hit := s.pl.asked.filter fun a => a.1 == rejected
  hit.foldl (fun s a =>
    match writeOf s a.2.1 a.2.2.1 a.2.2.2 with
    | some c => if c.dropped then s else endWrite s c.id stRoleStale 0 false
    | none => s) (endRejectedOp { s with pl.asked := s.pl.asked.filter fun a => a.1 != rejected } rejected)

/-- ROLE_STALE: the commands that needed the rejected message end with ROLE_STALE, and the unit takes the epoch and the role that the
sender's role leaves it, unless its own epoch is newer (R450, log 26). -/
def roleStaleS (s : State) (role epoch rejected : Nat) : State :=
  let s := endRejected s rejected
  if epoch < s.flash.roleEpoch then s else adoptRole s (if role = 0 then 0 else impliedRole s role) epoch

/-- ROLE_STALE is counted as received, whatever its epoch (R450). -/
def execRoleStale (h : MsgHead) (role epoch rejected : Nat) (s : State) : Out :=
  .next (
    let s := if linkUp s then { s with pl.staleRcvd := satAdd 65535 s.pl.staleRcvd 1 } else s
    acceptMsg s h fun s => roleStaleS s role epoch rejected)

/-! ## Heartbeats (R459, R501, R505) -/

/-- This unit's heartbeat. -/
def ownHeartbeat (s : State) : HbBody :=
  { lodestarUp := s.glb.lsUp, twilight := s.glb.twilight.isSome, mount := mountState s,
    committed := s.fm.parts.map fun x => (x.num, committedTop s x.num),
    diverged := (s.fm.parts.filter fun x => x.diverged).map Part.num }

/-- HEARTBEAT_SEND: every 100 us, in hardware; a full replay buffer holds it back (R447, R459). -/
def execHeartbeatSend (s : State) : Out :=
  .next (
    let due := match s.pl.hbSentAt with | some t => decide (s.now ≥ t + 21600) | none => true
    if linkUp s && due && decide (s.pl.unacked.length < 64) then
      plSend { s with pl.hbSentAt := some s.now } (.heartbeat (ownHeartbeat s))
    else s)

/-- The peer's heartbeat: a peer in Twilight is lost at once; its restart is timed; its committed versions and divergence are
noted, and a withdrawal lets mirroring begin (R457, R458, R459, R501, R505). -/
def heartbeatS (s : State) (b : HbBody) : State :=
  let s := { s with
    pl.hbAt := some s.now, pl.peerCommitted := b.committed, pl.peerDiverged := b.diverged,
    pl.lsDownAt := (if b.lodestarUp then none else some (s.pl.lsDownAt.getD s.now)) }
  if b.twilight then losePeer s
  else
    let calm := match s.pl.lsDownAt with | some t => !elapsed s t 1000 | none => true
    let s := if calm then { s with pl.suspect := false, pl.suspectAt := none } else s
    if s.pl.role = 1 ∧ s.pl.reason = 0 ∧ !b.diverged.isEmpty then breakPair s 5
    else if s.pl.role = 1 ∧ s.pl.reason = 5 ∧ b.diverged.isEmpty then catchUp { s with pl.reason := 0 }
    else if s.pl.role = 2 ∧ s.pl.reason = 5 ∧ !(s.fm.parts.any fun x => x.diverged) then { s with pl.reason := 0 }
    else s

/-- HEARTBEAT. -/
def execHeartbeat (h : MsgHead) (b : HbBody) (s : State) : Out := .next (acceptMsg s h fun s => heartbeatS s b)

/-! ## Mirroring (R452 to R456) -/

/-- A record past stage 4 waits to be mirrored. -/
def RecJob.toMirror (k : RecJob) : Bool := k.cmd.isSome && !k.mirrored && !k.dead

/-- RECORD_MIRROR: records past stage 4 go to the secondary in the order in which they reached that point, when there is credit for
them and no catch-up goes before; PL holds the pool 4 buffers, which it took at the end of stage 4 or takes now, until the last flit is
acknowledged (R452, R457). -/
def recordMirrorS (s : State) (id : Nat) : State :=
  match recOf s id with
  | none => s
  | some j =>
    let n := creditOf s j.r
    let behind := s.fm.recs.any fun k => k.toMirror && k.stage == .ready && decide (k.readyNo < j.readyNo)
    if !mirroring s || !j.toMirror || j.stage != .ready || behind || !s.pl.catchQ.isEmpty || decide (s.pl.credits < n) then s
    else
      let s := holdForPeer s id
      let s := plSend { s with pl.credits := s.pl.credits - n } (.record j.part j.r)
      let s := { s with pl.sentRecs := s.pl.sentRecs ++ j.bufs.map fun h => (lastFlit s, h.toNat) }
      modRec s id fun j => { j with mirrored := true }

/-- RECORD_MIRROR. -/
def execRecordMirror (r : Nat) (s : State) : Out := .next (recordMirrorS s r)

/-- The mirrored piece, known from the first message that names it. -/
def mirrorPut (s : State) (p : Nat) (st : StreamId) (v i : Nat) (f : MirrorPiece → MirrorPiece) : State :=
  let is := fun m : MirrorPiece => m.part == p && m.stream == st && m.version == v && m.piece == i
  if s.fm.mirror.any is then { s with fm.mirror := s.fm.mirror.map fun m => if is m then f m else m }
  else { s with fm.mirror := s.fm.mirror ++ [f { part := p, stream := st, version := v, piece := i }] }

/-- The mirrored piece's record, if it is known. -/
def mirrorOf (s : State) (p : Nat) (st : StreamId) (v i : Nat) : Option MirrorPiece :=
  s.fm.mirror.find? fun m => m.part == p && m.stream == st && m.version == v && m.piece == i

/-- A RECORD joins the records to be placed unchanged, and takes its pool 7 buffers or waits for them (R160, R453). -/
def recordS (s : State) (p : Nat) (r : Rec) : State :=
  let failed := (mirrorOf s p r.stream r.version r.piece).any fun m => m.st == .failed
  if !secondary s || (partOf s p).isNone || failed then s
  else
    let j : RecJob := { id := s.fm.nextRec, cmd := none, part := p, piece := r.piece, rel := 0, r, stage := .ready }
    let s := { s with fm.recs := s.fm.recs ++ [j], fm.nextRec := s.fm.nextRec + 1 }
    let s := takeMirrors (bareMirrors s) s
    let s := mirrorPut s p r.stream r.version r.piece fun m =>
      { m with received := m.received + 1, len := m.len + r.olen, off := min m.off r.offset, pieces := r.pieces }
    modPart s p fun x => { x with version := max x.version r.version }

/-- RECORD. -/
def execRecord (h : MsgHead) (part : Nat) (r : Rec) (s : State) : Out := .next (acceptMsg s h fun s => recordS s part r)

/-- PIECE_COMMIT: the piece may have its MARKER when the record count matches; a mismatch fails it (R453). -/
def pieceCommitS (s : State) (p : Nat) (st : StreamId) (v i n : Nat) : State :=
  if !secondary s || (partOf s p).isNone then s
  else
    let s := mirrorPut s p st v i id
    match mirrorOf s p st v i with
    | none => s
    | some m =>
      if m.st ≠ .open_ then s
      else if m.received ≠ n then openForMarkers (discardMirror s p st v i) p
      else
        let s := mirrorPut s p st v i fun m => { m with commit := some n }
        openForMarkers s p

/-- PIECE_COMMIT. -/
def execPieceCommit (h : MsgHead) (part : Nat) (stream : StreamId) (version piece count : Nat) (s : State) : Out :=
  .next (acceptMsg s h fun s => pieceCommitS s part stream version piece count)

/-- PIECE_FAIL: records not yet placed are discarded, the others stay unreachable (R454). -/
def execPieceFail (h : MsgHead) (part : Nat) (stream : StreamId) (version piece : Nat) (s : State) : Out :=
  .next (acceptMsg s h fun s =>
    if secondary s then
      openForMarkers (commitReady (discardMirror (mirrorPut s part stream version piece id) part stream version piece) part) part
    else s)

/-- PIECE_VERIFIED: the peer's copy of a piece is confirmed; while Lodestar restarts it waits, after peer loss it counts for
nothing (R456, R460, R501). -/
def execPieceVerified (h : MsgHead) (part : Nat) (stream : StreamId) (version piece : Nat) (s : State) : Out :=
  .next (acceptMsg s h fun s =>
    if s.pl.role ≠ 1 ∨ s.pl.lost then s
    else if s.glb.restarting.isSome then { s with pl.verified := s.pl.verified ++ [(part, stream, version, piece)] }
    else peerVerified s part stream version piece)

/-- CREDIT: the free pool 7 buffers of the secondary (R452) (log 90). -/
def execCredit (h : MsgHead) (buffers : Nat) (s : State) : Out :=
  .next (acceptMsg s h fun s =>
    if s.pl.role = 1 then goOnCatch { s with pl.credits := buffers } else s)

/-- PARTITION_OP: the forwarded command runs here, and its end is reported under the message's sequence (R455). -/
def partitionOpS (s : State) (seq : Nat) (sqe : SqeBits) : State :=
  if s.pl.role ≠ 2 then s
  else if opcode sqe = 0x10 then
    match createRefused s sqe with
    | some e => plSend s (.opDone seq e.1)
    | none => createS (wake s) sqe none (some seq)
  else if opcode sqe = 0x11 then
    match deleteRefused s sqe with
    | some e => plSend s (.opDone seq e.1)
    | none => deleteStart (wake s) none (partition sqe) (some seq)
  else plSend s (.opDone seq stInvalidOpcode)

/-- PARTITION_OP. -/
def execPartitionOp (h : MsgHead) (sqe : SqeBits) (s : State) : Out :=
  .next (acceptMsg s h fun s => partitionOpS s h.seq sqe)

/-- OP_DONE: the peer's status of the forwarded command (R455); the command ends when both units have finished. -/
def execOpDone (h : MsgHead) (opSeq status : Nat) (s : State) : Out :=
  .next (acceptMsg s h fun s => advanceMedia { s with pl.forwardOp := some (opSeq, status) })

/-- IMAGE_TRANSFER: a chunk of a propagated image goes to the peer receive buffer; a transfer with an older role epoch is
dropped (R447, R533, R536). -/
def execImageTransfer (h : ImageHead) (chunk : List Byte) (last : Bool) (s : State) : Out :=
  .next (
    if !linkUp s then s
    else
      let s := sendIdle (received s h.flit h.ack)
      if s.glb.twilight.isSome then s
      else if h.epoch < s.flash.roleEpoch then { s with fw.peerBuf := [], fw.peerDone := false }
      else { s with fw.peerBuf := (s.fw.peerBuf ++ chunk).take 25165824, fw.peerDone := last })

/-! ## Divergence (R458) -/

/-- WITHDRAW_DIVERGENT_PIECES on a secondary, not over CAN FD: the extents above the watermark go, and a base checkpoint
without them, with the watermark all ones, follows once what is sealed has been settled. -/
def withdrawS (s : State) (path : Path) : State :=
  if path = .can ∨ s.pl.role ≠ 2 ∨ s.glb.restarting.isSome ∨ s.glb.twilight.isSome then s
  else
    (s.fm.parts.filter fun x => x.diverged).foldl (fun s x =>
      let above := fun e : Extent => e.part == x.num && decide (e.version > x.watermark.getD (2 ^ 64 - 1))
      let s := { s with fm.almanac := s.fm.almanac.filter fun e => !above e }
      let s := modPart s x.num fun x => { x with
        added := x.added.filter fun e => !above e, watermark := none, diverged := false, baseNext := true, withdraw := true }
      wantCheckpoint s x.num false) s

/-- WITHDRAW_DIVERGENT_PIECES. -/
def execWithdrawDivergentPieces (path : Path) (s : State) : Out := .next (withdrawS s path)

/-! ## Time (R462) -/

/-- TIME_EXCH_SEND: once a second the secondary asks for the primary's time. -/
def execTimeExchSend (s : State) : Out :=
  .next (
    let due : Bool := match s.pl.timeSentAt with | some t => elapsed s t 1000 | none => true
    if s.pl.role = 2 ∧ s.mt.running ∧ !s.pl.lost ∧ linkUp s ∧ due then
      plSend { s with pl.timeSentAt := some s.now } (.timeExch (meridian s) 0 0 0)
    else s)

/-- The primary returns an exchange with t2 and t3; the secondary applies the offset: the first steps Meridian, later ones trim
it, and with PPS_IN accepted within 3 s they only number the seconds (log 92). -/
def timeExchS (s : State) (t1 t2 t3 : Nat) : State :=
  if s.pl.role = 1 then plSend s (.timeExch t1 (meridian s) (meridian s) 0)
  else if s.pl.role = 2 ∧ s.mt.running then
    let off : Int := (((t2 : Int) - t1) - ((meridian s : Int) - t3)) / 2
    let s := { s with mt.ofs := ofsOf off }
    let pps := match s.mt.lastPps with | some t => !elapsed s t 3000 | none => false
    if !s.pl.timeSet then { stepBy s off with pl.timeSet := true, mt.sync := 2 }
    else if pps then (if nearestSec off = 0 then s else stepBy s (nearestSec off))
    else { trimBy s off with mt.sync := 2 }
  else s

/-- TIME_EXCH; t4 is taken on arrival here. -/
def execTimeExch (h : MsgHead) (t1 t2 t3 _t4 : Nat) (s : State) : Out := .next (acceptMsg s h fun s => timeExchS s t1 t2 t3)

end Sys2Proof.Machine
end

