-- ==== Sys2Proof/Machine/Firmware.lean ====
section
/-! DEFINITION. Firmware images, the staging slot, scheduled activation, the service session, key-encryption keys and the
clearing of retirements (R531 to R543, R547 to R552). -/

namespace Sys2Proof.Machine

/-! ## How an access to an entry ends (Table 3.10, R484) -/

/-- Outcome of a read or write of an object dictionary entry. -/
inductive OdOut where
  /-- done -/ | ok
  /-- no such entry -/ | absent
  /-- write to ro, const, lk or a guarded entry without a session, or outside its path -/ | denied
  /-- read of wo -/ | writeOnly
  /-- wrong length -/ | badLength
  /-- value out of range -/ | range
  /-- refused in the present state -/ | refused
deriving DecidableEq, Repr

/-- The outcome as a command status (Table 3.10); a refusal in the present state is ACCESS_DENIED, as R470 has it
(log 37). -/
def OdOut.status : OdOut → Nat
  | .ok => stOk
  | .absent => stInvalidField
  | .denied => stAccessDenied
  | .writeOnly => stAccessDenied
  | .badLength => stInvalidField
  | .range => stInvalidField
  | .refused => stAccessDenied

/-- The outcome as an abort code (R484); 0 for success. -/
def OdOut.abort : OdOut → Nat
  | .ok => 0
  | .absent => 0x06020000
  | .denied => 0x06010002
  | .writeOnly => 0x06010001
  | .badLength => 0x06070010
  | .range => 0x06090030
  | .refused => 0x08000022

/-- Lodestar serves an entry now: it runs, and neither a restart nor Twilight holds it. -/
def lsServes (s : State) : Bool := s.glb.lsUp && s.glb.restarting.isNone && s.glb.twilight.isNone

/-- Use of the service port shows that VBUS is there (R547, log 27). -/
def seeVbus (s : State) (p : Path) : State := if p = .usb then { s with fw.vbus := true } else s

/-! ## Images (R531, R532) -/

/-- The digest of an image. -/
def imageDigest (bs : List Byte) : List Byte := sha256 bs

/-- An image passes verification. -/
def imageOk (s : State) (bs : List Byte) : Bool :=
  let body := bs.drop 256
  let k := unle (slice bs 6 1)
  decide (256 ≤ bs.length ∧ bs.length ≤ 25165824) &&
    unle (slice bs 0 4) == 0x4957465A && unle (slice bs 4 2) == 1 && decide (k < 2) &&
    slice bs 7 1 == zeros 1 && slice bs 25 3 == zeros 3 && decide (unle (slice bs 28 4) < 2) &&
    slice bs 64 64 == zeros 64 && slice bs 192 64 == zeros 64 &&
    unle (slice bs 20 4) == body.length && slice bs 32 32 == sha256 body &&
    Config.keyIntact k && ecdsaOk (Config.imageKey k) (slice bs 0 128) (slice bs 128 64) &&
    decide (s.flash.floor ≤ unle (slice bs 16 4)) && decide (unle (slice bs 24 1) ≤ 0x10)

/-- The boot slot an image becomes once it is in flash. -/
def slotOf (source : Nat) (bs : List Byte) : Slot :=
  { version := unle (slice bs 8 4), schema := unle (slice bs 12 4), svn := unle (slice bs 16 4),
    raiseFloor := (unle (slice bs 28 4)) % 2 == 1, digest := imageDigest bs, source, image := bs, valid := true }

/-- IMAGE_DOWNLOAD: an image has come in over the service port, in a session (R535). -/
def imageDownloadOp (s : State) (p : Path) (bs : List Byte) : State × OdOut :=
  if p ≠ .usb ∨ !sessionOpen s then (s, .denied)
  else if bs.length > 25165824 then (s, .badLength)
  else ({ s with fw.usbBuf := bs, fw.usbDone := true }, .ok)

/-- IMAGE_DOWNLOAD. -/
def execImageDownload (path : Path) (bytes : List Byte) (s : State) : Out :=
  .next (if lsServes s then (imageDownloadOp (seeVbus s path) path bytes).1 else s)

/-- A claim of the staging slot by an image that has passed R532 (R537) (log 86). -/
def claimSlot (s : State) (source : Nat) (bs : List Byte) : State × OdOut :=
  let d := imageDigest bs
  if s.fw.slot ≠ 0 then
    if s.fw.digest = d then ({ s with ls.dups := satAdd 65535 s.ls.dups 1 }, .ok) else (s, .refused)
  else
    (queueEvent { s with fw.slot := 1, fw.source := source, fw.digest := d, fw.image := bs } evStaged 0 0
      (evParams [(20, le 1 source), (24, d)]), .ok)

/-- IMAGE_VERIFIED: R532 has been applied to what lies in a receive buffer: the service port's (1) or the peer's (2). The
download of the service port ends with it (R535, R537). -/
def execImageVerified (source : Nat) (s : State) : Out :=
  .next (
    if !lsServes s then s
    else if source = 1 ∧ s.fw.usbDone then
      let bs := s.fw.usbBuf
      let s := { s with fw.usbBuf := [], fw.usbDone := false }
      let r := if imageOk s bs then claimSlot s 1 bs else (s, .range)
      emit r.1 (.usdoReply usbClient r.2.abort [])
    else if source = 2 ∧ s.fw.peerDone then
      let bs := s.fw.peerBuf
      let s := { s with fw.peerBuf := [], fw.peerDone := false }
      if imageOk s bs then (claimSlot s 2 bs).1 else s
    else s)

/-- IMAGE_FLASH_WRITTEN: the image is in flash and read back (Table 19.2). -/
def execImageFlashWritten (s : State) : Out :=
  .next (
    if s.fw.slot = 1 ∧ lsServes s then
      { modBoot s (!s.flash.runB) (fun _ => slotOf s.fw.source s.fw.image) with fw.slot := 2, fw.image := [] }
    else s)

/-- Chunks of a propagated image: 116 bytes behind the role epoch in each flit's payload. -/
def imageChunks : Nat → List Byte → List (List Byte)
  | 0, _ => []
  | n + 1, bs => if bs.isEmpty then [] else bs.take 116 :: imageChunks n (bs.drop 116)

/-- PROPAGATE_TO_PEER (R536): the staged image goes out in IMAGE flits; the result shows the peer's answer. -/
def propagateOp (s : State) (a : PropAnswer) : State × OdOut :=
  if !sessionOpen s then (s, .denied)
  else if s.fw.slot ≠ 2 then (s, .refused)
  else if !linkUp s then ({ s with fw.prop := 6 }, .ok)
  else
    let img := (bootSlot s (!s.flash.runB)).image
    let s := sendImages s ((imageChunks (img.length / 116 + 1) img).map fun c => le 4 s.flash.roleEpoch ++ fit 116 c)
    ({ s with
        fw.prop := if 1 ≤ a.result ∧ a.result ≤ 5 then a.result else 1,
        fw.propSource := (if a.result = 3 then a.source else 0), fw.propDigest := if a.result = 3 then fit 32 a.digest else [] }, .ok)

/-- PROPAGATE_TO_PEER. -/
def execPropagateToPeer (answer : PropAnswer) (s : State) : Out :=
  .next (if lsServes s then (propagateOp s answer).1 else s)

/-! ## The schedule (R538, R540 to R543) -/

/-- All ones: no activation. -/
abbrev noTime : Nat := 2 ^ 64 - 1

/-- *Activation time* is written. -/
def putTime (s : State) (v : Nat) : State :=
  match odFind 0x5013 1 with
  | some e => odPut s 0x5013 1 e (le 8 v)
  | none => s

/-- CANCEL_STAGED_IMAGE (R538). -/
def cancelOp (s : State) : State × OdOut :=
  if !sessionOpen s then (s, .denied)
  else if s.fw.slot = 3 then (s, .refused)
  else if s.fw.slot = 0 then (putTime s noTime, .ok)
  else
    let s := if s.fw.slot = 2 then modBoot s (!s.flash.runB) fun x => { x with valid := false, image := [] } else s
    (putTime { s with fw.slot := 0, fw.source := 0, fw.digest := [], fw.image := [], fw.holdAt := none, fw.lenient := false }
      noTime, .ok)

/-- CANCEL_STAGED_IMAGE. -/
def execCancelStagedImage (s : State) : Out := .next (if lsServes s then (cancelOp s).1 else s)

/-- ACTIVATION_TIME: a new time takes the place of the old one, and of a window that it has opened (R540; log 152). -/
def activationTimeOp (s : State) (ns : Nat) : State × OdOut :=
  if !sessionOpen s then (s, .denied)
  else if s.fw.slot ≠ 2 ∧ ns ≠ noTime then (s, .range)
  else
    (putTime { s with fw.holdAt := none, fw.lenient := false } ns, .ok)

/-- ACTIVATION_TIME. -/
def execActivationTime (path : Path) (ns : BitVec 64) (s : State) : Out :=
  .next (if lsServes s then (activationTimeOp (seeVbus s path) ns.toNat).1 else s)

/-- An activation is armed (LS.FWSTAT.ARMED). -/
def armed (s : State) : Bool := s.fw.slot == 2 && setN s 0x5013 1 != noTime

/-- ACTIVATION_ARMED_INSTANT: from it on Lodestar holds new owners and admin commands (R542). -/
def execActivationArmedInstant (s : State) : Out :=
  .next (
    if lsServes s && armed s && s.fw.holdAt.isNone && !s.fw.lenient && decide (setN s 0x5013 1 ≤ meridian s) then
      { s with fw.holdAt := some s.now }
    else s)

/-- The Tamyan is quiescent (R541). -/
def quiescent (s : State) : Bool :=
  s.ce.owner == 0 && s.nw.atRest && s.media.op.isNone &&
    !(s.qe.cmds.any fun c => !c.dropped && isAdminOp (opcode c.sqe) && opcode c.sqe != 0x3F) &&
    s.fm.reallocs.isEmpty && !s.pl.catchup && s.fw.prop != 1 && s.glb.twilight.isNone

/-- QUIESCENT_POINT: the activation begins: the trial is recorded and Lodestar alone restarts, uncounted (R543) (log 89). -/
def execQuiescentPoint (s : State) : Out :=
  .next (
    let inWindow := match s.fw.holdAt with | some t => !elapsed s t (setN s 0x5013 3) | none => s.fw.lenient
    if lsServes s && armed s && inWindow && quiescent s then
      beginRestart (putTime { s with
        fw.slot := 3, fw.holdAt := none, fw.lenient := false, flash.trial := some (!s.flash.runB), flash.attempts := 0 } noTime)
    else s)

/-- GRACE_WINDOW_EXPIRY (R542). -/
def execGraceWindowExpiry (s : State) : Out :=
  .next (match s.fw.holdAt with
    | some t =>
      if lsServes s && elapsed s t (setN s 0x5013 3) then
        let s := { s with fw.holdAt := none }
        if setN s 0x5013 2 = 0 then queueEvent (putTime s noTime) evSkipped 0 0 (evParams [(20, le 1 0)])
        else queueEvent { s with fw.lenient := true } evSkipped 0 0 (evParams [(20, le 1 1)])
      else s
    | none => s)

/-! ## The session (R547 to R550) -/

/-- A lockout is in force. -/
def lockedOut (s : State) : Bool := match s.flash.lockUntil with | some t => decide (s.now < t) | none => false

/-- A second in control-clock cycles. -/
abbrev secCycles : Nat := 216000000

/-- A read of *Challenge*: 16 random bytes, the instance number, the challenge count, 8 reserved bytes. -/
def challengeOp (s : State) : State × List Byte :=
  let f := freshFree s
  let n := s.fw.challenges + 1
  let c := le 16 (Config.randomBytes f.1).toNat ++ le 4 Config.instanceNo.toNat ++ le 4 n ++ zeros 8
  ({ f.2 with fw.challenge := some (c, s.now), fw.challenges := n }, c)

/-- CHALLENGE. -/
def execChallenge (s : State) : Out :=
  .next (if lsServes s then let r := challengeOp s; emit r.1 (.usdoReply usbClient 0 r.2) else s)

/-- A failed unlock is counted; the fifth in a row, and each after that, locks out, twice as long each time, up to 24 h
(R549) (log 87). -/
def unlockFails (s : State) : State :=
  let n := satAdd 255 s.flash.failures 1
  let s := { s with flash.failures := n }
  if n ≥ 5 then
    { s with flash.lockUntil := some (s.now + s.flash.nextLock * secCycles), flash.nextLock := min 86400 (2 * s.flash.nextLock) }
  else s

/-- The session opens for a number of seconds (R548) (log 110). -/
def openSession (s : State) (kind seconds : Nat) : State :=
  { s with
    fw.session := kind, fw.sessionEnd := s.now + seconds * secCycles, fw.jtagOpen := true,
    flash.failures := 0, flash.nextLock := 900, flash.lockUntil := none }

/-- A signature answers the latest challenge read, within 60 s of that read (R548). -/
def answers (s : State) (seconds : Nat) (sig : List Byte) : Bool :=
  match s.fw.challenge with
  | some (c, t) => !elapsed s t 60000 && ecdsaOk Config.serviceKey (c ++ le 4 seconds) sig
  | none => false

/-- RESPONSE (R548). -/
def responseOp (s : State) (p : Path) (seconds : Nat) (sig : List Byte) : State × OdOut :=
  if p ≠ .usb then (s, .denied)
  else if lockedOut s then (s, .refused)
  else if seconds < 60 ∨ 28800 < seconds then (s, .range)
  else
    let t := { s with fw.challenge := none }
    if answers s seconds sig then (openSession t 1 seconds, .ok) else (unlockFails t, .refused)

/-- RESPONSE. -/
def execResponse (path : Path) (seconds : Nat) (sig : List Byte) (s : State) : Out :=
  .next (if lsServes s then (responseOp (seeVbus s path) path seconds sig).1 else s)

/-- SERVICE_PASSWORD (R548). -/
def passwordOp (s : State) (p : Path) (chars : List Byte) : State × OdOut :=
  if p ≠ .usb then (s, .denied)
  else if lockedOut s then (s, .refused)
  else if chars.length < 8 ∨ 64 < chars.length then (s, .badLength)
  else match s.flash.password with
    | none => (s, .refused)
    | some (salt, stored) =>
      if pbkdf2 chars salt = stored then (openSession s 2 (60 * setN s 0x5021 3), .ok) else (unlockFails s, .refused)

/-- SERVICE_PASSWORD. -/
def execServicePassword (path : Path) (chars : List Byte) (s : State) : Out :=
  .next (if lsServes s then (passwordOp (seeVbus s path) path chars).1 else s)

/-- SET_SERVICE_PASSWORD: a new password with a fresh salt, or none (Table 19.4). -/
def setPasswordOp (s : State) (p : Path) (chars : List Byte) : State × OdOut :=
  if p ≠ .usb ∨ !sessionOpen s then (s, .denied)
  else if chars.isEmpty then ({ s with flash.password := none }, .ok)
  else if chars.length < 8 ∨ 64 < chars.length then (s, .badLength)
  else
    let f := freshFree s
    let salt := le 16 (Config.randomBytes f.1).toNat
    ({ f.2 with flash.password := some (salt, pbkdf2 chars salt) }, .ok)

/-- SET_SERVICE_PASSWORD. -/
def execSetServicePassword (path : Path) (chars : List Byte) (s : State) : Out :=
  .next (if lsServes s then (setPasswordOp (seeVbus s path) path chars).1 else s)

/-- LOCK: 1 written to 0x5022:03. -/
def execLock (path : Path) (s : State) : Out := .next (if lsServes s then endSession (seeVbus s path) else s)

/-- LOCKOUT_EXPIRY (R549). -/
def execLockoutExpiry (s : State) : Out :=
  .next (match s.flash.lockUntil with
    | some t => if s.now ≥ t then { s with flash.lockUntil := none } else s
    | none => s)

/-- SESSION_EXPIRY (R550). -/
def execSessionExpiry (s : State) : Out := .next (if sessionOpen s && decide (s.now ≥ s.fw.sessionEnd) then endSession s else s)

/-- VBUS_FALL (R550). -/
def execVbusFall (s : State) : Out := .next { endSession s with fw.vbus := false }

/-! ## Key-encryption keys (R551) -/

/-- The key an import blob holds (log 88). -/
def kekOf (n : Nat) (blob : List Byte) : Option (BitVec 256) :=
  let q := (unbe (slice blob 0 32), unbe (slice blob 32 32))
  if !onCurve q then none
  else
    match ecdhX Config.transportKey q with
    | none => none
    | some x =>
      (kwUnwrap (sha256 (be 32 x ++ ascii "ZKEK" ++ le 1 n)) (slice blob 64 40)).map fun k => BitVec.ofNat 256 (unbe k)

/-- KEK_IMPORT. -/
def kekImportOp (s : State) (p : Path) (n : Nat) (blob : List Byte) : State × OdOut :=
  if p ≠ .usb ∨ !sessionOpen s then (s, .denied)
  else if blob.length ≠ 104 then (s, .badLength)
  else if n > 15 then (s, .absent)
  else if s.flash.keks.any fun k => k.1 == n then (s, .refused)
  else match kekOf n blob with
    | some k => ({ s with flash.keks := put n (kwWrap (be 32 s.flash.deviceKey.toNat) (be 32 k.toNat)) s.flash.keks }, .ok)
    | none => (s, .range)

/-- KEK_IMPORT. -/
def execKekImport (path : Path) (n : Nat) (blob : List Byte) (s : State) : Out :=
  .next (if lsServes s then (kekImportOp (seeVbus s path) path n blob).1 else s)

/-- KEK_REMOVE: slots loaded under the key stay loaded. -/
def kekRemoveOp (s : State) (n : Nat) : State × OdOut :=
  if !sessionOpen s then (s, .denied)
  else if n > 15 then (s, .range)
  else ({ s with flash.keks := del n s.flash.keks }, .ok)

/-- KEK_REMOVE. -/
def execKekRemove (path : Path) (n : Nat) (s : State) : Out :=
  .next (if lsServes s then (kekRemoveOp (seeVbus s path) n).1 else s)

/-! ## Clearing retirements (R286, R491, R492, R552) -/

/-- Retired lanes are cleared: they return at the next dataset boundary, with their buckets empty. -/
def clearLanesOp (s : State) (mask : BitVec 64) : State × OdOut :=
  if !sessionOpen s then (s, .denied)
  else
    let left := s.flash.lanes &&& ~~~mask
    let empty := fun l : List (Nat × Nat) => l.filter fun x => !(mask.getLsbD x.1)
    let s := { s with
      flash.lanes := left, flash.laneAt := s.flash.laneAt.filter (fun x => !mask.getLsbD x.1), fm.tb := empty s.fm.tb, fm.pb := empty s.fm.pb, fm.consec := empty s.fm.consec }
    let s := if s.fm.current.isNone then { s with fm.retired := left } else s
    if retiredCount s ≤ 4 then
      let s := { s with fm.closing := false, fm.closeStep := 0 }
      ({ s with fm.wstate := if haltOver s ∧ !motionStop s then 0 else s.fm.wstate }, .ok)
    else (s, .ok)

/-- CLEAR_RETIRED_LANES. -/
def execClearRetiredLanes (path : Path) (mask : BitVec 64) (s : State) : Out :=
  .next (if lsServes s then (clearLanesOp (seeVbus s path) mask).1 else s)

/-- Retired front ends of module A (0) or B are cleared. -/
def clearFrontEndsOp (s : State) (module : Nat) (mask : BitVec 64) : State × OdOut :=
  if !sessionOpen s then (s, .denied)
  else
    let fresh := s.rc.fes.map fun x =>
      (x.1, if x.1 / 64 = module ∧ mask.getLsbD (x.1 % 64) then { x.2 with stuckRun := 0, biasf := false } else x.2)
    let s := { s with
      rc.fes := fresh,
      flash.feAt := s.flash.feAt.filter fun x => !(x.1 / 64 == module && mask.getLsbD (x.1 % 64)) }
    if module = 0 then
      ({ s with rc.retiredA := s.rc.retiredA &&& ~~~mask, flash.feA := s.flash.feA &&& ~~~mask }, .ok)
    else if module = 1 then
      ({ s with rc.retiredB := s.rc.retiredB &&& ~~~mask, flash.feB := s.flash.feB &&& ~~~mask }, .ok)
    else (s, .absent)

/-- CLEAR_RETIRED_FRONT_ENDS. -/
def execClearRetiredFrontEnds (path : Path) (module : Nat) (mask : BitVec 64) (s : State) : Out :=
  .next (if lsServes s then (clearFrontEndsOp (seeVbus s path) module mask).1 else s)

/-- Retired servo channels are cleared. -/
def clearServoOp (s : State) (mask : BitVec 8) : State × OdOut :=
  if !sessionOpen s then (s, .denied)
  else
    let m := ~~~(mask.setWidth 4)
    ({ s with sv.retired := s.sv.retired &&& m, flash.servo := s.flash.servo &&& m }, .ok)

/-- CLEAR_RETIRED_SERVO_CHANNELS. -/
def execClearRetiredServoChannels (path : Path) (mask : BitVec 8) (s : State) : Out :=
  .next (if lsServes s then (clearServoOp (seeVbus s path) mask).1 else s)

end Sys2Proof.Machine
end

