-- ==== Sys2Proof/Machine/Access.lean ====
section
/-! DEFINITION. Reading and writing the object dictionary over any path: what the entries that show state read as, the checks
of Table 3.10, and what a write to an entry brings about (R13, R124, R125, R470, R480, R483, R484, R547). -/

namespace Sys2Proof.Machine

/-! ## Reading -/

/-- Whole seconds left until an instant; a second that has begun counts (log 28). -/
def secondsLeft (s : State) (t : Nat) : Nat := (t - s.now + (secCycles - 1)) / secCycles

/-- What an entry that shows state reads as now; none for an entry that holds a value (log 34, 96). -/
def odLive (s : State) (idx sub : Nat) : Option (List Byte) :=
  match idx, sub with
  | 0x1001, 0 => some (le 1 (b2n (faultOut s)))
  | 0x1018, 3 =>
    let v := (bootSlot s s.flash.runB).version
    some (le 4 (0x10 + 256 * (bits v 8 8 + 256 * bits v 0 8)))
  | 0x1018, 4 => some (le 4 Config.instanceNo.toNat)
  | 0x3001, 1 => some (le 4 (stateSummary s))
  | 0x3002, 1 => some (le 4 (tapeAddr (headWrap s) s.sv.lpos))
  | 0x3002, 2 => some (le 2 (code 16 (clampI (-32768) 32767 (s.ce.vtach * 16000 / 2 ^ 31))))
  | 0x3200, 1 => some (le 2 s.fi.resSeq)
  | 0x3200, 2 => some (le 2 s.fi.resStatus)
  | 0x3200, 3 => some (le 1 s.fi.resState)
  | 0x3410, 1 => some (le 2 (s.flash.keks.foldl (fun m k => m ||| 2 ^ k.1) 0))
  | 0x3420, 1 => some (le 8 s.flash.lanes.toNat)
  | 0x3421, 1 => some (le 8 s.rc.retiredA.toNat)
  | 0x3421, 2 => some (le 8 s.rc.retiredB.toNat)
  | 0x3421, 3 => some (le 1 s.sv.retired.toNat)
  | 0x3430, n => some (le 2 (code 16 (s.glb.temps.getD (n - 1) 0)))
  | 0x5000, 3 => some (le 4 s.flash.floor)
  | 0x5011, 1 => some (le 1 s.fw.source)
  | 0x5011, 2 => some (fit 32 s.fw.digest)
  | 0x5011, 4 => some (le 1 s.fw.slot)
  | 0x5015, 2 => some (le 1 s.fw.prop)
  | 0x5015, 3 => some (le 1 s.fw.propSource)
  | 0x5015, 4 => some (fit 32 s.fw.propDigest)
  | 0x5022, 1 => some (le 1 s.fw.session)
  | 0x5022, 2 => some (le 4 (if sessionOpen s then secondsLeft s s.fw.sessionEnd else 0))
  | 0x5022, 4 => some (le 1 s.flash.failures)
  | 0x5022, 5 => some (le 4 (match s.flash.lockUntil with | some t => secondsLeft s t | none => 0))
  | 0x5031, 1 =>
    let q := (ptMul 256 Config.transportKey (some p256g)).getD (0, 0)
    some (be 32 q.1 ++ be 32 q.2)
  | 0x6003, 1 => some (le 4 s.flash.roleEpoch)
  | 0x6011, 2 => some (le 8 (meridian s))
  | _, _ => none

/-- The current value of an entry that exists. -/
def odCurrent (s : State) (idx sub : Nat) : List Byte := (odLive s idx sub).getD (odVal s idx sub)

/-- A read: the state after it, and the value or how it fails. A read of *Challenge* makes a new one. -/
def odRead (s : State) (idx sub : Nat) : State × Except OdOut (List Byte) :=
  match odFind idx sub with
  | none => (s, .error .absent)
  | some e =>
    if e.acc = .wo then (s, .error .writeOnly)
    else if idx = 0x5020 then let r := challengeOp s; (r.1, .ok r.2)
    else (s, .ok (odCurrent s idx sub))

/-! ## Writing -/

/-- RESTORE_DEFAULT_PARAMETERS: the defaults of a group return at the next reset; subindex 1 needs a session (R483). -/
def restoreOp (s : State) (sub v : Nat) : State × OdOut :=
  if sub = 0 ∨ 3 < sub then (s, .absent)
  else if sub = 1 ∧ !sessionOpen s then (s, .denied)
  else if v ≠ 0x64616F6C then (s, .range)
  else ({ s with flash.restore := s.flash.restore ||| BitVec.ofNat 3 (2 ^ (sub - 1)) }, .ok)

/-- The mapping objects change in Pre-operational only (R479); requests of the library are refused in Stopped (R484). -/
def refusedNow (s : State) (idx : Nat) : Bool :=
  (mapObjects.contains idx && s.fi.nmt != 1) || (idx == 0x2200 && s.fi.nmt == 3)

/-- Access to an entry for a write: its code, the session and the path (R13, R547). -/
def odWritable (s : State) (p : Path) (e : OdEntry) : Bool :=
  !(decide (e.acc = .ro) || decide (e.acc = .const) || (decide (e.acc = .lk) && !sessionOpen s) ||
    (e.usb && decide (p ≠ .usb)) || (e.sess && !sessionOpen s))

/-- Length and range of a written value by the entry itself. -/
def odValueBad (e : OdEntry) (bs : List Byte) : Option OdOut :=
  if (if e.var then decide (bs.length > e.size) else bs.length != e.size) then some .badLength
  else if odInRange e bs then none else some .range

/-- A write to an entry that holds a value: rules that bind it to others, then it is in force and stored. -/
def odStore (s : State) (idx sub : Nat) (e : OdEntry) (bs : List Byte) : State × OdOut :=
  if bindsOk (odPutIn (odKey idx sub) bs e.dflt s.od) idx then (odPut s idx sub e bs, .ok) else (s, .range)

/-- What a write of a value that passes the entry's own checks does (log 38). -/
def odEffect (s : State) (p : Path) (idx sub : Nat) (e : OdEntry) (bs : List Byte) (w : CmdWorld) : State × OdOut :=
  let v := unle bs
  match idx, sub with
  | 0x1010, _ => (s, .ok)
  | 0x1011, n => restoreOp s n v
  | 0x2200, 1 => ({ s with fi.libCode := v }, .ok)
  | 0x2200, _ => (libraryS s s.fi.libCode v w.lib, .ok)
  | 0x5010, _ => imageDownloadOp s p bs
  | 0x5012, _ => cancelOp s
  | 0x5013, 1 => activationTimeOp s v
  | 0x5015, _ => propagateOp s w.prop
  | 0x5020, _ => responseOp s p (unle (slice bs 0 4)) (slice bs 4 64)
  | 0x5021, 1 => passwordOp s p bs
  | 0x5021, 2 => setPasswordOp s p bs
  | 0x5022, _ => (endSession s, .ok)
  | 0x5032, n => kekImportOp s p (n - 1) bs
  | 0x5033, _ => kekRemoveOp s v
  | 0x5040, 1 => clearLanesOp s (BitVec.ofNat 64 v)
  | 0x5040, 2 => clearFrontEndsOp s 0 (BitVec.ofNat 64 v)
  | 0x5040, 3 => clearFrontEndsOp s 1 (BitVec.ofNat 64 v)
  | 0x5040, _ => clearServoOp s (BitVec.ofNat 8 v)
  | 0x6002, 1 =>
    if s.pl.role = 2 ∧ s.pl.lost then (takeOver s, .ok) else (s, .ok)
  | 0x6002, _ => if p = .can then (s, .refused) else (withdrawS s p, .ok)
  | 0x6011, _ =>
    let r := setMeridianOp s (BitVec.ofNat 64 v)
    (r.1, if r.2 = stOk then .ok else .refused)
  | _, _ => odStore s idx sub e bs

/-- A write of an entry, in the order of Table 3.10. -/
def odWrite (s : State) (p : Path) (idx sub : Nat) (bs : List Byte) (w : CmdWorld) : State × OdOut :=
  match odFind idx sub with
  | none => (s, .absent)
  | some e =>
    if !odWritable s p e then (s, .denied)
    else match odValueBad e bs with
      | some o => (s, o)
      | none => if refusedNow s idx then (s, .refused) else odEffect s p idx sub e bs w

/-- SAVE_PARAMETERS: writing "save" to 0x1010:01 succeeds and changes nothing; any other value is out of range (R483). -/
def execSaveParameters (_v : Word) (s : State) : Out := .next s

/-- RESTORE_DEFAULT_PARAMETERS. -/
def execRestoreDefaultParameters (sub : Nat) (v : Word) (s : State) : Out :=
  .next (if lsServes s then (restoreOp s sub v.toNat).1 else s)

end Sys2Proof.Machine
end

