-- ==== Sys2Proof/Machine/Can.lean ====
section
/-! DEFINITION. The field interface: NMT, heartbeat, EMCY, TPDOs, USDO, bus-off (R473 to R477, R479, R484). -/

namespace Sys2Proof.Machine

/-! ## The bus -/

/-- The controller takes part in the bus. -/
def busOn (s : State) : Bool := s.fi.bus != 2

/-- The error counters after a frame, and the bus state they give (ISO 11898-1, which R473 names). -/
def busCounters (s : State) (tec rcv : Nat) : State :=
  { s with
    fi.tec := min 255 tec, fi.rec_ := min 255 rcv,
    fi.bus := if tec > 255 then 2 else if tec > 127 ∨ rcv > 127 then 1 else 0 }

/-- A frame is sent: the counters follow, and it is on the bus unless the controller went bus-off over it. -/
def sendFrame (s : State) (cob : Nat) (bs : List Byte) (tec rcv : Nat) : State :=
  let s := busCounters s tec rcv
  if busOn s then emit s (.canFrame cob bs) else s

/-! ## NMT (R474, R476) -/

/-- A bank's entries of 0x1000 to 0x1FFF are in force again. -/
def reloadComm (s : State) : State :=
  let b := (activeBank s).copy0.getD ((activeBank s).copy1.getD [])
  let comm := fun k : Nat => decide (0x100000 ≤ k ∧ k < 0x200000)
  { s with od := (b.filter fun x => comm x.1).foldl (fun l x => put x.1 x.2 l) (s.od.filter fun x => !comm x.1) }

/-- FI starts afresh: node ID and rates are taken, communication entries loaded, boot-up is sent and Pre-operational
entered. A reset of the node passes through a reset of communication (log 29). -/
def fiReset (s : State) (pins : BitVec 3) : State :=
  let s := reloadComm s
  let node := setN s 0x2020 1 + pins.toNat
  let s := { s with
    fi.nodePins := pins, fi.node := node, fi.dupid := false, fi.nominal := setN s 0x2020 2, fi.data := setN s 0x2020 3,
    fi.nmt := 1, fi.sessions := [], fi.tpdo := [], fi.hbAt := some s.now, fi.bootAt := some s.now }
  if busOn s then emit s (.canFrame (0x700 + node) [0]) else s

/-- FI is past its start. -/
def fiRuns (s : State) : Bool := s.fi.nmt != 0

/-- An NMT command that sets a state; a duplicate node ID holds FI in Stopped. -/
def nmtSet (s : State) (n : Nat) : State := if fiRuns s && !s.fi.dupid then { s with fi.nmt := n } else s

/-- NMT_START. -/
def execNmtStart (s : State) : Out := .next (nmtSet s 2)

/-- NMT_STOP. -/
def execNmtStop (s : State) : Out := .next (nmtSet s 3)

/-- NMT_ENTER_PRE_OPERATIONAL. -/
def execNmtEnterPreOperational (s : State) : Out := .next (nmtSet s 1)

/-- NMT_RESET_NODE. -/
def execNmtResetNode (pins : BitVec 3) (s : State) : Out := .next (if fiRuns s then fiReset s pins else s)

/-- NMT_RESET_COMMUNICATION. -/
def execNmtResetCommunication (pins : BitVec 3) (s : State) : Out := .next (if fiRuns s then fiReset s pins else s)

/-- The NMT state as a heartbeat carries it (CiA 1301). -/
def nmtCode (n : Nat) : Nat := match n with | 1 => 127 | 2 => 5 | 3 => 4 | _ => 0

/-- CAN_HEARTBEAT: one each producer heartbeat time. -/
def canHeartbeatS (s : State) (tec rcv : Nat) : State :=
  let due := match s.fi.hbAt with | some t => elapsed s t (setN s 0x1017 0) | none => true
  if fiRuns s && busOn s && due then
    sendFrame { s with fi.hbAt := some s.now } (0x700 + s.fi.node) [BitVec.ofNat 8 (nmtCode s.fi.nmt)] tec rcv
  else s

/-- CAN_HEARTBEAT. -/
def execCanHeartbeat (tec rcv : Nat) (s : State) : Out := .next (canHeartbeatS s tec rcv)

/-- DUPLICATE_NODE_ID: a heartbeat with FI's own node ID within 1 s of boot-up. -/
def execDuplicateNodeId (s : State) : Out :=
  .next (match s.fi.bootAt with
    | some t => if fiRuns s && !elapsed s t 1000 then setSubst { s with fi.nmt := 3, fi.dupid := true } 3 else s
    | none => s)

/-! ## EMCY (R477) -/

/-- The 48-byte payload of Table 16.3. -/
def emcyPayload (s : State) (m : Emcy) : List Byte :=
  le 2 (0xFF00 + bits m.code 8 7) ++ le 1 (unle (odCurrent s 0x1001 0)) ++ [0] ++ le 2 m.code ++ le 1 m.scope ++ le 1 m.part ++
    le 8 m.time ++ fit 32 m.params

/-- The inhibit time since the last EMCY has passed; 0x1015 counts 100 us. -/
def emcyDue (s : State) : Bool :=
  match s.fi.emcyAt with | some t => decide (s.now ≥ t + 21600 * setN s 0x1015 0) | none => true

/-- The oldest waiting EMCY is sent; in Stopped it is counted instead (R476). -/
def emcySendS (s : State) (tec rcv : Nat) : State :=
  match s.fi.emcy with
  | [] => s
  | m :: r =>
    if !emcyDue s || !fiRuns s then s
    else if s.fi.nmt = 3 then { s with fi.emcy := r, fi.suppr := satAdd 65535 s.fi.suppr 1 }
    else if !busOn s then s
    else
      let t := busCounters s tec rcv
      if busOn t then
        emit { t with fi.emcy := r, fi.emcyAt := some s.now } (.canFrame (0x080 + s.fi.node) (emcyPayload s m))
      else t

/-- EMCY_SEND. -/
def execEmcySend (tec rcv : Nat) (s : State) : Out := .next (emcySendS s tec rcv)

/-- BUS_OFF_RECOVERY: the controller is error active again, and what waits is sent, the inhibit time apart. -/
def execBusOffRecovery (s : State) : Out :=
  .next (if busOn s then s else emcySendS { s with fi.bus := 0, fi.tec := 0, fi.rec_ := 0 } 0 0)

/-! ## TPDO (R479) -/

/-- The bytes of TPDO n: the values of the entries its mapping names. -/
def tpdoBytes (s : State) (n : Nat) : List Byte :=
  let idx := 0x1A00 + (n - 1)
  (List.range (setN s idx 0)).flatMap fun i =>
    let v := setN s idx (i + 1)
    fit (bits v 0 8 / 8) (odCurrent s (v / 65536) (bits v 8 8))

/-- TPDO n goes out on change, at most every 10 ms, and at least once a second; in Twilight 1 and 2 alone (R504). -/
def tpdoSendS (s : State) (n tec rcv : Nat) : State :=
  let bs := tpdoBytes s n
  let due : Bool := match (s.fi.tpdo.find? fun x => x.1 == n).map Prod.snd with
    | some (t, old) => elapsed s t 1000 || (elapsed s t 10 && bs != old)
    | none => true
  if (decide (1 ≤ n) && decide (n ≤ 4) && s.fi.nmt == 2 && busOn s && due && !bs.isEmpty && (s.glb.twilight.isNone || decide (n ≤ 2))) = true then
    sendFrame { s with fi.tpdo := (n, s.now, bs) :: s.fi.tpdo.filter fun x => x.1 != n } (0x80 + 0x100 * n + s.fi.node) bs tec rcv
  else s

/-- TPDO_SEND. -/
def execTpdoSend (n tec rcv : Nat) (s : State) : Out := .next (tpdoSendS s n tec rcv)

/-! ## USDO (R484) -/

/-- The key of a session: the client's node ID on the bus, `usbClient` for the service port. -/
def usdoKey (p : Path) (client : Nat) : Nat := if p = .usb then usbClient else client

/-- A reply to a client. -/
def usdoReply (s : State) (p : Path) (client abort : Nat) (bs : List Byte) : State := emit s (.usdoReply (usdoKey p client) abort bs)

/-- s without the session of a client. -/
def closeSession (s : State) (k : Nat) : State := { s with fi.sessions := s.fi.sessions.filter fun x => x.1 != k }

/-- A path on which USDO runs now: FI outside Initialisation and Stopped, on the bus. -/
def usdoPath (s : State) (p : Path) : Bool :=
  match p with
  | .usb => true
  | .can => (s.fi.nmt == 1 || s.fi.nmt == 2) && busOn s
  | _ => false

/-- One more frame of a transfer: its session opens or goes on. A transfer that is over in one frame needs no session; the
fifth session of the bus is refused (log 40). -/
def usdoFrame (s : State) (p : Path) (client : Nat) (last : Bool) (k : State → State) : State :=
  let key := usdoKey p client
  let s := seeVbus s p
  if !usdoPath s p then s
  else if !lsServes s then usdoReply s p client 0x08000022 []
  else if p = .can ∧ !(s.fi.sessions.any fun x => x.1 == key) ∧ (s.fi.sessions.countP fun x => x.1 != usbClient) ≥ 4 then
    usdoReply s p client 0x05040005 []
  else if last then k (closeSession s key)
  else { s with fi.sessions := (key, s.now) :: s.fi.sessions.filter fun x => x.1 != key }

/-- USDO_DOWNLOAD: with its last frame the value is written; an image's download ends with its verification (R535). -/
def usdoDownloadS (s : State) (p : Path) (client idx sub : Nat) (bs : List Byte) (last : Bool) (w : CmdWorld) : State :=
  usdoFrame s p client last fun s =>
    let r := odWrite s p idx sub bs w
    if idx = 0x5010 ∧ r.2 = .ok then r.1 else usdoReply r.1 p client r.2.abort []

/-- USDO_DOWNLOAD. -/
def execUsdoDownload (path : Path) (client index sub : Nat) (bytes : List Byte) (last : Bool) (w : CmdWorld) (s : State) : Out :=
  .next (usdoDownloadS s path client index sub bytes last w)

/-- USDO_UPLOAD: the whole current value is returned. -/
def usdoUploadS (s : State) (p : Path) (client idx sub : Nat) (last : Bool) : State :=
  usdoFrame s p client last fun s =>
    let r := odRead s idx sub
    match r.2 with
    | .ok bs => usdoReply r.1 p client 0 bs
    | .error o => usdoReply r.1 p client o.abort []

/-- USDO_UPLOAD. -/
def execUsdoUpload (path : Path) (client index sub : Nat) (last : Bool) (s : State) : Out :=
  .next (usdoUploadS s path client index sub last)

/-- USDO_SESSION_TIMEOUT: no frame for 1 s. -/
def execUsdoSessionTimeout (client : Nat) (s : State) : Out :=
  .next (match s.fi.sessions.find? fun x => x.1 == client with
    | some x => if elapsed s x.2 1000 then emit (closeSession s client) (.usdoReply client 0x05040000 []) else s
    | none => s)

end Sys2Proof.Machine
end

