-- ==== Sys2Proof/Machine/Drop.lean ====
section
/-! DEFINITION. Dropping commands: queue reset, DELETE_QUEUE and the disable of a function (R83 to R90, R100, R376). -/

namespace Sys2Proof.Machine

/-- A WRITE is dropped: pieces whose commit marker lies in a sealed dataset are kept, the others fail; its range lock and its
parked request go (R77, R84). -/
def dropWrite (s : State) (c : Cmd) : State :=
  let gone := c.pieces.filter fun k => !k.settled && k.st != .markerSealed
  let s := openForMarkers (failPieces s c.id (partition c.sqe) gone) (partition c.sqe)
  let s := unpark { s with qe.locks := s.qe.locks.filter fun l => l.cmd != c.id } c.id
  let s := modCmd s c.id fun c => { c with dropped := true }
  match cmdOf s c.id with
  | some c => sweepCmd s c
  | none => s

/-- A KEY_CLEAR that is dropped clears nothing: the slot is loaded again unless another KEY_CLEAR holds it (log 30). -/
def unclear (s : State) (c : Cmd) : State :=
  let other := s.qe.cmds.find? fun d => opcode d.sqe == 0x21 && keySlot d.sqe == keySlot c.sqe && d.id != c.id
  { s with tg.keys := s.tg.keys.map fun k => if k.clearing = some c.id then { k with clearing := other.map Cmd.id } else k }

/-- A dropped command other than a WRITE of a version: what it holds and waits for is given up, what was held of its data while its
function is in D3hot goes with it (R86); an operation of the media or a deletion that it began goes on without it (log 30). -/
def dropOther (s : State) (c : Cmd) : State :=
  let s := readerOut s c
  let s := modFn s c.fn fun f => { f with waits := f.waits.filter (· != c.id) }
  let s := if opcode c.sqe = 0x21 then unclear s c else s
  let s := match s.glb.setPower with
    | some (i, _) => if i = c.id then { s with glb.setPower := none } else s
    | none => s
  removeCmd { s with qe.held := s.qe.held.filter fun h => h.2.1 != some c.id } c.id

/-- Commands are dropped whole and at one instant: from then on none of them completes, whatever the others give back (R83, R85);
those of other queues that wait for it take it (R153). -/
def dropCmds (s : State) (p : Cmd → Bool) : State :=
  let cs := s.qe.cmds.filter fun c => p c && !c.dropped
  let wrote := fun c : Cmd => opcode c.sqe == 0x40 && c.version != 0
  if cs.isEmpty then s
  else
    let s := { s with qe.cmds := s.qe.cmds.map fun c => if p c && wrote c then { c with dropped := true } else c }
    let s := (cs.filter fun c => !wrote c).foldl dropOther s
    let s := (cs.filter wrote).foldl dropWrite s
    retryHeld s.qe.cmds.length s

/-- Every command of queue g is dropped. -/
def dropQueue (s : State) (g : Nat) : State := dropCmds s fun c => c.q == g

/-- Steps 1 and 2 of R83: RESET_BUSY is set, the SQ is empty, the epoch rises. -/
def emptied (q : Queue) : Queue :=
  { q with resetBusy := true, head := q.tail, epoch := q.epoch + 1, adminWait := false }

/-- A function stops: its admin queue is no longer enabled, it drains, each of its queues is emptied as by a reset, its commands
are dropped, and nothing is posted for it any more; READY stays until the drain ends (R87, R88, R563). -/
def disableFn (s : State) (n : Nat) : State :=
  if (fnOf s n).state = 0 then s
  else
    let s := modFn s n fun f => { f with state := 2, aEnable := false }
    let s : State := { s with
      qe.queues := s.qe.queues.map fun q => if q.fn = n ∧ !q.resetBusy then emptied q else q,
      qe.held := s.qe.held.filter fun h => h.1 != n }
    dropCmds s fun c => c.fn == n

/-- FUNCTION_DRAIN_END: every dropped command's buffers are returned; the function is DISABLED and its queues are deleted
(R88, R89). -/
def execFunctionDrainEnd (fn : Nat) (s : State) : Out :=
  .next (
    if (fnOf s fn).state = 2 ∧ quiet s (fun c => c.fn == fn) then
      let s := modFn s fn fun f => { f with state := 0, aReady := false }
      { s with qe.queues := s.qe.queues.filter fun q => q.fn != fn }
    else s)

end Sys2Proof.Machine
end

