-- ==== Sys2Proof/Machine/Doorbell.lean ====
section
/-! DEFINITION. The doorbell slot of a queue: SQ_TAIL, CQ_HEAD, QCTL.RESUME, QCTL.RESET and the reset marker (R59 to R61, R82,
R83, R96). -/

namespace Sys2Proof.Machine

/-- A doorbell write is dropped and counted (R60). -/
def dropBell (s : State) (fn : Nat) : State := modFn s fn fun f => { f with drops := satAdd (2 ^ 32 - 1) f.drops 1 }

/-- The created queue that a function's number names and that the function owns, while the function is ENABLED. -/
def bellQueue (s : State) (fn q : Nat) : Option Queue :=
  if (fnOf s fn).state ≠ 1 then none
  else ((globalOf s fn q).bind (queueOf s)).filter fun x => x.fn == fn

/-- A write of SQ_TAIL (R59, R60): commands up to the new tail may be fetched. -/
def sqTailS (s : State) (fn q v : Nat) : State :=
  let t := bits v 0 14
  match bellQueue s fn q with
  | some x => if t < x.sqDepth ∧ !x.resetBusy then setQueue s { x with tail := t } else dropBell s fn
  | none => dropBell s fn

/-- SQ_TAIL. -/
def execSqTail (fn q : Nat) (v : Word) (s : State) : Out := .next (sqTailS s fn q v.toNat)

/-- A write of CQ_HEAD: the entries before it are released; the value it has already releases none (R59, R60) (log 50). -/
def cqHeadS (s : State) (fn q v : Nat) : State :=
  let h := bits v 0 14
  match bellQueue s fn q with
  | some x =>
    let n := ringDist x.cqDepth x.cqHead h
    if h < x.cqDepth ∧ n ≤ unreleased x then setQueue s { x with cqHead := h, posted := x.posted - n } else dropBell s fn
  | none => dropBell s fn

/-- CQ_HEAD. -/
def execCqHead (fn q : Nat) (v : Word) (s : State) : Out := .next (cqHeadS s fn q v.toNat)

/-- QCTL.RESUME ends a freeze (R82). -/
def resumeS (s : State) (fn q : Nat) : State :=
  match bellQueue s fn q with
  | some x => if x.frozen then setQueue s { x with frozen := false } else s
  | none => dropBell s fn

/-- RESUME. -/
def execResume (fn q : Nat) (s : State) : Out := .next (resumeS s fn q)

/-- The queue a RESET reaches: PF0 reaches those of VFs as well (R61). -/
def resetQueue (s : State) (fn q : Nat) : Option Queue :=
  if fn = 0 ∧ (fnOf s 0).state = 1 then (globalOf s 0 q).bind (queueOf s)
  else bellQueue s fn q

/-- QCTL.RESET, steps 1 to 3 of R83: the SQ is emptied, the epoch rises and the queue's commands are dropped. -/
def queueResetS (s : State) (fn q : Nat) : State :=
  match resetQueue s fn q with
  | some x =>
    if x.resetBusy then s
    else dropQueue (setQueue s (emptied x)) x.g
  | none => dropBell s fn

/-- QUEUE_RESET. -/
def execQueueReset (fn q : Nat) (s : State) : Out := .next (queueResetS s fn q)

/-- RESET_MARKER_POST, steps 4 to 6: once the queue's commands and their buffers are gone and its CQ has room, the marker is posted
and logged, and the queue is frozen (log 47); a function that drains gets none (R68, R83, R88). -/
def resetMarkerPostS (s : State) (g : Nat) : State :=
  match queueOf s g with
  | none => s
  | some x =>
    if !x.resetBusy || !quiet s (fun c => c.q == g) || (fnOf s x.fn).state == 2 || decide (x.posted ≥ x.cqDepth) then s
    else
      let caused := !x.frozen
      let s := freeze s g
      let s := logError s x.fn fun n =>
        { seq := n, time := meridian s, sqid := sqidOf s x, cid := 0xFFFF, status := stQueueReset, epoch := x.epoch.toNat,
          opcode := 0, stream := 0, part := 0, frozen := caused, vvalid := false, offset := 0, length := 0, bytes := 0,
          version := 0, detail1 := 0, detail2 := 0 }
      let s := postCqe s g (fun q =>
        { cid := 0xFFFF, sqid := sqidOf s q, sqHead := q.head, epoch := q.epoch, phase := q.phase, frozen := true,
          status := stQueueReset }) true
      modQueue s g fun q => { q with resetDone := true, resetBusy := false }

/-- RESET_MARKER_POST. -/
def execResetMarkerPost (q : Nat) (s : State) : Out := .next (resetMarkerPostS s q)

/-- CQ_TIME_LIMIT_EXPIRY: the oldest CQE not yet signalled has waited for the CQ's time limit, in units of 100 us; a function that
drains gets no message (R88, R96). -/
def execCqTimeLimitExpiry (q : Nat) (s : State) : Out :=
  .next (match queueOf s q with
    | some x =>
      if x.unsignalled ≠ 0 ∧ s.now ≥ x.oldest + 21600 * x.cqTime ∧ (fnOf s x.fn).state = 1 then
        sendVector (setQueue s { x with unsignalled := 0 }) x.fn x.vector
      else s
    | none => s)

end Sys2Proof.Machine
end

