-- ==== Sys2Proof/Machine/Logs.lean ====
section
/-! DEFINITION. Log pages and IDENTIFY data (R108, R113, R133 to R135, R510 to R512, Tables 3.3, 3.15, 3.16, 17.5 to 17.7). -/

namespace Sys2Proof.Machine

/-- An error log entry (Table 3.15). -/
def errBytes (e : ErrEntry) : List Byte :=
  le 8 e.seq ++ le 8 e.time ++ le 2 e.sqid ++ le 2 e.cid ++ le 2 e.status ++ le 1 e.epoch ++ le 1 e.opcode ++
    le 6 e.stream.toNat ++ le 1 (e.part + 16 * b2n e.frozen + 32 * b2n e.vvalid) ++ [0] ++ le 6 e.offset ++ zeros 2 ++
    le 4 e.length ++ le 4 e.bytes ++ le 8 e.version ++ le 4 e.detail1 ++ le 4 e.detail2

/-- An event record (Table 3.16). -/
def evBytes (r : EvRec) : List Byte :=
  le 8 r.seq ++ le 8 r.time ++ le 2 r.code ++ le 1 r.scope ++ le 1 r.part ++ fit 44 r.params

/-- A fault record (Table 17.6). -/
def faultBytes (r : FaultRec) : List Byte :=
  le 8 r.seq ++ le 8 r.time ++ le 1 r.code ++ le 1 (b2n r.permanent) ++ le 2 r.unit ++ le 4 r.p1 ++ le 8 r.p2 ++ zeros 32

/-- A ring page of n slots of 64 bytes: the record with sequence number q lies in slot q mod n. -/
def ringPage (n : Nat) (rs : List (Nat × List Byte)) : List Byte :=
  (List.range n).flatMap fun i =>
    match rs.find? fun r => r.1 % n == i with
    | some r => fit 64 r.2
    | none => zeros 64

/-- CX engines excluded, as a mask. -/
def excludedMask (s : State) : Nat := ((List.range 16).map fun e => if (engineOf s e).excluded then 2 ^ e else 0).sum

/-- The health page (Table 17.5). -/
def healthPage (s : State) : List Byte :=
  let flags := b2n s.glb.twilight.isSome + 2 * b2n s.ps.chopF + 4 * b2n s.ce.sup.ofsf + 8 * b2n s.ce.tkp.ofsf + 16 * b2n s.tg.retired
  fit 256 (le 8 (meridian s) ++ le 1 flags ++ le 1 (s.glb.twilight.getD 0) ++ le 1 (recentRestarts s).length ++ zeros 1 ++
    le 4 s.glb.restartCount ++ le 8 s.flash.lanes.toNat ++ le 8 s.rc.retiredA.toNat ++ le 8 s.rc.retiredB.toNat ++
    le 1 s.sv.retired.toNat ++ zeros 1 ++ le 2 (excludedMask s) ++ le 4 s.bpm.corTotal ++ le 4 s.bpm.uncTotal ++
    le 4 s.bpm.eccAddr ++ le 4 s.health.satAtUnmount.toNat ++ le 1 s.nw.cause ++ zeros 1 ++ le 2 s.nw.stops ++
    le 1 (recentClears s).length ++ zeros 1 ++ le 2 (s.ps.chopPeak / 100) ++ le 4 s.health.subst.toNat ++
    le 4 s.health.badEph ++ le 4 s.health.dropped ++ le 8 s.health.seq) ++
  ringPage 60 (s.health.ring.map fun r => (r.seq, faultBytes r))

/-- One entry of the lane health page (Table 17.7). -/
def laneEntry (s : State) (f : Nat) : List Byte :=
  let l := f % 64
  let m := f / 64
  let x := feOf s m l
  let ts := (s.flash.feAt.filter fun a => a.1 == f).map Prod.snd ++ (s.flash.laneAt.filter fun a => a.1 == l).map Prod.snd
  let t := match ts with | [] => 0 | a :: r => r.foldl min a
  fit 32 (le 1 (b2n (feRetired s m l) + 2 * b2n (s.flash.lanes.getLsbD l) + 4 * b2n x.biasf + 8 * b2n x.stuck) ++
    le 1 (get s.fm.tb l 0) ++ le 1 (get s.fm.pb l 0) ++ zeros 1 ++ le 4 x.failedVerdicts ++ le 4 x.accepted ++ le 4 x.noAccept ++
    le 4 x.defects ++ le 8 t)

/-- A log page of a function, with its size; none for a page that does not exist. -/
def logPage (s : State) (fn page : Nat) : Option (List Byte) :=
  match page with
  | 1 => some (ringPage 256 ((fnOf s fn).errLog.map fun e => (e.seq, errBytes e)))
  | 2 => some (ringPage 256 ((fnOf s fn).evLog.map fun e => (e.seq, evBytes e)))
  | 3 => some (healthPage s)
  | 4 => some ((List.range 128).flatMap (laneEntry s))
  | _ => none

/-- IDENTIFY, function data (Table 3.3, page 0x00). -/
def identifyFn (s : State) (fn : Nat) : List Byte :=
  let f := fnOf s fn
  fit 4096 (le 2 fn ++ le 2 (qcount s fn) ++ le 2 (vectors fn) ++ le 2 f.pmask.toNat ++ le 6 f.prefix_.toNat ++ zeros 2 ++
    le 6 f.mask.toNat ++ zeros 2 ++ le 2 f.kbase ++ le 2 f.kcount)

/-- ASCII bytes padded with spaces. -/
def padAscii (n : Nat) (bs : List Byte) : List Byte := bs.take n ++ List.replicate (n - bs.length) 0x20

/-- IDENTIFY, device data (Table 3.3, page 0x01). -/
def identifyDev (s : State) : List Byte :=
  fit 4096 (le 2 0x1F3D ++ le 2 0x6480 ++ le 4 Config.instanceNo.toNat ++ le 4 (bootSlot s s.flash.runB).version ++
    le 4 (activeBank s).schema ++ le 4 32768 ++ le 4 65536 ++ le 2 16384 ++ le 2 256 ++ le 2 4096 ++ le 1 16 ++ le 1 7 ++
    le 4 67108864 ++ le 4 65536 ++ le 1 (mountState s) ++ le 1 s.glb.power ++ le 1 s.pl.role ++ le 1 (retiredCount s) ++
    le 4 (b2n s.glb.twilight.isSome) ++ le 8 (carvedBytes s) ++ zeros 8 ++
    padAscii 32 (serialOf s) ++ padAscii 32 Config.moduleSerial)

end Sys2Proof.Machine
end

