-- ==== Sys2Proof/Machine/Admin.lean ====
section
/-! DEFINITION. Admin commands of queues, windows, power, logs, keys, the object dictionary and events (R90 to R93, R98, R99,
R106, R108 to R115, R122 to R125). -/

namespace Sys2Proof.Machine

/-! ## IDENTIFY and GET_LOG -/

/-- IDENTIFY (R108); page 1 is not for a VF (log 79). -/
def identifyS (s : State) (c : Cmd) : State :=
  match sqeBytes c.sqe 28 1 with
  | 0 => finishSt (toHost s c (identifyFn s c.fn)) c stOk
  | 1 => if c.fn = 0 then finishSt (toHost s c (identifyDev s)) c stOk else finishSt s c stAccessDenied
  | _ => finishField s c 28

/-- IDENTIFY. -/
def execIdentify (c : Sub) (s : State) : Out := .next (runCmd s 0x01 c identifyS)

/-- GET_LOG (R113): a slice of a page; pages 3 and 4 are PF0's. -/
def getLogS (s : State) (c : Cmd) : State :=
  let page := sqeBytes c.sqe 28 1
  let off := sqeBytes c.sqe 48 4
  let n := lengthField c.sqe
  match logPage s c.fn page with
  | none => finishField s c 28
  | some bs =>
    if c.fn ≠ 0 ∧ 3 ≤ page then finishSt s c stAccessDenied
    else if off + n > bs.length then finishField s c 48
    else finish (toHost s c (slice bs off n)) c { status := stOk, info := n }

/-- GET_LOG. -/
def execGetLog (c : Sub) (s : State) : Out := .next (runCmd s 0x04 c getLogS)

/-! ## Queues (R58, R90, R109) -/

/-- The global queue an admin command names, when it is assigned to the issuer and is no admin queue. -/
def namedQueue (s : State) (c : Cmd) : Option Nat :=
  (globalOf s c.fn (sqeBytes c.sqe 28 2)).filter fun g =>
    decide (256 ≤ g) && s.qe.assigns.any fun a => a.g == g && a.fn == c.fn

/-- The failing byte of a CREATE_QUEUE for queue g. -/
def createBad (s : State) (w : SqeBits) (fn g : Nat) : Option Nat :=
  let cls := sqeBytes w 30 1
  let sq := sqeBytes w 48 2
  let cq := sqeBytes w 50 2
  if (queueOf s g).isSome then some 28
  else if sq < 16 ∨ 16384 < sq then some 48
  else if cq < 16 ∨ 16384 < cq then some 50
  else if sqeBytes w 32 8 % 4096 ≠ 0 then some 32
  else if sqeBytes w 40 8 % 4096 ≠ 0 then some 40
  else if sqeBytes w 52 2 ≥ vectors fn then some 52
  else if sqeBytes w 54 1 = 0 then some 54
  else if cls > 1 then some 30
  else if cls = 1 ∧ (s.qe.queues.countP fun q => q.cls == 1) ≥ 256 then some 30
  else none

/-- CREATE_QUEUE. -/
def createQueueS (s : State) (c : Cmd) : State :=
  match namedQueue s c with
  | none => finishField s c 28
  | some g =>
    match createBad s c.sqe c.fn g with
    | some b => finishField s c b
    | none =>
      let w := c.sqe
      let q : Queue := { g, fn := c.fn, cls := sqeBytes w 30 1, sqDepth := sqeBytes w 48 2, cqDepth := sqeBytes w 50 2,
                         sqBase := sqeBytes w 32 8, cqBase := sqeBytes w 40 8, vector := sqeBytes w 52 2,
                         cqCount := sqeBytes w 54 1, cqTime := sqeBytes w 55 1 }
      finishSt { s with qe.queues := s.qe.queues ++ [q] } c stOk

/-- CREATE_QUEUE. -/
def execCreateQueue (c : Sub) (s : State) : Out := .next (runCmd s 0x02 c createQueueS)

/-- DELETE_QUEUE: the drop rules are applied; the command waits for the end of the queue's DMA (R90). -/
def deleteQueueS (s : State) (c : Cmd) : State :=
  match (namedQueue s c).bind (queueOf s) with
  | none => finishField s c 28
  | some q =>
    if q.deleting.isSome then finishField s c 28
    else dropQueue (setQueue (modCmd s c.id fun c => { c with st := .waiting }) { q with deleting := some c.id }) q.g

/-- DELETE_QUEUE. -/
def execDeleteQueue (c : Sub) (s : State) : Out := .next (runCmd s 0x03 c deleteQueueS)

/-- DELETE_QUEUE_COMPLETE: the queue's commands and their buffers are gone, and so is the queue; the command completes, unless a
reset of its admin queue dropped it meanwhile (log 30). -/
def execDeleteQueueComplete (q : Nat) (s : State) : Out :=
  .next (match queueOf s q with
    | some x =>
      (match x.deleting with
       | some id =>
         if quiet s (fun c => c.q == q) then
           finishId { s with qe.queues := s.qe.queues.filter fun y => y.g != q } id { status := stOk }
         else s
       | none => s)
    | none => s)

/-! ## Assignments and windows (R55 to R57, R110 to R112) -/

/-- The target of ASSIGN_QUEUES or SET_WINDOWS may be configured (R112). -/
def configurable (s : State) (n : Nat) : Bool := n == 0 || (covered s n && (fnOf s n).state != 2)

/-- The failing byte of an ASSIGN_QUEUES. -/
def assignBad (s : State) (w : SqeBits) : Option Nat :=
  let fn := sqeBytes w 28 2
  let op := sqeBytes w 30 1
  let g0 := sqeBytes w 48 2
  let n := sqeBytes w 50 2
  let l0 := sqeBytes w 52 2
  let run := (List.range n).map fun i => g0 + i
  let created := fun g => (queueOf s g).isSome
  let owner := fun g => (s.qe.assigns.find? fun a => a.g == g).map Assign.fn
  if op = 0 then
    if g0 < 256 ∨ g0 + n > 32768 ∨ (run.any fun g => created g || (owner g).any (· != fn)) then some 48
    else if fn ≠ 0 ∧ (l0 = 0 ∨ l0 + n > 4096 ∨
        s.qe.assigns.any fun a => a.fn == fn && decide (l0 ≤ a.loc ∧ a.loc < l0 + n)) then some 52
    else if qcount s fn + (run.countP fun g => (owner g).isNone) > 4096 then some 50
    else none
  else if g0 < 256 ∨ (run.any fun g => created g || owner g != some fn) then some 48
  else none

/-- ASSIGN_QUEUES: all or nothing (R110). -/
def assignQueuesS (s : State) (c : Cmd) : State :=
  let w := c.sqe
  let fn := sqeBytes w 28 2
  let g0 := sqeBytes w 48 2
  let n := sqeBytes w 50 2
  if fn > 255 then finishField s c 28
  else if sqeBytes w 30 1 > 1 then finishField s c 30
  else if n = 0 ∨ n > 4095 then finishField s c 50
  else if !configurable s fn then finishSt s c stFunctionDisabled
  else match assignBad s w with
    | some b => finishField s c b
    | none =>
      let rest := s.qe.assigns.filter fun a => !(decide (g0 ≤ a.g ∧ a.g < g0 + n))
      let new := if sqeBytes w 30 1 = 0 then (List.range n).map fun i => ({ g := g0 + i, fn, loc := sqeBytes w 52 2 + i } : Assign)
        else []
      finishSt { s with qe.assigns := rest ++ new } c stOk

/-- ASSIGN_QUEUES. -/
def execAssignQueues (c : Sub) (s : State) : Out := .next (runCmd s 0x06 c assignQueuesS)

/-- SET_WINDOWS (R38, R111). -/
def setWindowsS (s : State) (c : Cmd) : State :=
  let w := c.sqe
  let fn := sqeBytes w 28 2
  let pre := BitVec.ofNat 48 (sqeBytes w 32 6)
  let mask := BitVec.ofNat 48 (sqeBytes w 40 6)
  let base := bits (sqeBytes w 50 2) 0 12
  let cnt := bits (sqeBytes w 52 2) 0 13
  if fn > 255 then finishField s c 28
  else if cnt > 4096 ∨ base + cnt > 4096 then finishField s c 52
  else if pre &&& ~~~mask ≠ 0 then finishField s c 32
  else if !configurable s fn then finishSt s c stFunctionDisabled
  else
    finishSt (modFn s fn fun f => { f with
      pmask := BitVec.ofNat 16 (sqeBytes w 48 2), prefix_ := pre, mask, kbase := base, kcount := cnt }) c stOk

/-- SET_WINDOWS. -/
def execSetWindows (c : Sub) (s : State) : Out := .next (runCmd s 0x07 c setWindowsS)

/-! ## Power (R91 to R93, R114) -/

/-- Staging holds write data that is still to be committed: a WRITE or a mirrored piece has a piece that is neither committed nor
failed (R91). -/
def uncommitted (s : State) : Bool :=
  (s.qe.cmds.any fun c => opcode c.sqe == 0x40 && c.pieces.any fun k => !k.settled) ||
    s.fm.mirror.any fun m => m.st != .committed && m.st != .failed

/-- The device is idle: no I/O command in flight, no write data to be committed (R91). -/
def idleNow (s : State) : Bool := !(s.qe.cmds.any fun c => isIoOp (opcode c.sqe) && !c.dropped) && !uncommitted s

/-- A power state may be entered with the cartridge as it is (R114). -/
def powerAllowed (s : State) (t : Nat) : Option Nat :=
  if (t = 1 ∨ t = 2) ∧ s.media.mount = 0 then some stNotMounted
  else if t = 3 ∧ s.media.mount ≠ 0 then some stMediaBusy
  else none

/-- SET_POWER. -/
def setPowerS (s : State) (c : Cmd) : State :=
  let t := sqeBytes c.sqe 28 1
  if t > 3 ∨ s.glb.setPower.isSome then finishField s c 28
  else if t = s.glb.power then finish s c { status := stOk, info := t }
  else match powerAllowed s t with
    | some st => finishSt s c st
    | none =>
      if t = 0 ∨ idleNow s then finish (setPowerState s t) c { status := stOk, info := t }
      else if setN s 0x2140 1 = 0 then finishSt s c stPowerEntryAbandoned
      else modCmd { s with glb.setPower := some (c.id, t) } c.id fun c => { c with st := .waiting }

/-- SET_POWER. -/
def execSetPower (c : Sub) (s : State) : Out := .next (runCmd s 0x05 c setPowerS)

/-- POWER_STATE_ENTRY: the device is idle, and the deferred state is entered; a target that the mount state no longer allows stays
deferred until it is allowed again or the limit expires (log 115). -/
def execPowerStateEntry (s : State) : Out :=
  .next (match s.glb.setPower with
    | some (id, t) =>
      if idleNow s && (powerAllowed s t).isNone then
        finishId (setPowerState { s with glb.setPower := none } t) id { status := stOk, info := t }
      else s
    | none => s)

/-- POWER_ENTRY_LIMIT_EXPIRY (R92). -/
def execPowerEntryLimitExpiry (s : State) : Out :=
  .next (match s.glb.setPower with
    | some (id, _) =>
      (match cmdOf s id with
       | some c =>
         if elapsed s c.since (setN s 0x2140 1) then finishSt { s with glb.setPower := none } c stPowerEntryAbandoned else s
       | none => s)
    | none => s)

/-! ## Keys (R122, R123, R221) -/

/-- The key-encryption key n as flash holds it, unwrapped under the device-unique key (R221). -/
def storedKek (s : State) (n : Nat) : Option (List Byte) :=
  match s.flash.keks.find? fun k => k.1 == n with
  | some k => kwUnwrap (be 32 s.flash.deviceKey.toNat) k.2
  | none => none

/-- KEY_LOAD: the blob's 40 bytes are unwrapped under the key-encryption key that bytes 40 and 41 name (R222, R223; log 45). -/
def keyLoadS (s : State) (c : Cmd) (data : List Byte) : State :=
  let n := keySlot c.sqe
  if (keyOf s n).isSome then finishField s c 4
  else
    match (storedKek s (unle (slice (fit 64 data) 40 2))).bind fun k => kwUnwrap k (slice (fit 64 data) 0 40) with
    | none => finishSt s c stKeyUnwrapFailed
    | some k => finishSt { s with tg.keys := s.tg.keys ++ [{ slot := n, key := BitVec.ofNat 256 (unbe k) }] } c stOk

/-- KEY_LOAD. -/
def execKeyLoad (c : Sub) (s : State) : Out := .next (runCmd s 0x20 c fun s k => keyLoadS s k c.data)

/-- Commands that use a key slot: tagged WRITEs, READs and VERIFYs that check tags with it. -/
def slotUsed (s : State) (n : Nat) (before : Nat) : Bool :=
  s.qe.cmds.any fun c => !c.dropped && decide (c.id < before) && [0x40, 0x41, 0x42].contains (opcode c.sqe) && tagBit c.sqe &&
    keySlot c.sqe == n

/-- The slot of a KEY_CLEAR whose users are gone is empty, and every KEY_CLEAR of it completes. -/
def keyClearDone (s : State) (n : Nat) : State :=
  match keyOf s n with
  | some k =>
    (match k.clearing with
     | some id =>
       if slotUsed s n id then s
       else
         let s := { s with tg.keys := s.tg.keys.filter fun k => k.slot != n }
         ((s.qe.cmds.filter fun c => opcode c.sqe == 0x21 && keySlot c.sqe == n).map Cmd.id).foldl
           (fun s id => finishId s id { status := stOk }) s
     | none => s)
  | none => s

/-- KEY_CLEAR: from its admission the slot counts as empty for others. -/
def keyClearS (s : State) (c : Cmd) : State :=
  let n := keySlot c.sqe
  if (keyOf s n).isNone then finishSt s c stOk
  else
    let s := modCmd s c.id fun c => { c with st := .waiting }
    keyClearDone { s with
      tg.keys := s.tg.keys.map fun k => if k.slot = n then { k with clearing := k.clearing.or (some c.id) } else k } n

/-- KEY_CLEAR. -/
def execKeyClear (c : Sub) (s : State) : Out := .next (runCmd s 0x21 c keyClearS)

/-- KEY_CLEAR_COMPLETE. -/
def execKeyClearComplete (slot : Nat) (s : State) : Out := .next (keyClearDone s slot)

/-! ## The object dictionary over PCIe (R124, R125) -/

/-- Failing byte of an OD command by its outcome: the index, LENGTH, the data (log 35). -/
def odField (o : OdOut) : Nat := match o with | .absent => 28 | .badLength => 24 | .range => 32 | _ => 0

/-- A command ends with the outcome of an access. -/
def finishOd (s : State) (c : Cmd) (o : OdOut) : State :=
  finish s c { status := o.status, d1 := if o.status = stInvalidField then odField o else 0 }

/-- A VF may read an index (Table 3.10). -/
def vfIndex (idx : Nat) : Bool := decide (0x1000 ≤ idx ∧ idx ≤ 0x1FFF) || decide (0x3000 ≤ idx ∧ idx ≤ 0x3FFF)

/-- OD_READ. -/
def odReadS (s : State) (c : Cmd) : State :=
  let idx := sqeBytes c.sqe 28 2
  let sub := sqeBytes c.sqe 30 1
  match odFind idx sub with
  | none => finishOd s c .absent
  | some e =>
    if c.fn ≠ 0 ∧ !vfIndex idx then finishOd s c .denied
    else if e.acc = .wo then finishOd s c .writeOnly
    else if (if e.var then decide (lengthField c.sqe > min 4096 e.size) else lengthField c.sqe != e.size) then
      finishOd s c .badLength
    else
      let r := odRead s idx sub
      match r.2 with
      | .ok bs => finish (toHost r.1 c (fit (lengthField c.sqe) bs)) c { status := stOk, info := bs.length }
      | .error o => finishOd r.1 c o

/-- OD_READ. -/
def execOdRead (c : Sub) (s : State) : Out := .next (runCmd s 0x30 c odReadS)

/-- OD_WRITE. -/
def odWriteS (s : State) (c : Cmd) (data : List Byte) (w : CmdWorld) : State :=
  let r := odWrite s .pcie (sqeBytes c.sqe 28 2) (sqeBytes c.sqe 30 1) (fit (lengthField c.sqe) data) w
  match cmdOf r.1 c.id with
  | some c => finishOd r.1 c r.2
  | none => r.1

/-- OD_WRITE. -/
def execOdWrite (c : Sub) (s : State) : Out := .next (runCmd s 0x31 c fun s k => odWriteS s k c.data c.world)

/-! ## EVENT_WAIT (R98, R99) -/

/-- EVENT_WAIT: the oldest waiting event is delivered, or the command is set aside (log 36). -/
def eventWaitS (s : State) (c : Cmd) : State :=
  let f := fnOf s c.fn
  match f.events with
  | r :: rest =>
    let s := finish (setFn s c.fn { f with events := rest }) c { status := stOk, info := r.code + 65536 * (r.seq % 2 ^ 32) }
    flushLost s c.fn
  | [] =>
    if f.waits.length ≥ 4 then finishField s c 0
    else modCmd (setFn s c.fn { f with waits := f.waits ++ [c.id] }) c.id fun c => { c with st := .waiting }

/-- EVENT_WAIT. -/
def execEventWait (c : Sub) (s : State) : Out := .next (runCmd s 0x3F c eventWaitS)

end Sys2Proof.Machine
end

