-- ==== Sys2Proof/Machine/Ecc.lean ====
section
/-! DEFINITION. Inline ECC of staging: where lines and their check words lie, the SEC-DED code over a line and its address, and what
a read of a line shows (R138, R139). -/

namespace Sys2Proof.Machine

/-! ## Blocks (R138) -/

/-- The block of 1,024 bytes that holds a data line: 15 data lines to a block. -/
def eccBlock (l : Nat) : Nat := l / 15

/-- Its channel: consecutive blocks go round the 8 channels. -/
def channelOf (l : Nat) : Nat := eccBlock l % 8

/-- Where a data line begins in its channel, and where the 4 bytes of its check word do, in the block's check line. -/
def lineAt (l : Nat) : Nat := 1024 * (eccBlock l / 8) + 64 * (l % 15)
def checkAt (l : Nat) : Nat := 1024 * (eccBlock l / 8) + 960 + 4 * (l % 15)

/-! ## The code (R139) -/

/-- Place of information bit i in the Hamming code: the i-th number that is no power of two (log 123). -/
def hamPlace (i : Nat) : Nat := i + 1 + (firstBelow 11 fun k => decide (i + 1 + k < 2 ^ k)).getD 10

/-- The XOR of the places of the bits of a number, information bit i standing for bit i - lo. -/
def placesOf (n lo v : Nat) : Nat := (List.range n).foldl (fun a i => if v.testBit i then a ^^^ hamPlace (lo + i) else a) 0

/-- The 11 code bits of a line: ten Hamming bits over the 512 data bits and the 29 address bits, and the parity over all of them. -/
def secded (data line : Nat) : Nat :=
  let h := placesOf 512 0 data ^^^ placesOf 29 512 line
  let ones := (List.range 512).countP data.testBit + (List.range 29).countP line.testBit + (List.range 10).countP h.testBit
  h + 1024 * (ones % 2)

/-- The check word of a line: the code, POISON, and reserved zeros. -/
def checkWord (s : State) (l : Nat) : Nat :=
  secded (unle (stReadBytes s.bpm.mem (64 * l) 64)) l + 2048 * b2n (s.bpm.poison.contains l)

/-! ## Reading a line -/

/-- What a read of a line is found to be. -/
inductive LineCheck where
  | clean
  | single
  | uncorrectable
deriving DecidableEq, Repr

/-- Place of bit b of a line as stored: 512 data bits, ten Hamming bits, the parity bit. -/
def storedPlace (b : Nat) : Nat := if b < 512 then hamPlace b else if b < 522 then 2 ^ (b - 512) else 0

/-- The code's verdict on a read in which some stored bits are wrong and some bits of the line address differ: an even number of errors
is never corrected, an odd one only where the syndrome names a stored bit (R139). -/
def checkLine (flips : List Nat) (moved : Nat) : LineCheck :=
  let syn := flips.foldl (fun a b => a ^^^ storedPlace b) 0 ^^^ placesOf 29 512 moved
  let odd := (flips.length + (List.range 29).countP moved.testBit) % 2 == 1
  if odd then (if syn ≤ hamPlace 511 then .single else .uncorrectable)
  else if syn = 0 then .clean
  else .uncorrectable

end Sys2Proof.Machine
end

