-- ==== Sys2Proof/Machine/Io.lean ====
section
/-! DEFINITION. I/O commands at admission and at their start, BARRIER, range locks, STREAM_STAT, RECALL_HINT, and the fetch of
queue entries under arbitration (R21 to R31, R38, R43, R45, R68 to R81, R115, R126 to R131, R218, R231, R378, R451, R460). -/

namespace Sys2Proof.Machine

/-! ## Admission (R127) -/

/-- The slot a tag request names is empty or being cleared, or TG cannot serve it (R127 step 8, R218, R231). -/
def tagRefused (s : State) (w : SqeBits) : Option Nat :=
  let o := opcode w
  let asks := tagBit w && [0x40, 0x41, 0x42].contains o
  let needs := tagBit w || tagRequired w
  if needs && s.tg.retired then some stIntegrityEngineFault
  else if asks && (keyOf s (keySlot w)).all (fun k : KeySlot => k.clearing.isSome) then some stKeySlotEmpty
  else if asks && o == 0x40 && decide (s.tg.counter ≥ s.tg.limit ∧ s.tg.limit + 2 ^ 20 ≥ 2 ^ 64) then some stIntegrityEngineFault
  else none

/-- The Almanac is full and the policy keeps a WRITE out of it (R43). -/
def almanacRefuses (s : State) : Bool := almanacFull s && setN s 0x2120 1 == 0

/-- The first failing check of steps 5 to 8 of R127, with the failing byte; and what a secondary and the loss of the peer add
(R451, R460). -/
def ioRefused (s : State) (w : SqeBits) : Option (Nat × Nat) :=
  let o := opcode w
  match mediaCheck s (partition w) with
  | some e => some e
  | none =>
    match partOf s (partition w) with
    | none => some (stInvalidField, 6)
    | some x =>
      if (o = 0x41 ∨ o = 0x42) ∧ locator w ≠ 0 ∧ !x.hostIndexed then some (stInvalidField, 48)
      else if o = 0x40 ∧ secondary s then some (stRoleStale, 0)
      else if o = 0x40 ∧ writeProtected s x then some (stWriteProtected, 0)
      else if o = 0x40 ∧ x.version ≥ topVersion then some (stWriteProtected, 0)
      else if o = 0x40 ∧ retiredCount s > 4 then some (stLanesExhausted, 0)
      else if o = 0x40 ∧ almanacRefuses s then some (stAlmanacFull, 0)
      else match tagRefused s w with
        | some st => some (st, 0)
        | none =>
          if o = 0x40 ∧ s.pl.role = 1 ∧ s.pl.lost ∧ setN s 0x6001 4 = 0 then some (stPeerLost, 0) else none

/-- The partition enters host-indexed mode (R43) (log 77). -/
def enterHostIndexed (s : State) (p : Nat) : State :=
  queueEvent (modPart s p fun x => { x with hostIndexed := true }) evHostIndexed 1 p (evParams [])

/-- The version of a WRITE or the pin of a READ, VERIFY or STREAM_STAT is assigned (R22, R23). -/
def assignVersion (s : State) (c : Cmd) : State :=
  let p := partition c.sqe
  match opcode c.sqe, partOf s p with
  | 0x40, some x =>
    let s := if almanacFull s && !x.hostIndexed then enterHostIndexed s p else s
    let s := modPart s p fun x => { x with version := x.version + 1 }
    checkExhausted (modCmd s c.id fun c => { c with version := x.version + 1, pieces := cutPieces (rangeLen c.sqe) }) p
  | 0x41, some x => modCmd s c.id fun c => { c with version := pinOf s x }
  | 0x42, some x => modCmd s c.id fun c => { c with version := pinOf s x }
  | 0x44, some x => modCmd s c.id fun c => { c with version := pinOf s x }
  | 0x45, some x => modCmd s c.id fun c => { c with scan := x.version }
  | _, _ => s

/-- A Strict command takes its entry in the range-lock table; a table that becomes full pauses Strict fetch (R77, R78)
(log 42). -/
def takeLock (s : State) (c : Cmd) : State :=
  match queueOf s c.q with
  | some q =>
    if q.cls = 1 ∧ [0x40, 0x41, 0x42, 0x44].contains (opcode c.sqe) then
      let l : RLock := { cmd := c.id, part := partition c.sqe, stream := stream c.sqe, first := offset c.sqe,
                         last := offset c.sqe + rangeLen c.sqe - 1, isWrite := opcode c.sqe == 0x40 }
      let s := { s with qe.locks := s.qe.locks ++ [l] }
      if s.qe.locks.length = 4096 then { s with qe.lockFull := satAdd 65535 s.qe.lockFull 1 } else s
    else s
  | none => s

/-- An earlier entry of the table stands in a command's way (R77). -/
def lockedOutBy (s : State) (id : Nat) : Bool :=
  match s.qe.locks.find? fun l => l.cmd == id with
  | none => false
  | some l =>
    s.qe.locks.any fun k => decide (k.cmd < l.cmd) && k.part == l.part && k.stream == l.stream &&
      decide (k.first ≤ l.last ∧ l.first ≤ k.last) && (k.isWrite || l.isWrite)

/-- An earlier BARRIER of the same SQ is still in flight (R79). -/
def behindBarrier (s : State) (c : Cmd) : Bool := (cmdsOf s c.q).any fun d => opcode d.sqe == 0x43 && decide (d.id < c.id)

/-! ## STREAM_STAT (R130) -/

/-- One entry of the list. -/
structure StatRun where
  off : Nat
  len : Nat
  version : Nat
  st : Nat
  /-- the form while no record of the run has been compressed -/
  form : Nat := 0
  tagged : Bool := false
  slot : Nat := 0
  /-- records of the run so far: their forms -/
  forms : List Nat := []
deriving DecidableEq, Repr

/-- Forms of the records of a run of stream bytes of a staged piece that have been compressed so far, wherever they are by now. -/
def runForms (s : State) (w : Cmd) (i off len : Nat) : List Nat :=
  let p := partition w.sqe
  let mine := fun r : Rec => r.stream == stream w.sqe && r.version == w.version && r.piece == i &&
    decide (r.offset < off + len ∧ off < r.offset + r.olen)
  let jobs := (s.fm.recs.filter fun j => j.part == p && mine j.r && j.stage != .cut && j.stage != .compressing).map fun j => j.r.form
  let open_ := match (partOf s p).bind Part.openDs with | some o => (o.recs.filter mine).map Rec.form | none => []
  let sealed_ := (s.fm.sealed.filter fun d => d.ds.part == p).flatMap fun d => (d.ds.recs.filter mine).map Rec.form
  jobs ++ open_ ++ sealed_ ++ (copiesIn s p).flatMap fun t => (t.ds.recs.filter mine).map Rec.form

/-- A run of the resolution as an entry; in a host-indexed partition bytes outside the Almanac are in state 2 (log 31). -/
def statOf (s : State) (p : Nat) (r : Run) : StatRun :=
  match r.src with
  | some (.tape e) =>
    (match recordAt s e with
     | some x => { off := r.off, len := r.len, version := r.version, st := 0, tagged := x.tagged, slot := x.keySlot, forms := [x.form] }
     | none => { off := r.off, len := r.len, version := r.version, st := 0 })
  | some (.staged w i) =>
    (match cmdOf s w with
     | some c =>
       { off := r.off, len := r.len, version := r.version, st := 1, form := cform c.sqe, tagged := tagBit c.sqe,
         slot := if tagBit c.sqe then keySlot c.sqe else 0, forms := runForms s c i r.off r.len }
     | none => { off := r.off, len := r.len, version := r.version, st := 1 })
  | none => { off := r.off, len := r.len, version := 0, st := if (partOf s p).any Part.hostIndexed then 2 else 3 }

/-- Neighbouring runs of one write and one state become one entry. -/
def mergeRuns : List StatRun → List StatRun
  | [] => []
  | a :: r =>
    match mergeRuns r with
    | [] => [a]
    | b :: t =>
      if a.off + a.len = b.off ∧ a.version = b.version ∧ a.st = b.st then
        { a with len := a.len + b.len, forms := a.forms ++ b.forms } :: t
      else a :: b :: t

/-- The form shared by the records of a run, or 3; the form asked for while there is none. -/
def StatRun.shared (r : StatRun) : Nat :=
  match r.forms with
  | [] => r.form
  | f :: fs => if fs.all (· == f) then f else 3

/-- Insertion by offset, then version. -/
def insRun (a : StatRun) : List StatRun → List StatRun
  | [] => [a]
  | b :: r => if a.off < b.off ∨ (a.off = b.off ∧ a.version ≤ b.version) then a :: b :: r else b :: insRun a r

/-- A run cut to a range. -/
def clipRun (lo hi : Nat) (r : Run) : Run := { r with off := max lo r.off, len := min hi (r.off + r.len) - max lo r.off }

/-- The runs of every write that covers a range, one write after another (ALLVERSIONS = 1). -/
def allVersions (s : State) (p : Nat) (st : StreamId) (pin off len : Nat) : List StatRun :=
  let rs := ((stagedRuns s p st pin ++ tapeRuns s p st pin).filter fun r => decide (r.off < off + len ∧ off < r.off + r.len)).map
    (clipRun off (off + len))
  let vs := rs.foldl (fun l r => insNat r.version l) []
  let one := fun v => mergeRuns (((rs.filter fun r => r.version == v).map (statOf s p)).foldl (fun l r => insRun r l) [])
  (vs.flatMap one).foldl (fun l r => insRun r l) []

/-- The entries of a STREAM_STAT. -/
def statRuns (s : State) (c : Cmd) : List StatRun :=
  let p := partition c.sqe
  if c.sqe.getLsbD 384 then allVersions s p (stream c.sqe) c.version (offset c.sqe) (rangeLen c.sqe)
  else mergeRuns ((resolveAll s p (stream c.sqe) c.version (offset c.sqe) (rangeLen c.sqe)).map (statOf s p))

/-- The bytes of an entry (Table 3.12) (log 46). -/
def statBytes (r : StatRun) : List Byte :=
  fit 32 (le 8 r.off ++ le 8 r.len ++ le 8 r.version ++ le 1 r.st ++ le 1 r.shared ++ le 1 (b2n r.tagged) ++ zeros 1 ++
    le 2 r.slot)

/-- STREAM_STAT is answered. -/
def streamStatRun (s : State) (c : Cmd) : State :=
  let rs := statRuns s c
  let room := sqeBytes c.sqe 28 4 / 32 - 1
  let out := rs.take room
  let cont := match rs.drop room with | r :: _ => r.off | [] => 0
  let head := fit 32 (le 8 c.version ++ le 4 rs.length ++ le 4 out.length ++ le 8 cont)
  finish (toHost s c (head ++ out.flatMap statBytes)) c { status := stOk, info := out.length }

/-! ## RECALL_HINT (R131, R378) -/

/-- A hint of least urgency, and of these the oldest, leaves a full table. -/
def evictHint (s : State) : State :=
  if s.rcl.hints.length < 16384 then s
  else
    let h := s.rcl.hints.foldl (fun (b : Option Hint) h =>
      match b with
      | some x => if x.prio < h.prio ∨ (x.prio = h.prio ∧ (h.since < x.since ∨ (h.since = x.since ∧ h.id < x.id))) then some h else b
      | none => some h) none
    match h with
    | some x => { dropHint s x.id with rcl.evicted := satAdd 65535 s.rcl.evicted 1 }
    | none => s

/-- A hint and its visit are registered. -/
def addHint (s : State) (h : Hint) : State :=
  let s := evictHint s
  let h := { h with id := s.rcl.nextHint }
  let s := { s with rcl.nextHint := s.rcl.nextHint + 1, rcl.hints := s.rcl.hints ++ [h] }
  if s.rcl.visits.any fun v => v.isFor h.part h.seq then
    { s with
      rcl.visits := s.rcl.visits.map fun v =>
        if v.isFor h.part h.seq then { v with hints := v.hints ++ [h.id], prio := min v.prio h.prio } else v }
  else
    let e := estimate s h.part h.seq
    joinRun { s with
      rcl.visits := s.rcl.visits ++
        [{ part := h.part, seq := h.seq, wrap := e.1, lpos := e.2, cmds := [], hints := [h.id], prio := h.prio, since := h.since }] }
      h.part h.seq e.1

/-- What a CANCEL of [lo, hi] leaves of a hint: all of it, nothing, or what lies outside, before and behind the range (R378). -/
def trimHint (lo hi : Nat) (h : Hint) : List Hint :=
  if h.last < lo ∨ hi < h.first then [h]
  else (if h.first < lo then [{ h with last := lo - 1 }] else []) ++ (if hi < h.last then [{ h with first := hi + 1 }] else [])

/-- The issuing function's hints in a range are withdrawn or trimmed; the second part of one that reaches beyond both ends takes an
entry of its own (R131, R378) (log 32). -/
def cancelHints (s : State) (c : Cmd) : State :=
  let mine := s.rcl.hints.filter fun h => h.fn == c.fn && h.part == partition c.sqe && h.stream == stream c.sqe
  let lo := offset c.sqe
  mine.foldl (fun s h =>
    match trimHint lo (lo + rangeLen c.sqe - 1) h with
    | [] => dropHint s h.id
    | a :: r => r.foldl addHint { s with rcl.hints := s.rcl.hints.map fun g => if g.id = h.id then a else g }) s

/-- The datasets on tape of a range at a pin, with the range of stream bytes each supplies; a LENGTH of 0 is 2^32 (log 131). -/
def hintTargets (s : State) (c : Cmd) : List (Nat × Nat × Nat) :=
  (resolve s (partition c.sqe) (stream c.sqe) c.scan (offset c.sqe) (rangeLen c.sqe)).foldl (fun l r =>
    match r.src with
    | some (.tape e) =>
      if l.any fun t => t.1 == e.seq then
        l.map fun t => if t.1 = e.seq then (t.1, min t.2.1 r.off, max t.2.2 (r.off + r.len - 1)) else t
      else l ++ [(e.seq, r.off, r.off + r.len - 1)]
    | _ => l) []

/-- RECALL_HINT is answered once its hints are registered or withdrawn. -/
def recallHintRun (s : State) (c : Cmd) : State :=
  let s := if c.sqe.getLsbD 226 then cancelHints s c
    else
      (hintTargets s c).foldl (fun s t =>
        addHint s { id := 0, fn := c.fn, part := partition c.sqe, seq := t.1, stream := stream c.sqe, first := t.2.1, last := t.2.2,
                    prio := max (bits c.sqe.toNat 224 2) c.prio, since := s.now }) s
  finishSt s c stOk

/-! ## Start of a command (R77, R79, R115) -/

/-- A command that stands behind nothing starts. -/
def startIo (s : State) (id : Nat) : State :=
  match cmdOf s id with
  | none => s
  | some c =>
    let s := modCmd s id fun c => { c with st := .running }
    match opcode c.sqe with
    | 0x41 => recheckHeads (startRead s id)
    | 0x42 => recheckHeads (startRead s id)
    | 0x44 => streamStatRun s c
    | 0x45 => recallHintRun s c
    | _ => s

/-- A command is held by a BARRIER or a range lock, or starts. -/
def holdOrStart (s : State) (id : Nat) : State :=
  match cmdOf s id with
  | none => s
  | some c =>
    if behindBarrier s c then modCmd s id fun c => { c with st := .barrierHeld }
    else if lockedOutBy s id then modCmd s id fun c => { c with st := .lockHeld }
    else startIo s id

/-- The command needs tape now: a WRITE, or a reader whose range lies on tape in part (R115). -/
def needsTape (s : State) (c : Cmd) : Bool :=
  match opcode c.sqe with
  | 0x40 => true
  | 0x41 => decide (locator c.sqe ≠ 0) || (resolve s (partition c.sqe) (stream c.sqe) c.version (offset c.sqe) (rangeLen c.sqe)).any
      (fun r : Run => match r.src with | some (.tape _) => true | _ => false)
  | 0x42 => decide (locator c.sqe ≠ 0) || (resolve s (partition c.sqe) (stream c.sqe) c.version (offset c.sqe) (rangeLen c.sqe)).any
      (fun r : Run => match r.src with | some (.tape _) => true | _ => false)
  | _ => false

/-- A reader's whole range has a write at its pin (R29). -/
def rangeWritten (s : State) (c : Cmd) : Bool :=
  !((opcode c.sqe == 0x41 || opcode c.sqe == 0x42) && locator c.sqe == 0) ||
    allWritten (resolve s (partition c.sqe) (stream c.sqe) c.version (offset c.sqe) (rangeLen c.sqe))

/-- A fault of the transport that a WRITE meets (Table 17.1); a reader meets it at the first byte it needs from tape. -/
def tapeRefused (s : State) (c : Cmd) : Option Nat := if opcode c.sqe = 0x40 then tapeFault s else none

/-- An I/O command past the checks of its entry: the archive's checks, its version or pin, its lock, its start (R127). -/
def ioStart (s : State) (c : Cmd) : State :=
  match ioRefused s c.sqe with
  | some e =>
    let s := if e.1 = stWriteProtected then checkExhausted s (partition c.sqe) else s
    finish s c { status := e.1, d1 := e.2 }
  | none =>
    let s := assignVersion s c
    match cmdOf s c.id with
    | none => s
    | some c =>
      if !rangeWritten s c then finish s c { status := stRangeNotWritten }
      else
        let s := if needsTape s c then wake s else s
        match tapeRefused s c with
        | some st => failWrite s c.id 0 st 0 0 none
        | none => holdOrStart (takeLock s c) c.id

/-- WRITE. -/
def execWrite (c : Sub) (s : State) : Out := .next (runCmd s 0x40 c ioStart)
/-- READ. -/
def execRead (c : Sub) (s : State) : Out := .next (runCmd s 0x41 c ioStart)
/-- VERIFY. -/
def execVerify (c : Sub) (s : State) : Out := .next (runCmd s 0x42 c ioStart)
/-- STREAM_STAT. -/
def execStreamStat (c : Sub) (s : State) : Out := .next (runCmd s 0x44 c ioStart)
/-- RECALL_HINT. -/
def execRecallHint (c : Sub) (s : State) : Out := .next (runCmd s 0x45 c ioStart)

/-- RANGE_LOCK_WAIT_END: a held command starts once no earlier overlapping entry remains (R77). -/
def execRangeLockWaitEnd (cmd : Nat) (s : State) : Out :=
  .next (match cmdOf s cmd with
    | some c => if c.st = .lockHeld ∧ !lockedOutBy s cmd then startIo s cmd else s
    | none => s)

/-! ## BARRIER (R79) -/

/-- Commands of queue g admitted before a command. -/
def earlierCmds (s : State) (g id : Nat) : List Cmd := (cmdsOf s g).filter fun d => decide (d.id < id)

/-- The oldest BARRIER of an SQ completes when nothing earlier is in flight; what it held goes on, up to the next one. -/
def barrierDone (s : State) (g : Nat) : State :=
  match (cmdsOf s g).find? fun c => opcode c.sqe == 0x43 with
  | none => s
  | some b =>
    if !(earlierCmds s g b.id).isEmpty then s
    else
      let s := finishSt s b stOk
      ((cmdsOf s g).filter fun c => c.st == .barrierHeld).foldl (fun s c => if behindBarrier s c then s else holdOrStart s c.id) s

/-- BARRIER past the checks of its entry: the archive's checks meet it as they meet every I/O command (R127 steps 5 and 6); it then waits
for what was admitted before it. -/
def barrierStart (s : State) (c : Cmd) : State :=
  match ioRefused s c.sqe with
  | some e => finish s c { status := e.1, d1 := e.2 }
  | none => barrierDone (modCmd s c.id fun c => { c with st := .waiting }) c.q

/-- BARRIER. -/
def execBarrier (c : Sub) (s : State) : Out := .next (runCmd s 0x43 c barrierStart)

/-- BARRIER_COMPLETE. -/
def execBarrierComplete (q : Nat) (s : State) : Out := .next (barrierDone s q)

end Sys2Proof.Machine
end

