-- ==== Sys2Proof/Machine/Fetch.lean ====
section
/-! DEFINITION. QE's fetch of queue entries: arbitration among queues, the reads of up to four entries, SQ_HEAD (R68 to R75, R78,
R81). -/

namespace Sys2Proof.Machine

/-- The state an outcome goes on with. -/
def outState (o : Out) (s : State) : State := match o with | .next t => t | _ => s

/-- An entry with an opcode that no command has: INVALID_OPCODE, unless a check before it fails (R74). -/
def unassigned (s : State) (u : Sub) : State := match admitOne s u with | .over t => t | _ => s

/-- The command an entry spells, as its queue carries it. -/
def runSub (s : State) (u : Sub) : State :=
  match opcode u.sqe with
  | 0x01 => outState (execIdentify u s) s
  | 0x02 => outState (execCreateQueue u s) s
  | 0x03 => outState (execDeleteQueue u s) s
  | 0x04 => outState (execGetLog u s) s
  | 0x05 => outState (execSetPower u s) s
  | 0x06 => outState (execAssignQueues u s) s
  | 0x07 => outState (execSetWindows u s) s
  | 0x10 => outState (execPartitionCreate u s) s
  | 0x11 => outState (execPartitionDelete u s) s
  | 0x12 => outState (execPartitionList u s) s
  | 0x18 => outState (execMount u u.world.lib.mount s) s
  | 0x19 => outState (execUnmount u u.world.lib.unload s) s
  | 0x1A => outState (execCheckpoint u s) s
  | 0x20 => outState (execKeyLoad u s) s
  | 0x21 => outState (execKeyClear u s) s
  | 0x30 => outState (execOdRead u s) s
  | 0x31 => outState (execOdWrite u s) s
  | 0x3F => outState (execEventWait u s) s
  | 0x40 => outState (execWrite u s) s
  | 0x41 => outState (execRead u s) s
  | 0x42 => outState (execVerify u s) s
  | 0x43 => outState (execBarrier u s) s
  | 0x44 => outState (execStreamStat u s) s
  | 0x45 => outState (execRecallHint u s) s
  | _ => unassigned s u

/-- Entries waiting in an SQ. -/
def waitingIn (q : Queue) : Nat := ringDist q.sqDepth q.head q.tail

/-- A queue is eligible for a read (R71); an admin SQ whose next entry waits for the running admin command is read again once
that has completed (R75). -/
def eligibleQ (s : State) (q : Queue) : Bool :=
  decide (waitingIn q > 0) && mayAdmit s q && !(q.adminWait && adminBlocked s q.g)

/-- The first number above a mark, else the lowest. -/
def afterMark (mark : Nat) (ns : List Nat) : Option Nat :=
  let low := fun l : List Nat => match l with | [] => none | a :: r => some (r.foldl min a)
  match low (ns.filter fun n => decide (mark < n)) with
  | some n => some n
  | none => low ns

/-- Weight of a function in a round; 0 acts as 1 (R53). -/
def weightOf (s : State) (n : Nat) : Nat := max 1 (fnOf s n).weight.toNat

/-- A function's turn: the function, the SQEs it has fetched in it and the queues read in it (R71). -/
structure Turn where
  fn : Nat
  used : Nat := 0
  read : List Nat := []
deriving DecidableEq, Repr

/-- The turn in which the next I/O queue is read, among the eligible I/O queues: the turn in progress while its function has weight
left and a queue not yet read in it, else the next function's (R71). -/
def turnOf (s : State) (io : List Queue) : Option Turn :=
  let rest := io.filter fun q => q.fn == s.qe.lastFn && !s.qe.turnQs.contains q.g
  if !rest.isEmpty ∧ s.qe.roundUsed < weightOf s s.qe.lastFn then
    some { fn := s.qe.lastFn, used := s.qe.roundUsed, read := s.qe.turnQs }
  else (afterMark s.qe.lastFn (io.map Queue.fn)).map fun n => { fn := n }

/-- The eligible I/O queues. -/
def eligibleIo (s : State) : List Queue := s.qe.queues.filter fun q => eligibleQ s q && q.cls != 2

/-- The queue that arbitration serves next: admin queues first, round robin; then I/O queues, weighted round robin over
functions, round robin within one, each queue once a turn (R71). -/
def arbiter (s : State) : Option Nat :=
  let admin := s.qe.queues.filter fun q => eligibleQ s q && q.cls == 2
  match afterMark s.qe.lastAdmin (admin.map Queue.g) with
  | some g => some g
  | none =>
    let io := eligibleIo s
    (turnOf s io).bind fun t =>
      afterMark (get s.qe.lastOf t.fn 0) ((io.filter fun q => q.fn == t.fn && !t.read.contains q.g).map Queue.g)

/-- Entries that one read of a queue may bring: up to four, and of an I/O queue what its function's weight leaves (R69, R71). -/
def readSize (s : State) (q : Queue) : Nat :=
  let n := min 4 (waitingIn q)
  if q.cls = 2 then n
  else match turnOf s (eligibleIo s) with | some t => min n (weightOf s q.fn - t.used) | none => n

/-- SQ_HEAD of a queue set n entries after an index. -/
def headAt (s : State) (g base n : Nat) : State :=
  modQueue s g fun q => { q with head := if q.sqDepth = 0 then 0 else (base + n) % q.sqDepth }

/-- The entries of one read, admitted in order: while it goes on SQ_HEAD stands behind the read; an entry that freezes the SQ or
cannot be admitted now sets it back to the first one not admitted (R70, R75, R81) (log 41). -/
def runSubs (g base total : Nat) : Nat → List Sub → State → State
  | _, [], s => s
  | i, u :: r, s =>
    let u := { u with q := g }
    let frozen := fun t : State => match queueOf t g with | some q => q.frozen | none => true
    let t := runSub (headAt s g base total) u
    if t.qe.nextId = s.qe.nextId then
      modQueue (headAt s g base i) g fun q =>
        { q with adminWait := q.cls == 2 && opcode u.sqe != 0x3F && adminBlocked s g }
    else if frozen t then runSub (headAt s g base (i + 1)) u
    else runSubs g base total (i + 1) r t

/-- SQE_FETCH: one read of the queue that arbitration serves next. -/
def sqeFetchS (s : State) (g : Nat) (subs : List Sub) : State :=
  match queueOf s g with
  | none => s
  | some q =>
    if arbiter s ≠ some g then s
    else
      let us := subs.take (readSize s q)
      let t := (turnOf s (eligibleIo s)).getD { fn := q.fn }
      let s := if q.cls = 2 then { s with qe.lastAdmin := g }
        else { s with
          qe.lastFn := q.fn, qe.roundUsed := t.used + us.length, qe.turnQs := t.read ++ [g],
          qe.lastOf := put q.fn g s.qe.lastOf }
      runSubs g q.head us.length 0 us (modQueue s g fun q => { q with adminWait := false })

/-- SQE_FETCH. -/
def execSqeFetch (q : Nat) (subs : List Sub) (s : State) : Out := .next (sqeFetchS s q subs)

end Sys2Proof.Machine
end

