-- ==== Sys2Proof/Machine/Registers.lean ====
section
/-! DEFINITION. The registers behind BAR0 of PF0 and of a VF: what each reads as, what a read clears or latches, and what a write
does (R7 to R12, R53, R59, R163, R211, R234, R299, R331, R354, R381, R414, R444, R464, R489, R553 to R567). -/

namespace Sys2Proof.Machine

/-! ## Accesses without effect (R8, R556) -/

/-- An access that reaches no register is counted in the function's GLB.ACCERR; for PF0 the flag rises with the count
(log 101). -/
def accessErrorS (s : State) (fn : Nat) (off : BitVec 25) : State :=
  let first := (fnOf s fn).accCount = 0
  let s := modFn s fn fun f => { f with accOffset := off, accCount := satAdd 127 f.accCount 1 }
  if fn = 0 ∧ first then setIstat s 4 else s

/-- What a read returned. -/
def readOut (s : State) (fn off v : Nat) : State := emit s (.regRead fn off (BitVec.ofNat 32 v))

/-- ACCESS_ERROR: the access completes without effect, a read with 0. -/
def execAccessError (fn : Nat) (offset : BitVec 25) (isRead : Bool) (s : State) : Out :=
  .next (
    let s := accessErrorS s fn offset
    if isRead then readOut s fn offset.toNat 0 else s)

/-! ## GLB (Tables 20.3 to 20.14) -/

/-- Running firmware version: 0 until stage 5, while Lodestar restarts, and where no image could be started (log 98). -/
def fwVer (s : State) : Nat :=
  if s.glb.stage < 5 ∨ s.glb.restarting.isSome ∨ s.glb.twilight = some 2 then 0 else (bootSlot s s.flash.runB).version

/-- Milliseconds since start-up began. -/
def bootMs (s : State) : Nat := match s.glb.bootAt with | some t => min 65535 ((s.now - t) / msCycles) | none => 0

/-- A register of the GLB view of function fn; none where there is none. -/
def glbReg (s : State) (fn o : Nat) : Option Nat :=
  let f := fnOf s fn
  match o with
  | 0x00 => some (0x1F3D + 65536 * 0x6480)
  | 0x04 => some 0x10
  | 0x08 => some Config.instanceNo.toNat
  | 0x0C => some (fwVer s)
  | 0x10 => some (s.glb.stage + 65536 * bootMs s)
  | 0x14 => some (glbStatus s).toNat
  | 0x18 => some (s.glb.power + (match s.glb.setPower with | some (_, t) => 4 + 8 * t | none => 0))
  | 0x1C => some (f.accOffset.toNat + 2 ^ 25 * f.accCount)
  | 0x20 => if fn = 0 then some s.glb.rstCause.toNat else none
  | 0x24 => if fn = 0 then some s.glb.istat.toNat else none
  | 0x28 => if fn = 0 then some (s.glb.icfgVector.toNat + 65536 * s.glb.icfgEnable.toNat) else none
  | 0x40 => some (bits f.asq.toNat 0 32)
  | 0x44 => some (bits f.asq.toNat 32 32)
  | 0x48 => some (bits f.acq.toNat 0 32)
  | 0x4C => some (bits f.acq.toNat 32 32)
  | 0x50 => some (f.aSqDepth.toNat + 65536 * f.aCqDepth.toNat)
  | 0x54 => some (b2n f.aEnable + 2 * b2n f.aReady + 4 * b2n f.aErr + 256 * f.aCqCount.toNat + 65536 * f.aCqTime.toNat +
      2 ^ 24 * f.aVector.toNat)
  | _ => none

/-! ## The fast status mirror (Tables 20.16 to 20.18) -/

/-- The MIR.FN word of a function. -/
def mirFn (s : State) (n : Nat) : Nat :=
  let qs := s.qe.queues.filter fun q => q.fn == n
  let k := qs.countP Queue.frozen
  (fnOf s n).state + 4 * b2n (decide (k > 0)) + 8 * b2n (qs.any Queue.resetBusy) + 65536 * k

/-- LS.FWSTAT, bits 7 to 0 (Table 19.6). -/
def fwStat (s : State) : Nat :=
  b2n s.flash.runB + 2 * b2n s.flash.trial.isSome + 4 * s.fw.slot + 16 * s.fw.session + 64 * b2n (lockedOut s) + 128 * b2n (armed s)

/-- SV.ADDR. -/
def svAddr (s : State) : Nat := tapeAddr (headWrap s) s.sv.lpos

/-- PL.PSTAT. -/
def plStat (s : State) : Nat :=
  s.pl.role + 4 * b2n s.pl.suspect + 8 * b2n s.pl.lost + 16 * s.pl.reason + 128 * b2n s.pl.catchup + 256 * b2n s.pl.present

/-- Bit j: the function's local queue 32i + j is FROZEN. -/
def frozenWord (s : State) (fn i : Nat) : Nat :=
  ((List.range 32).map fun j =>
    match (globalOf s fn (32 * i + j)).bind (queueOf s) with
    | some q => if q.frozen then 2 ^ j else 0
    | none => 0).sum

/-- A mirror word as function fn sees it; a word without a meaning reads zero. -/
def mirWord (s : State) (fn o : Nat) : Nat :=
  let pf := decide (fn = 0)
  match o with
  | 0x000 => (glbStatus s).toNat
  | 0x004 => mirFn s fn
  | 0x008 => bits (meridian s) 0 32
  | 0x00C => (fnOf s fn).mirTimeHi.toNat
  | 0x010 => (fnOf s fn).evSeq % 2 ^ 32
  | 0x014 => (fnOf s fn).errSeq % 2 ^ 32
  | 0x018 => if pf then (mirMotion s).toNat else 0
  | 0x01C => if pf then svAddr s else 0
  | 0x020 => if pf then inFlight s else 0
  | 0x024 => if pf then plStat s else 0
  | 0x028 => fwStat s
  | o =>
    if pf then (if 0x400 ≤ o ∧ o < 0x800 then mirFn s ((o - 0x400) / 4) else 0)
    else if 0x200 ≤ o ∧ o < 0x400 then frozenWord s fn ((o - 0x200) / 4) else 0

/-! ## Block registers (Table 20.20) -/

/-- QE. -/
def qeReg (s : State) (o : Nat) : Option Nat :=
  if o = 0x10 then some (inFlight s)
  else if o = 0x14 then some (s.qe.locks.length + 65536 * s.qe.lockFull)
  else if o = 0x20 then some s.rcl.visits.length
  else if o = 0x24 then some (min 65535 (s.rcl.visits.countP Visit.aged) + 65536 * s.rcl.evicted)
  else if o = 0x28 then
    some (maxOf 0 ((s.rcl.visits.filter fun v => !v.cmds.isEmpty).map fun v => (s.now - v.since) / msCycles))
  else if o = 0x2C then some s.rcl.hints.length
  else if 0x4000 ≤ o ∧ o < 0x5000 then
    let f := fnOf s ((o - 0x4000) / 16)
    match o % 16 with
    | 0 => some f.weight.toNat
    | 4 => some (f.state + 65536 * qcount s ((o - 0x4000) / 16))
    | 8 => some f.drops
    | _ => none
  else if 0x8000 ≤ o ∧ o < 0xA000 then
    let i := (o - 0x8000) / 4
    some ((List.range 16).map fun q => get s.qe.qprio (16 * i + q) 2 * 4 ^ q).sum
  else none

/-- BPM. -/
def bpmReg (s : State) (o : Nat) : Option Nat :=
  let b := s.bpm
  match o with
  | 0x00 => some b.rejects
  | 0x04 => some (b.rejPool + 16 * b.rejUnit + 256 * b.rejHolders.toNat + 2 ^ 24 * b2n b.rejFree)
  | 0x08 => some b.rejIdx
  | 0x10 => some b.eccCor
  | 0x14 => some b.eccUnc
  | 0x18 => some b.eccAddr
  | 0x1C => some b.scrub
  | o =>
    if 0x100 ≤ o ∧ o < 0x300 then
      let x := poolOf s ((o - 0x100) / 32)
      match o % 32 with
      | 0x00 => some (x.size + 256 * x.mib)
      | 0x04 => some x.freeCount
      | 0x08 => some (x.alm + 65536 * x.rcv)
      | 0x0C => some (min 4095 x.parked.length + 65536 * x.exhausted)
      | 0x10 => some x.cache.length
      | _ => none
    else none

/-- CX. -/
def cxReg (s : State) (o : Nat) : Option Nat :=
  let c := s.cx
  match o with
  | 0x00 => some c.fallback
  | 0x04 => some c.z1mism
  | 0x08 => some c.fbreak
  | 0x0C => some (s.fm.parts.map fun x => match x.openDs with | some d => d.slots.length | none => 0).sum
  | 0x10 => some c.dfCount
  | 0x14 => some (c.dfCode + 256 * c.dfEngine + 4096 * c.dfForm)
  | 0x18 => some c.dfOfs
  | o =>
    if 0x100 ≤ o ∧ o < 0x140 then
      let e := engineOf s ((o - 0x100) / 4)
      some (b2n e.job.isSome + 2 * b2n e.excluded + 65536 * e.jobs)
    else none

/-- TG. -/
def tgReg (s : State) (o : Nat) : Option Nat :=
  let t := s.tg
  match o with
  | 0x00 => some (b2n t.retired + 2 * b2n t.selftestFail + 4 * t.jobs.length)
  | 0x04 => some t.lsErr
  | 0x08 => some t.susp
  | 0x0C => some t.tfail
  | 0x10 => some (bits t.counter 0 32)
  | 0x14 => some t.ctrHi.toNat
  | 0x18 => some t.keys.length
  | o =>
    if 0x200 ≤ o ∧ o < 0x400 then
      let i := (o - 0x200) / 4
      some ((List.range 32).map fun j => if (keyOf s (32 * i + j)).isSome then 2 ^ j else 0).sum
    else none

/-- FM. -/
def fmReg (s : State) (o : Nat) : Option Nat :=
  let f := s.fm
  match o with
  | 0x400 => some (f.wstate + 8 * f.speed + 256 * f.wrap + 2 ^ 24 * retiredCount s)
  | 0x404 => some f.trw
  | 0x408 => some (f.whole + 65536 * f.abandonedCnt)
  | 0x40C => some (f.inhibits + 65536 * f.backhitch)
  | 0x410 => some (min 65535 (rateNow s / 1000000) + 65536 * min 65535 (stagedLevel s / mib))
  | 0x414 => some (f.reallocDone + 65536 * f.reallocDropped)
  | _ => none

/-- LF, lane l (log 102). -/
def lfReg (s : State) (l r : Nat) : Option Nat :=
  let wcur := fun m =>
    get s.fm.wcur (64 * m + l) 0 + 256 * bits (get s.fm.wset (64 * m + l) (0, 0)).1 8 14 +
      2 ^ 30 * b2n (s.fm.drvFault.contains (64 * m + l)) +
      2 ^ 31 * b2n (s.fm.gate && s.fm.current.isSome && writingModule s.fm.wrap == m && !s.fm.retired.getLsbD l)
  let afe := fun m =>
    let x := feOf s m l
    x.gain + 256 * x.boost + 65536 * code 8 x.offset + 2 ^ 30 * b2n x.stuck + 2 ^ 31 * b2n x.biasf
  let trec := fun m => let x := feOf s m l; code 16 x.fofs + 65536 * x.pherr
  match r with
  | 0x100 => some (wcur 0)
  | 0x104 => some (wcur 1)
  | 0x108 => some (get s.fm.tb l 0 + 256 * get s.fm.pb l 0 + 65536 * b2n (s.fm.retired.getLsbD l))
  | 0x200 => some (afe 0)
  | 0x204 => some (trec 0)
  | 0x208 => some (feOf s 0 l).mse
  | 0x240 => some (afe 1)
  | 0x244 => some (trec 1)
  | 0x248 => some (feOf s 1 l).mse
  | _ => none

/-- CD (log 64). -/
def cdReg (s : State) (o : Nat) : Option Nat :=
  let c := s.rc
  if o < 0x4000 then
    let x := laneOf s (o / 256)
    match o % 256 with
    | 0x00 => some (x.state + 4 * b2n x.single + 8 * b2n x.modsel + 16 * min 15 x.coastn + 65536 * x.wl + 2 ^ 24 * code 8 x.dskew)
    | 0x04 => some (x.first + 65536 * x.alt)
    | 0x08 => some (x.flyCnt + 65536 * x.none_)
    | 0x0C => some (x.round2 + 65536 * x.abort + 2 ^ 24 * x.stray)
    | 0x10 => some (x.drops + 65536 * x.tas + 2 ^ 24 * x.suspect)
    | 0x14 => some (x.contested + 65536 * x.budget)
    | _ => none
  else match o with
    | 0x8000 => some (c.step1 + 65536 * c.step2)
    | 0x8004 => some (c.step3 + 65536 * c.step4)
    | 0x8008 => some (c.failed + 65536 * c.rounds)
    | 0x800C => some (c.lastStep + 8 * c.lastPass + 256 * min 255 c.lastRows + 65536 * (c.lastSeq % 65536))
    | _ => none

/-- SV. -/
def svReg (s : State) (o : Nat) : Option Nat :=
  let v := s.sv
  let chan := fun k => v.ch.getD k {}
  match o with
  | 0x00 => some (v.state + 8 * b2n v.reverse + 16 * ((List.range 4).map fun k => b2n (chan k).valid * 2 ^ k).sum + 256 * v.confirmed +
      2048 * v.widx)
  | 0x04 => some (svAddr s)
  | 0x08 => some (code 16 v.pes + 65536 * v.speed)
  | 0x0C => some (v.lposerr + 65536 * v.loss)
  | o =>
    if 0x10 ≤ o ∧ o < 0x20 then
      let c := chan ((o - 0x10) / 4)
      some (code 16 c.y + 65536 * c.bandrd + 2 ^ 19 * b2n c.valid + 2 ^ 24 * c.worderr)
    else none

/-- CE; speeds, accelerations and forces are shown rounded down (log 99). -/
def ceReg (s : State) (o : Nat) : Option Nat :=
  let c := s.ce
  match o with
  | 0x00 => some (b2n c.run + 2 * b2n c.safe + 4 * b2n c.posmode + 8 * c.owner + 32 * b2n c.sup.mref + 64 * b2n c.tkp.mref +
      128 * b2n c.media)
  | 0x04 => some c.sat.toNat
  | 0x08 => some (c.sup.sel + 4 * c.tkp.sel)
  | 0x0C => some c.period.toNat
  | 0x10 => some (code 16 (c.vref * 16000 / 2 ^ 31) + 65536 * code 16 (c.aref * 6400 / 2 ^ 31))
  | 0x14 => some (code 16 (c.f * 4000 / 2 ^ 31) + 65536 * code 16 (c.fc * 4000 / 2 ^ 31))
  | 0x18 => some (c.sup.radius * 6400 / 2 ^ 31 + 65536 * (c.tkp.radius * 6400 / 2 ^ 31))
  | 0x1C => some (min 1023 c.sup.delta + 1024 * min 1023 c.tkp.delta + 2 ^ 20 * c.cause +
      2 ^ 23 * min 511 (c.resid * 1000 / 2 ^ 31))
  | 0x20 => some c.ovr
  | _ => none

/-- PS (log 102). -/
def psReg (s : State) (o : Nat) : Option Nat :=
  let p := s.ps
  match o with
  | 0x00 => some (s.ce.sup.ang + 4 * s.ce.tkp.ang + 16 * b2n (s.ce.sup.ilim4 || p.hotLimit) + 32 * b2n (s.ce.tkp.ilim4 || p.hotLimit) +
      64 * b2n (s.ce.sup.ofsf || s.ce.tkp.ofsf) + 128 * b2n p.chopOn + 256 * b2n p.chopF + 512 * b2n p.zvb +
      1024 * b2n (s.ce.sup.cap || s.ce.tkp.cap) + 2048 * b2n p.auxF + 4096 * b2n p.thrStall)
  | 0x04 => some (p.vmot + 65536 * p.peak)
  | 0x08 => some (p.pred + 65536 * p.ocp)
  | _ => none

/-- NW. -/
def nwReg (s : State) (o : Nat) : Option Nat :=
  let n := s.nw
  match o with
  | 0x100 => some (n.state + 8 * b2n n.atRest + 65536 * n.stops)
  | 0x104 => some (n.cause + 256 * b2n n.reelS + 512 * b2n n.reelT)
  | 0x200 => some (b2n n.req + 2 * b2n (tapeSafe s) + 4 * b2n (safeOk s) + 8 * b2n n.grant + 16 * b2n n.permit + 65536 * n.grants)
  | _ => none

/-- A request of the mailbox is in progress or Lodestar is not running; in Twilight a request ends at once (R566). -/
def mbBusy (s : State) : Bool := s.glb.twilight.isNone && !lsServes s

/-- LS. -/
def lsReg (s : State) (o : Nat) : Option Nat :=
  let m := s.ls
  match o with
  | 0x000 => some (m.index.toNat + 65536 * m.sub.toNat + 2 ^ 24 * b2n m.wr)
  | 0x004 => some m.len.toNat
  | 0x008 => some (b2n (mbBusy s) + 2 * b2n m.done + 65536 * m.status)
  | 0x100 => some (fwStat s + 65536 * m.dups)
  | o => if 0x800 ≤ o ∧ o < 0x1000 then some (get m.buf ((o - 0x800) / 4) 0).toNat else none

/-- MT. -/
def mtReg (s : State) (o : Nat) : Option Nat :=
  let m := s.mt
  match o with
  | 0x00 => some (bits (meridian s) 0 32)
  | 0x04 => some m.timeHi.toNat
  | 0x08 => some (bits m.inc.toNat 0 32)
  | 0x0C => some (bits m.inc.toNat 32 32)
  | 0x10 => some (m.sync + 4 * (if s.pl.role = 2 then 4 else setN s 0x6010 2 % 4) + 65536 * m.steps + 2 ^ 24 * m.ppsrej)
  | 0x14 => some (code 32 m.ofs)
  | 0x18 => some (code 16 m.trim)
  | _ => none

/-- PL. -/
def plReg (s : State) (o : Nat) : Option Nat :=
  match o with
  | 0x00 => some (plStat s)
  | 0x04 => some (s.pl.lanes.toNat + 65536 * s.pl.replay)
  | 0x08 => some (s.pl.staleSent + 65536 * s.pl.staleRcvd)
  | _ => none

/-- FI. -/
def fiReg (s : State) (o : Nat) : Option Nat :=
  let f := s.fi
  match o with
  | 0x00 => some (f.node + 128 * b2n f.dupid + 256 * f.nmt + 1024 * f.bus + 65536 * f.tec + 2 ^ 24 * f.rec_)
  | 0x04 => some (f.lost + 65536 * f.suppr)
  | 0x08 => some f.synct.toNat
  | _ => none

/-- A register of PF0's block windows (Table 20.1). -/
def blockReg (s : State) (blk o : Nat) : Option Nat :=
  match blk with
  | 0x0 => glbReg s 0 o
  | 0x1 => qeReg s o
  | 0x2 => bpmReg s o
  | 0x3 => cxReg s o
  | 0x4 => tgReg s o
  | 0x5 => fmReg s o
  | 0x6 => lfReg s (o / 1024) (o % 1024)
  | 0x7 => cdReg s o
  | 0x8 => svReg s o
  | 0x9 => ceReg s o
  | 0xA => psReg s o
  | 0xB => nwReg s o
  | 0xC => lsReg s o
  | 0xD => mtReg s o
  | 0xE => plReg s o
  | 0xF => fiReg s o
  | _ => none

/-! ## The layouts (R554 to R557) -/

/-- What lies at a byte offset of a function's BAR0. -/
inductive Place where
  /-- a register of a block -/ | block (blk o : Nat)
  /-- the GLB view of a VF -/ | glb (o : Nat)
  /-- a mirror word -/ | mirror (o : Nat)
  /-- a word of the MSI-X table -/ | msix (i : Nat)
  /-- a word of the pending bit array -/ | pba (i : Nat)
  /-- a register of a doorbell slot -/ | bell (q o : Nat)
deriving DecidableEq, Repr

/-- The place of an offset; none where the layout assigns nothing. -/
def placeOf (fn off : Nat) : Option Place :=
  if fn = 0 then
    if off < 0x100000 then some (.block (off / 0x10000) (off % 0x10000))
    else if 0x800000 ≤ off ∧ off < 0x801000 then some (.mirror (off - 0x800000))
    else if 0x900000 ≤ off ∧ off < 0x901000 then some (.msix ((off - 0x900000) / 4))
    else if 0x901000 ≤ off ∧ off < 0x901020 then some (.pba ((off - 0x901000) / 4))
    else if 0x1000000 ≤ off ∧ off < 0x1100000 then some (.bell ((off - 0x1000000) / 32) (off % 32))
    else none
  else if off < 0x1000 then some (.glb off)
  else if off < 0x2000 then some (.mirror (off - 0x1000))
  else if 0x10000 ≤ off ∧ off < 0x10400 then some (.msix ((off - 0x10000) / 4))
  else if 0x10800 ≤ off ∧ off < 0x10808 then some (.pba ((off - 0x10800) / 4))
  else if 0x20000 ≤ off ∧ off < 0x40000 then some (.bell ((off - 0x20000) / 32) (off % 32))
  else none

/-- A register of a doorbell slot (Tables 2.7 to 2.10). PF0 sees of a VF's queue the status alone (R61). -/
def bellReg (s : State) (fn q o : Nat) : Option Nat :=
  let x := (globalOf s fn q).bind (queueOf s)
  let own := x.filter fun x => x.fn == fn
  match o with
  | 0x00 => some ((own.map Queue.tail).getD 0)
  | 0x08 => some ((own.map Queue.cqHead).getD 0)
  | 0x10 => some 0
  | 0x18 => some (match x with
      | some x => b2n x.frozen + 2 * b2n x.resetDone + 4 + 8 * b2n x.resetBusy + 16 * x.cls + 256 * x.epoch.toNat + 2 ^ 18 * x.head
      | none => 16 * 3)
  | _ => none

/-- The value of the register at a place. -/
def placeReg (s : State) (fn : Nat) : Place → Option Nat
  | .block blk o => blockReg s blk o
  | .glb o => glbReg s fn o
  | .mirror o => some (mirWord s fn o)
  | .msix i => some (msixWord (fnOf s fn) i).toNat
  | .pba i => some (pbaWord (fnOf s fn) i)
  | .bell q o => bellReg s fn q o

/-- The register an aligned access to an offset reaches, with its value. -/
def regAt (s : State) (fn off : Nat) : Option (Place × Nat) :=
  if off % 4 ≠ 0 then none
  else match placeOf fn off with
    | none => none
    | some p => (placeReg s fn p).map fun v => (p, v)

/-! ## What a read does beside its value -/

/-- TG.CTRLO: the high word of the counter is latched. -/
def latchCtr (s : State) : State := { s with tg.ctrHi := BitVec.ofNat 32 (s.tg.counter >>> 32) }

/-- MT.TIMELO: the high word of Meridian is latched. -/
def latchTime (s : State) : State := { s with mt.timeHi := BitVec.ofNat 32 (meridian s >>> 32) }

/-- MIR.TIMELO: the high word of Meridian is latched for the function. -/
def latchMir (s : State) (fn : Nat) : State := modFn s fn fun f => { f with mirTimeHi := BitVec.ofNat 32 (meridian s >>> 32) }

/-- The fields of a block register that a read clears (RC), and what it latches. -/
def blockRead (s : State) (blk o : Nat) : State :=
  match blk with
  | 0x0 => if o = 0x1C then modFn s 0 fun f => { f with accCount := 0 } else s
  | 0x1 =>
    if o = 0x14 then { s with qe.lockFull := 0 }
    else if o = 0x24 then { s with rcl.evicted := 0 }
    else if 0x4000 ≤ o ∧ o < 0x5000 ∧ o % 16 = 8 then modFn s ((o - 0x4000) / 16) fun f => { f with drops := 0 }
    else s
  | 0x2 =>
    if o = 0x00 then { s with bpm.rejects := 0 }
    else if o = 0x10 then { s with bpm.eccCor := 0 }
    else if o = 0x14 then { s with bpm.eccUnc := 0 }
    else if 0x100 ≤ o ∧ o < 0x300 ∧ o % 32 = 0x0C then
      let p := (o - 0x100) / 32
      setPool s p { poolOf s p with exhausted := 0 }
    else s
  | 0x3 =>
    if o = 0x00 then { s with cx.fallback := 0 }
    else if o = 0x04 then { s with cx.z1mism := 0 }
    else if o = 0x08 then { s with cx.fbreak := 0 }
    else if o = 0x10 then { s with cx.dfCount := 0 }
    else if 0x100 ≤ o ∧ o < 0x140 then setEngine s ((o - 0x100) / 4) { engineOf s ((o - 0x100) / 4) with jobs := 0 }
    else s
  | 0x4 =>
    if o = 0x04 then { s with tg.lsErr := 0 }
    else if o = 0x08 then { s with tg.susp := 0 }
    else if o = 0x0C then { s with tg.tfail := 0 }
    else if o = 0x10 then latchCtr s
    else s
  | 0x5 =>
    if o = 0x404 then { s with fm.trw := 0 }
    else if o = 0x408 then { s with fm.whole := 0, fm.abandonedCnt := 0 }
    else if o = 0x40C then { s with fm.inhibits := 0, fm.backhitch := 0 }
    else if o = 0x414 then { s with fm.reallocDone := 0, fm.reallocDropped := 0 }
    else s
  | 0x7 =>
    if o < 0x4000 then
      modLane s (o / 256) fun x =>
        match o % 256 with
        | 0x04 => { x with first := 0, alt := 0 }
        | 0x08 => { x with flyCnt := 0, none_ := 0 }
        | 0x0C => { x with round2 := 0, abort := 0, stray := 0 }
        | 0x10 => { x with drops := 0, tas := 0, suspect := 0 }
        | 0x14 => { x with contested := 0, budget := 0 }
        | _ => x
    else if o = 0x8000 then { s with rc.step1 := 0, rc.step2 := 0 }
    else if o = 0x8004 then { s with rc.step3 := 0, rc.step4 := 0 }
    else if o = 0x8008 then { s with rc.failed := 0, rc.rounds := 0 }
    else s
  | 0x8 =>
    if o = 0x0C then { s with sv.lposerr := 0, sv.loss := 0 }
    else if 0x10 ≤ o ∧ o < 0x20 then { s with sv.ch := modNth s.sv.ch ((o - 0x10) / 4) fun c => { c with worderr := 0 } }
    else s
  | 0x9 => if o = 0x20 then { s with ce.ovr := 0 } else s
  | 0xA =>
    if o = 0x04 then { s with ps.peak := 0 }
    else if o = 0x08 then { s with ps.pred := 0, ps.ocp := 0 }
    else s
  | 0xC => if o = 0x100 then { s with ls.dups := 0 } else s
  | 0xD =>
    if o = 0x00 then latchTime s
    else if o = 0x10 then { s with mt.ppsrej := 0 }
    else s
  | 0xE =>
    if o = 0x04 then { s with pl.replay := 0 }
    else if o = 0x08 then { s with pl.staleSent := 0, pl.staleRcvd := 0 }
    else s
  | 0xF => if o = 0x04 then { s with fi.lost := 0, fi.suppr := 0 } else s
  | _ => s

/-- What a read of the register at a place does beside its value. -/
def placeRead (s : State) (fn : Nat) : Place → State
  | .block blk o => blockRead s blk o
  | .glb o => if o = 0x1C then modFn s fn fun f => { f with accCount := 0 } else s
  | .mirror o => if o = 0x008 then latchMir s fn else s
  | _ => s

/-- A read: the value returned, and what the read clears; one that reaches no register is counted and returns 0
(log 100). -/
def readS (s : State) (fn off : Nat) : State :=
  match regAt s fn off with
  | some (p, v) => readOut (placeRead s fn p) fn off v
  | none => readOut (accessErrorS s fn (BitVec.ofNat 25 off)) fn off 0

/-- REGISTER_READ_CLEAR. -/
def execRegisterReadClear (fn offset : Nat) (s : State) : Out := .next (readS s fn offset)

/-- TG_CTRLO_READ. -/
def execTgCtrloRead (s : State) : Out := .next (readS s 0 0x40010)

/-- MT_TIMELO_READ. -/
def execMtTimeloRead (s : State) : Out := .next (readS s 0 0xD0000)

/-- MIR_TIMELO_READ. -/
def execMirTimeloRead (fn : Nat) (s : State) : Out := .next (readS s fn (if fn = 0 then 0x800008 else 0x1008))

/-! ## Writes to GLB -/

/-- The settings of an admin queue that an enable checks (R563). -/
def adminOk (s : State) (fn : Nat) : Bool :=
  let f := fnOf s fn
  let depth := fun d : BitVec 15 => decide (16 ≤ d.toNat ∧ d.toNat ≤ 16384)
  depth f.aSqDepth && depth f.aCqDepth && f.aCqCount != 0 && decide (f.aVector.toNat < vectors fn) && covered s fn

/-- An admin queue with the settings of its registers: class Admin, epoch 0. -/
def adminQueue (f : FnState) (fn : Nat) : Queue :=
  { g := fn, fn, cls := 2, sqDepth := f.aSqDepth.toNat, cqDepth := f.aCqDepth.toNat, sqBase := f.asq.toNat, cqBase := f.acq.toNat,
    vector := f.aVector.toNat, cqCount := f.aCqCount.toNat, cqTime := f.aCqTime.toNat }

/-- ENABLE = 1 while READY reads 0: the queue comes into being and the function is ENABLED, or the enable is refused
(log 97). -/
def enableAdmin (s : State) (fn : Nat) : State :=
  if adminOk s fn then
    let s := modFn s fn fun f => { f with aEnable := true, aReady := true, aErr := false, state := 1 }
    { s with qe.queues := s.qe.queues.filter (fun q => q.g != fn) ++ [adminQueue (fnOf s fn) fn] }
  else modFn s fn fun f => { f with aEnable := false, aErr := true }

/-- A write of GLB.AQCFG: while ENABLE reads 1 only its end is taken; while a drain is under way nothing is (R563). -/
def aqCfgS (s : State) (fn v : Nat) : State :=
  let f := fnOf s fn
  let on := bit v 0
  if f.aEnable then (if on then s else disableFn s fn)
  else if f.aReady || f.state == 2 then
    (if on then s
     else modFn s fn fun f => { f with aCqCount := BitVec.ofNat 8 (bits v 8 8), aCqTime := BitVec.ofNat 8 (bits v 16 8),
                                       aVector := BitVec.ofNat 8 (bits v 24 8) })
  else
    let s := modFn s fn fun f => { f with aCqCount := BitVec.ofNat 8 (bits v 8 8), aCqTime := BitVec.ofNat 8 (bits v 16 8),
                                          aVector := BitVec.ofNat 8 (bits v 24 8) }
    if on then enableAdmin s fn else s

/-- ADMIN_QUEUE_ENABLE: a write of GLB.AQCFG with ENABLE = 1. -/
def execAdminQueueEnable (fn : Nat) (v : Word) (s : State) : Out := .next (aqCfgS s fn (v ||| 1).toNat)

/-- ADMIN_QUEUE_DISABLE: a write of GLB.AQCFG with ENABLE = 0. -/
def execAdminQueueDisable (fn : Nat) (v : Word) (s : State) : Out := .next (aqCfgS s fn (v &&& 0xFFFFFFFE).toNat)

/-- A write of GLB.ICFG: the vector is sent when an ISTAT bit that is set becomes enabled (R561). -/
def icfgS (s : State) (v : Nat) : State :=
  let en := BitVec.ofNat 7 (bits v 16 7)
  let news := s.glb.istat &&& en &&& ~~~s.glb.icfgEnable
  let s := { s with glb.icfgVector := BitVec.ofNat 8 (bits v 0 8), glb.icfgEnable := en }
  if news != 0 then sendVector s 0 s.glb.icfgVector.toNat else s

/-- GLB_ICFG_WRITE. -/
def execGlbIcfgWrite (v : Word) (s : State) : Out := .next (icfgS s v.toNat)

/-- A ring or size register of an admin queue: written while ENABLE reads 0. -/
def adminField (s : State) (fn : Nat) (g : FnState → FnState) : State := if (fnOf s fn).aEnable then s else modFn s fn g

/-- A write to a register of the GLB view of function fn; fields that are not writable stay. -/
def glbWrite (s : State) (fn o v : Nat) : State :=
  let lo := fun (x : BitVec 64) => BitVec.ofNat 64 (bits x.toNat 32 32 * 2 ^ 32 + v / 4096 * 4096)
  let hi := fun (x : BitVec 64) => BitVec.ofNat 64 (bits x.toNat 0 32 + v * 2 ^ 32)
  match o with
  | 0x20 => { s with glb.rstCause := s.glb.rstCause &&& ~~~(BitVec.ofNat 5 v) }
  | 0x24 => { s with glb.istat := s.glb.istat &&& ~~~(BitVec.ofNat 7 v) }
  | 0x28 => icfgS s v
  | 0x40 => adminField s fn fun f => { f with asq := lo f.asq }
  | 0x44 => adminField s fn fun f => { f with asq := hi f.asq }
  | 0x48 => adminField s fn fun f => { f with acq := lo f.acq }
  | 0x4C => adminField s fn fun f => { f with acq := hi f.acq }
  | 0x50 => adminField s fn fun f => { f with aSqDepth := BitVec.ofNat 15 v, aCqDepth := BitVec.ofNat 15 (bits v 16 15) }
  | 0x54 => aqCfgS s fn v
  | _ => s

/-! ## The mailbox (R566) -/

/-- The 2 KiB buffer as bytes. -/
def mbBytes (s : State) (n : Nat) : List Byte := ((List.range 512).flatMap fun i => le 4 (get s.ls.buf i 0).toNat).take n

/-- Bytes placed at the start of the buffer. -/
def mbFill (s : State) (bs : List Byte) : State :=
  let old := mbBytes s 2048
  let new := bs ++ old.drop bs.length
  { s with
    ls.buf := (List.range 512).foldl
      (fun b i => putD i (BitVec.ofNat 32 (unle (slice new (4 * i) 4))) 0 b) s.ls.buf }

/-- A request ends. -/
def mbDone (s : State) (st : Nat) : State := { s with ls.done := true, ls.status := st }

/-- The request the registers hold is served as OD_READ or OD_WRITE of PF0. -/
def mbServe (s : State) (w : CmdWorld) : State :=
  let idx := s.ls.index.toNat
  let sub := s.ls.sub.toNat
  let n := s.ls.len.toNat
  if s.glb.twilight.isSome then mbDone s stTwilight
  else if n = 0 ∨ 2048 < n then mbDone s stInvalidField
  else if s.ls.wr then
    let r := odWrite s .mailbox idx sub (mbBytes s n) w
    mbDone r.1 r.2.status
  else match odFind idx sub with
    | none => mbDone s stInvalidField
    | some e =>
      if e.acc = .wo then mbDone s stAccessDenied
      else if (if e.var then decide (n > min 4096 e.size) else n != e.size) then mbDone s stInvalidField
      else
        let r := odRead s idx sub
        match r.2 with
        | .ok bs => mbDone (mbFill r.1 (fit n bs)) stOk
        | .error o => mbDone r.1 o.status

/-- A write of LS.MBREQ: discarded while BUSY reads 1; GO starts the request. -/
def mbReqS (s : State) (v : Nat) (w : CmdWorld) : State :=
  if mbBusy s then s
  else
    let s := { s with ls.index := BitVec.ofNat 16 v, ls.sub := BitVec.ofNat 8 (bits v 16 8), ls.wr := bit v 24 }
    if bit v 25 then mbServe s w else s

/-- MAILBOX_GO: a write of LS.MBREQ with GO = 1. -/
def execMailboxGo (v : Word) (w : CmdWorld) (s : State) : Out := .next (mbReqS s (v ||| 0x02000000).toNat w)

/-- A write to a register of the LS window. -/
def lsWrite (s : State) (o v : Nat) : State :=
  if o = 0x000 then mbReqS s v {}
  else if o = 0x004 then (if mbBusy s then s else { s with ls.len := BitVec.ofNat 12 v })
  else if o = 0x008 then (if bit v 1 then { s with ls.done := false } else s)
  else if 0x800 ≤ o ∧ o < 0x1000 then
    (if mbBusy s then s else { s with ls.buf := putD ((o - 0x800) / 4) (BitVec.ofNat 32 v) 0 s.ls.buf })
  else s

/-! ## Writes to the other blocks -/

/-- The chopper is no longer judged faulty (R433) (log 103). -/
def chopClear (s : State) : State := { s with ps.chopF := false, ce.aLimit := none }

/-- A write to a register of QE: weights and recall priorities. -/
def qeWrite (s : State) (o v : Nat) : State :=
  if 0x4000 ≤ o ∧ o < 0x5000 ∧ o % 16 = 0 then
    modFn s ((o - 0x4000) / 16) fun f => { f with weight := BitVec.ofNat 8 v }
  else if 0x8000 ≤ o ∧ o < 0xA000 then
    let i := (o - 0x8000) / 4
    { s with qe.qprio := (List.range 16).foldl (fun l q => putD (16 * i + q) (bits v (2 * q) 2) 2 l) s.qe.qprio }
  else s

/-- A write to a register of CE, PS or SV outside a session is discarded and counted (R12); inside one, CE.SAT and PS.STAT.CHOPF
are cleared by ones. -/
def sessionWrite (s : State) (blk o v : Nat) : State :=
  if !sessionOpen s then accessErrorS s 0 (BitVec.ofNat 25 (blk * 0x10000 + o))
  else if blk = 0x9 ∧ o = 0x04 then { s with ce.sat := s.ce.sat &&& ~~~(BitVec.ofNat 9 v) }
  else if blk = 0xA ∧ o = 0x00 ∧ bit v 8 ∧ s.ps.chopF then chopClear s
  else s

/-- CHOPPER_FAULT_CLEAR: PF0 writes 1 to PS.STAT.CHOPF. -/
def execChopperFaultClear (s : State) : Out := .next (sessionWrite s 0xA 0x00 0x100)

/-- A write of QCTL acts in ascending bit order (R11). One that reaches no queue of the function is dropped and counts once; to a
VF's queue PF0's RESET alone gets through (R60, R61). -/
def qctlWrite (s : State) (fn q v : Nat) : State :=
  match bellQueue s fn q with
  | some _ =>
    let s := if bit v 0 then resumeS s fn q else s
    if bit v 1 then queueResetS s fn q else s
  | none => if bit v 1 then queueResetS s fn q else dropBell s fn

/-- A write to a doorbell slot. -/
def bellWrite (s : State) (fn q o v : Nat) : State :=
  match o with
  | 0x00 => sqTailS s fn q v
  | 0x08 => cqHeadS s fn q v
  | 0x10 => qctlWrite s fn q v
  | _ =>
    match bellQueue s fn q with
    | some x => if bit v 1 then setQueue s { x with resetDone := false } else s
    | none => dropBell s fn

/-- A write to the register at a place; the mirror takes none (R556). -/
def placeWrite (s : State) (fn off v : Nat) : Place → State
  | .block blk o =>
    match blk with
    | 0x0 => glbWrite s 0 o v
    | 0x1 => qeWrite s o v
    | 0x8 => sessionWrite s blk o v
    | 0x9 => sessionWrite s blk o v
    | 0xA => sessionWrite s blk o v
    | 0xC => lsWrite s o v
    | _ => s
  | .glb o => glbWrite s fn o v
  | .mirror _ => accessErrorS s fn (BitVec.ofNat 25 off)
  | .msix i => msixWrite s fn i v
  | .pba _ => s
  | .bell q o => bellWrite s fn q o v

/-- A write: one that reaches no register is counted. -/
def writeS (s : State) (fn off v : Nat) : State :=
  match regAt s fn off with
  | some (p, _) => placeWrite s fn off v p
  | none => accessErrorS s fn (BitVec.ofNat 25 off)

/-- REGISTER_WRITE. -/
def execRegisterWrite (fn offset : Nat) (v : Word) (s : State) : Out := .next (writeS s fn offset v.toNat)

end Sys2Proof.Machine
end

