-- ==== Sys2Proof/Machine/ConfigSpace.lean ====
section
/-! DEFINITION. What PCIe configuration space presents: the identity of Table 0.3, the SR-IOV capability and the base address
registers; and the time during which configuration requests are put off (R4, R5, R51, R95, R518, R554, R555). -/

namespace Sys2Proof.Machine

/-- TotalVFs, First VF Offset and VF Stride of the SR-IOV capability (R51). -/
abbrev totalVfs : Nat := 255
abbrev firstVfOffset : Nat := 1
abbrev vfStride : Nat := 1

/-- The fields of configuration space that the spec gives a value. -/
inductive CfgField where
  | vendorId | deviceId | classCode | revisionId | subsystemVendorId | subsystemId | vsecId | vsecSignature
  | totalVfs | firstVfOffset | vfStride | vfDeviceId | numVfs | vfEnable | bar0Size | vfBar0Size | msixVectors | d3hot
deriving DecidableEq, Repr

/-- Function number of VF n, counted from 1: First VF Offset and VF Stride from PF0 (R51). -/
def vfFunction (n : Nat) : Nat := firstVfOffset + vfStride * (n - 1)

/-- A field as function fn presents it (Table 0.3, R51, R95, R554, R555); none where the function has no such field. A VF's device
ID stands in the SR-IOV capability of PF0 (log 117). -/
def cfgValue (s : State) (fn : Nat) (x : CfgField) : Option Nat :=
  let pf := decide (fn = 0)
  let pfOnly := fun v : Nat => if pf then some v else none
  match x with
  | .vendorId => some 0x1F3D
  | .deviceId => some (if pf then 0x6480 else 0x6481)
  | .classCode => some 0x018000
  | .revisionId => some 0x10
  | .subsystemVendorId => some s.glb.subVendor
  | .subsystemId => some s.glb.subDevice
  | .vsecId => pfOnly 0x0051
  | .vsecSignature => pfOnly (unle (ascii "ZWND"))
  | .totalVfs => pfOnly totalVfs
  | .firstVfOffset => pfOnly firstVfOffset
  | .vfStride => pfOnly vfStride
  | .vfDeviceId => pfOnly 0x6481
  | .numVfs => pfOnly s.glb.numVfs
  | .vfEnable => pfOnly (b2n s.glb.vfEnable)
  | .bar0Size => some (if pf then 0x2000000 else 0x40000)
  | .vfBar0Size => pfOnly 0x40000
  | .msixVectors => some (vectors fn)
  | .d3hot => some (b2n (fnOf s fn).d3hot)

/-- The answer to a configuration request. -/
inductive CfgAnswer where
  /-- Configuration Request Retry Status -/ | retry
  /-- served: the value of the field, none where there is none -/ | served (v : Option Nat)
deriving DecidableEq, Repr

/-- Configuration requests are served: stage 5 has been reached and PERST# has been released (R518). -/
def configServed (s : State) : Bool := decide (s.glb.stage ≥ 5) && s.glb.perstReleased

/-- A read of a field of configuration space. -/
def configRead (s : State) (fn : Nat) (x : CfgField) : CfgAnswer :=
  if configServed s then .served (cfgValue s fn x) else .retry

/-- A configuration request that changes something: answered with CRS, it changes nothing (R518). -/
def configRequest (s : State) (f : State → State) : State := if configServed s then f s else s

end Sys2Proof.Machine
end

