-- ==== Sys2Proof/Machine/Functions.lean ====
section
/-! DEFINITION. Resets and power states of PCIe functions: VF Enable, NumVFs, FLR, PERST#, D3hot (R39, R52, R57, R87 to R89, R94,
R134, R224, R513, R518, R559). -/

namespace Sys2Proof.Machine

/-- GLB.ACCERR and the admin queue registers of a function return to their reset values (R559); the function is in D0, with its
MSI-X table as after reset (log 24). -/
def resetFnRegs (f : FnState) : FnState :=
  { f with
    asq := 0, acq := 0, aSqDepth := 0, aCqDepth := 0, aEnable := false, aReady := false, aErr := false, aCqCount := 1,
    aCqTime := 0, aVector := 0, accOffset := 0, accCount := 0, d3hot := false, msix := [], pendingVecs := [] }

/-- The windows of a function at reset (R39). -/
def defaultWindows (n : Nat) (f : FnState) : FnState :=
  { f with
    pmask := (if n = 0 then 0xFFFF else 0), prefix_ := 0, mask := 0, kbase := 0, kcount := (if n = 0 then 4096 else 0) }

/-- The error log is emptied and its numbers start again (R134). -/
def emptyErrLog (f : FnState) : FnState := { f with errSeq := 0, errLog := [] }

/-- The functions QE keeps a record of, VFs alone when asked. -/
def knownFns (s : State) (vfs : Bool) : List Nat := (s.qe.fns.map Prod.fst).filter fun n => !(vfs && n == 0)

/-- VF_ENABLE_SET: the VFs up to NumVFs may be configured; NumVFs changes only while VF Enable is clear (log 104), and a number
above TotalVFs counts as TotalVFs (log 116). -/
def execVfEnableSet (numVfs : Nat) (s : State) : Out :=
  .next (configRequest s fun s =>
    if s.glb.vfEnable then s else { s with glb.vfEnable := true, glb.numVfs := min totalVfs numVfs })

/-- VF Enable is cleared: every VF stops and loses its windows, its queue numbers and its error log. -/
def clearVfs (s : State) : State :=
  let ns := knownFns s true
  let s := ns.foldl disableFn s
  let s := ns.foldl (fun s n => modFn s n fun f => emptyErrLog (defaultWindows n (resetFnRegs f))) s
  { s with glb.vfEnable := false, qe.assigns := s.qe.assigns.filter fun a => a.fn == 0 }

/-- VF_ENABLE_CLEAR. -/
def execVfEnableClear (s : State) : Out := .next (configRequest s clearVfs)

/-- NUMVFS_REDUCE: VFs above the new number stop and lose their queue numbers. -/
def execNumvfsReduce (numVfs : Nat) (s : State) : Out :=
  .next (configRequest s fun s =>
    if numVfs ≥ s.glb.numVfs then s
    else
      let s := ((knownFns s true).filter fun n => decide (numVfs < n)).foldl disableFn s
      { s with glb.numVfs := numVfs, qe.assigns := s.qe.assigns.filter fun a => decide (a.fn ≤ numVfs) })

/-- FLR_VF: the VF stops; its windows, its queue numbers and its error log stay. -/
def execFlrVf (fn : Nat) (s : State) : Out :=
  .next (configRequest s fun s => if fn = 0 ∨ !covered s fn then s else modFn (disableFn s fn) fn resetFnRegs)

/-- PF0 is reset: VF Enable is cleared, PF0 stops, windows and queue numbers return to what they are at reset, loaded keys are
lost, GLB's interrupt registers are reset (R87, R224, R559). -/
def resetPf0 (s : State) : State :=
  let s := disableFn (clearVfs s) 0
  let s := modFn s 0 fun f => emptyErrLog (defaultWindows 0 (resetFnRegs f))
  { s with
    qe.assigns := [], tg.keys := [], glb.istat := 0, glb.icfgVector := 0, glb.icfgEnable := 0 }

/-- FLR_PF0. -/
def execFlrPf0 (s : State) : Out :=
  .next (configRequest s fun s =>
    let s := resetPf0 s
    { s with glb.rstCause := s.glb.rstCause ||| 16 })

/-- PERST_ASSERT: PERST#, a hot reset or a link that goes down; the spec says of PERST# alone how it ends, and all three end with
PERST_RELEASE here (R5, R513, Table 18.1; log 107). -/
def execPerstAssert (s : State) : Out :=
  .next (
    let s := resetPf0 s
    { s with glb.rstCause := s.glb.rstCause ||| 8, glb.perstReleased := false })

/-- The subsystem IDs are read from the settings store, once for each PERST# release (R5) (log 107). -/
def readSubsystem (s : State) : State :=
  if s.glb.subDue then { s with glb.subVendor := setN s 0x2010 1, glb.subDevice := setN s 0x2010 2, glb.subDue := false } else s

/-- PERST_RELEASE: the subsystem IDs are read, or at stage 4 when the settings are not loaded yet. -/
def execPerstRelease (s : State) : Out :=
  .next (
    if s.glb.perstReleased then s
    else
      let s := { s with glb.perstReleased := true, glb.subDue := true }
      if s.glb.stage ≥ 4 then readSubsystem s else s)

/-- D3HOT_ENTRY. -/
def execD3hotEntry (fn : Nat) (s : State) : Out :=
  .next (configRequest s fun s => if covered s fn then modFn s fn fun f => { f with d3hot := true } else s)

/-- D3HOT_EXIT: what was held for the function goes out, in order. -/
def execD3hotExit (fn : Nat) (s : State) : Out :=
  .next (configRequest s fun s =>
    let out := (s.qe.held.filter fun h => h.1 == fn).map fun h => h.2.2
    let s := modFn s fn fun f => { f with d3hot := false }
    out.foldl emit { s with qe.held := s.qe.held.filter fun h => h.1 != fn })

end Sys2Proof.Machine
end

