-- ==== Sys2Proof/Machine/BpmCmds.lean ====
section
/-! DEFINITION. The buffer pool's commands and the scrubber (R139 to R143, R150 to R162, R517). -/

namespace Sys2Proof.Machine

/-! ## Allocation, references, parked requests -/

/-- A request of a unit, for itself or on behalf of a command: answered, or parked; until the background writing of check words
has ended, it waits (R517). -/
def bufferAllocateS (s : State) (p cls : Nat) (cmd : Option Nat) : State :=
  if p ≥ 16 then s
  else if !s.glb.background then
    (if (allocRank cls).isSome then
       setPool s p { poolOf s p with parked := (poolOf s p).parked ++ [{ cls, cmd, since := s.now }] }
     else s)
  else
    let a := allocate s p cls cmd
    if a.1 = nullHandle then a.2
    else match cmd with
      | some id => modCmd a.2 id fun c => { c with bufs := c.bufs ++ [a.1] }
      | none => { a.2 with bpm.granted := a.2.bpm.granted ++ [(a.1, cls)] }

/-- BUFFER_ALLOCATE. -/
def execBufferAllocate (pool cls : Nat) (cmd : Option Nat) (s : State) : Out := .next (bufferAllocateS s pool cls cmd)

/-- BUFFER_ACQUIRE. -/
def execBufferAcquire (handle : BitVec 32) (cls : Nat) (s : State) : Out := .next (acquire s handle cls).2

/-- BUFFER_RELEASE: a buffer that a unit gives back is no longer one it was given; READs held at 255 references are tried again
(R153). -/
def execBufferRelease (handle : BitVec 32) (cls : Nat) (s : State) : Out :=
  .next (
    let s := release s handle cls
    retryHeld s.qe.cmds.length { s with bpm.granted := s.bpm.granted.erase (handle, cls) })

/-- PARKED_REQUEST_SERVED: the request next in rank and age whose floor holds gets its buffer; a request whose command is gone
leaves it free. -/
def parkedServedS (s : State) (p : Nat) : State :=
  if !s.glb.background then s
  else
    let x := poolOf s p
    match nextParked x with
    | none => s
    | some i =>
      match x.parked[i]? with
      | none => s
      | some k =>
        match allocNow s p k.cls with
        | none => s
        | some (h, t) =>
          let t := setPool t p { poolOf t p with parked := x.parked.eraseIdx i }
          match k.cmd with
          | none => { t with bpm.granted := t.bpm.granted ++ [(h, k.cls)] }
          | some id =>
            if (cmdOf t id).isSome then modCmd t id fun c => { c with bufs := c.bufs ++ [h] } else release t h k.cls

/-- PARKED_REQUEST_SERVED. -/
def execParkedRequestServed (pool : Nat) (s : State) : Out := .next (parkedServedS s pool)

/-- BUFFER_WAIT_LIMIT_EXPIRY: a host command whose request has been parked for the limit ends with BUFFER_EXHAUSTED (R160). -/
def bufferWaitS (s : State) (p id : Nat) : State :=
  let x := poolOf s p
  let late := x.parked.any fun k => k.cmd == some id && (k.cls == clsQeIn || k.cls == clsQeOut) && elapsed s k.since (setN s 0x2150 1)
  if !late then s
  else match cmdOf s id with
    | none => unpark s id
    | some c =>
      let s := unpark (setPool s p { x with exhausted := satAdd 65535 x.exhausted 1 }) id
      if opcode c.sqe = 0x40 ∧ c.version ≠ 0 then endWrite s id stBufferExhausted 0 false
      else if opcode c.sqe = 0x41 ∨ opcode c.sqe = 0x42 then finishRead s c stBufferExhausted 0 0
      else finishSt s c stBufferExhausted

/-- BUFFER_WAIT_LIMIT_EXPIRY. -/
def execBufferWaitLimitExpiry (pool cmd : Nat) (s : State) : Out := .next (bufferWaitS s pool cmd)

/-! ## Uncorrectable lines (R142, Table 4.1) -/

/-- Data lines of usable staging. -/
abbrev stagingLines : Nat := 503316480

/-- The pool and the index of the buffer a staging address lies in. -/
def bufferAt (s : State) (a : Nat) : Option (BitVec 32) :=
  (List.range 16).findSome? fun p =>
    let x := poolOf s p
    let base := bufAddr s (handleOf p 0)
    if x.total > 0 ∧ base ≤ a ∧ a < base + x.total * x.bufSize then some (handleOf p ((a - base) / x.bufSize)) else none

/-- A piece of a WRITE whose bytes are lost before its commit point fails (Table 4.1). -/
def losePiece (s : State) (id i : Nat) : State :=
  match cmdOf s id with
  | none => s
  | some c =>
    match c.pieces.find? fun k => k.idx == i && !k.settled with
    | some k => settleWrite (failPiece (modCmd s id fun c => { c with
        fail := some (c.fail.getD (stCheckValueMismatch, 0, 1)) }) id k) id
    | none => s

/-- Pieces whose records lie in a list of records fail, those of a mirrored copy as well. -/
def loseRecs (s : State) (p : Nat) (rs : List Rec) : State :=
  rs.foldl (fun s r =>
    match writeOf s p r.stream r.version with
    | some c => losePiece s c.id r.piece
    | none => if s.pl.role = 2 then discardMirror s p r.stream r.version r.piece else s) s

/-- Host data in pool 0: the pieces of which bytes that have arrived lie in the line. -/
def loseHost (s : State) (h : BitVec 32) (a : Nat) : State :=
  match s.qe.cmds.find? fun c => opcode c.sqe == 0x40 && c.bufs.contains h with
  | none => s
  | some c =>
    let b := (poolOf s 0).bufSize
    let at_ := c.bufs.idxOf h * b + (a - bufAddr s h)
    let hit := (c.pieces.filter fun k => decide (pieceSize * k.idx < at_ + 64 ∧ at_ < pieceSize * k.idx + k.arrived)).map Piece.idx
    hit.foldl (fun s i => losePiece s c.id i) s

/-- The records of a dataset with bytes in the 64 bytes from an offset of its user area on (log 108). -/
def recsInLine (rs : List Rec) (off : Nat) : List Rec :=
  ((recordOffsets 512 rs).zip rs).filterMap fun r => if off < r.1 + recordLen r.2 ∧ r.1 < off + 64 then some r.2 else none

/-- Nothing of a read dataset's checks and decompressions is left. -/
def forgetOutputs (s : State) (p q : Nat) : State :=
  let mine := fun j : TagJob => match checkOf j.recId with | some c => c.1 == p && c.2.1 == q | none => false
  let js := s.tg.jobs.filter mine
  let s := tagTurn (js.foldl freeInput { s with tg.jobs := s.tg.jobs.filter fun j => !mine j })
  let cs := s.cx.chains.filter fun j => j.part == p && j.seq == q
  let outs := ((readOf s p q).map ReadDs.outBufs).getD []
  let s := releaseAll (releaseAll s (cs.flatMap ChainJob.bufs) clsCxd) outs clsQeOut
  modRead { s with cx.chains := s.cx.chains.filter fun j => !(j.part == p && j.seq == q) } p q fun r =>
    { r with rows := [], user := none, decoded := false, content := none, tagOk := [], outs := [], outBufs := [], bad := [] }

/-- A read dataset has lost a line before delivery: while a command waits for it, it is read again through read recovery; else it is
given up (Table 4.1). -/
def reread (s : State) (r : ReadDs) : State :=
  if s.rcl.visits.any fun v => v.isFor r.part r.seq && !v.cmds.isEmpty then
    let s := forgetOutputs s r.part r.seq
    if r.step = 3 ∨ r.step = 4 then s else enterLadder s r.part r.seq
  else dropRead s r.part r.seq

/-- Stored LLRs are lost with a line of their buffer: their rows are bare from then on; a span read begins its sums anew (R335,
R345). -/
def loseLlrs (s : State) (h : BitVec 32) : State :=
  { s with
    rc.reads := s.rc.reads.map fun r => if r.pool6.contains h then { r with stored := [] } else r,
    rc.span := s.rc.span.map fun sp =>
      if sp.bufs.contains h then { sp with done := [], s0 := zeros userBytes, s1 := zeros userBytes } else sp }

/-- Every read dataset with a buffer that lost a line is read again. -/
def rereadAll (s : State) (h : BitVec 32) : State :=
  let chains := s.cx.chains.filter fun j => j.bufs.contains h
  let gone := s.rc.reads.filter fun r =>
    r.buf == h || r.outBufs.contains h || chains.any fun j => j.part == r.part && j.seq == r.seq
  gone.foldl reread s

/-- A line of a record's buffers of pool 4 or 7 is lost: its piece fails when the line holds bytes of the record as it stands (Table 4.1);
what a compressor has under way is written only as its job ends. -/
def loseStaged (s : State) (h : BitVec 32) (off : Nat) : State :=
  s.fm.recs.foldl (fun s j =>
    let at_ := j.bufs.idxOf h * (poolOf s (poolNo h)).bufSize + off
    if j.bufs.contains h ∧ j.stage ≠ .compressing ∧ at_ < recordLen j.r then loseRecs s j.part [j.r] else s) s

/-- What an uncorrectable line of a buffer brings about (log 108). -/
def loseBuffer (s : State) (h : BitVec 32) (a : Nat) : State :=
  let off := a - bufAddr s h
  match poolNo h with
  | 0 => loseHost s h a
  | 1 =>
    let s := s.fm.parts.foldl (fun s x =>
      match x.openDs with
      | some o => if o.buf = h then loseRecs s x.num (recsInLine o.recs off) else s
      | none => s) s
    s.fm.sealed.foldl (fun s w => if w.buf = h then loseRecs s w.ds.part (recsInLine w.ds.recs off) else s) s
  | 4 => loseStaged s h off
  | 6 => loseLlrs s h
  | 7 => loseStaged s h off
  | _ => rereadAll s h

/-- An uncorrectable line is counted and its address kept (R143). -/
def countLine (s : State) (l : Nat) : State :=
  { s with
    bpm.eccUnc := satAdd 65535 s.bpm.eccUnc 1, bpm.uncTotal := satAdd (2 ^ 32 - 1) s.bpm.uncTotal 1, bpm.eccAddr := l }

/-- An uncorrectable line at address a of a pool: the buffer there, if it is allocated, has lost what it held (R142). -/
def bufferLost (s : State) (a : Nat) : State :=
  match bufferAt s a with
  | some h => if ((poolOf s (poolNo h)).buf (bufNo h)).isSome then loseBuffer s h a else s
  | none => s

/-- POISON is set in a line's check word (R139). -/
def setPoison (s : State) (l : Nat) : State := { s with bpm.poison := l :: s.bpm.poison.filter (· != l) }

/-- An uncorrectable line, by its region (Tables 4.1, 4.2): it is poisoned (R139); the second region has a second copy, and the Almanac
cache is loaded again: the line written whole then carries no POISON (R140). -/
def lineLost (s : State) (l : Nat) (x : LineRead) : State :=
  let a := 64 * l
  let s := setPoison (countLine s l) l
  if 0x200000000 ≤ a ∧ a < 0x280000000 then
    (if checkLine x.second 0 = .uncorrectable then enterTwilight (faultRec s 0x02 true noUnit 0 l) 3 else clearPoison s a 64)
  else
    let s := faultRec s 0x01 false (match bufferAt s a with | some h => poolNo h | none => noUnit) 0 l
    if a < 0x200000000 then (match x.almanacLost with | some p => protectPart s p | none => clearPoison s a 64)
    else bufferLost s a

/-- SCRUB: the next line is read and judged by its check word; a single-bit error is corrected (R139, R141, R143). -/
def scrubS (s : State) (x : LineRead) : State :=
  let l := s.bpm.scrub
  let s := { s with bpm.scrub := (l + 1) % stagingLines }
  match checkLine x.flips x.moved with
  | .clean => s
  | .single =>
    { s with bpm.eccCor := satAdd (2 ^ 32 - 1) s.bpm.eccCor 1, bpm.corTotal := satAdd (2 ^ 32 - 1) s.bpm.corTotal 1 }
  | .uncorrectable => lineLost s l x

/-- SCRUB. -/
def execScrub (seen : LineRead) (s : State) : Out := .next (scrubS s seen)

end Sys2Proof.Machine
end

