-- ==== Sys2Proof/Machine/Startup.lean ====
section
/-! DEFINITION. Resets of the whole module, start-up and its stages, temperatures and the thermal trip (R148, R210, R217, R231, R443,
R468, R483, R507, R513 to R521, R562, R571, R577, R584). -/

namespace Sys2Proof.Machine

/-! ## Resets (Table 18.1) -/

/-- The staging slot after a reset: STAGED when the other boot slot holds an image that waits for its activation; a write cut
short leaves it FREE (R534). -/
def slotAfterReset (f : Flash) : Fw :=
  let o := if f.runB then f.slotA else f.slotB
  if o.valid ∧ !o.confirmed ∧ !o.incompatible then { slot := 2, source := o.source, digest := o.digest, image := o.image } else {}

/-- A reel turns: Nightwatch runs and the reels are not at rest. -/
def reelTurns (s : State) : Bool := !s.nw.inReset && !s.nw.atRest

/-- Nightwatch at a reset: while a reel turns and it has power it stays out of reset and brakes, with cause 0x23; else it enters
reset. The levels at its pins and the place of the loader stay (R514). -/
def nwAtReset (s : State) (powered : Bool) : Nw :=
  if reelTurns s ∧ powered then
    { s.nw with
      state := (if s.nw.state = 2 then 2 else 1), cause := 0x23, causes := s.nw.causes ++ [0x23], reelS := false, reelT := false, kFull := false,
      stops := (if s.nw.state = 0 then satAdd 65535 s.nw.stops 1 else s.nw.stops) }
  else { sns := s.nw.sns, req := s.nw.req, atEject := s.nw.atEject }

/-- Every block but Nightwatch at its reset values: what flash holds stays, and so do the cartridge, the tape's place, the levels
at the pins and the temperatures; staging is lost. The subsystem IDs stay too: they change at a PERST# release alone (R5). Time, the free values and the outputs are the model's own. -/
def resetModule (s : State) (cause : Nat) (powered : Bool) : State :=
  { s with
    glb := { vin12 := s.glb.vin12, resetInN := s.glb.resetInN, testEn := s.glb.testEn, perstReleased := s.glb.perstReleased,
             heldByReel := reelTurns s && powered, bootCause := cause, tripped := s.glb.tripped, temps := s.glb.temps,
             subVendor := s.glb.subVendor, subDevice := s.glb.subDevice, subDue := s.glb.subDue },
    qe := {}, bpm := {}, cx := {}, tg := {}, fm := {}, rc := {}, sv := {}, rcl := {}, ce := {},
    ps := {}, nw := nwAtReset s powered,
    media := { cart := s.media.cart, threaded := s.media.threaded, seated := s.media.seated },
    od := [], mt := {}, fi := { nodePins := s.fi.nodePins }, pl := {}, ls := {}, fw := slotAfterReset s.flash, health := {} }

/-- Start-up may begin: supply, RESET_IN_N, TEST_EN, both junctions and Nightwatch allow it (R514, R571, R584). -/
def startAllowed (s : State) : Bool :=
  s.glb.vin12 && s.glb.resetInN && !s.glb.testEn && !s.glb.tripped && !s.glb.heldByReel && s.glb.bootAt.isNone

/-- Start-up begins when it may; a Nightwatch still braking delays it, which turns the cause RESETIN into MOTION (R562). -/
def tryStart (s : State) : State :=
  if startAllowed s then { s with glb.bootAt := some s.now, glb.stage := 0 }
  else if s.glb.heldByReel ∧ s.glb.vin12 ∧ s.glb.resetInN ∧ !s.glb.testEn ∧ !s.glb.tripped ∧ s.glb.bootCause = 1 then
    { s with glb.bootCause := 2 }
  else s

/-- RESET_IN_N_ASSERT: low for at least 10 us. -/
def execResetInNAssert (s : State) : Out :=
  .next (
    if !s.glb.resetInN then s
    else
      let s := resetModule s 1 true
      { s with glb.resetInN := false })

/-- RESET_IN_N_RELEASE: the node ID pins are sampled, and start-up begins when nothing else holds it (R474, R514). -/
def execResetInNRelease (pins : BitVec 3) (s : State) : Out :=
  .next (if s.glb.resetInN then s else tryStart { s with glb.resetInN := true, fi.nodePins := pins })

/-- Supply is lost: staging with it; reels that turn are braked from VMOT while it lasts (R514); the levels at RESET_IN_N and
TEST_EN fall (log 6). -/
def losePower (s : State) : State :=
  if !s.glb.vin12 then s else
  let s := resetModule s 0 (decide (s.ps.vmot ≥ 2000))
  { s with
    glb.vin12 := false, glb.resetInN := false, glb.testEn := false, glb.tripped := false, glb.subVendor := 0x1F3D,
    glb.subDevice := 0x0001, glb.subDue := true }

/-- VIN12_LOSS. -/
def execVin12Loss (s : State) : Out := .next (losePower s)

/-- D3COLD_ENTRY: power is removed (R94). -/
def execD3coldEntry (s : State) : Out := .next (losePower s)

/-- VIN12_VALID. -/
def execVin12Valid (s : State) : Out := .next (if s.glb.vin12 then s else tryStart { s with glb.vin12 := true, glb.bootCause := 0 })

/-- TEST_EN_ASSERT: as RESET_IN_N for every block (R571). -/
def execTestEnAssert (s : State) : Out :=
  .next (
    let s := resetModule s 1 true
    { s with glb.testEn := true })

/-! ## The stages (Table 18.2) -/

/-- Stage 0: Nightwatch leaves reset, in RELEASED, or in BRAKE when it finds a turning reel (R521); it reads *Hard limit*
(R443) (log 105). -/
def stagePower (s : State) (turning : Bool) : State :=
  let b := (activeBank s).copy0.getD ((activeBank s).copy1.getD [])
  let hard := setN { s with od := b } 0x4204 4
  let n := { s.nw with inReset := false, hardLimit := hard, restAt := s.now }
  if turning then { s with nw := { n with state := 1, cause := 0x23, causes := [0x23], atRest := false, stops := satAdd 65535 n.stops 1 } }
  else { s with nw := { n with state := 4, cause := 0, atRest := true } }

/-- Stage 1: the boot ROM chooses an image (R546); none is Twilight, cause 2. -/
def stageRom (s : State) (w : BootWorld) : State :=
  let a := bootRom s w
  match a.2 with
  | .trial _ => { a.1 with fw.slot := 3 }
  | .image b => { a.1 with flash.runB := b }
  | .nothing => enterTwilight a.1 2

/-- Stage 2: memory is trained and its second region written. -/
def stageMemory (s : State) (ok : Bool) : State := if ok then s else enterTwilight s 3

/-- A settings copy whose CRC fails is rebuilt from the other; an entry found in neither takes its default (R483). -/
def rebuildCopies (s : State) (bad : List Nat) : State :=
  let b := activeBank s
  let c0 := if bad.contains 0 then none else b.copy0
  let c1 := if bad.contains 1 then none else b.copy1
  let all := c0.getD (c1.getD [])
  let n := b2n c0.isNone + b2n c1.isNone
  let s := setBank s { b with copy0 := some all, copy1 := some all }
  (List.range n).foldl (fun s _ => faultRec s 0x14 false noUnit 0 0) s

/-- Whether 0x1011 asked for the default of an entry: subindex 1 for every one, 2 for 0x1000 to 0x1FFF, 3 for the rw ones of
0x2000 to 0x2FFF. -/
def restores (m : BitVec 3) (key : Nat) : Bool :=
  let idx := key / 256
  m.getLsbD 0 || (m.getLsbD 1 && decide (0x1000 ≤ idx ∧ idx ≤ 0x1FFF)) ||
    (m.getLsbD 2 && decide (0x2000 ≤ idx ∧ idx ≤ 0x2FFF) &&
      (match odFind idx (key % 256) with | some e => decide (e.acc = .rw) | none => false))

/-- Defaults asked for before the reset return. -/
def restoreDefaults (s : State) : State :=
  let keep := fun c : Option (List (Nat × List Byte)) => c.map fun l => l.filter fun x => !restores s.flash.restore x.1
  let b := activeBank s
  let s := setBank s { b with copy0 := keep b.copy0, copy1 := keep b.copy1 }
  { s with flash.restore := 0 }

/-- A trial image confirms itself; when its settings fail, the previous image is started instead (R544, R545). -/
def stageTrial (s : State) (w : BootWorld) : State :=
  match s.flash.trial with
  | none => s
  | some b =>
    let s := settleTrial s w b
    if (bootSlot s b).incompatible then
      (match bootConfirmed s w with
       | .image r => { s with flash.runB := r }
       | _ => enterTwilight s 2)
    else s

/-- TG's known-answer test (R231). -/
def testTg (s : State) (fails : Bool) : State :=
  if fails then
    { retireTg s with tg.selftestFail := true }
  else s

/-- The known-answer tests of CX: an engine that fails is excluded; without a decompressor the device is in Twilight (R210,
R519). -/
def testCx (s : State) (fails : List Nat) : State :=
  let fs := (List.range 16).filter fails.contains
  let s := fs.foldl (fun s e => faultRec (setEngine s e { engineOf s e with excluded := true }) 0x06 true e 0 0) s
  if (List.range 8).all fun e => (engineOf s (e + 8)).excluded then enterTwilight s 4 else s

/-- Meridian goes on from the value stored last (R466, R468). -/
def resumeMeridian (s : State) : State :=
  { s with
    mt := { acc := BitVec.ofNat 96 (s.flash.meridian <<< 32), inc := BitVec.ofNat 64 nominalInc, running := true,
            epoch := setI s 64 0x6010 1 } }

/-- TG starts at the limit in flash, and the block above it, if there is one, is being reserved (R217, R218). -/
def startNonces (s : State) : State :=
  let l := s.flash.nonceLimit
  { s with tg.counter := l, tg.limit := l, tg.reserving := if l + 2 ^ 20 < 2 ^ 64 then some (l + 2 ^ 20) else none }

/-- What flash holds of retired lanes, front ends and servo channels comes into force (R286, R491, R492). -/
def loadRetired (s : State) : State :=
  { s with
    fm.retired := s.flash.lanes, rc.retiredA := s.flash.feA, rc.retiredB := s.flash.feB, sv.retired := s.flash.servo }

/-- Stage 3: settings, Meridian, tests and nonces; in a Twilight that holds Lodestar in reset the settings keep their defaults (R506). -/
def stageSelftest (s : State) (w : StageWorld) : State :=
  let s := loadRetired s
  if s.glb.twilight.isSome then s
  else
    let s := loadBank (restoreDefaults (rebuildCopies s w.copyBad)) false
    testCx (testTg (startNonces (stageTrial (resumeMeridian s) w.boot)) w.tgFail) w.cxFail

/-- Stage 4: QE is initialised, the default pools are carved, the subsystem IDs read. -/
def stageQe (s : State) : State :=
  let s := { s with bpm.pools := defaultPools }
  if s.glb.perstReleased then readSubsystem s else s

/-- The cause of the start-up in GLB.RSTCAUSE (R562). -/
def bootBits (cause : Nat) : BitVec 5 := BitVec.ofNat 5 (2 ^ cause)

/-- Stage 5 is reached: Lodestar runs, FI starts, Nightwatch is asked to clear, a fallback is reported (R474, R521, R545). -/
def stageReady (s : State) : State :=
  let s := { s with glb.rstCause := (s.glb.rstCause &&& 0x18) ||| bootBits s.glb.bootCause }
  let s := fiReset s s.fi.nodePins
  if s.glb.twilight.isSome then s
  else
    let s := reportFallback (setIstat (judgeCurve { s with glb.lsUp := true }) 3)
    askClear s true

/-- The work of the stage in progress is done, and the next one begins (R516) (log 106). -/
def startupStageDoneS (s : State) (w : StageWorld) : State :=
  if s.glb.bootAt.isNone ∨ s.glb.stage ≥ 5 then s
  else
    let t := match s.glb.stage with
      | 0 => stagePower s w.turning
      | 1 => stageRom s w.boot
      | 2 => stageMemory s w.training
      | 3 => stageSelftest s w
      | _ => stageQe s
    let t := { t with glb.stage := s.glb.stage + 1 }
    if t.glb.stage = 5 then stageReady t else t

/-- STARTUP_STAGE_DONE. -/
def execStartupStageDone (w : StageWorld) (s : State) : Out := .next (startupStageDoneS s w)

/-- BACKGROUND_WRITE_DONE: BPM has written the check words of the other regions (R517). -/
def execBackgroundWriteDone (s : State) : Out := .next (if s.glb.stage ≥ 5 then { s with glb.background := true } else s)

/-! ## Temperatures (R583, R584) -/

/-- A temperature of 0x3430 is taken: 0 logic, 1 power stage (log 61). -/
def noteTemp (s : State) (i : Nat) (t : Int) : State := { s with glb.temps := s.glb.temps.set i t }

/-- LOGIC_THERMAL_CAP: from 120 degrees on the speed index is capped at 12, until the junction falls below 110 (log 109). -/
def execLogicThermalCap (deciC : Int) (s : State) : Out :=
  .next (
    let s := noteTemp s 0 deciC
    if deciC ≥ 1200 then
      let s := capReading { s with glb.thermalCap := true }
      if s.fm.speed > 12 then (if writerMoves s then setSpeed s 12 else { s with fm.speed := 12 }) else s
    else if deciC < 1100 then { s with glb.thermalCap := false }
    else s)

/-- POWER_STAGE_THERMAL_LIMIT: from 130 degrees on both current limits are 4 A, until the stage falls below 115. -/
def execPowerStageThermalLimit (deciC : Int) (s : State) : Out :=
  .next (
    let s := noteTemp s 1 deciC
    if deciC ≥ 1300 then { s with ps.hotLimit := true }
    else if deciC < 1150 then { s with ps.hotLimit := false }
    else s)

/-- THERMAL_TRIP: at 135 degrees of either junction the module is reset as by RESET_IN_N. -/
def execThermalTrip (logicDeciC stageDeciC : Int) (s : State) : Out :=
  .next (
    let s := noteTemp (noteTemp s 0 logicDeciC) 1 stageDeciC
    if (logicDeciC ≥ 1350 ∨ stageDeciC ≥ 1350) ∧ !s.glb.tripped then
      let s := resetModule s 1 true
      { s with glb.tripped := true }
    else s)

/-- THERMAL_TRIP_END: both junctions are below 110 degrees, and start-up may begin. -/
def execThermalTripEnd (logicDeciC stageDeciC : Int) (s : State) : Out :=
  .next (
    let s := noteTemp (noteTemp s 0 logicDeciC) 1 stageDeciC
    if s.glb.tripped ∧ logicDeciC < 1100 ∧ stageDeciC < 1100 then tryStart { s with glb.tripped := false } else s)

end Sys2Proof.Machine
end

