-- ==== Sys2Proof/Machine/Dispatch.lean ====
section
/-! DEFINITION. The dispatch: one arm per command. -/

namespace Sys2Proof.Machine

def exec (i : Instr) (s : State) : Host.Outcome State Fault Refusal :=
  match i with
  | .identify c => Sys2Proof.Machine.execIdentify c s
  | .createQueue c => Sys2Proof.Machine.execCreateQueue c s
  | .deleteQueue c => Sys2Proof.Machine.execDeleteQueue c s
  | .deleteQueueComplete q => Sys2Proof.Machine.execDeleteQueueComplete q s
  | .getLog c => Sys2Proof.Machine.execGetLog c s
  | .setPower c => Sys2Proof.Machine.execSetPower c s
  | .powerStateEntry => Sys2Proof.Machine.execPowerStateEntry s
  | .powerEntryLimitExpiry => Sys2Proof.Machine.execPowerEntryLimitExpiry s
  | .assignQueues c => Sys2Proof.Machine.execAssignQueues c s
  | .setWindows c => Sys2Proof.Machine.execSetWindows c s
  | .partitionCreate c => Sys2Proof.Machine.execPartitionCreate c s
  | .partitionDelete c => Sys2Proof.Machine.execPartitionDelete c s
  | .partitionList c => Sys2Proof.Machine.execPartitionList c s
  | .mount c w => Sys2Proof.Machine.execMount c w s
  | .unmount c w => Sys2Proof.Machine.execUnmount c w s
  | .checkpoint c => Sys2Proof.Machine.execCheckpoint c s
  | .keyLoad c => Sys2Proof.Machine.execKeyLoad c s
  | .keyClear c => Sys2Proof.Machine.execKeyClear c s
  | .keyClearComplete slot => Sys2Proof.Machine.execKeyClearComplete slot s
  | .odRead c => Sys2Proof.Machine.execOdRead c s
  | .odWrite c => Sys2Proof.Machine.execOdWrite c s
  | .eventWait c => Sys2Proof.Machine.execEventWait c s
  | .write c => Sys2Proof.Machine.execWrite c s
  | .read c => Sys2Proof.Machine.execRead c s
  | .verify c => Sys2Proof.Machine.execVerify c s
  | .barrier c => Sys2Proof.Machine.execBarrier c s
  | .barrierComplete q => Sys2Proof.Machine.execBarrierComplete q s
  | .streamStat c => Sys2Proof.Machine.execStreamStat c s
  | .recallHint c => Sys2Proof.Machine.execRecallHint c s
  | .rangeLockWaitEnd cmd => Sys2Proof.Machine.execRangeLockWaitEnd cmd s
  | .sqeFetch q subs => Sys2Proof.Machine.execSqeFetch q subs s
  | .cqTimeLimitExpiry q => Sys2Proof.Machine.execCqTimeLimitExpiry q s
  | .sqTail fn q v => Sys2Proof.Machine.execSqTail fn q v s
  | .cqHead fn q v => Sys2Proof.Machine.execCqHead fn q v s
  | .resume fn q => Sys2Proof.Machine.execResume fn q s
  | .queueReset fn q => Sys2Proof.Machine.execQueueReset fn q s
  | .resetMarkerPost q => Sys2Proof.Machine.execResetMarkerPost q s
  | .adminQueueEnable fn v => Sys2Proof.Machine.execAdminQueueEnable fn v s
  | .adminQueueDisable fn v => Sys2Proof.Machine.execAdminQueueDisable fn v s
  | .functionDrainEnd fn => Sys2Proof.Machine.execFunctionDrainEnd fn s
  | .mailboxGo v w => Sys2Proof.Machine.execMailboxGo v w s
  | .glbIcfgWrite v => Sys2Proof.Machine.execGlbIcfgWrite v s
  | .chopperFaultClear => Sys2Proof.Machine.execChopperFaultClear s
  | .tgCtrloRead => Sys2Proof.Machine.execTgCtrloRead s
  | .mtTimeloRead => Sys2Proof.Machine.execMtTimeloRead s
  | .mirTimeloRead fn => Sys2Proof.Machine.execMirTimeloRead fn s
  | .accessError fn offset isRead => Sys2Proof.Machine.execAccessError fn offset isRead s
  | .registerWrite fn offset v => Sys2Proof.Machine.execRegisterWrite fn offset v s
  | .vfEnableSet numVfs => Sys2Proof.Machine.execVfEnableSet numVfs s
  | .vfEnableClear => Sys2Proof.Machine.execVfEnableClear s
  | .numvfsReduce numVfs => Sys2Proof.Machine.execNumvfsReduce numVfs s
  | .flrVf fn => Sys2Proof.Machine.execFlrVf fn s
  | .flrPf0 => Sys2Proof.Machine.execFlrPf0 s
  | .perstAssert => Sys2Proof.Machine.execPerstAssert s
  | .perstRelease => Sys2Proof.Machine.execPerstRelease s
  | .d3hotEntry fn => Sys2Proof.Machine.execD3hotEntry fn s
  | .d3hotExit fn => Sys2Proof.Machine.execD3hotExit fn s
  | .d3coldEntry => Sys2Proof.Machine.execD3coldEntry s
  | .bufferAllocate pool cls cmd => Sys2Proof.Machine.execBufferAllocate pool cls cmd s
  | .bufferAcquire handle cls => Sys2Proof.Machine.execBufferAcquire handle cls s
  | .bufferRelease handle cls => Sys2Proof.Machine.execBufferRelease handle cls s
  | .parkedRequestServed pool => Sys2Proof.Machine.execParkedRequestServed pool s
  | .bufferWaitLimitExpiry pool cmd => Sys2Proof.Machine.execBufferWaitLimitExpiry pool cmd s
  | .scrub seen => Sys2Proof.Machine.execScrub seen s
  | .writeDataArrival cmd bytes => Sys2Proof.Machine.execWriteDataArrival cmd bytes s
  | .recordCut part => Sys2Proof.Machine.execRecordCut part s
  | .compressorJobStart engine => Sys2Proof.Machine.execCompressorJobStart engine s
  | .compressorJobDone engine attempt => Sys2Proof.Machine.execCompressorJobDone engine attempt s
  | .tagJobStart r => Sys2Proof.Machine.execTagJobStart r s
  | .tagJobDone ctx agree agreeAgain => Sys2Proof.Machine.execTagJobDone ctx agree agreeAgain s
  | .nonceReservation => Sys2Proof.Machine.execNonceReservation s
  | .nonceLimitRaise => Sys2Proof.Machine.execNonceLimitRaise s
  | .recordPlace r => Sys2Proof.Machine.execRecordPlace r s
  | .sealDelayExpiry part => Sys2Proof.Machine.execSealDelayExpiry part s
  | .datasetSeal part => Sys2Proof.Machine.execDatasetSeal part s
  | .checkpointInterval part => Sys2Proof.Machine.execCheckpointInterval part s
  | .checkpointTimeExpiry part => Sys2Proof.Machine.execCheckpointTimeExpiry part s
  | .writerStart => Sys2Proof.Machine.execWriterStart s
  | .startAgeExpiry => Sys2Proof.Machine.execStartAgeExpiry s
  | .appendPointReached locked => Sys2Proof.Machine.execAppendPointReached locked s
  | .slotBoundary pesNm => Sys2Proof.Machine.execSlotBoundary pesNm s
  | .segmentVerdict seq attempt slot lane x => Sys2Proof.Machine.execSegmentVerdict seq attempt slot lane x s
  | .writeDriverFault lane => Sys2Proof.Machine.execWriteDriverFault lane s
  | .transientLeak lane => Sys2Proof.Machine.execTransientLeak lane s
  | .permanentLeak lane => Sys2Proof.Machine.execPermanentLeak lane s
  | .writeCurrentUpdate tempA tempB => Sys2Proof.Machine.execWriteCurrentUpdate tempA tempB s
  | .stopTimeExpiry => Sys2Proof.Machine.execStopTimeExpiry s
  | .speedDownDelayExpiry => Sys2Proof.Machine.execSpeedDownDelayExpiry s
  | .turnComplete => Sys2Proof.Machine.execTurnComplete s
  | .segmentDecode lane x => Sys2Proof.Machine.execSegmentDecode lane x s
  | .coastLimitExpiry lane => Sys2Proof.Machine.execCoastLimitExpiry lane s
  | .decoderBudgetExhausted lane => Sys2Proof.Machine.execDecoderBudgetExhausted lane s
  | .biasFault lane module => Sys2Proof.Machine.execBiasFault lane module s
  | .frontEndStuckRetire lane module => Sys2Proof.Machine.execFrontEndStuckRetire lane module s
  | .recoveryEntry part seq => Sys2Proof.Machine.execRecoveryEntry part seq s
  | .ladderPassDone part seq servoHeld located => Sys2Proof.Machine.execLadderPassDone part seq servoHeld located s
  | .recoveryTimeLimitExpiry part seq => Sys2Proof.Machine.execRecoveryTimeLimitExpiry part seq s
  | .spanReadDone part seq servoHeld => Sys2Proof.Machine.execSpanReadDone part seq servoHeld s
  | .datasetDecoded part seq => Sys2Proof.Machine.execDatasetDecoded part seq s
  | .decompressionJobStart engine => Sys2Proof.Machine.execDecompressionJobStart engine s
  | .decompressionJobDone engine => Sys2Proof.Machine.execDecompressionJobDone engine s
  | .servoFrame ch0 ch1 ch2 ch3 => Sys2Proof.Machine.execServoFrame ch0 ch1 ch2 ch3 s
  | .servoCoastExpiry => Sys2Proof.Machine.execServoCoastExpiry s
  | .servoReacquireTimeout => Sys2Proof.Machine.execServoReacquireTimeout s
  | .bandChangeDone band => Sys2Proof.Machine.execBandChangeDone band s
  | .recallRunSelect => Sys2Proof.Machine.execRecallRunSelect s
  | .recallAgeLimitExpiry part seq => Sys2Proof.Machine.execRecallAgeLimitExpiry part seq s
  | .writePreemptionAgeExpiry => Sys2Proof.Machine.execWritePreemptionAgeExpiry s
  | .recallBatchTimeExpiry => Sys2Proof.Machine.execRecallBatchTimeExpiry s
  | .hintExpiry hint => Sys2Proof.Machine.execHintExpiry hint s
  | .basePeriod x => Sys2Proof.Machine.execBasePeriod x s
  | .overcurrent reel => Sys2Proof.Machine.execOvercurrent reel s
  | .plausibilityFault reel => Sys2Proof.Machine.execPlausibilityFault reel s
  | .tensionLoss residual => Sys2Proof.Machine.execTensionLoss residual s
  | .tachQuadratureFault => Sys2Proof.Machine.execTachQuadratureFault s
  | .observerLost reel => Sys2Proof.Machine.execObserverLost reel s
  | .lockedRotor reel => Sys2Proof.Machine.execLockedRotor reel s
  | .chopperFault => Sys2Proof.Machine.execChopperFault s
  | .decelerationHalving => Sys2Proof.Machine.execDecelerationHalving s
  | .shuntOffsetMeasured reel u v w => Sys2Proof.Machine.execShuntOffsetMeasured reel u v w s
  | .gateDriverFault reel => Sys2Proof.Machine.execGateDriverFault reel s
  | .nightwatchTachMismatch => Sys2Proof.Machine.execNightwatchTachMismatch s
  | .vmotUndervoltage => Sys2Proof.Machine.execVmotUndervoltage s
  | .reelTurnsUnderGrant => Sys2Proof.Machine.execReelTurnsUnderGrant s
  | .reelsAtRest => Sys2Proof.Machine.execReelsAtRest s
  | .holdSlip => Sys2Proof.Machine.execHoldSlip s
  | .nightwatchClear => Sys2Proof.Machine.execNightwatchClear s
  | .autoClear => Sys2Proof.Machine.execAutoClear s
  | .actuatorFault => Sys2Proof.Machine.execActuatorFault s
  | .threaderStall => Sys2Proof.Machine.execThreaderStall s
  | .loaderTimeout => Sys2Proof.Machine.execLoaderTimeout s
  | .gripReqRise => Sys2Proof.Machine.execGripReqRise s
  | .gripReqFall => Sys2Proof.Machine.execGripReqFall s
  | .motionPermitRequest gripSampled => Sys2Proof.Machine.execMotionPermitRequest gripSampled s
  | .gripWaitLimitExpiry => Sys2Proof.Machine.execGripWaitLimitExpiry s
  | .ppsInEdge => Sys2Proof.Machine.execPpsInEdge s
  | .ppsHoldover => Sys2Proof.Machine.execPpsHoldover s
  | .ppsOut => Sys2Proof.Machine.execPpsOut s
  | .meridianStore => Sys2Proof.Machine.execMeridianStore s
  | .setMeridian path ns => Sys2Proof.Machine.execSetMeridian path ns s
  | .timeExchSend => Sys2Proof.Machine.execTimeExchSend s
  | .timeExch h t1 t2 t3 t4 => Sys2Proof.Machine.execTimeExch h t1 t2 t3 t4 s
  | .nmtStart => Sys2Proof.Machine.execNmtStart s
  | .nmtStop => Sys2Proof.Machine.execNmtStop s
  | .nmtEnterPreOperational => Sys2Proof.Machine.execNmtEnterPreOperational s
  | .nmtResetNode pins => Sys2Proof.Machine.execNmtResetNode pins s
  | .nmtResetCommunication pins => Sys2Proof.Machine.execNmtResetCommunication pins s
  | .canHeartbeat tec rcv => Sys2Proof.Machine.execCanHeartbeat tec rcv s
  | .duplicateNodeId => Sys2Proof.Machine.execDuplicateNodeId s
  | .emcySend tec rcv => Sys2Proof.Machine.execEmcySend tec rcv s
  | .syncReceive => Sys2Proof.Machine.execSyncReceive s
  | .syncProduce => Sys2Proof.Machine.execSyncProduce s
  | .timeReceive ms days => Sys2Proof.Machine.execTimeReceive ms days s
  | .timeProduce => Sys2Proof.Machine.execTimeProduce s
  | .tpdoSend n tec rcv => Sys2Proof.Machine.execTpdoSend n tec rcv s
  | .usdoDownload path client index sub bytes last w => Sys2Proof.Machine.execUsdoDownload path client index sub bytes last w s
  | .usdoUpload path client index sub last => Sys2Proof.Machine.execUsdoUpload path client index sub last s
  | .usdoSessionTimeout client => Sys2Proof.Machine.execUsdoSessionTimeout client s
  | .libraryMountReadWrite seq w => Sys2Proof.Machine.execLibraryMountReadWrite seq w s
  | .libraryMountReadOnly seq w => Sys2Proof.Machine.execLibraryMountReadOnly seq w s
  | .libraryUnmount seq w => Sys2Proof.Machine.execLibraryUnmount seq w s
  | .libraryUnmountEject seq w => Sys2Proof.Machine.execLibraryUnmountEject seq w s
  | .rewindAndUnload seq w => Sys2Proof.Machine.execRewindAndUnload seq w s
  | .saveParameters v => Sys2Proof.Machine.execSaveParameters v s
  | .restoreDefaultParameters sub v => Sys2Proof.Machine.execRestoreDefaultParameters sub v s
  | .takeover => Sys2Proof.Machine.execTakeover s
  | .withdrawDivergentPieces path => Sys2Proof.Machine.execWithdrawDivergentPieces path s
  | .linkTraining lane0 lane1 => Sys2Proof.Machine.execLinkTraining lane0 lane1 s
  | .pairFormation peer => Sys2Proof.Machine.execPairFormation peer s
  | .flitError flitSeq => Sys2Proof.Machine.execFlitError flitSeq s
  | .nak replayFrom => Sys2Proof.Machine.execNak replayFrom s
  | .heartbeatSend => Sys2Proof.Machine.execHeartbeatSend s
  | .heartbeat h b => Sys2Proof.Machine.execHeartbeat h b s
  | .recordMirror r => Sys2Proof.Machine.execRecordMirror r s
  | .record h part r => Sys2Proof.Machine.execRecord h part r s
  | .pieceCommit h part stream version piece count => Sys2Proof.Machine.execPieceCommit h part stream version piece count s
  | .pieceFail h part stream version piece => Sys2Proof.Machine.execPieceFail h part stream version piece s
  | .pieceVerified h part stream version piece => Sys2Proof.Machine.execPieceVerified h part stream version piece s
  | .partitionOp h sqe => Sys2Proof.Machine.execPartitionOp h sqe s
  | .opDone h opSeq status => Sys2Proof.Machine.execOpDone h opSeq status s
  | .credit h buffers => Sys2Proof.Machine.execCredit h buffers s
  | .roleStale h role epoch rejected => Sys2Proof.Machine.execRoleStale h role epoch rejected s
  | .imageTransfer epoch chunk last => Sys2Proof.Machine.execImageTransfer epoch chunk last s
  | .peerSuspect => Sys2Proof.Machine.execPeerSuspect s
  | .peerLost => Sys2Proof.Machine.execPeerLost s
  | .pairPresentFall => Sys2Proof.Machine.execPairPresentFall s
  | .pairRstIn => Sys2Proof.Machine.execPairRstIn s
  | .peerRestartTimeout => Sys2Proof.Machine.execPeerRestartTimeout s
  | .lockstepMismatch complex => Sys2Proof.Machine.execLockstepMismatch complex s
  | .watchdogExpiry complex => Sys2Proof.Machine.execWatchdogExpiry complex s
  | .lodestarRestartComplete w => Sys2Proof.Machine.execLodestarRestartComplete w s
  | .restartTimeout => Sys2Proof.Machine.execRestartTimeout s
  | .flashWriteFailed target => Sys2Proof.Machine.execFlashWriteFailed target s
  | .vin12Loss => Sys2Proof.Machine.execVin12Loss s
  | .vin12Valid => Sys2Proof.Machine.execVin12Valid s
  | .resetInNAssert => Sys2Proof.Machine.execResetInNAssert s
  | .resetInNRelease pins => Sys2Proof.Machine.execResetInNRelease pins s
  | .testEnAssert => Sys2Proof.Machine.execTestEnAssert s
  | .startupStageDone w => Sys2Proof.Machine.execStartupStageDone w s
  | .backgroundWriteDone => Sys2Proof.Machine.execBackgroundWriteDone s
  | .logicThermalCap deciC => Sys2Proof.Machine.execLogicThermalCap deciC s
  | .powerStageThermalLimit deciC => Sys2Proof.Machine.execPowerStageThermalLimit deciC s
  | .thermalTrip logicDeciC stageDeciC => Sys2Proof.Machine.execThermalTrip logicDeciC stageDeciC s
  | .mountRecordUpdate part => Sys2Proof.Machine.execMountRecordUpdate part s
  | .imageDownload path bytes => Sys2Proof.Machine.execImageDownload path bytes s
  | .imageVerified source => Sys2Proof.Machine.execImageVerified source s
  | .imageFlashWritten => Sys2Proof.Machine.execImageFlashWritten s
  | .propagateToPeer answer => Sys2Proof.Machine.execPropagateToPeer answer s
  | .cancelStagedImage => Sys2Proof.Machine.execCancelStagedImage s
  | .activationTime path ns => Sys2Proof.Machine.execActivationTime path ns s
  | .activationArmedInstant => Sys2Proof.Machine.execActivationArmedInstant s
  | .quiescentPoint => Sys2Proof.Machine.execQuiescentPoint s
  | .graceWindowExpiry => Sys2Proof.Machine.execGraceWindowExpiry s
  | .challenge => Sys2Proof.Machine.execChallenge s
  | .response path seconds sig => Sys2Proof.Machine.execResponse path seconds sig s
  | .servicePassword path chars => Sys2Proof.Machine.execServicePassword path chars s
  | .setServicePassword path chars => Sys2Proof.Machine.execSetServicePassword path chars s
  | .lock path => Sys2Proof.Machine.execLock path s
  | .lockoutExpiry => Sys2Proof.Machine.execLockoutExpiry s
  | .sessionExpiry => Sys2Proof.Machine.execSessionExpiry s
  | .vbusFall => Sys2Proof.Machine.execVbusFall s
  | .kekImport path n blob => Sys2Proof.Machine.execKekImport path n blob s
  | .kekRemove path n => Sys2Proof.Machine.execKekRemove path n s
  | .clearRetiredLanes path mask => Sys2Proof.Machine.execClearRetiredLanes path mask s
  | .clearRetiredFrontEnds path module mask => Sys2Proof.Machine.execClearRetiredFrontEnds path module mask s
  | .clearRetiredServoChannels path mask => Sys2Proof.Machine.execClearRetiredServoChannels path mask s
  | .snsChange sns => Sys2Proof.Machine.execSnsChange sns s
  | .registerReadClear fn offset => Sys2Proof.Machine.execRegisterReadClear fn offset s
  | .idleFlit ack => Sys2Proof.Machine.execIdleFlit ack s
  | .busOffRecovery => Sys2Proof.Machine.execBusOffRecovery s
  | .thermalTripEnd logicDeciC stageDeciC => Sys2Proof.Machine.execThermalTripEnd logicDeciC stageDeciC s

end Sys2Proof.Machine
end

