-- ==== Sys2Proof/Machine/Tick.lean ====
section
/-! DEFINITION. A control-clock cycle (R465): what passes when no command waits. -/

namespace Sys2Proof.Machine

/-- One cycle of the 216 MHz control clock: the clock of time limits advances, MT adds its increment to the
96-bit accumulator while Meridian runs, and Nightwatch samples GRIP_REQ (R465, R468, R486). -/
def tick (s : State) : State :=
  sampleGrip { s with
    now := s.now + 1, mt.acc := if s.mt.running then s.mt.acc + s.mt.inc.setWidth 96 else s.mt.acc }

end Sys2Proof.Machine
end

