-- ==== Sys2Proof/Safety.lean ====
section
/-! DEFINITION. What counts as a safe run: staging memory in its canonical form, no stop, and commands taken first in,
first out. -/

namespace Sys2Proof

open Machine

/-- Staging memory lists its bytes once each, in rising order, inside the 30 GiB of R138. -/
def stagingCanonical (s : State) : Bool := Memory.wf s.bpm.mem

/-- A step goes on: neither a fault nor a refusal. -/
def goesOn (s : State) : Prop := ∃ t, step s = .next t

/-- A run of k steps goes on. -/
def runGoesOn (k : Nat) (s : State) : Prop := ∃ t, core.run k s = .next t

/-- A command leaves the queue of waiting commands alone: only step takes from it. -/
def leavesQueue (c : Instr) (s : State) : Prop := ∀ t, exec c s = .next t → t.pending = s.pending

end Sys2Proof
end

