-- ==== Sys2Proof/WellFormed.lean ====
section
/-! DEFINITION. Which commands are well formed: every number an operand gives lies in the range the spec gives it. A command that is
not well formed names no function, queue, lane, pool or entry of the device; the model still steps it (its meaning then finds
nothing there), and no statement rests on that. -/

namespace Sys2Proof

/-- Functions are PF0 and VF1 to VF255 (R51). -/
def okFn (fn : Nat) : Bool := decide (fn < 256)

/-- Global queues (R54). -/
def okQueue (q : Nat) : Bool := decide (q < 32768)

/-- A queue as a function numbers it: global for PF0, local for a VF (R55). -/
def okBell (fn q : Nat) : Bool := okFn fn && decide (q < if fn = 0 then 32768 else 4096)

/-- A queue entry as read: its queue exists, and its data fits a transfer (R21). -/
def okSub (u : Sub) : Bool := okQueue u.q && decide (u.data.length ≤ 2 ^ 32)

/-- An offset in BAR0: 32 MiB for PF0, 256 KiB for a VF (R554, R555). -/
def okOffset (fn off : Nat) : Bool := okFn fn && decide (off < if fn = 0 then 2 ^ 25 else 2 ^ 18)

/-- Partitions (R14). -/
def okPart (p : Nat) : Bool := decide (p < 16)

/-- Lanes (R236). -/
def okLane (l : Nat) : Bool := decide (l < 64)

/-- Head modules A and B. -/
def okModule (m : Nat) : Bool := decide (m < 2)

/-- Pools and unit classes (R145, R150). -/
def okPool (p : Nat) : Bool := decide (p < 16)
def okClass (c : Nat) : Bool := decide (c < 16)

/-- CAN error counters (Table 16.11). -/
def okCounts (tec rcv : Nat) : Bool := decide (tec < 256) && decide (rcv < 256)

/-- Roles of Table 15.1. -/
def okHead (h : MsgHead) : Bool := decide (h.role < 3)

/-- Object dictionary entries. -/
def okEntry (idx sub : Nat) : Bool := decide (idx < 65536) && decide (sub < 256)

/-- Codes of an 8-bit ADC, two's complement (R302). -/
def okCodes (xs : List Int) : Bool := xs.all fun x => decide (-128 ≤ x ∧ x ≤ 127)

/-- A command is well formed. -/
def Instr.wf : Instr → Bool
  | .identify c => okSub c
  | .createQueue c => okSub c
  | .deleteQueue c => okSub c
  | .deleteQueueComplete q => okQueue q
  | .getLog c => okSub c
  | .setPower c => okSub c
  | .assignQueues c => okSub c
  | .setWindows c => okSub c
  | .partitionCreate c => okSub c
  | .partitionDelete c => okSub c
  | .partitionList c => okSub c
  | .mount c _ => okSub c
  | .unmount c _ => okSub c
  | .checkpoint c => okSub c
  | .keyLoad c => okSub c
  | .keyClear c => okSub c
  | .keyClearComplete slot => decide (slot < 4096)
  | .odRead c => okSub c
  | .odWrite c => okSub c
  | .eventWait c => okSub c
  | .write c => okSub c
  | .read c => okSub c
  | .verify c => okSub c
  | .barrier c => okSub c
  | .barrierComplete q => okQueue q
  | .streamStat c => okSub c
  | .recallHint c => okSub c
  | .sqeFetch q us => okQueue q && decide (us.length ≤ 4) && us.all okSub
  | .cqTimeLimitExpiry q => okQueue q
  | .sqTail fn q _ => okBell fn q
  | .cqHead fn q _ => okBell fn q
  | .resume fn q => okBell fn q
  | .queueReset fn q => okBell fn q
  | .resetMarkerPost q => okQueue q
  | .adminQueueEnable fn _ => okFn fn
  | .adminQueueDisable fn _ => okFn fn
  | .functionDrainEnd fn => okFn fn
  | .mirTimeloRead fn => okFn fn
  | .accessError fn off _ => okOffset fn off.toNat
  | .registerWrite fn off _ => okOffset fn off
  | .registerReadClear fn off => okOffset fn off
  | .vfEnableSet n => decide (n < 256)
  | .numvfsReduce n => decide (n < 256)
  | .flrVf fn => okFn fn && decide (fn ≠ 0)
  | .d3hotEntry fn => okFn fn
  | .d3hotExit fn => okFn fn
  | .bufferAllocate p c _ => okPool p && okClass c
  | .bufferAcquire _ c => okClass c
  | .bufferRelease _ c => okClass c
  | .parkedRequestServed p => okPool p
  | .bufferWaitLimitExpiry p _ => okPool p
  | .recordCut p => okPart p
  | .compressorJobStart e => decide (e < 8)
  | .compressorJobDone e _ => decide (e < 8)
  | .tagJobDone ctx _ _ => decide (ctx < 16)
  | .sealDelayExpiry p => okPart p
  | .datasetSeal p => okPart p
  | .checkpointInterval p => okPart p
  | .checkpointTimeExpiry p => okPart p
  | .segmentVerdict _ _ slot lane codes => decide (slot < 38) && okLane lane && okCodes codes
  | .writeDriverFault l => okLane l
  | .transientLeak l => okLane l
  | .permanentLeak l => okLane l
  | .segmentDecode l x => okLane l && okCodes x.lead.codes && okCodes x.trail.codes
  | .coastLimitExpiry l => okLane l
  | .decoderBudgetExhausted x => okLane x.lane && okCodes x.slot.lead.codes && okCodes x.slot.trail.codes
  | .biasFault l m => okLane l && okModule m
  | .frontEndStuckRetire l m => okLane l && okModule m
  | .recoveryEntry p _ => okPart p
  | .ladderPassDone p _ _ _ => okPart p
  | .recoveryTimeLimitExpiry p _ => okPart p
  | .spanReadDone p _ _ => okPart p
  | .datasetDecoded p _ => okPart p
  | .decompressionJobStart e => decide (8 ≤ e ∧ e < 16)
  | .decompressionJobDone e => decide (8 ≤ e ∧ e < 16)
  | .bandChangeDone b => decide (b < 4)
  | .recallAgeLimitExpiry p _ => okPart p
  | .timeReceive ms days => decide (ms < 86400000) && decide (days < 65536)
  | .canHeartbeat t r => okCounts t r
  | .emcySend t r => okCounts t r
  | .tpdoSend n t r => decide (1 ≤ n ∧ n ≤ 4) && okCounts t r
  | .usdoDownload _ c i s _ _ _ => decide (c < 128) && okEntry i s
  | .usdoUpload _ c i s _ => decide (c < 128) && okEntry i s
  | .usdoSessionTimeout c => decide (c < 128)
  | .libraryMountReadWrite n _ => decide (n < 65536)
  | .libraryMountReadOnly n _ => decide (n < 65536)
  | .libraryUnmount n _ => decide (n < 65536)
  | .libraryUnmountEject n _ => decide (n < 65536)
  | .rewindAndUnload n _ => decide (n < 65536)
  | .restoreDefaultParameters sub _ => decide (1 ≤ sub ∧ sub ≤ 3)
  | .timeExch h _ _ _ _ => okHead h
  | .heartbeat h _ => okHead h
  | .record h p _ => okHead h && okPart p
  | .pieceCommit h p _ _ _ _ => okHead h && okPart p
  | .pieceFail h p _ _ _ => okHead h && okPart p
  | .pieceVerified h p _ _ _ => okHead h && okPart p
  | .partitionOp h _ => okHead h
  | .opDone h _ _ => okHead h
  | .credit h _ => okHead h
  | .roleStale h r _ _ => okHead h && decide (r < 3)
  | .nak r => decide (r < 4096)
  | .flitError f => decide (f < 4096)
  | .idleFlit a => decide (a < 4096)
  | .lockstepMismatch c => decide (c < 2)
  | .watchdogExpiry c => decide (c < 2)
  | .flashWriteFailed t => decide (t < 3)
  | .mountRecordUpdate p => okPart p
  | .imageVerified src => decide (src = 1 ∨ src = 2)
  | .kekImport _ n _ => decide (n < 16)
  | .kekRemove _ n => decide (n < 16)
  | .clearRetiredFrontEnds _ m _ => okModule m
  | .powerStateEntry => true
  | .powerEntryLimitExpiry => true
  | .rangeLockWaitEnd _ => true
  | .mailboxGo _ _ => true
  | .glbIcfgWrite _ => true
  | .chopperFaultClear => true
  | .tgCtrloRead => true
  | .mtTimeloRead => true
  | .vfEnableClear => true
  | .flrPf0 => true
  | .perstAssert => true
  | .perstRelease => true
  | .d3coldEntry => true
  | .scrub x => x.flips.all (fun b => decide (b < 523)) && x.second.all (fun b => decide (b < 523)) && decide (x.moved < 2 ^ 29)
  | .writeDataArrival _ _ => true
  | .tagJobStart _ => true
  | .nonceReservation => true
  | .nonceLimitRaise => true
  | .recordPlace _ => true
  | .writerStart => true
  | .startAgeExpiry => true
  | .appendPointReached _ => true
  | .slotBoundary _ => true
  | .writeCurrentUpdate _ _ => true
  | .stopTimeExpiry => true
  | .speedDownDelayExpiry => true
  | .turnComplete => true
  | .servoFrame _ _ _ _ => true
  | .servoCoastExpiry => true
  | .servoReacquireTimeout => true
  | .recallRunSelect => true
  | .writePreemptionAgeExpiry => true
  | .recallBatchTimeExpiry => true
  | .hintExpiry _ => true
  | .basePeriod _ => true
  | .overcurrent _ => true
  | .plausibilityFault _ => true
  | .tensionLoss _ => true
  | .tachQuadratureFault => true
  | .observerLost _ => true
  | .lockedRotor _ => true
  | .chopperFault => true
  | .decelerationHalving => true
  | .shuntOffsetMeasured _ _ _ _ => true
  | .gateDriverFault _ => true
  | .nightwatchTachMismatch => true
  | .vmotUndervoltage => true
  | .reelTurnsUnderGrant => true
  | .reelsAtRest => true
  | .holdSlip => true
  | .nightwatchClear => true
  | .autoClear => true
  | .actuatorFault => true
  | .threaderStall => true
  | .loaderTimeout => true
  | .gripReqRise => true
  | .gripReqFall => true
  | .motionPermitRequest _ => true
  | .gripWaitLimitExpiry => true
  | .ppsInEdge => true
  | .ppsHoldover => true
  | .ppsOut => true
  | .meridianStore => true
  | .setMeridian _ _ => true
  | .timeExchSend => true
  | .nmtStart => true
  | .nmtStop => true
  | .nmtEnterPreOperational => true
  | .nmtResetNode _ => true
  | .nmtResetCommunication _ => true
  | .duplicateNodeId => true
  | .syncReceive => true
  | .syncProduce => true
  | .timeProduce => true
  | .saveParameters _ => true
  | .takeover => true
  | .withdrawDivergentPieces _ => true
  | .linkTraining _ _ => true
  | .pairFormation p => decide (p.pref < 3)
  | .heartbeatSend => true
  | .recordMirror _ => true
  | .imageTransfer _ _ _ => true
  | .peerSuspect => true
  | .peerLost => true
  | .pairPresentFall => true
  | .pairRstIn => true
  | .peerRestartTimeout => true
  | .lodestarRestartComplete _ => true
  | .restartTimeout => true
  | .vin12Loss => true
  | .vin12Valid => true
  | .resetInNAssert => true
  | .resetInNRelease _ => true
  | .testEnAssert => true
  | .startupStageDone _ => true
  | .backgroundWriteDone => true
  | .logicThermalCap _ => true
  | .powerStageThermalLimit _ => true
  | .thermalTrip _ _ => true
  | .imageDownload _ _ => true
  | .imageFlashWritten => true
  | .propagateToPeer _ => true
  | .cancelStagedImage => true
  | .activationTime _ _ => true
  | .activationArmedInstant => true
  | .quiescentPoint => true
  | .graceWindowExpiry => true
  | .challenge => true
  | .response _ _ _ => true
  | .servicePassword _ _ => true
  | .setServicePassword _ _ => true
  | .lock _ => true
  | .lockoutExpiry => true
  | .sessionExpiry => true
  | .vbusFall => true
  | .clearRetiredLanes _ _ => true
  | .clearRetiredServoChannels _ _ => true
  | .snsChange _ => true
  | .busOffRecovery => true
  | .thermalTripEnd _ _ => true

end Sys2Proof
end

