-- ==== Sys2Proof/Certificates/Slice0/Obligations.lean ====
section
/-! DEFINITION. The statements about the device, for the provers. "Admitted" is `admitOne s u = .run s₁ c`: the entry u becomes
the command c in flight in s₁ (its spec is `AdmissionRuns`); `finish` posts the completion (its spec is `CompletionsPosted`). -/

open Sys2Proof Sys2Proof.Machine

/-! ## The machine as a whole -/

/-- A step is the command at the front of the queue, run with the queue's rest. -/
def Obligations.StepRunsFront : Prop :=
  ∀ (c : Instr) (r : List Instr) (s : State), step { s with pending := c :: r } = exec c { s with pending := r }

/-- No command stops the device: each has a next state, in every state and with every operand. -/
def Obligations.EveryCommandGoesOn : Prop := ∀ (c : Instr) (s : State), ∃ t, exec c s = .next t

/-- Staging memory stays canonical: rising addresses, inside the 30 GiB of R138. -/
def Obligations.StagingCanonicalKept : Prop :=  ∀ s t : State, stagingCanonical s = true → step s = .next t → stagingCanonical t = true

/-- The frame of every command: it touches neither the waiting commands nor the model's time, outputs are only added, and staging
memory changes with the arrival of host data and with a reset of the module alone. -/
def Obligations.CommandFrame : Prop :=
  ∀ (c : Instr) (s t : State), exec c s = .next t →
    t.pending = s.pending ∧ t.now = s.now ∧ (∃ l, t.out = l ++ s.out) ∧
    ((∀ id bs, c ≠ .writeDataArrival id bs) → (∀ a b, c ≠ .thermalTrip a b) →
      c ∉ [Instr.resetInNAssert, .vin12Loss, .d3coldEntry, .testEnAssert] → t.bpm.mem = s.bpm.mem)

/-- What reset leaves, as far as the spec states it: windows (R39), no function enabled, FAULT_OUT_N low and TAPE_SAFE low until
start-up has ended, power ACTIVE, nothing mounted, no command in flight, staging canonical. -/
def Obligations.ResetState : Prop :=
  (fnOf State.reset 0).pmask = 0xFFFF ∧ (fnOf State.reset 0).prefix_ = 0 ∧ (fnOf State.reset 0).mask = 0 ∧
    (fnOf State.reset 0).kbase = 0 ∧ (fnOf State.reset 0).kcount = 4096 ∧
    (∀ n, n ≠ 0 → (fnOf State.reset n).pmask = 0 ∧ (fnOf State.reset n).kcount = 0) ∧
    (∀ n, (fnOf State.reset n).state = 0) ∧ State.reset.glb.power = 0 ∧ State.reset.media.mount = 0 ∧
    inFlight State.reset = 0 ∧ faultOut State.reset = true ∧ tapeSafe State.reset = false ∧
    stagingCanonical State.reset = true ∧ State.reset.pending = []

/-! ## Completion queue entries, admission and queues -/

/-- A command of an existing queue completes: one CQE with its status at the tail of its CQ, PHASE and SQHEAD those of the posting,
FROZEN set with any status that is not of class 0, the SQ then frozen; the command is no longer in flight. The CQE
lies at its place in the ring, in the 32 bytes of Table 2.12 (R6, R65). A completion touches the queue engine and the outputs
alone. -/
def Obligations.CompletionsPosted : Prop :=
  (∀ (s : State) (c : Cmd) (r : Res) (q : Queue), queueOf s c.q = some q → (fnOf s q.fn).d3hot = false →
     ∃ e : Cqe, Emit.cqe q.fn q.g q.cqTail e (q.cqBase + 32 * q.cqTail) (cqeBytes e) ∈ (finish s c r).out ∧ e.status = r.status ∧ e.info = r.info ∧
       e.phase = q.phase ∧ e.sqHead = q.head ∧ e.frozen = (q.frozen || decide (r.status / 256 ≠ 0)) ∧
       e.sqid = sqidOf s q ∧ e.cid = BitVec.ofNat 16 (cid c.sqe) ∧
       ((queueOf (finish s c r) c.q).map fun x => (x.frozen, x.cqTail, x.phase)) =
         some (q.frozen || decide (r.status / 256 ≠ 0), if q.cqTail + 1 ≥ q.cqDepth then 0 else q.cqTail + 1,
           if q.cqTail + 1 ≥ q.cqDepth then !q.phase else q.phase) ∧
       cmdOf (finish s c r) c.id = none ∧ (cqeBytes e).length = 32 ∧
       unle (slice (cqeBytes e) 0 2) = cid c.sqe ∧ unle (slice (cqeBytes e) 8 2) = r.status % 65536) ∧
  (∀ (s : State) (c : Cmd) (r : Res), finish s c r = { s with qe := (finish s c r).qe, out := (finish s c r).out } ∧
     (∀ n, (fnOf (finish s c r) n).pmask = (fnOf s n).pmask ∧ (fnOf (finish s c r) n).state = (fnOf s n).state ∧
       (n ≠ c.fn → (∀ q, queueOf s c.q = some q → q.fn ≠ n) → fnOf (finish s c r) n = fnOf s n)) ∧
     (∀ g, g ≠ c.q → queueOf (finish s c r) g = queueOf s g) ∧ (finish s c r).qe.assigns = s.qe.assigns)

/-- R66: a queue, admin or created, begins with PHASE 1 at index 0; every CQE carries the phase of the pass in progress, and the
phase inverts where the tail wraps. -/
def Obligations.PhaseBit : Prop :=
  (∀ (f : FnState) (fn : Nat), (adminQueue f fn).phase = true ∧ (adminQueue f fn).cqTail = 0) ∧
  (∀ (s s₁ : State) (u : Sub) (c : Cmd) (g : Nat), admitOne s u = .run s₁ c → opcode u.sqe = 0x02 →
    namedQueue s₁ c = some g → createBad s₁ c.sqe c.fn g = none →
    ∃ t x, exec (.createQueue u) s = .next t ∧ queueOf t g = some x ∧ x.phase = true ∧ x.cqTail = 0) ∧
  (∀ (s : State) (g : Nat) (q : Queue) (mk : Queue → Cqe) (b : Bool), queueOf s g = some q → (mk q).phase = q.phase →
    (fnOf s q.fn).d3hot = false →
    ∃ e : Cqe, Emit.cqe q.fn g q.cqTail e (cqeAddr q q.cqTail) (cqeBytes e) ∈ (postCqe s g mk b).out ∧ e.phase = q.phase ∧
      ((queueOf (postCqe s g mk b) g).map fun x => (x.cqTail, x.phase)) =
        some (if q.cqTail + 1 ≥ q.cqDepth then (0, !q.phase) else (q.cqTail + 1, q.phase)))

/-- An entry is admitted when its queue takes entries and it passes its checks, an admin entry other than EVENT_WAIT when no other
admin command of the queue runs and nothing is held; the command is then the newest one in flight. In Twilight every entry that is taken ends with TWILIGHT
(R504). -/
def Obligations.AdmissionRuns : Prop :=
  (∀ (s : State) (u : Sub) (q : Queue) (ds : List DescBits),
     queueOf s u.q = some q → mayAdmit s q = true → (∀ d ∈ s.qe.cmds, d.id ≠ s.qe.nextId) →
     (isAdminOp (opcode u.sqe) = true → opcode u.sqe ≠ 0x3F → adminBusy s q.g = false ∧ s.fw.holdAt = none) →
     entryCheck { s with qe.nextId := s.qe.nextId + 1, qe.cmds := s.qe.cmds ++ [newCmd s q u] } q u = .ok ds →
     admitOne s u = .run { s with qe.nextId := s.qe.nextId + 1, qe.cmds := s.qe.cmds ++ [{ newCmd s q u with descs := ds }] }
       { newCmd s q u with descs := ds }) ∧
  (∀ (s : State) (u : Sub) (q : Queue), queueOf s u.q = some q → mayAdmit s q = true →
     s.glb.twilight.isSome = true → adminBusy s q.g = false → s.fw.holdAt = none →
     ∃ t, admitOne s u = .over t ∧
       ((fnOf s q.fn).d3hot = false →
         ∃ e : Cqe, Emit.cqe q.fn q.g q.cqTail e (cqeAddr q q.cqTail) (cqeBytes e) ∈ t.out ∧ e.status = stTwilight ∧ e.frozen = true))

/-- R74: an entry whose opcode does not belong to its queue, or to no command, ends with INVALID_OPCODE; a CREATE_QUEUE of class
Strict with 256 Strict queues there ends with INVALID_FIELD. -/
def Obligations.WrongOpcodes : Prop :=
  (∀ (s : State) (u : Sub) (q : Queue), queueOf s u.q = some q → mayAdmit s q = true → s.glb.twilight = none →
    (isAdminOp (opcode u.sqe) = true → opcode u.sqe ≠ 0x3F → adminBusy s q.g = false ∧ s.fw.holdAt = none) →
    (if q.cls = 2 then isAdminOp (opcode u.sqe) = false else isIoOp (opcode u.sqe) = false) →
    let v := if listReadFailed u.sqe u.list = true then emit s (.aerReport q.fn) else s
    admitOne s u = .over (finish { v with qe.nextId := s.qe.nextId + 1, qe.cmds := s.qe.cmds ++ [newCmd s q u] }
      (newCmd s q u) { status := stInvalidOpcode })) ∧
  (∀ (s s₁ : State) (u : Sub) (c : Cmd), admitOne s u = .run s₁ c → opcode u.sqe = 0x02 → sqeBytes c.sqe 30 1 = 1 →
    256 ≤ (s₁.qe.queues.countP fun q => q.cls == 1) →
    ∃ d, exec (.createQueue u) s = .next (finish s₁ c { status := stInvalidField, d1 := d }))

/-- SQ_TAIL, CQ_HEAD and QCTL.RESUME of a queue the function owns while it is ENABLED (R59, R68, R82): the tail moves, the entries
before the head are released, a freeze ends. Interrupts by time: the oldest CQE not signalled has waited for the CQ's time limit in
units of 100 us; a vector that is masked becomes pending instead (R96). -/
def Obligations.Doorbells : Prop :=
  (∀ (s : State) (fn q : Nat) (v : Word) (x : Queue), bellQueue s fn q = some x →
     (v.toNat % 16384 < x.sqDepth → x.resetBusy = false →
       exec (.sqTail fn q v) s = .next (setQueue s { x with tail := v.toNat % 16384 })) ∧
     (v.toNat % 16384 < x.cqDepth → ringDist x.cqDepth x.cqHead (v.toNat % 16384) ≤ x.posted →
       exec (.cqHead fn q v) s = .next (setQueue s { x with
         cqHead := v.toNat % 16384, posted := x.posted - ringDist x.cqDepth x.cqHead (v.toNat % 16384) })) ∧
     (x.frozen = true → exec (.resume fn q) s = .next (setQueue s { x with frozen := false }))) ∧
  (∀ (s : State) (g : Nat) (x : Queue), queueOf s g = some x → x.unsignalled ≠ 0 → s.now ≥ x.oldest + 21600 * x.cqTime →
     (fnOf s x.fn).state = 1 →
     (vectorMasked (fnOf s x.fn) x.vector = false → (fnOf s x.fn).d3hot = false →
       exec (.cqTimeLimitExpiry g) s =
         .next { setQueue s { x with unsignalled := 0 } with out := Emit.msix x.fn x.vector :: s.out }) ∧
     (vectorMasked (fnOf s x.fn) x.vector = true →
       ∃ t, exec (.cqTimeLimitExpiry g) s = .next t ∧ t.out = s.out ∧ x.vector ∈ (fnOf t x.fn).pendingVecs ∧
         t = { s with qe.queues := t.qe.queues, qe.fns := t.qe.fns }))

/-- R60: a doorbell write is dropped, and counted for the function that wrote it, when the number names no created queue of the
function, the function is not ENABLED, the value is not below the depth, a HEAD would release CQEs not posted, or an SQ_TAIL
comes while RESET_BUSY is set; nothing else changes. QCTL.RESET of PF0 over a queue of a VF is the case of R61. -/
def Obligations.DoorbellDropped : Prop :=
  ∀ (s : State) (fn q : Nat) (v : Word),
    let t := setFn s fn { fnOf s fn with drops := min (2 ^ 32 - 1) ((fnOf s fn).drops + 1) }
    (((fnOf s fn).state ≠ 1 ∨ ∀ x, (globalOf s fn q).bind (queueOf s) = some x → x.fn ≠ fn) →
      exec (.sqTail fn q v) s = .next t ∧ exec (.cqHead fn q v) s = .next t ∧ exec (.resume fn q) s = .next t ∧
      ((fn ≠ 0 ∨ (fnOf s fn).state ≠ 1 ∨ (globalOf s fn q).bind (queueOf s) = none) → exec (.queueReset fn q) s = .next t)) ∧
    (∀ x, bellQueue s fn q = some x →
      (x.sqDepth ≤ v.toNat % 16384 → exec (.sqTail fn q v) s = .next t) ∧
      (x.resetBusy = true → exec (.sqTail fn q v) s = .next t) ∧
      (x.cqDepth ≤ v.toNat % 16384 → exec (.cqHead fn q v) s = .next t) ∧
      (x.posted < ringDist x.cqDepth x.cqHead (v.toNat % 16384) → exec (.cqHead fn q v) s = .next t))

/-- QCTL.RESET: the SQ is emptied, the epoch rises by one, BUSY is set and the queue's commands are dropped; with no command in
flight that is all (R83). The reset marker: when the queue's commands and the buffers of those dropped are gone, and its CQ has
room, a CQE with CID 0xFFFF, status QUEUE_RESET and the new epoch is posted, the SQ is FROZEN, RESET_DONE is set and BUSY
cleared, and the error log grows by one entry (R83, R88). -/
def Obligations.QueueResets : Prop :=
  (∀ (s : State) (fn q : Nat) (x : Queue), resetQueue s fn q = some x → x.resetBusy = false →
     (emptied x).resetBusy = true ∧ (emptied x).head = x.tail ∧ (emptied x).epoch = x.epoch + 1 ∧
       exec (.queueReset fn q) s = .next (dropQueue (setQueue s (emptied x)) x.g) ∧
       (cmdsOf s x.g = [] → exec (.queueReset fn q) s = .next (setQueue s (emptied x)))) ∧
  (∀ (s : State) (x : Queue) (g : Nat), queueOf s g = some x → x.resetBusy = true →
     (∀ c ∈ s.qe.cmds, c.q = g → c.dropped = true ∧ bufsOut s c = false) → (fnOf s x.fn).state ≠ 2 → x.posted < x.cqDepth →
     (fnOf s x.fn).d3hot = false →
     ∃ t e, exec (.resetMarkerPost g) s = .next t ∧ Emit.cqe x.fn g x.cqTail e (cqeAddr x x.cqTail) (cqeBytes e) ∈ t.out ∧
       e.cid = 0xFFFF ∧ e.status = stQueueReset ∧ e.epoch = x.epoch ∧ e.frozen = true ∧
       ((queueOf t g).map fun y => (y.frozen, y.resetDone, y.resetBusy)) = some (true, true, false) ∧
       (fnOf t x.fn).errSeq = (fnOf s x.fn).errSeq + 1 ∧ t = { s with qe := t.qe, out := t.out })

/-! ## Functions -/

/-- The admin queue of a function: ENABLE with settings that pass makes the function ENABLED with its queue, epoch 0 and class
Admin, and READY reads 1 (R563). ENABLE cleared: the function drains, with READY left as it is and each of its queues emptied as by
a reset; with no command in flight that is all. The drain's end, once no buffer of a dropped command is held, makes it
DISABLED, READY 0 and deletes its queues (R87, R89, R563). -/
def Obligations.AdminQueues : Prop :=
  (∀ (s : State) (fn : Nat) (v : Word),
     let f := { fnOf s fn with
       aCqCount := v.extractLsb' 8 8, aCqTime := v.extractLsb' 16 8, aVector := v.extractLsb' 24 8 }
     (fnOf s fn).aEnable = false → (fnOf s fn).aReady = false → (fnOf s fn).state = 0 → adminOk (setFn s fn f) fn = true →
     ∃ t, exec (.adminQueueEnable fn v) s = .next t ∧
       fnOf t fn = { f with aEnable := true, aReady := true, aErr := false, state := 1 } ∧
       queueOf t fn = some (adminQueue f fn) ∧ (∀ n, n ≠ fn → fnOf t n = fnOf s n) ∧
       (∀ g, g ≠ fn → queueOf t g = queueOf s g) ∧ t = { s with qe.fns := t.qe.fns, qe.queues := t.qe.queues }) ∧
  ((∀ (s : State) (fn : Nat) (v : Word), (fnOf s fn).aEnable = true → (fnOf s fn).state = 1 →
     (∀ c ∈ s.qe.cmds, c.fn = fn → c.dropped = true) →
     ∃ t, exec (.adminQueueDisable fn v) s = .next t ∧ fnOf t fn = { fnOf s fn with state := 2, aEnable := false } ∧
       t = { s with qe := t.qe } ∧ t.qe.cmds = s.qe.cmds ∧ (∀ n, n ≠ fn → fnOf t n = fnOf s n) ∧
       ∀ g x, queueOf s g = some x → queueOf t g = some (if x.fn = fn ∧ x.resetBusy = false then emptied x else x)) ∧
   (∀ (s : State) (fn : Nat), (fnOf s fn).state = 2 →
     (∀ c ∈ s.qe.cmds, c.fn = fn → c.dropped = true ∧ bufsOut s c = false) →
     ∃ t, exec (.functionDrainEnd fn) s = .next t ∧ fnOf t fn = { fnOf s fn with state := 0, aReady := false } ∧
       t.qe.queues = s.qe.queues.filter (fun q => q.fn != fn) ∧ t = { s with qe.fns := t.qe.fns, qe.queues := t.qe.queues } ∧
       ∀ n, n ≠ fn → fnOf t n = fnOf s n))

/-- VF Enable, NumVFs and FLR, requests of configuration space that are served from stage 5 on while PERST# is released, and put off
before that (R52, R57, R87, R518, R559): what becomes of the numbers, the windows and the queue assignments. PERST#: its release
reads the subsystem IDs, at stage 4 at the latest (R5). -/
def Obligations.FunctionResets : Prop :=
  (∀ s : State, 5 ≤ s.glb.stage → s.glb.perstReleased = true →
    (∀ n, s.glb.vfEnable = false →
      exec (.vfEnableSet n) s = .next { s with glb.vfEnable := true, glb.numVfs := min 255 n }) ∧
    (∃ t, exec .vfEnableClear s = .next t ∧ t.glb.vfEnable = false ∧ (∀ a ∈ t.qe.assigns, a.fn = 0)) ∧
    (∀ n, n < s.glb.numVfs → ∃ t, exec (.numvfsReduce n) s = .next t ∧ t.glb.numVfs = n ∧ ∀ a ∈ t.qe.assigns, a.fn ≤ n) ∧
    (∀ fn, fn ≠ 0 → covered s fn = true →
      ∃ t, exec (.flrVf fn) s = .next t ∧ (fnOf t fn).aEnable = false ∧ (fnOf t fn).asq = 0 ∧ (fnOf t fn).accCount = 0 ∧
        (fnOf t fn).aCqCount = 1 ∧ (fnOf t fn).d3hot = false) ∧
    (∃ t, exec .flrPf0 s = .next t ∧ t.qe.assigns = [] ∧ t.tg.keys = [] ∧ t.glb.istat = 0 ∧
      t.glb.icfgEnable = 0 ∧ (fnOf t 0).pmask = 0xFFFF ∧ (fnOf t 0).errLog = [] ∧ t.glb.rstCause.getLsbD 4 = true)) ∧
  (∀ s : State, (s.glb.stage < 5 ∨ s.glb.perstReleased = false) → (∀ fn x, configRead s fn x = .retry) ∧
    ∀ n, exec (.vfEnableSet n) s = .next s ∧ exec .vfEnableClear s = .next s ∧ exec (.numvfsReduce n) s = .next s ∧
      exec (.flrVf n) s = .next s ∧ exec .flrPf0 s = .next s ∧ exec (.d3hotEntry n) s = .next s ∧
      exec (.d3hotExit n) s = .next s) ∧
  (∀ s : State, ∃ t, exec .perstAssert s = .next t ∧ t.qe.assigns = [] ∧ t.tg.keys = [] ∧ t.glb.istat = 0 ∧
    t.glb.perstReleased = false ∧ t.glb.rstCause.getLsbD 3 = true) ∧
  (∀ s : State, s.glb.perstReleased = false →
    (4 ≤ s.glb.stage → exec .perstRelease s = .next { s with
      glb.perstReleased := true, glb.subDue := false, glb.subVendor := setN s 0x2010 1, glb.subDevice := setN s 0x2010 2 }) ∧
    (s.glb.stage < 4 → exec .perstRelease s = .next { s with glb.perstReleased := true, glb.subDue := true }))

/-- R94: in D3hot none of the function's queues is fetched and no data of its WRITEs is read, a command of the function still completes,
its CQE and message are held and nothing goes out; the return to D0 sends what was held, in order; D3cold is handled as loss of
power. -/
def Obligations.D3hotHolds : Prop :=
  (∀ (s : State) (fn : Nat) (e : Emit), 5 ≤ s.glb.stage → s.glb.perstReleased = true → covered s fn = true →
    ∃ t, exec (.d3hotEntry fn) s = .next t ∧
      fnOf t fn = { fnOf s fn with d3hot := true } ∧ t = { s with qe.fns := t.qe.fns } ∧
      emitFn t fn e = { t with qe.held := t.qe.held ++ [(fn, none, e)] } ∧ ∀ q : Queue, q.fn = fn → mayAdmit t q = false) ∧
  (∀ (s : State) (c : Cmd) (r : Res) (q : Queue), queueOf s c.q = some q → (fnOf s q.fn).d3hot = true →
    (finish s c r).out = s.out ∧ cmdOf (finish s c r) c.id = none ∧
      ∃ e : Cqe, (q.fn, none, Emit.cqe q.fn q.g q.cqTail e (cqeAddr q q.cqTail) (cqeBytes e)) ∈ (finish s c r).qe.held ∧
        e.status = r.status) ∧
  (∀ (s : State) (id : Nat) (bs : List Byte) (c : Cmd), cmdOf s id = some c → (fnOf s c.fn).d3hot = true →
    exec (.writeDataArrival id bs) s = .next s) ∧
  (∀ (s : State) (fn : Nat), 5 ≤ s.glb.stage → s.glb.perstReleased = true →
    ∃ t, exec (.d3hotExit fn) s = .next t ∧ fnOf t fn = { fnOf s fn with d3hot := false } ∧
      t.out = ((s.qe.held.filter fun h => h.1 == fn).map fun h => h.2.2).reverse ++ s.out ∧
      t.qe.held = s.qe.held.filter (fun h => h.1 != fn) ∧ t = { s with qe := t.qe, out := t.out }) ∧
  (∀ s : State, exec .d3coldEntry s = exec .vin12Loss s)

/-! ## Resets, start-up, hardware events -/

/-- What every reset of the module leaves of the blocks: queues, pools, staging, keys, counters and Meridian at their reset values,
the stage 0; flash, the cartridge and the waiting commands stay. A reset while a reel turns leaves Nightwatch out of reset: it
brakes, with cause 0x23 (R514). -/
def Obligations.ModuleResets : Prop :=
  (let isReset := fun s t : State =>
     t.qe = {} ∧ t.bpm = {} ∧ t.cx = {} ∧ t.tg = {} ∧ t.fm = {} ∧ t.ce = {} ∧ t.mt = {} ∧ t.ls = {} ∧ t.health = {} ∧ t.od = [] ∧
       t.glb.stage = 0 ∧ t.glb.twilight = none ∧ t.media.mount = 0 ∧ t.flash = s.flash ∧ t.media.cart = s.media.cart ∧
       t.pending = s.pending ∧ t.now = s.now
   (∀ s : State, s.glb.resetInN = true →
     ∃ t, exec .resetInNAssert s = .next t ∧ isReset s t ∧ t.glb.resetInN = false ∧ t.glb.vin12 = s.glb.vin12) ∧
   (∀ s : State, s.glb.vin12 = true →
     ∃ t, exec .vin12Loss s = .next t ∧ exec .d3coldEntry s = .next t ∧ isReset s t ∧ t.glb.vin12 = false) ∧
   (∀ s : State, ∃ t, exec .testEnAssert s = .next t ∧ isReset s t ∧ t.glb.testEn = true) ∧
   (∀ (s : State) (a b : Int), (1350 ≤ a ∨ 1350 ≤ b) → s.glb.tripped = false →
     ∃ t, exec (.thermalTrip a b) s = .next t ∧ isReset s t ∧ t.glb.tripped = true)) ∧
  (∀ s : State, s.glb.resetInN = true → s.nw.inReset = false → s.nw.atRest = false → s.nw.state = 0 →
     ∃ t, exec .resetInNAssert s = .next t ∧ t.nw.state = 1 ∧ t.nw.cause = 0x23 ∧ t.nw.inReset = false ∧
       t.nw.stops = min 65535 (s.nw.stops + 1) ∧ t.glb.heldByReel = true)

/-- Start-up begins when the supply is valid, RESET_IN_N is high, TEST_EN is low, no junction is tripped and Nightwatch does not
hold it, at whichever of these comes last (R514, R571, R584). The stages of Table 18.2 follow one another; stage 0 finds
Nightwatch RELEASED, or braking a turning reel (R521); a memory that cannot be trained is Twilight, cause 3; stage 4 ends READY
with the default pools. -/
def Obligations.StartUp : Prop :=
  (∀ s : State, s.glb.testEn = false → s.glb.heldByReel = false → s.glb.bootAt = none →
     (∀ pins : BitVec 3, s.glb.vin12 = true → s.glb.resetInN = false → s.glb.tripped = false →
       exec (.resetInNRelease pins) s =
         .next { s with glb.resetInN := true, fi.nodePins := pins, glb.bootAt := some s.now, glb.stage := 0 }) ∧
     (s.glb.vin12 = false → s.glb.resetInN = true → s.glb.tripped = false →
       exec .vin12Valid s =
         .next { s with glb.vin12 := true, glb.bootCause := 0, glb.bootAt := some s.now, glb.stage := 0 }) ∧
     (∀ a b : Int, a < 1100 → b < 1100 → s.glb.vin12 = true → s.glb.resetInN = true → s.glb.tripped = true →
       ∃ t, exec (.thermalTripEnd a b) s = .next t ∧ t.glb.tripped = false ∧ t.glb.bootAt = some s.now ∧ t.glb.stage = 0)) ∧
  (∀ (s : State) (w : StageWorld), s.glb.bootAt.isSome = true →
     (s.glb.stage < 4 → ∃ t, exec (.startupStageDone w) s = .next t ∧ t.glb.stage = s.glb.stage + 1) ∧
     (s.glb.stage = 0 → w.turning = false →
       ∃ t, exec (.startupStageDone w) s = .next t ∧ t.nw.state = 4 ∧ t.nw.cause = 0 ∧ t.nw.inReset = false) ∧
     (s.glb.stage = 0 → w.turning = true →
       ∃ t, exec (.startupStageDone w) s = .next t ∧ t.nw.state = 1 ∧ t.nw.cause = 0x23 ∧ t.nw.atRest = false) ∧
     (s.glb.stage = 2 → w.training = false → s.glb.twilight = none →
       ∃ t, exec (.startupStageDone w) s = .next t ∧ t.glb.twilight = some 3) ∧
     (s.glb.stage = 4 → ∃ t, exec (.startupStageDone w) s = .next t ∧ t.glb.stage = 5 ∧ t.bpm.pools = defaultPools))

/-- Temperatures (R583, R584): the cap of the speed index, of writing and of reading, from 120 degrees until below 110, the 4 A limit from 130 until below 115;
and the end of BPM's background writing (R517). The scrubber steps over the lines of staging in turn (R141): a line whose stored
bits and address are right changes nothing, one with a single wrong bit among the 512 data and 11 code bits is corrected and
counted; an uncorrectable one is counted and its
address kept; one of the second region that its second copy makes good is written whole again, so it holds no poison, and one of a pool
is poisoned (R139, R140, R142, R143). -/
def Obligations.ThermalAndScrub : Prop :=
  (∀ (s : State) (d : Int),
     (1200 ≤ d → ∃ t, exec (.logicThermalCap d) s = .next t ∧ t.glb.thermalCap = true ∧ t.fm.speed ≤ 12 ∧
       (reading s = true → t.rc.mmps ≤ 4000)) ∧
     (1200 ≤ d → s.fm.speed ≤ 12 → s.rc.mmps ≤ 1000 →
       exec (.logicThermalCap d) s = .next { s with glb.temps := s.glb.temps.set 0 d, glb.thermalCap := true }) ∧
     (d < 1100 → exec (.logicThermalCap d) s = .next { s with glb.temps := s.glb.temps.set 0 d, glb.thermalCap := false }) ∧
     (1100 ≤ d → d < 1200 → exec (.logicThermalCap d) s = .next { s with glb.temps := s.glb.temps.set 0 d }) ∧
     (1300 ≤ d → exec (.powerStageThermalLimit d) s = .next { s with glb.temps := s.glb.temps.set 1 d, ps.hotLimit := true }) ∧
     (d < 1150 → exec (.powerStageThermalLimit d) s = .next { s with glb.temps := s.glb.temps.set 1 d, ps.hotLimit := false }) ∧
     (1150 ≤ d → d < 1300 → exec (.powerStageThermalLimit d) s = .next { s with glb.temps := s.glb.temps.set 1 d }) ∧
     (5 ≤ s.glb.stage → exec .backgroundWriteDone s = .next { s with glb.background := true })) ∧
  (∀ (s : State) (x : LineRead),
     let n := (s.bpm.scrub + 1) % 503316480
     let a := 64 * s.bpm.scrub
     (x.flips = [] → x.moved = 0 → exec (.scrub x) s = .next { s with bpm.scrub := n }) ∧
     (∀ b, b < 523 → x.flips = [b] → x.moved = 0 → exec (.scrub x) s = .next { s with
       bpm.scrub := n, bpm.eccCor := min (2 ^ 32 - 1) (s.bpm.eccCor + 1), bpm.corTotal := min (2 ^ 32 - 1) (s.bpm.corTotal + 1) }) ∧
     (checkLine x.flips x.moved = .uncorrectable →
       (0x200000000 ≤ a → a < 0x280000000 → checkLine x.second 0 ≠ .uncorrectable → exec (.scrub x) s = .next { s with
         bpm.scrub := n, bpm.eccUnc := min 65535 (s.bpm.eccUnc + 1), bpm.uncTotal := min (2 ^ 32 - 1) (s.bpm.uncTotal + 1),
         bpm.eccAddr := s.bpm.scrub, bpm.poison := s.bpm.poison.filter (· != s.bpm.scrub) }) ∧
       (0x280000000 ≤ a → bufferAt s a = none → ∃ t, exec (.scrub x) s = .next t ∧
         t.bpm.eccUnc = min 65535 (s.bpm.eccUnc + 1) ∧ t.bpm.eccAddr = s.bpm.scrub ∧ s.bpm.scrub ∈ t.bpm.poison ∧
         t = { s with bpm := t.bpm, health := t.health })))

/-! ## The buffer pool and staging -/

/-- Allocation: with the background writing done and no parked request before it, a request whose floor holds gets a buffer with
count 1 and its class as the only holder; one whose floor does not hold is parked (R151, R157 to R159, R517). A parked request
whose turn has come gets a buffer (R158, R159). References: a second class may take one on an allocated buffer; the last one
released frees the buffer, and readers that wait for a reference are tried again (R153); a release by a class that holds none is rejected and counted, and the buffer stays as it is (R151,
R152, R154, R161). A buffer request that has waited for the limit ends its command with BUFFER_EXHAUSTED, is counted and is no
longer parked (R160). -/
def Obligations.BuffersServed : Prop :=
  (∀ (s : State) (p cls r : Nat), p < s.bpm.pools.length → p < 16 → s.glb.background = true → allocRank cls = some r →
     parkedAhead (poolOf s p) r = false →
     (∀ (i : Nat) (x : Pool), (poolOf s p).floorOk cls = true → (poolOf s p).pop = some (i, x) →
       handleOf p i ≠ nullHandle →
       exec (.bufferAllocate p cls none) s = .next { setPool s p { x with
         bufs := { idx := i, count := 1, holders := BitVec.ofNat 16 (2 ^ cls) } :: x.bufs } with
         bpm.granted := s.bpm.granted ++ [(handleOf p i, cls)] }) ∧
     ((poolOf s p).floorOk cls = false →
       exec (.bufferAllocate p cls none) s = .next (setPool s p { poolOf s p with
         parked := (poolOf s p).parked ++ [{ cls, cmd := none, since := s.now }] }))) ∧
  (∀ (s t : State) (p i : Nat) (k : Parked) (h : BitVec 32), s.glb.background = true → nextParked (poolOf s p) = some i →
     (poolOf s p).parked[i]? = some k → k.cmd = none → allocNow s p k.cls = some (h, t) →
     exec (.parkedRequestServed p) s =
       .next { setPool t p { poolOf t p with parked := (poolOf s p).parked.eraseIdx i } with
         bpm.granted := s.bpm.granted ++ [(h, k.cls)] }) ∧
  (∀ (s : State) (h : BitVec 32) (cls : Nat) (b : Buf), validHandle s h = true →
     (poolOf s (poolNo h)).buf (bufNo h) = some b → poolNo h < s.bpm.pools.length →
     (b.holders.getLsbD cls = false → cls < 16 → b.count < 255 →
       ∃ t, exec (.bufferAcquire h cls) s = .next t ∧ (poolOf t (poolNo h)).buf (bufNo h) =
         some { b with count := b.count + 1, holders := b.holders ||| BitVec.ofNat 16 (2 ^ cls) } ∧
         t = { s with bpm.pools := t.bpm.pools }) ∧
     (let t := { release s h cls with bpm.granted := (release s h cls).bpm.granted.erase (h, cls) }
     exec (.bufferRelease h cls) s = .next (retryHeld t.qe.cmds.length t) ∧
     ((∀ c ∈ t.qe.cmds, c.pinWait = false) → exec (.bufferRelease h cls) s = .next t) ∧
     (b.holders.getLsbD cls = true → b.count ≤ 1 → (poolOf t (poolNo h)).buf (bufNo h) = none ∧
         t = { s with bpm.pools := t.bpm.pools, bpm.granted := t.bpm.granted }) ∧
     (b.holders.getLsbD cls = false → t.bpm.rejects = min (2 ^ 32 - 1) (s.bpm.rejects + 1) ∧
         t.bpm.rejIdx = bufNo h ∧ t.bpm.rejHolders = b.holders ∧ (poolOf t (poolNo h)).buf (bufNo h) = some b))) ∧
  (∀ (s : State) (p id : Nat) (c : Cmd) (k : Parked), cmdOf s id = some c → k ∈ (poolOf s p).parked → k.cmd = some id →
     (k.cls = clsQeIn ∨ k.cls = clsQeOut) → k.since + setN s 0x2150 1 * 216000 ≤ s.now →
     let v := unpark (setPool s p { poolOf s p with exhausted := min 65535 ((poolOf s p).exhausted + 1) }) id
     (∀ i, ∀ j ∈ (poolOf v i).parked, j.cmd ≠ some id) ∧
     (opcode c.sqe = 0x40 → c.version ≠ 0 →
       exec (.bufferWaitLimitExpiry p id) s = .next (endWrite v id stBufferExhausted 0 false)) ∧
     ((opcode c.sqe = 0x41 ∨ opcode c.sqe = 0x42) →
       exec (.bufferWaitLimitExpiry p id) s = .next (finishRead v c stBufferExhausted 0 0)) ∧
     (opcode c.sqe ≠ 0x40 → opcode c.sqe ≠ 0x41 → opcode c.sqe ≠ 0x42 →
       exec (.bufferWaitLimitExpiry p id) s = .next (finish v c { status := stBufferExhausted })))

/-- Bytes written to staging read back, every other byte stays, and the canonical form with it (R138). -/
def Obligations.StagingReadsBack : Prop :=
  ∀ (s : State) (a : Nat) (bs : List Byte), stagingCanonical s = true → a + bs.length ≤ 0x780000000 →
    stReadBytes (stageWrite s a bs).bpm.mem a bs.length = bs ∧
      (∀ b, b < a ∨ a + bs.length ≤ b → stRead (stageWrite s a bs).bpm.mem b = stRead s.bpm.mem b) ∧
      stagingCanonical (stageWrite s a bs) = true

/-! ## Lodestar and Twilight -/

/-- A failure of Lodestar, the first or second in 10 minutes, begins a restart: fetching stops, ISTAT.LSDOWN is set, the fault is
recorded for the end of the restart and the restart counted (R496, R497, R500). The end of a restart outside an activation:
Lodestar is up, ISTAT.LSUP is set (R498). A third failure in 10 minutes, or flash that cannot be written, is Twilight with its
cause; Twilight stays as it is entered (R500, R502, R503). -/
def Obligations.LodestarAndTwilight : Prop :=
  (∀ (s : State) (k t0 : Nat), s.glb.twilight = none → s.glb.lsUp = true → s.glb.restarting = none →
     (recentRestarts s).length < 2 →
     (∃ t, exec (.lockstepMismatch k) s = .next t ∧ t.glb.restarting = some s.now ∧ t.glb.lsUp = false ∧
       t.glb.restartCount = min (2 ^ 32 - 1) (s.glb.restartCount + 1) ∧ t.glb.twilight = none ∧
       (∃ r, t.health.lateFaults = s.health.lateFaults ++ [r] ∧ r.code = 0x12 ∧ r.unit = noUnit)) ∧
     (∃ t, exec (.watchdogExpiry k) s = .next t ∧ t.glb.restarting = some s.now ∧ t.glb.lsUp = false ∧
       (∃ r, t.health.lateFaults = s.health.lateFaults ++ [r] ∧ r.code = 0x13 ∧ r.unit = noUnit)) ∧
     (t0 + 400 * 216000 ≤ s.now → s.fw.slot ≠ 3 →
       ∃ t, exec .restartTimeout { s with glb.restarting := some t0 } = .next t ∧ t.glb.restarting = some s.now ∧
         t.glb.restartCount = min (2 ^ 32 - 1) (s.glb.restartCount + 1))) ∧
  (∀ (s : State) (w : BootWorld), s.glb.restarting.isSome = true → s.fw.slot ≠ 3 → s.glb.twilight = none → s.rc.ladder = none →
     s.pl.verified = [] →
     ∃ t, exec (.lodestarRestartComplete w) s = .next t ∧ t.glb.restarting = none ∧ t.glb.lsUp = true ∧
       t.glb.istat.getLsbD 3 = true ∧ t.health.lateFaults = [] ∧ t.health.lateEvents = []) ∧
  ((∀ (s : State) (k : Nat), s.glb.twilight = none → s.glb.lsUp = true → s.glb.restarting = none →
     2 ≤ (recentRestarts s).length →
     ∃ t, exec (.lockstepMismatch k) s = .next t ∧ t.glb.twilight = some 1 ∧ t.glb.lsUp = false) ∧
   (∀ (s : State) (k : Nat), s.glb.twilight = none →
     ∃ t, exec (.flashWriteFailed k) s = .next t ∧ t.glb.twilight = some 5 ∧ t.glb.lsUp = false ∧ t.ce.owner = 0) ∧
   (∀ (s : State) (k : Nat), s.glb.twilight.isSome = true → exec (.flashWriteFailed k) s = .next s))

/-! ## Meridian and the field interface -/

/-- Set Meridian under source 0 sets the time and reads as SET, counted as a step; under sources 1 and 2, and on a pair secondary, it
changes nothing (R465, R470). PPS_IN, while Meridian runs: an edge more than 100 ms off a whole second, or within 0.9 s of the edge
accepted last, is rejected and counted, unless Meridian is UNSET or has been stepped and no edge come since; any other is accepted,
its offset is shown, and under a source that uses it Meridian is corrected by it and LOCKED (R471). A correction, the first after
UNSET or above the step threshold, is a step, counted, by the offset; any other leaves the time and trims the increment (R469). With
no edge accepted for 3 s Meridian is in HOLDOVER (R471). PPS_OUT, the store of Meridian, SYNC and TIME (R468, R472, R478). -/
def Obligations.MeridianTime : Prop :=
  (∀ (s : State) (p : Path) (ns : BitVec 64), s.glb.restarting = none → s.glb.twilight = none → s.mt.running = true →
     (s.pl.role ≠ 2 → setN s 0x6010 2 = 0 → ∃ t, exec (.setMeridian p ns) s = .next t ∧ meridian t = ns.toNat ∧ t.mt.sync = 1 ∧
       t.mt.steps = min 255 (s.mt.steps + 1) ∧ t = { s with mt := t.mt }) ∧
     ((s.pl.role = 2 ∨ setN s 0x6010 2 = 1 ∨ setN s 0x6010 2 = 2) → exec (.setMeridian p ns) s = .next s)) ∧
  (∀ s : State, s.mt.running = true →
     let off := (meridian s : Int) - nearestSec (meridian s)
     let defining := s.mt.sync = 0 ∨ s.mt.defines = true
     let far := 100000000 < off.natAbs ∨ ∃ u, s.mt.lastPps = some u ∧ s.now < u + 900 * 216000
     let seen := { s with mt.lastPps := some s.now, mt.ofs := ofsOf off, mt.defines := false }
     (¬ defining → far → exec .ppsInEdge s = .next { s with mt.ppsrej := min 255 (s.mt.ppsrej + 1) }) ∧
     ((defining ∨ ¬ far) → ppsUsed s = false → exec .ppsInEdge s = .next seen) ∧
     ((defining ∨ ¬ far) → ppsUsed s = true → exec .ppsInEdge s = .next (correct seen (-off))) ∧
     (∀ u, s.mt.lastPps = some u → u + 3000 * 216000 ≤ s.now → s.mt.sync = 2 → ppsUsed s = true →
       exec .ppsHoldover s = .next { s with mt.sync := 3 })) ∧
  (∀ (s : State) (d : Int), (correct s d).mt.sync = 2 ∧
     ((s.mt.sync = 0 ∨ 1000 * setN s 0x6010 4 < d.natAbs) → meridian (correct s d) = code 64 (meridian s + d) ∧
       (correct s d).mt.steps = min 255 (s.mt.steps + 1) ∧ (correct s d).mt.defines = true) ∧
     (s.mt.sync ≠ 0 → d.natAbs ≤ 1000 * setN s 0x6010 4 → meridian (correct s d) = meridian s ∧
       ∃ x : Int, -50000 ≤ x ∧ x ≤ 50000 ∧ (correct s d).mt.trim = x ∧ (correct s d).mt.inc = trimmedInc x)) ∧
  (∀ s : State,
     (s.mt.running = true → s.mt.lastOut ≠ some (ppsSecond s (meridian s)) →
       exec .ppsOut s =
         .next { s with mt.lastOut := some (ppsSecond s (meridian s)), out := Emit.ppsOut :: s.out }) ∧
     (s.mt.running = true → s.glb.lsUp = true →
       exec .meridianStore s = .next { s with flash.meridian := meridian s }) ∧
     (fiUp s = true → s.glb.twilight = none →
       ((setN s 0x1005 0).testBit 30 = false →
         exec .syncReceive s = .next { s with fi.synct := BitVec.ofNat 32 (meridian s) }) ∧
       ((setN s 0x1005 0).testBit 30 = true → setN s 0x1006 0 ≠ 0 →
         s.fi.syncLast ≠ some (meridian s / (1000 * setN s 0x1006 0)) →
         exec .syncProduce s = .next { s with
           fi.syncLast := some (meridian s / (1000 * setN s 0x1006 0)), out := Emit.canFrame 0x080 [] :: s.out }) ∧
       ((setN s 0x1012 0).testBit 30 = true → s.mt.running = true →
         s.fi.timeLast ≠ some (utcSecond s / setN s 0x6013 1) →
         exec .timeProduce s = .next { s with
           fi.timeLast := some (utcSecond s / setN s 0x6013 1),
           out := Emit.canFrame 0x100 (timeFrame (utcSecond s)) :: s.out }) ∧
       (∀ ms days : Nat, (setN s 0x1012 0).testBit 31 = true → (setN s 0x1012 0).testBit 30 = false → s.pl.role ≠ 2 →
         s.mt.running = true →
         let off := timeOfDay s ms days + 1000 * setN s 0x6013 2 - meridian s
         (setN s 0x6010 2 = 1 →
           exec (.timeReceive ms days) s = .next (correct { s with mt.ofs := ofsOf off } off)) ∧
         (setN s 0x6010 2 ≠ 1 → setN s 0x6010 2 ≠ 2 → exec (.timeReceive ms days) s = .next s))))

/-- NMT commands outside Initialisation (R474, R476): without a duplicate node ID they set the state; a reset takes the pins, makes the
node ID of them, sends boot-up and enters Pre-operational; a heartbeat with FI's own node ID within 1 s of boot-up stops FI, until the
next reset. What FI sends, with the error counters as the bus leaves them, 127 the limit of the error active state (R473): the
heartbeat when its time has passed; the oldest EMCY when the inhibit time has passed, counted instead in Stopped; in Operational a
TPDO that has changed after 10 ms, or after 1 s (R475 to R477, R479). Bus-off ends with the controller error active; an EMCY that
waits is then sent (R473, R477). -/
def Obligations.FieldInterface : Prop :=
  (∀ s : State, s.fi.nmt ≠ 0 →
     (s.fi.dupid = false → exec .nmtStart s = .next { s with fi.nmt := 2 } ∧ exec .nmtStop s = .next { s with fi.nmt := 3 } ∧
       exec .nmtEnterPreOperational s = .next { s with fi.nmt := 1 }) ∧
     (s.fi.dupid = true → exec .nmtStart s = .next s ∧ exec .nmtStop s = .next s ∧ exec .nmtEnterPreOperational s = .next s) ∧
     (∀ pins : BitVec 3, s.fi.bus ≠ 2 → ∃ t, exec (.nmtResetNode pins) s = .next t ∧ exec (.nmtResetCommunication pins) s = .next t ∧
       t.fi.nmt = 1 ∧ t.fi.nodePins = pins ∧ t.fi.dupid = false ∧ t.fi.sessions = [] ∧
       t.out = Emit.canFrame (0x700 + t.fi.node) [0] :: s.out ∧ t.fi.node = setN t 0x2020 1 + pins.toNat ∧
       t = { s with fi := t.fi, od := t.od, out := t.out }) ∧
     (∀ b, s.fi.bootAt = some b → s.now < b + 1000 * 216000 →
       exec .duplicateNodeId s = .next { s with
         fi.nmt := 3, fi.dupid := true, health.subst := s.health.subst ||| BitVec.ofNat 8 8 })) ∧
  (∀ (s : State) (tec rcv : Nat), s.fi.nmt ≠ 0 → s.fi.bus ≠ 2 → tec ≤ 255 →
     let heard := { s with
       fi.tec := tec, fi.rec_ := min 255 rcv, fi.bus := if 127 < tec ∨ 127 < rcv then 1 else 0 }
     ((∀ u, s.fi.hbAt = some u → u + setN s 0x1017 0 * 216000 ≤ s.now) → exec (.canHeartbeat tec rcv) s = .next { heard with
       fi.hbAt := some s.now,
       out := Emit.canFrame (0x700 + s.fi.node) [BitVec.ofNat 8 (nmtCode s.fi.nmt)] :: s.out }) ∧
     (∀ m r, s.fi.emcy = m :: r → (∀ u, s.fi.emcyAt = some u → u + 21600 * setN s 0x1015 0 ≤ s.now) →
       (s.fi.nmt ≠ 3 → exec (.emcySend tec rcv) s = .next { heard with
         fi.emcy := r, fi.emcyAt := some s.now, out := Emit.canFrame (0x080 + s.fi.node) (emcyPayload s m) :: s.out }) ∧
       (s.fi.nmt = 3 →
         exec (.emcySend tec rcv) s = .next { s with fi.emcy := r, fi.suppr := min 65535 (s.fi.suppr + 1) })) ∧
     (∀ n, 1 ≤ n → n ≤ 4 → s.fi.nmt = 2 → tpdoBytes s n ≠ [] → s.glb.twilight = none →
       (∀ x, (s.fi.tpdo.find? fun x => x.1 == n) = some x →
         x.2.1 + 1000 * 216000 ≤ s.now ∨ (x.2.1 + 10 * 216000 ≤ s.now ∧ tpdoBytes s n ≠ x.2.2)) →
       exec (.tpdoSend n tec rcv) s = .next { heard with
         fi.tpdo := (n, s.now, tpdoBytes s n) :: s.fi.tpdo.filter fun x => x.1 != n,
         out := Emit.canFrame (0x80 + 0x100 * n + s.fi.node) (tpdoBytes s n) :: s.out })) ∧
  (∀ s : State, s.fi.bus = 2 →
     (s.fi.emcy = [] → exec .busOffRecovery s = .next { s with fi.bus := 0, fi.tec := 0, fi.rec_ := 0 }) ∧
     (∀ m r, s.fi.emcy = m :: r → (∀ u, s.fi.emcyAt = some u → u + 21600 * setN s 0x1015 0 ≤ s.now) → s.fi.nmt ≠ 0 →
       s.fi.nmt ≠ 3 →
       ∃ t, exec .busOffRecovery s = .next t ∧ t.fi.bus = 0 ∧ t.fi.tec = 0 ∧ t.fi.rec_ = 0 ∧ t.fi.emcy = r ∧
         t.out = Emit.canFrame (0x080 + s.fi.node) (emcyPayload { s with fi.bus := 0, fi.tec := 0, fi.rec_ := 0 } m) :: s.out))

/-! ## Nightwatch, control engine, power stage, servo -/

/-- The safe stop: from WATCH, Nightwatch takes the reels into BRAKE, or above the hard limit into CLAMP, records the cause and
counts the stop; CE gives up its target; in any other state a cause changes neither state nor cause, but the hard limit turns
BRAKE into CLAMP (R395, R437, R438). The faults that are safe stops, each with its cause and its reel (R391 to R394, R426, R437
to R439, R486). -/
def Obligations.SafeStops : Prop :=
  (∀ (s : State) (cause : Nat) (a b : Bool), s.nw.inReset = false →
     (s.nw.state = 0 →
       (safeStop s cause a b).nw.state = (if cause = 0x11 then 2 else 1) ∧ (safeStop s cause a b).nw.cause = cause ∧
         (safeStop s cause a b).nw.reelS = a ∧ (safeStop s cause a b).nw.reelT = b ∧
         (safeStop s cause a b).nw.stops = min 65535 (s.nw.stops + 1) ∧ (safeStop s cause a b).ce.owner = 0 ∧
         (safeStop s cause a b).ce.vtarget = 0 ∧ (safeStop s cause a b).ce.safe = true) ∧
     (s.nw.state = 1 → (safeStop s 0x11 a b).nw.state = 2 ∧ (safeStop s 0x11 a b).nw.cause = 0x11) ∧
     (s.nw.state ≠ 0 → (cause ≠ 0x11 ∨ s.nw.state ≠ 1) → (safeStop s cause a b).nw = s.nw)) ∧
  (∀ s : State,
     (24 * setN s 0x4200 9 ≤ s.ce.sup.disagree → exec (.plausibilityFault .supply) s = .next (safeStop s 1 true false)) ∧
     (24 * setN s 0x4200 9 ≤ s.ce.tkp.disagree → exec (.plausibilityFault .takeup) s = .next (safeStop s 2 false true)) ∧
     (24 * setN s 0x4200 7 ≤ s.ce.lossRun → exec (.tensionLoss false) s = .next (safeStop s 3 false false)) ∧
     (24 * setN s 0x4200 7 ≤ s.ce.residRun → exec (.tensionLoss true) s = .next (safeStop s 4 false false)) ∧
     (16 ≤ s.ce.illegal.length → exec .tachQuadratureFault s = .next (safeStop s 6 false false)) ∧
     exec (.gateDriverFault .supply) s = .next (safeStop s 0x13 true false) ∧
     exec (.gateDriverFault .takeup) s = .next (safeStop s 0x13 false true) ∧
     exec .nightwatchTachMismatch s = .next (safeStop s 0x14 false false) ∧
     exec .vmotUndervoltage s = .next (safeStop s 0x15 false false) ∧
     (s.nw.grant = true → exec .reelTurnsUnderGrant s = .next (safeStop s 0x22 false false)))

/-- Faults of one reel (R426, R428 to R431): an overcurrent puts its stage in the zero vector and is counted; a lost observer turns
to the halls, and without usable halls is a safe stop; a locked rotor gets no current and no safe stop. The chopper's fault is
sticky, with cause 0x21 and no safe stop; while it stands and
tape moves, the deceleration limit is halved again every 2 ms while VMOT stays high, and CE then stops the tape (R433, R434, R438).
The shunt offsets CE has averaged are taken once, one above 0.5 A is a fault (R424). -/
def Obligations.DriveFaults : Prop :=
  (∀ (s : State) (reel : Reel),
     ((reelOf s reel).ocNow = false → (reelOf s reel).ocRun + 1 < 16 →
       ∃ t, exec (.overcurrent reel) s = .next t ∧ t.ps.ocp = min 65535 (s.ps.ocp + 1) ∧
         reelOf t reel = { reelOf s reel with ocNow := true, ocRun := (reelOf s reel).ocRun + 1, duty := [0, 0, 0] } ∧
         t.nw = s.nw) ∧
     (3 ≤ (reelOf s reel).obsBad → (reelOf s reel).obsLost = false → hallsUsable s (reelOf s reel) = true →
       ∃ t, exec (.observerLost reel) s = .next t ∧
         reelOf t reel = { reelOf s reel with obsLost := true, obsGood := 0, ang := 2 } ∧ t.nw = s.nw ∧ t.ps = s.ps) ∧
     (3 ≤ (reelOf s reel).obsBad → (reelOf s reel).obsLost = false → hallsUsable s (reelOf s reel) = false →
       s.nw.inReset = false → s.nw.state = 0 →
       ∃ t, exec (.observerLost reel) s = .next t ∧ t.nw.state = 1 ∧ t.nw.cause = 0x10) ∧
     (4800 ≤ (reelOf s reel).lockRun → (reelOf s reel).locked = false →
       ∃ t, exec (.lockedRotor reel) s = .next t ∧ (reelOf t reel).locked = true ∧ (reelOf t reel).iref = 0 ∧
         t.nw.cause = 0x20 ∧ t.nw.state = s.nw.state ∧ t.ce.owner = 0 ∧ t.ce.vtarget = 0)) ∧
  (∀ s : State,
     (s.ps.chopF = false → chopperBad s = true →
       ∃ t, exec .chopperFault s = .next t ∧ t.ps.chopF = true ∧ t.nw.cause = 0x21 ∧ t.nw.state = s.nw.state ∧
         t.glb.istat.getLsbD 6 = true) ∧
     (s.ps.chopF = true → (s.ce.vref ≠ 0 ∨ s.ce.aref ≠ 0) → s.ps.halvedAt + 2 * 216000 ≤ s.now →
       setN s 0x4204 2 ≤ 10 * s.ps.vmot → exec .decelerationHalving s = .next (halveDecel s)) ∧
     ((halveDecel s).ps.halvedAt = s.now ∧ (halveDecel s).ce.posmode = true ∧ (halveDecel s).ce.vafter = 0 ∧
       ∃ a, (halveDecel s).ce.aLimit = some a ∧ accelLimit s / 2 ≤ a ∧ a ≤ max (accelLimit s / 2) (accelLimit s)) ∧
     (∀ (reel : Reel) (u v w : Int), (reelOf s reel).shuntAvg = some [u, v, w] →
       ∃ t, exec (.shuntOffsetMeasured reel u v w) s = .next t ∧ (reelOf t reel).shunt = [u, v, w] ∧
         (reelOf t reel).shuntAvg = none ∧
         ((reelOf t reel).ofsf = true ↔
           (reelOf s reel).ofsf = true ∨ 2 ^ 26 < u.natAbs ∨ 2 ^ 26 < v.natAbs ∨ 2 ^ 26 < w.natAbs)))

/-- Rest: once the tach has stood still for 20 ms and the current of each reel is below 0.1 A, BRAKE and CLAMP end in HOLD where both
angles are known, else in RELEASED; HOLD that slips is RELEASED. A clear that Lodestar may ask for and whose conditions hold, with the
reels aligned where the stop asks for it, leaves Nightwatch in WATCH with CE's ramp at rest, and a writer that may write again in IDLE;
of its own accord Lodestar clears 1 s after its conditions hold, at most three times an hour (R437, R441, R493). The auxiliary drivers
stop on a stall and on the loader's time-out (R442). The robot interlock (R485 to R487): a rise of GRIP_REQ while TAPE_SAFE is high, or
in a permit window, is granted and counted, at once or with the first sample after TAPE_SAFE has gone high; the grant ends with its fall; a motion permit waits for a grant and for 20 V, gives way to a
grip sampled in its window, and else takes effect. -/
def Obligations.RestAndInterlock : Prop :=
  (∀ s : State,
     ((s.nw.state = 1 ∨ s.nw.state = 2) → 1920 ≤ s.nw.still → s.glb.heldByReel = false → s.ps.chopEvent = false →
       (∀ reel, ((reelOf s reel).iD * (reelOf s reel).iD + (reelOf s reel).iQ * (reelOf s reel).iQ) * 25600 < 2 ^ 62) →
       ∃ t, exec .reelsAtRest s = .next t ∧ t.nw.atRest = true ∧ t.nw.permit = false ∧
         t.nw.state = (if s.ce.sup.angleKnown = true ∧ s.ce.tkp.angleKnown = true then 3 else 4)) ∧
     (s.nw.state = 3 → exec .holdSlip s = .next { s with nw.state := 4, nw.atRest := false }) ∧
     (mayAskClear s = true → clearAccepted (realignReels s) (s.glb.stage == 5) = true →
       ∃ t, exec .nightwatchClear s = .next t ∧ t.nw.state = 0 ∧ t.ce.vref = 0 ∧ t.ce.vtarget = 0 ∧ t.ce.safe = false ∧
         (s.fm.wstate = 6 → retiredCount s ≤ 4 → s.fm.closing = false → (∀ x ∈ s.fm.parts, x.halted = false) → t.fm.wstate = 0)) ∧
     (∀ u, clearAccepted (realignReels s) false = true → s.glb.restarting = none → s.glb.twilight = none →
       3 ∉ s.nw.causes → 4 ∉ s.nw.causes → s.nw.clearOkAt = some u → u + 1000 * 216000 ≤ s.now → (recentClears s).length < 3 →
       ∃ t, exec .autoClear s = .next t ∧ t.nw.state = 0 ∧ t.nw.clears = s.now :: recentClears s)) ∧
  (∀ s : State,
     exec .threaderStall s = .next { s with ps.thrStall := true, nw.permit := false } ∧
     (∀ u, s.ps.ldrAt = some u → u + setN s 0x4205 3 * 216000 ≤ s.now → exec .loaderTimeout s =
       .next { s with nw.permit := false, ps.ldrAt := none, out := Emit.motion 1 :: s.out }) ∧
     (s.nw.inReset = false → s.nw.grant = false →
       ((tapeSafe { s with nw.req := true } = true ∨ s.nw.window = true) → exec .gripReqRise s = .next { s with
         nw.req := true, nw.grant := true, nw.window := false, nw.grants := min 65535 (s.nw.grants + 1) }) ∧
       (tapeSafe { s with nw.req := true } = false → s.nw.window = false →
         exec .gripReqRise s = .next { s with nw.req := true })) ∧
     (s.pending = [] → s.nw.req = true → s.nw.inReset = false → s.nw.grant = false →
       ∃ t, step s = .next t ∧ t.now = s.now + 1 ∧ t.nw.grant = (tapeSafe s || s.nw.window)) ∧
     exec .gripReqFall s = .next { s with nw.req := false, nw.grant := false } ∧
     (s.nw.inReset = false → ∀ g : Bool,
       ((s.nw.grant = true ∨ s.ps.vmot < 2000) →
         exec (.motionPermitRequest g) s = .next { s with nw.waitSince := some (s.nw.waitSince.getD s.now) }) ∧
       (s.nw.grant = false → 2000 ≤ s.ps.vmot →
         ((g = true ∨ s.nw.req = true) → exec (.motionPermitRequest g) s = .next { s with
           nw.req := true, nw.grant := true, nw.grants := min 65535 (s.nw.grants + 1),
           nw.waitSince := some (s.nw.waitSince.getD s.now) }) ∧
         (g = false → s.nw.req = false →
           exec (.motionPermitRequest g) s = .next { s with nw.permit := true, nw.waitSince := none }))))

/-- While CE runs, from the end of stage 1 on, every base period counts, a late one is an overrun (R382, R385), and VMOT above the hard limit
has Nightwatch clamp the reels in the same period (R434). -/
def Obligations.BasePeriodCounts : Prop :=
  ∀ (s : State) (x : CeSample), s.glb.bootAt.isSome = true → 2 ≤ s.glb.stage → s.media.op = none →
    ∃ t, exec (.basePeriod x) s = .next t ∧ t.ce.period = s.ce.period + 1 ∧
      t.ce.ovr = (if x.late = true then min 65535 (s.ce.ovr + 1) else s.ce.ovr) ∧
      (s.nw.inReset = false → s.nw.state ≤ 1 → s.nw.hardLimit < x.vmotMv → t.nw.state = 2)

/-- Loss and regain of the servo position (R360, R361, R365, R442). Coasting beyond its limit loses it: the loss is counted and SV acquires
again. A band change ends in ACQUIRE on the new band, with the coarse stepper there and its band unconfirmed. The fine actuator's fault
closes the write gate and is LOST. Where servo is not held again in time, tape slows down in every case: a recall run's locate, and the
writer's, is repeated once; a writer that writes is HALTED; with neither, that is all. A frame: without a marker frame and with no
word that waits for others, LPOS moves by one in the direction of the tape; in HELD, and in COAST, the hold test decides what follows,
with the mean of the valid channels less the target as PES; the write gate is closed outside HELD and beyond the write limit, else it
stays as it is (R276, R356, R359, R360, R362). -/
def Obligations.ServoPosition : Prop :=
  (∀ s : State,
     (s.sv.state = 3 → setN s 0x212C 2 ≤ s.sv.coast → exec .servoCoastExpiry s = .next { s with
       sv.state := 1, sv.loss := min 65535 (s.sv.loss + 1), sv.lostAt := some s.now, sv.lposOk := false, sv.bandOk := false,
       sv.ch := s.sv.ch.map fun c => { c with word := none, off := none, marked := false, bits := [] } }) ∧
     (∀ b, s.sv.moving = true → b < 4 → exec (.bandChangeDone b) s = .next { s with
       sv.moving := false, sv.band := b, sv.bandOk := false, sv.state := 1, ce.stepNow := 2433280 * (b : Int) }) ∧
     (s.sv.state ≠ 4 → ∃ t, exec .actuatorFault s = .next t ∧ t.ps.auxF = true ∧ t.fm.gate = false ∧ t.sv = { s.sv with
       state := 4, loss := min 65535 (s.sv.loss + 1), lostAt := some s.now, lposOk := false, bandOk := false, pesOk := false }) ∧
     (∀ u, s.sv.lostAt = some u → s.sv.state ≠ 2 → u + setN s 0x212C 3 * 216000 ≤ s.now →
       (s.ce.owner ≠ 1 → (s.ce.owner ≠ 2 ∨ s.rcl.run = []) → exec .servoReacquireTimeout s = .next { s with
         sv.lostAt := none, ce.vtarget := 0, ce.posmode := false }) ∧
       (s.ce.owner = 2 → s.rcl.run ≠ [] → s.rcl.servoTries = 0 → s.ce.vref ≠ 0 → exec .servoReacquireTimeout s = .next { s with
         sv.lostAt := none, rcl.servoTries := 1, rcl.again := true, ce.vtarget := 0, ce.posmode := false }) ∧
       (s.ce.owner = 1 → s.fm.wstate = 1 → s.fm.servoTry = false → s.ce.vref ≠ 0 → exec .servoReacquireTimeout s = .next { s with
         sv.lostAt := none, fm.servoTry := true, fm.again := true, ce.vtarget := 0, ce.posmode := false }) ∧
       (s.ce.owner = 1 → s.fm.wstate ≠ 1 → exec .servoReacquireTimeout s =
         .next (interruptWriting { s with sv.lostAt := none } stServoLost)))) ∧
  (∀ (s : State) (a b c d : ServoCh),
     let ys := ((s.sv.ch.zip [a, b, c, d]).zipIdx.filter fun p => !chRetired s p.2 && frameOk s p.1.2).map fun p => lateral p.1.2
     let pes := divRound ys.sum ys.length - servoTarget s
     let hold := 2 ≤ ys.length ∧ pes.natAbs ≤ setN s 0x212C 1
     ∃ t, exec (.servoFrame a b c d) s = .next t ∧ (t.sv.state ≠ 2 → t.fm.gate = false) ∧ (s.sv.state = 4 → t.sv.state = 1) ∧
       ((∀ x ∈ [a, b, c, d], x.mStripes ≠ 4) → (∀ k ∈ s.sv.ch, k.off = none) → s.sv.lposOk = true → s.sv.state ≠ 3 →
         t.sv.lposOk = true ∧ t.sv.lpos = if forwardNow s = true then s.sv.lpos + 1 else s.sv.lpos - 1) ∧
       ((s.sv.state = 2 ∨ s.sv.state = 3) → hold → t.sv.state = 2 ∧ t.sv.pes = pes ∧ t.sv.pesN = ys.length ∧ t.sv.pesOk = true ∧
         t.sv.coast = (if s.sv.state = 2 then s.sv.coast else 0) ∧
         t.fm.gate = (s.fm.gate && decide (pes.natAbs ≤ setN s 0x4103 1))) ∧
       ((s.sv.state = 2 ∨ s.sv.state = 3) → ¬ hold → t.sv.state = 3 ∧ t.sv.pes = s.sv.pes ∧ t.sv.pesOk = false ∧
         t.sv.coast = if s.sv.state = 2 then 1 else s.sv.coast + 1))

/-- Ages, batches and hints (R373 to R375, R378): a visit of commands whose oldest has waited for the age limit is aged; one that has
waited for the preemption age asks a writer at work for the transport; a batch whose time is up, with no run in progress, ends and gives
the transport up; a hint that is too old is withdrawn. A run is taken up when the tape may serve recall, after readers have left the
visits that staging serves by then: a batch begins or goes on, recall owns the transport, the run's visits are those selected and the
head goes to their wrap (R372, R374 to R376); where a fault bars the tape, the commands that wait on it end with its status instead. -/
def Obligations.RecallScheduled : Prop :=
  (∀ s : State,
     (∀ p q : Nat, exec (.recallAgeLimitExpiry p q) s = .next { s with
       rcl.visits := s.rcl.visits.map fun v =>
         if v.part = p ∧ v.seq = q ∧ v.cmds ≠ [] ∧ v.since + setN s 0x212B 1 * 216000 ≤ s.now then { v with aged := true }
         else v }) ∧
     (s.rcl.batch = none → 1 ≤ s.fm.wstate → s.fm.wstate ≤ 4 →
       (∃ v ∈ s.rcl.visits, v.cmds ≠ [] ∧ v.since + setN s 0x212B 8 * 216000 ≤ s.now) →
       exec .writePreemptionAgeExpiry s = .next { s with rcl.preempt := true }) ∧
     (∀ u, s.rcl.batch = some u → u + setN s 0x212B 9 * 216000 ≤ s.now → s.rcl.run = [] → s.rcl.ending = false →
       s.rc.ladder = none →
       ∃ t, exec .recallBatchTimeExpiry s = .next t ∧ t.rcl.batch = none ∧ t.ce.owner ≠ 2 ∧ t.ce.vtarget = 0 ∧
         t.ce.posmode = false) ∧
     (∀ h : Hint, (s.rcl.hints.find? fun g => g.id == h.id) = some h → h.since + setN s 0x212B 11 * 216000 ≤ s.now →
       ∃ t, exec (.hintExpiry h.id) s = .next t ∧ t.rcl.hints = s.rcl.hints.filter fun g => g.id != h.id)) ∧
  (∀ (s u : State), u = trimAll s → recallMay u = true → u.rcl.visits ≠ [] → batchOver u = false →
     (∀ (v : Visit) (r : List Visit), tapeFault u = none → selectRun u = some (v :: r) →
       ∃ t, exec .recallRunSelect s = .next t ∧ t.rcl.batch = some (u.rcl.batch.getD u.now) ∧ t.ce.owner = 2 ∧
         t.rcl.run = (v :: r).map (fun w => (w.part, w.seq)) ∧ t.rc.wrap = v.wrap) ∧
     (∀ st, tapeFault u = some st → exec .recallRunSelect s = .next (failVisits u st)))

/-! ## The write pipeline -/

/-- Host data of a running WRITE arrives (R168): with pool 0 buffers for it, the pieces count the bytes that have arrived, full
buffers pass to FM, and READs that wait go on; no byte of staging outside the command's buffers changes. A record is cut, in
DRAIN only while the start level or age holds again (R294): it
takes the next record number and the bytes after those cut before, its room in the dataset is reserved, and a tagged one takes
one counter value (R164, R172, R173, R215). -/
def Obligations.DataBecomesRecords : Prop :=
  (∀ (s : State) (id : Nat) (bytes : List Byte) (c : Cmd), cmdOf s id = some c → opcode c.sqe = 0x40 → c.version ≠ 0 →
     c.dropped = false → c.st = .running → bytes ≠ [] → c.arrived + bytes.length ≤ rangeLen c.sqe → c.fail = none →
     (fnOf s c.fn).d3hot = false →
     (growBufs ((c.arrived + bytes.length) / 4096 + 2) s id (c.arrived + bytes.length)).1 = true →
     ∃ u hs, exec (.writeDataArrival id bytes) s = .next (serveAll (handOff u hs clsQeIn clsFm)) ∧
       (cmdOf u id).map Cmd.pieces = some (arrivePieces (c.arrived + bytes.length) c.pieces) ∧
       ∀ x, (∀ d, cmdOf u id = some d → ∀ h ∈ d.bufs, ¬(bufAddr u h ≤ x ∧ x < bufAddr u h + (poolOf u 0).bufSize)) →
         stRead u.bpm.mem x = stRead s.bpm.mem x) ∧
  (∀ (s : State) (p : Nat) (x : Part) (o : OpenDs) (c : Cmd) (k : Piece), partOf s p = some x → x.chains = [] →
     x.openDs = some o → nextToCut s p = some c → uncutPiece c = some k → sealBarred x = false → s.fm.closing = false →
     (s.fm.wstate = 4 → startNow s = true ∨ agedWrite s = true) → s.glb.restarting = none → o.full = false → o.stop = false → roomForData s x = true →
     (s.tg.counter + 1 < s.tg.limit ∨ s.tg.limit + 2 ^ 20 < 2 ^ 64) →
     worstCase (nextLen k) (cform c.sqe) (tagBit c.sqe) ≤ o.room →
     ∃ t j, exec (.recordCut p) s = .next t ∧ t.fm.recs = s.fm.recs ++ [j] ∧ j.id = s.fm.nextRec ∧
       t.fm.nextRec = s.fm.nextRec + 1 ∧ j.r.olen = nextLen k ∧ j.r.offset = offset c.sqe + pieceSize * k.idx + k.cut ∧
       j.r.stream = stream c.sqe ∧ j.r.version = c.version ∧ j.footprint = worstCase (nextLen k) (cform c.sqe) (tagBit c.sqe) ∧
       t.tg.counter = s.tg.counter + (if tagBit c.sqe = true then 1 else 0) ∧ t.bpm = s.bpm)

/-- Nonce reservations: one is asked for when fewer than 2^18 values are left, and the limit in flash and in TG rises with the end
of the flash write (R217). Tags: a free context takes a ready job, with its input held; when no job is active it is served at
once; a job of higher priority suspends the active one, which is counted, and any other waits (R226 to R228, R230). Agreement of
both copies ends the job, and a record gets its tag as its trailer; disagreement twice retires TG (R230). -/
def Obligations.NoncesAndTags : Prop :=
  (∀ s : State,
     (s.tg.limit ≤ s.tg.counter + 2 ^ 18 → s.tg.reserving = none → s.tg.limit + 2 ^ 20 < 2 ^ 64 → s.glb.lsUp = true →
       exec .nonceReservation s = .next { s with tg.reserving := some (s.tg.limit + 2 ^ 20) }) ∧
     (∀ l, s.tg.reserving = some l →
       exec .nonceLimitRaise s = .next { s with flash.nonceLimit := l, tg.limit := l, tg.reserving := none })) ∧
  (∀ (s u : State) (n c : Nat) (hs : List (BitVec 32)), s.tg.retired = false → tagReady s n = true →
     freeCtx s (tagPrio s n) = some c → holdInput s n = some (hs, u) →
     (∃ t j, exec (.tagJobStart n) s = .next t ∧ t.tg.jobs.length = s.tg.jobs.length + 1 ∧ j ∈ t.tg.jobs ∧ j.ctx = c ∧ j.recId = n ∧
       j.prio = tagPrio s n ∧ j.bufs = hs) ∧
     (s.tg.jobs = [] → ∃ t j, exec (.tagJobStart n) s = .next t ∧ t.tg.jobs = [j] ∧ j.ctx = c ∧ j.recId = n ∧ j.suspended = false) ∧
     (∀ a, s.tg.jobs = [a] → a.suspended = false → ∃ t a' j, exec (.tagJobStart n) s = .next t ∧ t.tg.jobs = [a', j] ∧
       a'.recId = a.recId ∧ j.recId = n ∧
       (if tagPrio s n < tagPrio s a.recId then
          a'.suspended = true ∧ j.suspended = false ∧ t.tg.susp = min (2 ^ 32 - 1) (s.tg.susp + 1)
        else a' = a ∧ j.suspended = true ∧ t.tg.susp = s.tg.susp))) ∧
  (∀ (s : State) (c : Nat) (b : Bool) (j : TagJob), (s.tg.jobs.find? fun j => j.ctx == c && !j.suspended) = some j →
     let v := freeInput { s with tg.jobs := s.tg.jobs.filter fun k => k.ctx != c } j
     (checkOf j.recId = none → exec (.tagJobDone c true b) s = .next (tagTurn (tagDone v j.recId))) ∧
     (∀ p q i, checkOf j.recId = some (p, q, i) → exec (.tagJobDone c true b) s = .next (tagTurn (checkDone v p q i))) ∧
     (s.tg.retired = false → ∃ t, exec (.tagJobDone c false false) s = .next t ∧ t.tg.retired = true ∧ t.tg.jobs = [])) ∧
  (∀ (s : State) (n : Nat) (j : RecJob) (k : KeySlot), recOf s n = some j → keyOf s j.r.keySlot = some k →
     (recOf (tagDone s n) n).map (fun x => (x.stage, x.r.trailer)) = some (.ready, tagOf k.key j.r))

/-- Compression: an idle engine takes the next job; an attempt above the output limit is counted as a fallback and the record
stored; a record that was to be stored is stored; a ZSC1 attempt that does not decode to its input is counted and the record stored
(R201, R207, R208). Decompression (R186, R188, R209): an idle decompressor takes the next chain and its pool 3 buffers; a chain whose
records, but for those decoded before, all decode leaves the queue, each record counts as a job, their output is kept, and the commands that wait go on. -/
def Obligations.CompressionJobs : Prop :=
  ((∀ (s : State) (e : Nat) (j : RecJob) (hs : List (BitVec 32)) (u : State), nextCompress s = some j → e < 8 →
     (engineOf s e).excluded = false → (engineOf s e).job = none →
     unitAllocN s 4 2 ((j.r.olen + 144 + 65535) / 65536) [] = (some hs, u) → noCompressor u = false →
     ∃ t, exec (.compressorJobStart e) s = .next t ∧ (engineOf t e).job = some j.id ∧
       t.fm.recs = (u.fm.recs.map fun k => if k.id = j.id then { k with stage := .compressing, bufs := hs } else k) ∧
       t = { u with fm.recs := t.fm.recs, cx.engines := t.cx.engines }) ∧
   (∀ (s : State) (e : Nat) (a : List Byte) (j : RecJob), (engineOf s e).job.bind (recOf s) = some j → e < 8 →
     let u := setEngine s e { engineOf s e with job := none, jobs := min 65535 ((engineOf s e).jobs + 1) }
     (j.cform = 2 → exec (.compressorJobDone e a) s = .next (compressed u j 2 false (originals s j))) ∧
     (j.cform ≠ 2 → j.r.olen + 64 < a.length →
       exec (.compressorJobDone e a) s = .next (compressed
         { u with cx.fallback := min (2 ^ 32 - 1) (s.cx.fallback + 1) } j 2 false (originals s j))) ∧
     (j.cform = 1 → a.length ≤ j.r.olen + 64 →
       exec (.compressorJobDone e a) s = .next (match decodePayload 1 [] a j.r.olen j.r.olen with
         | .ok bs =>
             if bs = originals s j then compressed u j 1 false a
             else compressed { u with cx.z1mism := min 65535 (s.cx.z1mism + 1) } j 2 false (originals s j)
         | .error _ => compressed { u with cx.z1mism := min 65535 (s.cx.z1mism + 1) } j 2 false (originals s j))))) ∧
  ((∀ (s u : State) (e : Nat) (j : ChainJob) (rd : ReadDs) (ds : Dataset) (hs : List (BitVec 32)), 8 ≤ e → e ≤ 15 →
     (engineOf s e).excluded = false → (engineOf s e).job = none → nextChainJob s = some j →
     readOf s j.part j.seq = some rd → rd.content = some ds →
     unitAllocN s 3 clsCxd (chainBuffers s rd ds j) [] = (some hs, u) →
     ∃ t, exec (.decompressionJobStart e) s = .next t ∧ (engineOf t e).job = some j.id ∧ t.bpm = u.bpm ∧ t.qe = u.qe) ∧
   (∀ (s : State) (e i : Nat) (j : ChainJob) (rd : ReadDs) (ds : Dataset), 8 ≤ e → (engineOf s e).job = some i →
     (s.cx.chains.find? fun j => j.id == i) = some j → readOf s j.part j.seq = some rd → rd.content = some ds →
     let rest := chainRest rd ds [] j.recs
     let rs := decodeChain rest.1 (rest.2.filterMap fun i => (ds.recs[i]?).map fun r => (i, r))
     (∀ x ∈ rs, ∃ b, x.2 = .ok b) →
     let v := setEngine { s with cx.chains := s.cx.chains.filter fun k => k.id != j.id } e
       { engineOf s e with job := none, jobs := min 65535 ((engineOf s e).jobs + rs.length) }
     exec (.decompressionJobDone e) s = .next (serveVisit (keepOuts v j rs) j.part j.seq) ∧
       ∀ n b, (n, RecResult.ok b) ∈ rs → ∃ r, readOf (keepOuts v j rs) j.part j.seq = some r ∧ ∃ b', (n, b') ∈ r.outs))

/-- Placement: a ready record of a command, first of its stream, goes to the end of the open dataset, and its reservation's rest
returns to the room, and the ingress rate takes it in (R172, R174, R295). Sealing, where the dataset is full
or has to be, where commands wait on it for the seal delay, and where fewer than two sealed datasets are left for a moving writer;
checkpoints by the data written and by their time; a MARKER that waits then has an open dataset where there is room (R174, R182). -/
def Obligations.DatasetsFilled : Prop :=
  (∀ (s : State) (id : Nat) (j : RecJob) (o : OpenDs) (x : Part), recOf s id = some j → j.stage = .ready → j.cmd.isSome = true →
     ((s.fm.recs.takeWhile fun k => k.id != id).any fun k => k.part == j.part && k.r.stream == j.r.stream) = false →
     (mirroring s = false ∨ j.mirrored = true ∨ j.dead = true) → partOf s j.part = some x → x.chains = [] → x.openDs = some o →
     ∃ u, exec (.recordPlace id) s = .next (openForMarkers (sealIfDone u j.part) j.part) ∧
       (u.fm.recs.map RecJob.id = (s.fm.recs.map RecJob.id).filter (· != id)) ∧ u.fm.rate = newRate s (footprint j.r) ∧
       ((partOf u j.part).bind Part.openDs).map (fun d => (d.recs, d.room, d.outstanding)) =
         some (o.recs ++ [j.r], o.room + j.footprint - footprint j.r, o.outstanding - 1)) ∧
  (∀ (s : State) (p : Nat) (x : Part), partOf s p = some x →
     (∀ o, x.openDs = some o → dsAwaited s p o = true → o.lastRes + setN s 0x2122 1 * 216000 ≤ s.now →
       exec (.sealDelayExpiry p) s = .next (openForMarkers (stopDs s p false) p)) ∧
     (∀ o, x.openDs = some o → (o.full = true ∨ o.stop = true) →
       exec (.datasetSeal p) s = .next (openForMarkers (sealIfDone s p) p)) ∧
     (∀ o, x.openDs = some o → writerMoves s = true → s.fm.sealed.length < 2 → o.full = false → o.stop = false →
       exec (.datasetSeal p) s = .next (openForMarkers (stopOpen s p) p)) ∧
     (x.openDs = none → exec (.datasetSeal p) s = .next (openForMarkers (sealIfDone s p) p)) ∧
     (mayCheckpoint s p = true → setN s 0x2123 1 ≤ x.dataSince →
       exec (.checkpointInterval p) s = .next (wantCheckpoint s p false)) ∧
     (mayCheckpoint s p = true → 1 ≤ x.dataSince → x.ckptAt + 1000 * setN s 0x2123 2 * 216000 ≤ s.now →
       exec (.checkpointTimeExpiry p) s = .next (wantCheckpoint s p false)))

/-! ## The writer -/

/-- The transport is asked for by the staged level or a command at once, and by a WRITE's age after the start age: the writer is in START
and owns the transport, and out of DRAIN it goes back to STREAM (R292, R293, R297). The append point: locked with servo held, the gate
opens and the writer streams; else the start is repeated, at most three times, and writing is interrupted (R297). Times of the writer: a
level low for the stop time begins DRAIN; a demand low for its delay takes the speed down one index (R294, R296). A turn has the gate
closed, the partition on its next wrap and CE on its way to reverse; the head moves to that wrap after the reversal, and at the place of
the first dataset the writer streams again (R291). The head temperatures set the write currents of the writing module, 0 to 255, from the
next slot on (R274). -/
def Obligations.WriterRuns : Prop :=
  (∀ (s : State) (p : Nat) (x : Part), tapeFault s = none → mayStart s = true → startPart s = some p → partOf s p = some x →
     (startNow s = true → ∃ t, exec .writerStart s = .next t ∧ t.fm.wstate = 1 ∧ t.ce.owner = 1 ∧ t.fm.wpart = x.num ∧
       t.fm.wrap = x.wrap ∧ t.fm.backhitch = min 65535 (s.fm.backhitch + 1) ∧ t.fm.gate = false) ∧
     ((∃ c ∈ writesOf s, c.dropped = false ∧ c.since + setN s 0x2124 2 * 216000 ≤ s.now ∧
         ∃ k ∈ c.pieces, k.settled = false ∧ k.onTape < k.len) →
       ∃ t, exec .startAgeExpiry s = .next t ∧ t.fm.wstate = 1 ∧ t.ce.owner = 1 ∧ t.fm.wpart = x.num)) ∧
  (∀ s : State, s.fm.wstate = 1 →
     (s.sv.state = 2 → exec (.appendPointReached true) s =
       .next { s with fm.wstate := 2, fm.gate := true, fm.startTries := 0 }) ∧
     (∀ x, s.fm.startTries < 3 → partOf s s.fm.wpart = some x →
       ∃ t, exec (.appendPointReached false) s = .next t ∧ t.fm.startTries = s.fm.startTries + 1 ∧ t.fm.wstate = 1 ∧
         t.ce.posmode = true) ∧
     (3 ≤ s.fm.startTries → exec (.appendPointReached false) s = .next (interruptWriting s stServoLost))) ∧
  (∀ s : State,
     (∀ u, s.fm.lowSince = some u → s.fm.wstate = 2 → u + setN s 0x2124 4 * 216000 ≤ s.now →
       exec .stopTimeExpiry s = .next (enterDrain s)) ∧
     (s.fm.wstate = 4 → s.glb.restarting = none →
       (agedWrite s = true → exec .startAgeExpiry s = .next { s with fm.wstate := 2 }) ∧
       (startNow s = true → exec .writerStart s = .next { s with fm.wstate := 2 })) ∧
     (∀ u, s.fm.downSince = some u → (s.fm.wstate = 2 ∨ s.fm.wstate = 4) → demandIdx s + 2 ≤ s.fm.speed → u + setN s 0x2124 5 * 216000 ≤ s.now →
       ∃ t, exec .speedDownDelayExpiry s = .next t ∧ t.fm.speed = s.fm.speed - 1 ∧ t.fm.downSince = none) ∧
     (∀ x, partOf s x.num = some x → (enterTurn s x).fm.wstate = 3 ∧ (enterTurn s x).fm.gate = false ∧
       (enterTurn s x).fm.current = none ∧ (enterTurn s x).ce.posmode = true ∧
       (partOf (enterTurn s x) x.num).map Part.wrap = some (x.wrap + 1)) ∧
     (∀ x, partOf s s.fm.wpart = some x → s.fm.wstate = 3 → s.ce.posmode = false →
       (s.fm.wrap ≠ x.wrap → (turnHead s).fm.wrap = x.wrap ∧ (turnHead s).fm.wstate = 3) ∧
       (s.fm.wrap = x.wrap → ((posNow s : Int) - lposOf x.pos).natAbs ≤ 1 →
         exec .turnComplete s = .next { s with fm.wstate := 2 })) ∧
     (∀ (a b : Option Int) (l : Nat), l < 64 → ∃ t, exec (.writeCurrentUpdate a b) s = .next t ∧
       (s.fm.current = none → t.fm.wnext = none ∧ get t.fm.wcur (64 * writingModule s.fm.wrap + l) 0 ≤ 255) ∧
       (s.fm.current ≠ none → t.fm.wcur = s.fm.wcur ∧
         ∃ w, t.fm.wnext = some w ∧ get w (64 * writingModule s.fm.wrap + l) 0 ≤ 255) ∧
       t.glb.temps.getD 2 0 = a.getD (s.glb.temps.getD 2 0) ∧ t = { s with glb := t.glb, fm := t.fm }))

/-- A slot boundary inside a dataset: the gate is open only on track with servo HELD, the next slot of the dataset follows, and
currents recomputed meanwhile come into force (R255, R274, R276). A verdict: what the trailing module hears of a segment decides it by
the four conditions of R277; it reaches the lane's health, settles or fails its row, and the dataset is then judged (R279 to R281,
R285). -/
def Obligations.SlotsAndVerdicts : Prop :=
  (∀ (s : State) (pes : Int) (q n : Nat) (w : WriteDs), (s.fm.wstate = 2 ∨ s.fm.wstate = 4) → retiredCount s < 9 →
     s.fm.current = some (q, n) → n < 32 →
     (s.fm.sealed.find? fun w => w.ds.part == s.fm.wpart && w.ds.seq == q) = some w →
     ∃ t, exec (.slotBoundary pes) s = .next t ∧ t.fm.current = some (q, n + 1) ∧
       t.fm.gate = (decide (pes.natAbs ≤ setN s 0x4103 1) && s.sv.state == 2) ∧
       t.fm.wcur = s.fm.wnext.getD s.fm.wcur ∧ t.fm.wnext = none) ∧
  (∀ (s : State) (q a slot lane wrap : Nat) (g : Seg) (codes : List Int), awaited s q a slot lane = some (wrap, g) →
     let h := hear s (bitClock s wrap (speedMmps s.fm.speed)) (1 - writingModule wrap) lane false 0 codes
     let x := verify s wrap g h
     exec (.segmentVerdict q a slot lane codes) s =
       .next (startAgain (verdictS (noteVerify s wrap lane h x.iterations.isSome) q a slot lane x))) ∧
  (∀ (s : State) (q a slot lane : Nat) (x : VerdictObs) (w : WriteDs) (g : Seg),
     (s.fm.sealed.find? fun w => w.ds.seq == q && w.attempt == a && w.begun &&
       w.due.any fun g => g.slot == slot && g.lane == lane) = some w →
     (w.due.find? fun g => g.slot == slot && g.lane == lane) = some g →
     let pass := verdictPasses w.wrap g x
     let w' := { w with due := w.due.filter fun h => !(h.slot == slot && h.lane == lane) }
     let v := if pass = true then w'.segPasses g else w'.segFails g
     let r := judgeDs (putDs (noteVerdict s w.wrap lane pass x.stuck) v) v
     (verdictS s q a slot lane x = endClosing (if r.fm.wstate = 4 ∧ r.fm.current.isNone = true then nextDataset 4 r else r)) ∧
     (pass = true ↔ (∃ n, x.iterations = some n ∧ n ≤ 6) ∧ x.differ ≤ 96 ∧ (∃ d, x.sync = some d ∧ d.natAbs ≤ 8) ∧
       ∃ h, segHeadOf x.header = some h ∧ h.wrap = w.wrap ∧ possibleAt g h = true) ∧
     (pass = true → get (noteVerdict s w.wrap lane pass false).fm.consec lane 0 = 0 ∧
       ∀ f ∈ v.fails, f.sub = g.sub → f.row = g.row → f.passed = true ∧ f.out = false) ∧
     (pass = false → v.failCount = w.failCount + 1 ∧
       ∃ f, v.fails.getLast? = some f ∧ f.sub = g.sub ∧ f.row = g.row ∧ f.slot = g.slot ∧ f.out = false ∧ g.lane ∈ f.lanes))

/-- A lane whose driver fails is retired at once: in force, in flash, reported (R286, R288); it stays retired. Lane buckets leak by
one after their number of segments (Table 9.2). A front end whose bias fails, or that has been stuck in 16 slots, is retired in
force and in flash, and no other is; while it verifies writing, a bias fault raises the lane's permanent bucket by four (R285, R301,
R491). -/
def Obligations.UnitsRetired : Prop :=
  (∀ (s : State) (l : Nat), l < 64 → s.fm.retired.getLsbD l = false → retiredCount s < 4 →
     ∃ t, exec (.writeDriverFault l) s = .next t ∧ t.fm.retired.getLsbD l = true ∧ t.flash.lanes.getLsbD l = true ∧
       (∀ k, k < 64 → k ≠ l → t.fm.retired.getLsbD k = s.fm.retired.getLsbD k) ∧ t.fm.closing = s.fm.closing) ∧
  (∀ (s : State) (l : Nat),
     (setN s 0x2126 2 ≤ get s.fm.segsT l 0 → exec (.transientLeak l) s = .next { s with
       fm.tb := putD l (get s.fm.tb l 0 - 1) 0 s.fm.tb,
       fm.segsT := putD l (get s.fm.segsT l 0 - setN s 0x2126 2) 0 s.fm.segsT }) ∧
     (2 ^ setN s 0x2126 4 ≤ get s.fm.segsP l 0 → exec (.permanentLeak l) s = .next { s with
       fm.pb := putD l (get s.fm.pb l 0 - 1) 0 s.fm.pb,
       fm.segsP := putD l (get s.fm.segsP l 0 - 2 ^ setN s 0x2126 4) 0 s.fm.segsP })) ∧
  (∀ (s : State) (l m : Nat), l < 64 → m < 2 → feRetired s m l = false → feRetired s (1 - m) l = false →
     (writingModule s.fm.wrap = m ∨ (s.fm.wstate ≠ 2 ∧ s.fm.wstate ≠ 4) → ∃ t, exec (.biasFault l m) s = .next t ∧ feRetired t m l = true ∧
       (feOf t m l).biasf = true ∧ feRetired t (1 - m) l = false ∧
       (if m = 0 then t.flash.feA.getLsbD l else t.flash.feB.getLsbD l) = true) ∧
     (writingModule s.fm.wrap ≠ m → (s.fm.wstate = 2 ∨ s.fm.wstate = 4) → get s.fm.pb l 0 + 4 < setN s 0x2126 3 →
       ∃ t, exec (.biasFault l m) s = .next t ∧ feRetired t m l = true ∧ get t.fm.pb l 0 = get s.fm.pb l 0 + 4 ∧
         t.fm.retired = s.fm.retired) ∧
     (16 ≤ (feOf s m l).stuckRun → ∃ t, exec (.frontEndStuckRetire l m) s = .next t ∧ feRetired t m l = true ∧
       feRetired t (1 - m) l = false ∧ t.fm.retired = s.fm.retired ∧
       (if m = 0 then t.flash.feA.getLsbD l else t.flash.feB.getLsbD l) = true))

/-! ## The read channel and read recovery -/

/-- One segment slot of a lane that reads (R311 to R328), within a dataset: both front ends read it; a frame of the leading module is decided
once the delay store has held three more. With an accepted attempt among the ranked positions and, in track, the predicted one, the lane
tracks, its flywheel is there, and the row goes into its dataset, marked where too many of its bits were zeroed; with none a lane that
tracked coasts, and the miss is counted. A lane that has coasted too long searches again (R311). When a decoder's budget runs out, the
attempts that remain are abandoned, and where none before them was accepted that is counted (R321). A complete user area that parses as the
dataset sought, with headers that pass, goes on to the read pipeline (R185). -/
def Obligations.SegmentsAndDatasets : Prop :=
  (∀ (s : State) (l : Nat) (x : SegSlot), laneReads s l = true → x.missed = false → (laneOf s l).state ≠ 0 →
     let a := intake (readingAt s x) l x
     ((∀ q c p u, x.at_ = some (q, c) → s.rcl.under = some (p, u) → q = u) →
       exec (.segmentDecode l x) s = .next (decideSegment a.1 l a.2 none)) ∧
     (∀ n, s.rc.ladder = none →
       exec (.decoderBudgetExhausted { lane := l, tries := n, slot := x }) s = .next (decideSegment a.1 l a.2 (some n))) ∧
     (a.2.lead.isSome = true ↔ 3 ≤ (laneOf s l).store.length) ∧
     (laneOf a.1 l).state = (laneOf s l).state ∧ a.1.rc.reads = s.rc.reads) ∧
  (∀ (s : State) (l : Nat) (x : SegObs) (late : Option Nat),
     let lead := writingModule s.rc.wrap
     let single := singleModule s l x
     let wl := match single with
       | some m => if m = lead then 8 else 0
       | none => leadWeight ((x.lead.map Frame.noise).getD 0) x.trail.noise
     let top := (candidates s l single x.cands).take 3
     let all := top.map (fun c => (c.pos, c.e)) ++
       (if 2 ≤ (laneOf s l).state ∧ ∀ c ∈ top, c.pos ≠ 0 then [((0 : Int), (0 : Int))] else [])
     let ps := match late with
       | some n => all.take n
       | none => all
     let found := (tryAll s l wl x.at_ 0 0 none (ps.map fun p => x.attempt p.1 p.2)).1
     (∀ i r h payload, found = some (i, r) → r.seg = some (h, payload) →
       let p := ps.getD i (0, 0)
       ∃ u, decideSegment s l x late =
           checkLocate (storeRow u l h payload (decide (setN s 0x2128 5 < x.zeroedBits lead single p.1 p.2))) h ∧
         (laneOf u l).state = 2 ∧ (laneOf u l).coastn = 0 ∧ (laneOf u l).fly = x.grid + p.1 ∧ u.rc.reads = s.rc.reads) ∧
     (found = none →
       (laneOf (decideSegment s l x late) l).state = (if 2 ≤ (laneOf s l).state then 3 else (laneOf s l).state) ∧
       (laneOf (decideSegment s l x late) l).coastn = (laneOf s l).coastn + 1 ∧
       (laneOf (decideSegment s l x late) l).none_ = min 65535 ((laneOf s l).none_ + 1) ∧
       (laneOf (decideSegment s l x late) l).budget =
         if late.isSome = true then min 65535 ((laneOf s l).budget + 1) else min 65535 (laneOf s l).budget)) ∧
  (∀ (s : State) (l : Nat), (laneOf s l).state = 3 → setN s 0x2127 3 ≤ (laneOf s l).coastn →
     exec (.coastLimitExpiry l) s = .next (modLane s l fun y => { y with state := 1 })) ∧
  (∀ (s w : State) (p q : Nat) (r : ReadDs) (u : List Byte) (ds : Dataset), w = endOfDataset s p q → memberAt w p q = none →
     w.rc.ladder ≠ some (p, q) → readOf w p q = some r → r.decoded = false →
     (r.user = some u ∨ (r.user = none ∧ r.whole = true ∧ r.direct = u)) → parseDataset u = some ds → ds.part = p → ds.seq = q →
     headersOk w p q ds = true → r.recovered = false →
     exec (.datasetDecoded p q) s = .next (closeVisit (leaveRun (decodedS (mapHome w p q ds) p q ds) p q) p q))

/-- A dataset whose rows are not all there enters recovery once the head has passed it: steps 1 and 2 run on what is in staging; what they
recover is counted, and what they do not goes to the ladder; a member of a span being read goes into its syndromes (R332, R336, R337, R339,
R345). A ladder pass (R339, R341, R342): with the merged rows the dataset is recovered by step 3 and the transport given up; else the next
pass begins while passes and time are left, and without them the ladder is over; the time limit lets the pass in progress be the last. The end
of a span read: with at most two members missing, the target among them, C3 rebuilds them by step 4; with more the span is read once more
(R344, R345). -/
def Obligations.ReadRecovery : Prop :=
  ((∀ (s w : State) (p q : Nat) (r : ReadDs), w = endOfDataset (openRead s p q) p q → readOf w p q = some r →
     (∀ i, memberAt w p q = some i → exec (.recoveryEntry p q) s = .next (takeMember w i)) ∧
     (memberAt w p q = none → r.whole = false → r.step = 0 → r.decoded = false → (r.rows ≠ [] ∨ w.rcl.run.head? ≠ some (p, q)) →
       let v := runSteps (modRead w p q fun r => { r with step := 1 }) p q
       exec (.recoveryEntry p q) s = .next (match v.2.1 with
         | some usr => recovered v.1 p q (if v.2.2 = true then 2 else 1) usr false
         | none => enterLadder v.1 p q))) ∧
   (∀ (s : State) (p q : Nat) (r : ReadDs) (usr : List Byte) (c : Bool), readOf s p q = some r →
     (recovered s p q 1 usr c).rc.step1 = min 65535 (s.rc.step1 + 1) ∧ (recovered s p q 2 usr c).rc.step2 = min 65535 (s.rc.step2 + 1) ∧
     (recovered s p q 3 usr c).rc.step3 = min 65535 (s.rc.step3 + 1) ∧ (recovered s p q 4 usr c).rc.step4 = min 65535 (s.rc.step4 + 1) ∧
     ∀ n, (readOf (recovered s p q n usr c) p q).map (fun d => (d.user, d.step, d.recovered)) = some (some usr, n, decide (n ≥ 3)))) ∧
  ((∀ (s : State) (p q : Nat) (held found : Bool), s.rc.ladder = some (p, q) → s.rc.span = none → s.glb.restarting = none →
     (∀ r, readOf s p q = some r → r.step ≠ 4) →
     let v := runSteps (endPass (modRead s p q fun r => { r with pass := r.pass + 1, heldServo := r.heldServo || held })) p q
     (∀ usr, v.2.1 = some usr → exec (.ladderPassDone p q held found) s = .next (leaveLadder (recovered v.1 p q 3 usr false))) ∧
     (v.2.1 = none → ∀ r, readOf v.1 p q = some r →
       let w := noteLast v.1 p q 3
       (r.pass < setN w 0x212A 1 → r.limited = false → timeOver w r = false →
         exec (.ladderPassDone p q held found) s = .next (beginPass w (r.pass + 1))) ∧
       (setN w 0x212A 1 ≤ r.pass ∨ r.limited = true ∨ timeOver w r = true →
         let a := ladderOver (modRead w p q fun k => { k with limited := k.limited || decide (r.pass < setN w 0x212A 1) }) p q
         exec (.ladderPassDone p q held found) s = .next (if a.2 = true then leaveLadder a.1 else a.1)))) ∧
   (∀ (s : State) (p q : Nat) (r : ReadDs), readOf s p q = some r → r.step = 3 → r.user = none →
       r.step3At + setN s 0x212A 3 * 216000 < s.now →
       exec (.recoveryTimeLimitExpiry p q) s = .next (modRead s p q fun r => { r with limited := true }))) ∧
  (∀ (s : State) (p q : Nat) (held : Bool) (sp sp' : SpanRead) (r : ReadDs),
     s.rc.span = some sp → sp.part = p → sp.seq = q → s.glb.restarting = none →
     let v := (spanPositions sp.count).foldl takeMember
       (modRead s p q fun r => { r with spanReads := r.spanReads + 1, spanLost := r.spanLost + b2n (!held) })
     let missing := (spanPositions sp'.count).filter fun i => !sp'.done.contains i
     let at_ := if q - sp'.first < sp'.count then q - sp'.first else 30 + (q - sp'.first - sp'.count)
     v.rc.span = some sp' → readOf v p q = some r →
     (2 < missing.length → r.spanReads < 2 → exec (.spanReadDone p q held) s = .next (beginPass v 2)) ∧
     (∀ (xs : List (Nat × List Byte)) (u : List Byte), missing.length ≤ 2 → missing.contains at_ = true →
       sp'.rebuild missing = some xs → (xs.find? fun x => x.1 == at_) = some (at_, u) →
       let w := recovered (modRead v p q fun r => { r with missing := missing.length }) p q 4 u true
       exec (.spanReadDone p q held) s = .next (leaveLadder (dropSpanReads (reallocRebuilt { w with
         rc.step4 := min 65535 (w.rc.step4 + xs.countP fun x => x.1 != at_) } p q sp' xs) sp'))))

/-! ## Admin commands -/

/-- IDENTIFY, GET_LOG and OD_READ of an admitted entry send their data to the host and complete with OK (R108, R113, R124). -/
def Obligations.InquiriesAnswer : Prop :=
  ∀ (s s₁ : State) (u : Sub) (c : Cmd), admitOne s u = .run s₁ c →
    (opcode u.sqe = 0x01 →
      (sqeBytes c.sqe 28 1 = 0 →
        exec (.identify u) s = .next (finish (toHost s₁ c (identifyFn s₁ c.fn)) c { status := stOk })) ∧
      (sqeBytes c.sqe 28 1 = 1 → c.fn = 0 →
        exec (.identify u) s = .next (finish (toHost s₁ c (identifyDev s₁)) c { status := stOk })) ∧
      (sqeBytes c.sqe 28 1 = 1 → c.fn ≠ 0 → exec (.identify u) s = .next (finish s₁ c { status := stAccessDenied }))) ∧
    (opcode u.sqe = 0x04 → ∀ bs, logPage s₁ c.fn (sqeBytes c.sqe 28 1) = some bs →
      (c.fn = 0 ∨ sqeBytes c.sqe 28 1 < 3) → sqeBytes c.sqe 48 4 + lengthField c.sqe ≤ bs.length →
      exec (.getLog u) s = .next (finish (toHost s₁ c (slice bs (sqeBytes c.sqe 48 4) (lengthField c.sqe))) c
        { status := stOk, info := lengthField c.sqe })) ∧
    (opcode u.sqe = 0x30 → ∀ (e : OdEntry) (v : State) (bs : List Byte),
      odFind (sqeBytes c.sqe 28 2) (sqeBytes c.sqe 30 1) = some e → (c.fn = 0 ∨ vfIndex (sqeBytes c.sqe 28 2) = true) →
      e.acc ≠ .wo → e.var = false → lengthField c.sqe = e.size →
      odRead s₁ (sqeBytes c.sqe 28 2) (sqeBytes c.sqe 30 1) = (v, .ok bs) →
      exec (.odRead u) s = .next (finish (toHost v c (fit e.size bs)) c { status := stOk, info := bs.length }))

/-- CREATE_QUEUE makes the queue of the entry, with its depths, bases, vector and class; DELETE_QUEUE drops the queue's commands and
waits; with none left, and none of their buffers held, the queue goes and the command completes (R58, R90, R109). ASSIGN_QUEUES gives the run of queue numbers to
the function, or takes it away; every other assignment stays (R110). -/
def Obligations.QueueNumbers : Prop :=
  ((∀ (s s₁ : State) (u : Sub) (c : Cmd) (g : Nat), admitOne s u = .run s₁ c → opcode u.sqe = 0x02 →
     namedQueue s₁ c = some g → createBad s₁ c.sqe c.fn g = none →
     ∃ x : Queue, x.g = g ∧ x.fn = c.fn ∧ x.cls = sqeBytes c.sqe 30 1 ∧ x.sqDepth = sqeBytes c.sqe 48 2 ∧
       x.cqDepth = sqeBytes c.sqe 50 2 ∧ x.head = 0 ∧ x.tail = 0 ∧ x.cqTail = 0 ∧ x.phase = true ∧ x.frozen = false ∧
       x.epoch = 0 ∧ exec (.createQueue u) s =
         .next (finish { s₁ with qe.queues := s₁.qe.queues ++ [x] } c { status := stOk })) ∧
   (∀ (s s₁ : State) (u : Sub) (c : Cmd) (x : Queue), admitOne s u = .run s₁ c → opcode u.sqe = 0x03 →
     (namedQueue s₁ c).bind (queueOf s₁) = some x → x.deleting = none →
     exec (.deleteQueue u) s = .next (dropQueue
       (setQueue (modCmd s₁ c.id fun c => { c with st := .waiting }) { x with deleting := some c.id }) x.g)) ∧
   (∀ (s : State) (g id : Nat) (x : Queue), queueOf s g = some x → x.deleting = some id →
     (∀ c ∈ s.qe.cmds, c.q = g → c.dropped = true ∧ bufsOut s c = false) →
     exec (.deleteQueueComplete g) s =
       .next (finishId { s with qe.queues := s.qe.queues.filter fun y => y.g != g } id { status := stOk }))) ∧
  (∀ (s s₁ : State) (u : Sub) (c : Cmd), admitOne s u = .run s₁ c →
     (opcode u.sqe = 0x06 → sqeBytes c.sqe 28 2 ≤ 255 → sqeBytes c.sqe 30 1 ≤ 1 → 1 ≤ sqeBytes c.sqe 50 2 →
       sqeBytes c.sqe 50 2 ≤ 4095 → configurable s₁ (sqeBytes c.sqe 28 2) = true → assignBad s₁ c.sqe = none →
       ∃ as : List Assign, exec (.assignQueues u) s = .next (finish { s₁ with qe.assigns := as } c { status := stOk }) ∧
         (∀ a ∈ as, sqeBytes c.sqe 48 2 ≤ a.g → a.g < sqeBytes c.sqe 48 2 + sqeBytes c.sqe 50 2 → sqeBytes c.sqe 30 1 = 0) ∧
         (sqeBytes c.sqe 30 1 = 0 → ∀ i, i < sqeBytes c.sqe 50 2 →
           { g := sqeBytes c.sqe 48 2 + i, fn := sqeBytes c.sqe 28 2, loc := sqeBytes c.sqe 52 2 + i } ∈ as) ∧
         (∀ a, (a.g < sqeBytes c.sqe 48 2 ∨ sqeBytes c.sqe 48 2 + sqeBytes c.sqe 50 2 ≤ a.g) →
           (a ∈ as ↔ a ∈ s₁.qe.assigns))))

/-- R111: SET_WINDOWS sets the windows of function FUNC and of no other; a COUNT above 4,096, a BASE + COUNT above 4,096 or a PREFIX
outside MASK ends with INVALID_FIELD; R112: a function that may not be configured ends it with FUNCTION_DISABLED. -/
def Obligations.WindowsSet : Prop :=
  ∀ (s s₁ : State) (u : Sub) (c : Cmd), admitOne s u = .run s₁ c → opcode u.sqe = 0x07 →
    let fn := sqeBytes c.sqe 28 2
    let pre := BitVec.ofNat 48 (sqeBytes c.sqe 32 6)
    let mask := BitVec.ofNat 48 (sqeBytes c.sqe 40 6)
    let base := bits (sqeBytes c.sqe 50 2) 0 12
    let count := bits (sqeBytes c.sqe 52 2) 0 13
    (fn ≤ 255 → base + count ≤ 4096 → pre &&& ~~~mask = 0 → configurable s₁ fn = true →
      exec (.setWindows u) s = .next (finish (setFn s₁ fn { fnOf s₁ fn with
        pmask := BitVec.ofNat 16 (sqeBytes c.sqe 48 2), prefix_ := pre, mask := mask, kbase := base, kcount := count }) c
          { status := stOk })) ∧
    ((4096 < count ∨ 4096 < base + count ∨ pre &&& ~~~mask ≠ 0) →
      ∃ d, exec (.setWindows u) s = .next (finish s₁ c { status := stInvalidField, d1 := d })) ∧
    (fn ≤ 255 → base + count ≤ 4096 → pre &&& ~~~mask = 0 → configurable s₁ fn = false →
      exec (.setWindows u) s = .next (finish s₁ c { status := stFunctionDisabled }))

/-- SET_POWER enters an allowed state at once when the device is idle, else it is deferred; the deferred state is entered when the
device is idle, or the command ends with POWER_ENTRY_ABANDONED at its limit (R91 to R93, R114). -/
def Obligations.PowerStates : Prop :=
  (∀ (s s₁ : State) (u : Sub) (c : Cmd), admitOne s u = .run s₁ c → opcode u.sqe = 0x05 → sqeBytes c.sqe 28 1 ≤ 3 →
    s₁.glb.setPower = none → sqeBytes c.sqe 28 1 ≠ s₁.glb.power → powerAllowed s₁ (sqeBytes c.sqe 28 1) = none →
    ((sqeBytes c.sqe 28 1 = 0 ∨ idleNow s₁ = true) → exec (.setPower u) s =
      .next (finish (setPowerState s₁ (sqeBytes c.sqe 28 1)) c { status := stOk, info := sqeBytes c.sqe 28 1 })) ∧
    (sqeBytes c.sqe 28 1 ≠ 0 → idleNow s₁ = false → setN s₁ 0x2140 1 ≠ 0 → exec (.setPower u) s =
      .next (modCmd { s₁ with glb.setPower := some (c.id, sqeBytes c.sqe 28 1) } c.id fun c => { c with st := .waiting }))) ∧
  (∀ (s : State) (id p : Nat), s.glb.setPower = some (id, p) →
    (idleNow s = true → powerAllowed s p = none → exec .powerStateEntry s =
      .next (finishId (setPowerState { s with glb.setPower := none } p) id { status := stOk, info := p })) ∧
    (∀ c, cmdOf s id = some c → c.since + setN s 0x2140 1 * 216000 ≤ s.now → exec .powerEntryLimitExpiry s =
      .next (finish { s with glb.setPower := none } c { status := stPowerEntryAbandoned })))

/-- R93: a SET_POWER that arrives while one is deferred is admitted past it and ends with INVALID_FIELD; the deferred one and the
power state stay. -/
def Obligations.SecondSetPower : Prop :=
  (∀ (s : State) (u : Sub) (q : Queue) (ds : List DescBits), queueOf s u.q = some q → mayAdmit s q = true →
    (∀ d ∈ s.qe.cmds, d.id ≠ s.qe.nextId) → opcode u.sqe = 0x05 → s.glb.setPower.isSome = true →
    entryCheck { s with qe.nextId := s.qe.nextId + 1, qe.cmds := s.qe.cmds ++ [newCmd s q u] } q u = .ok ds →
    ∃ s₁, admitOne s u = .run s₁ { newCmd s q u with descs := ds } ∧ s₁.glb = s.glb) ∧
  (∀ (s s₁ : State) (u : Sub) (c : Cmd), admitOne s u = .run s₁ c → opcode u.sqe = 0x05 → s₁.glb.setPower.isSome = true →
    ∃ t, exec (.setPower u) s = .next t ∧ t = finish s₁ c { status := stInvalidField, d1 := 28 } ∧
      t.glb.setPower = s₁.glb.setPower ∧ t.glb.power = s₁.glb.power)

/-- A key that unwraps under the key-encryption key its blob names is held in its empty slot; one that does not, or a place without a
key-encryption key, ends with KEY_UNWRAP_FAILED; KEY_CLEAR empties the slot once no admitted command uses it (R122, R123, R221). -/
def Obligations.KeysLoadAndClear : Prop :=
  (∀ (s s₁ : State) (u : Sub) (c : Cmd), admitOne s u = .run s₁ c → opcode u.sqe = 0x20 → keyOf s₁ (keySlot c.sqe) = none →
    (∀ kek k, storedKek s₁ (unle (slice (fit 64 u.data) 40 2)) = some kek → kwUnwrap kek (slice (fit 64 u.data) 0 40) = some k →
      exec (.keyLoad u) s = .next (finish { s₁ with
        tg.keys := s₁.tg.keys ++ [{ slot := keySlot c.sqe, key := BitVec.ofNat 256 (unbe k) }] } c { status := stOk })) ∧
    ((storedKek s₁ (unle (slice (fit 64 u.data) 40 2)) = none ∨
        ∃ kek, storedKek s₁ (unle (slice (fit 64 u.data) 40 2)) = some kek ∧ kwUnwrap kek (slice (fit 64 u.data) 0 40) = none) →
      exec (.keyLoad u) s = .next (finish s₁ c { status := stKeyUnwrapFailed }))) ∧
  (∀ (s s₁ : State) (u : Sub) (c : Cmd) (k : KeySlot), admitOne s u = .run s₁ c → opcode u.sqe = 0x21 →
    keyOf s₁ (keySlot c.sqe) = some k →
    (∀ d ∈ s₁.qe.cmds, d.dropped = false → [0x40, 0x41, 0x42].contains (opcode d.sqe) = true → tagBit d.sqe = true →
      keySlot d.sqe ≠ keySlot c.sqe) →
    ∃ t, exec (.keyClear u) s = .next t ∧ keyOf t (keySlot c.sqe) = none) ∧
  (∀ (s : State) (n id : Nat) (k : KeySlot), keyOf s n = some k → k.clearing = some id → slotUsed s n id = false →
    ∃ t, exec (.keyClearComplete n) s = .next t ∧ keyOf t n = none ∧ t.tg.keys = s.tg.keys.filter fun k => k.slot != n)

/-- OD_WRITE of PF0 to an entry that holds a setting, with a length and a value that the entry and the rules that bind it allow, outside
a session too where the entry is not locked, stores it and completes with OK; OD_WRITE of any entry completes with the outcome of
the write (R124, R125). A setting that is written reads as written, in force at once, and no other setting changes (R125). -/
def Obligations.SettingsWritten : Prop :=
  (∀ (s s₁ : State) (u : Sub) (c : Cmd), admitOne s u = .run s₁ c → opcode u.sqe = 0x31 →
     let idx := sqeBytes c.sqe 28 2
     let sub := sqeBytes c.sqe 30 1
     let bs := fit (lengthField c.sqe) u.data
     (∀ e : OdEntry, ((0x2000 ≤ idx ∧ idx < 0x2200) ∨ (0x4000 ≤ idx ∧ idx < 0x5000)) → odFind idx sub = some e →
       (e.acc = .rw ∨ (e.acc = .lk ∧ sessionOpen s₁ = true)) → e.usb = false → e.sess = false → e.var = false →
       lengthField c.sqe = e.size → odInRange e bs = true → mapObjects.contains idx = false →
       bindsOk (odPutIn (odKey idx sub) bs e.dflt s₁.od) idx = true → cmdOf s₁ c.id = some c →
       exec (.odWrite u) s = .next (finish (odPut s₁ idx sub e bs) c { status := stOk })) ∧
     (∀ (v : State) (o : OdOut) (d : Cmd), odWrite s₁ .pcie idx sub bs u.world = (v, o) → cmdOf v c.id = some d →
       ∃ d1, exec (.odWrite u) s = .next (finish v d { status := o.status, d1 })) ∧
     (odFind idx sub = none → cmdOf s₁ c.id = some c →
       exec (.odWrite u) s = .next (finish s₁ c { status := stInvalidField, d1 := 28 }))) ∧
  (∀ (s t : State) (p : Path) (idx sub : Nat) (bs : List Byte) (w : CmdWorld),
     ((0x2000 ≤ idx ∧ idx < 0x2200) ∨ (0x4000 ≤ idx ∧ idx < 0x5000)) → odWrite s p idx sub bs w = (t, .ok) →
     odVal t idx sub = bs ∧ ∀ i j, odKey i j ≠ odKey idx sub → odVal t i j = odVal s i j)

/-- R98, R99: an event completes the oldest EVENT_WAIT with OK, its code and sequence in the CQE, or waits in the queue, or, when 64
wait, is counted; EVENT_WAIT takes the oldest waiting event, waits while fewer than four do, and is the fifth INVALID_FIELD;
with space again one EVENTS_LOST carries the count, which returns to 0. -/
def Obligations.EventsDelivered : Prop :=
  (∀ (s : State) (n code scope part : Nat) (ps : List Byte),
    let f := fnOf s n
    (f.events.length < 64 →
      (∀ w r c, f.waits = w :: r → cmdOf s w = some c →
        ∃ t, queueFor1 s n code scope part ps =
            finish t c { status := stOk, info := code + 65536 * ((f.evSeq + 1) % 2 ^ 32) } ∧
          (fnOf t n).waits = r ∧ (fnOf t n).events = f.events ∧ t = { s with qe.fns := t.qe.fns }) ∧
      (f.waits = [] → ∃ e : EvRec, (fnOf (queueFor1 s n code scope part ps) n).events = f.events ++ [e] ∧ e.code = code ∧
        e.seq = f.evSeq + 1 ∧ e.params = ps)) ∧
    (64 ≤ f.events.length →
      queueFor1 s n code scope part ps = setFn s n { f with evLost := min (2 ^ 32 - 1) (f.evLost + 1) })) ∧
  (∀ (s s₁ : State) (u : Sub) (c : Cmd), admitOne s u = .run s₁ c → opcode u.sqe = 0x3F →
    let f := fnOf s₁ c.fn
    (f.events = [] → f.waits.length < 4 → exec (.eventWait u) s =
      .next (modCmd (setFn s₁ c.fn { f with waits := f.waits ++ [c.id] }) c.id fun c => { c with st := .waiting })) ∧
    (f.events = [] → 4 ≤ f.waits.length → exec (.eventWait u) s = .next (finish s₁ c { status := stInvalidField })) ∧
    (∀ e r, f.events = e :: r →
      let v := finish (setFn s₁ c.fn { f with events := r }) c { status := stOk, info := e.code + 65536 * (e.seq % 2 ^ 32) }
      (f.evLost = 0 → exec (.eventWait u) s = .next v) ∧
      (0 < f.evLost → f.waits = [] → r.length < 64 → ∃ t l, exec (.eventWait u) s = .next t ∧ (fnOf t c.fn).evLost = 0 ∧
        (fnOf t c.fn).events = r ++ [l] ∧ l.code = evEventsLost ∧ l.params = evParams [(20, le 4 f.evLost)])))

/-- R118: 16 entries of 64 bytes go to the host, entry p for partition p, zero for a partition that does not exist or lies outside
the mask of the issuer, else with the place, the version, the SEQ of end of data and the positions left before the reserve. With no dataset
of it waiting for its first writing, end of data is the next SEQ to be sealed. A partition in
creation, or freed, does not exist yet, or no more. -/
def Obligations.PartitionListed : Prop :=
  ∀ (s s₁ : State) (u : Sub) (c : Cmd), admitOne s u = .run s₁ c → opcode u.sqe = 0x12 →
    exec (.partitionList u) s =
      .next (finish (toHost s₁ c ((List.range 16).flatMap (listEntry s₁ c.fn))) c { status := stOk, info := existsMask s₁ }) ∧
    ∀ p, (listEntry s₁ c.fn p).length = 64 ∧
      ((fnOf s₁ c.fn).pmask.getLsbD p = false ∨ (∀ x, partOf s₁ p = some x → x.shadow = true) → listEntry s₁ c.fn p = zeros 64) ∧
      (∀ x, partOf s₁ p = some x → x.shadow = false → (fnOf s₁ c.fn).pmask.getLsbD p = true →
        (slice (listEntry s₁ c.fn p) 0 1).map (fun b => b.getLsbD 0) = [true] ∧
        slice (listEntry s₁ c.fn p) 1 3 = le 1 x.firstPair ++ le 2 x.pairs ∧ slice (listEntry s₁ c.fn p) 8 8 = le 8 x.version ∧
        slice (listEntry s₁ c.fn p) 16 8 = le 8 (endSeq s₁ x) ∧ slice (listEntry s₁ c.fn p) 24 8 = le 8 x.freePositions ∧
        ((∀ w ∈ s₁.fm.sealed, w.ds.part = p → w.attempt ≠ 0 ∨ w.ended = true) → endSeq s₁ x = x.nextSeq))

/-! ## I/O commands -/

/-- A WRITE that passes its checks takes the partition's next version and is cut into pieces of 64 MiB (R22, R33, R127). READ,
VERIFY, STREAM_STAT and RECALL_HINT that pass their checks are pinned to the partition's version and start, unless a BARRIER or
a range lock holds them (R23, R77, R79, R130, R131). -/
def Obligations.IoCommandsStart : Prop :=
  (∀ (s s₁ : State) (u : Sub) (c : Cmd) (x : Part), admitOne s u = .run s₁ c → opcode u.sqe = 0x40 → cmdOf s₁ c.id = some c →
     ioRefused s₁ c.sqe = none → partOf s₁ (partition c.sqe) = some x → almanacFull s₁ = false → x.version + 1 < topVersion →
     s₁.glb.power = 0 → tapeFault s₁ = none →
     ∃ t, exec (.write u) s = .next t ∧ (partOf t (partition c.sqe)).map Part.version = some (x.version + 1) ∧
       (cmdOf t c.id).map (fun d => (d.version, d.pieces)) = some (x.version + 1, cutPieces (rangeLen c.sqe)) ∧
       t.media = s₁.media ∧ t.bpm = s₁.bpm ∧ t.out = s₁.out) ∧
  (∀ (s s₁ : State) (u : Sub) (c : Cmd) (x : Part), admitOne s u = .run s₁ c → cmdOf s₁ c.id = some c → c.sqe = u.sqe →
     ioRefused s₁ c.sqe = none → partOf s₁ (partition c.sqe) = some x → s₁.glb.power = 0 →
     let v := modCmd s₁ c.id fun c => { c with version := pinOf s₁ x }
     let d := { c with version := pinOf s₁ x }
     (opcode u.sqe = 0x41 → rangeWritten v d = true → exec (.read u) s = .next (holdOrStart (takeLock v d) c.id)) ∧
     (opcode u.sqe = 0x41 → rangeWritten v d = false → exec (.read u) s = .next (finish v d { status := stRangeNotWritten })) ∧
     (opcode u.sqe = 0x42 → rangeWritten v d = true → exec (.verify u) s = .next (holdOrStart (takeLock v d) c.id)) ∧
     (opcode u.sqe = 0x44 → behindBarrier (takeLock v d) d = false → lockedOutBy (takeLock v d) c.id = false →
       exec (.streamStat u) s = .next (streamStatRun (modCmd (takeLock v d) c.id fun c => { c with st := .running }) d)) ∧
     (opcode u.sqe = 0x45 → behindBarrier s₁ c = false → lockedOutBy s₁ c.id = false →
       exec (.recallHint u) s = .next (recallHintRun
         (modCmd (modCmd s₁ c.id fun c => { c with scan := x.version }) c.id fun c => { c with st := .running })
         { c with scan := x.version })))

/-- BARRIER meets the checks of every I/O command (R127); with nothing earlier of its SQ in flight it completes, with something it
waits; what it held then starts; a command held by a range lock starts once no earlier overlapping entry remains (R77, R79). One
read of the admin queue that arbitration serves next, of one entry that is admitted and does not freeze the SQ: SQ_HEAD moves
behind it and the entry's command runs, here an IDENTIFY to its end (R70, R71, R81, R108). -/
def Obligations.HeldCommandsGoOn : Prop :=
  ((∀ (s s₁ : State) (u : Sub) (c : Cmd), admitOne s u = .run s₁ c → opcode u.sqe = 0x43 → c.sqe = u.sqe →
     (ioRefused s₁ c.sqe = none → cmdsOf s₁ c.q = [c] → exec (.barrier u) s = .next
       (finish (modCmd s₁ c.id fun c => { c with st := .waiting }) { c with st := .waiting } { status := stOk })) ∧
     (ioRefused s₁ c.sqe = none → ((cmdsOf s₁ c.q).find? fun d => opcode d.sqe == 0x43) = some c → earlierCmds s₁ c.q c.id ≠ [] →
       exec (.barrier u) s = .next (modCmd s₁ c.id fun c => { c with st := .waiting })) ∧
     (∀ e, ioRefused s₁ c.sqe = some e → exec (.barrier u) s = .next (finish s₁ c { status := e.1, d1 := e.2 })) ∧
     (notMounted s₁ = true → exec (.barrier u) s = .next (finish s₁ c { status := stNotMounted }))) ∧
   (∀ (s : State) (g : Nat) (b : Cmd), ((cmdsOf s g).find? fun c => opcode c.sqe == 0x43) = some b →
     earlierCmds s g b.id = [] → (∀ c ∈ s.qe.cmds, c.st ≠ .barrierHeld) →
     exec (.barrierComplete g) s = .next (finish s b { status := stOk })) ∧
   (∀ (s : State) (id : Nat) (c : Cmd), cmdOf s id = some c → c.st = .lockHeld → lockedOutBy s id = false →
     exec (.rangeLockWaitEnd id) s = .next (startIo s id) ∧
     (opcode c.sqe = 0x40 → startIo s id = modCmd s id fun c => { c with st := .running }))) ∧
  (∀ (s : State) (u : Sub) (g : Nat) (q : Queue), arbiter s = some g → queueOf s g = some q → q.cls = 2 → 1 ≤ waitingIn q →
     let v := headAt (modQueue { s with qe.lastAdmin := g } g fun q => { q with adminWait := false }) g q.head 1
     let t := runSub v { u with q := g }
     (t.qe.nextId ≠ s.qe.nextId → (queueOf t g).map Queue.frozen = some false → exec (.sqeFetch g [u]) s = .next t) ∧
     (∀ s₁ c, admitOne v { u with q := g } = .run s₁ c → opcode u.sqe = 0x01 → sqeBytes c.sqe 28 1 = 0 →
       exec (.sqeFetch g [u]) s = .next (finish (toHost s₁ c (identifyFn s₁ c.fn)) c { status := stOk })))

/-! ## Registers, settings, the object dictionary -/

/-- Registers (R10 to R12, R554 to R566): an access that reaches none is counted for its function, and a read of it returns 0;
counters that a read clears read as they were; RSTCAUSE and ISTAT are cleared by ones; a weight is kept for its function alone;
the low word of a 64-bit counter latches its high word; ICFG sends the vector for a bit that is set and newly enabled, unless it is
masked; CHOPF is
cleared in a session, else the write is counted. -/
def Obligations.RegistersAnswer : Prop :=
  (∀ (s : State) (fn : Nat) (o : BitVec 25) (rd : Bool), ∃ t, exec (.accessError fn o rd) s = .next t ∧
    (fnOf t fn).accCount = min 127 ((fnOf s fn).accCount + 1) ∧ (fnOf t fn).accOffset = o ∧
    (∀ n, n ≠ fn → fnOf t n = fnOf s n) ∧ (rd = true → Emit.regRead fn o.toNat 0 ∈ t.out) ∧
    (fn = 0 → (fnOf s 0).accCount = 0 → t.glb.istat.getLsbD 4 = true)) ∧
  (∀ (s : State) (fn off : Nat) (v : Word), off < 2 ^ 25 → (off % 4 ≠ 0 ∨ placeOf fn off = none) →
    exec (.registerReadClear fn off) s = exec (.accessError fn (BitVec.ofNat 25 off) true) s ∧
    exec (.registerWrite fn off v) s = exec (.accessError fn (BitVec.ofNat 25 off) false) s) ∧
  (∀ s : State, exec (.registerReadClear 0 0x20000) s = .next { s with
    bpm.rejects := 0, out := Emit.regRead 0 0x20000 (BitVec.ofNat 32 s.bpm.rejects) :: s.out }) ∧
  (∀ (s : State) (v : Word), exec (.registerWrite 0 0x20 v) s = .next { s with
      glb.rstCause := s.glb.rstCause &&& ~~~(v.setWidth 5) } ∧
    exec (.registerWrite 0 0x24 v) s = .next { s with glb.istat := s.glb.istat &&& ~~~(v.setWidth 7) }) ∧
  (∀ (s : State) (n : Nat) (v : Word), n < 256 → ∃ t, exec (.registerWrite 0 (0x14000 + 16 * n) v) s = .next t ∧
    fnOf t n = { fnOf s n with weight := v.setWidth 8 } ∧ (∀ m, m ≠ n → fnOf t m = fnOf s m) ∧
    t = { s with qe.fns := t.qe.fns }) ∧
  (∀ s : State, exec .tgCtrloRead s = .next { s with
      tg.ctrHi := BitVec.ofNat 32 (s.tg.counter >>> 32),
      out := Emit.regRead 0 0x40010 (BitVec.ofNat 32 s.tg.counter) :: s.out } ∧
    exec .mtTimeloRead s = .next { s with
      mt.timeHi := BitVec.ofNat 32 (meridian s >>> 32),
      out := Emit.regRead 0 0xD0000 (BitVec.ofNat 32 (meridian s)) :: s.out }) ∧
  (∀ (s : State) (fn : Nat), ∃ t, exec (.mirTimeloRead fn) s = .next t ∧
    fnOf t fn = { fnOf s fn with mirTimeHi := BitVec.ofNat 32 (meridian s >>> 32) } ∧
    t.out = Emit.regRead fn (if fn = 0 then 0x800008 else 0x1008) (BitVec.ofNat 32 (meridian s)) :: s.out ∧
    t = { s with qe.fns := t.qe.fns, out := t.out }) ∧
  (∀ (s : State) (v : Word), ∃ t, exec (.glbIcfgWrite v) s = .next t ∧
    t.glb = { s.glb with icfgVector := v.setWidth 8, icfgEnable := v.extractLsb' 16 7 } ∧
    (s.glb.istat &&& v.extractLsb' 16 7 &&& ~~~s.glb.icfgEnable ≠ 0 → (fnOf s 0).d3hot = false →
      vectorMasked (fnOf s 0) (v.setWidth 8).toNat = false → t.out = Emit.msix 0 (v.setWidth 8).toNat :: s.out)) ∧
  (∀ s : State, (sessionOpen s = true → s.ps.chopF = true →
      exec .chopperFaultClear s = .next { s with ps.chopF := false, ce.aLimit := none }) ∧
    (sessionOpen s = false → exec .chopperFaultClear s = exec (.accessError 0 0xA0000 false) s))

/-- The mailbox (R566): while Lodestar serves it, GO runs the request as OD_WRITE or OD_READ of PF0 and ends with DONE and the
status; while Lodestar restarts the write is discarded; in Twilight it ends with TWILIGHT. USDO (R484): a transfer whose last
frame has come is served through the object dictionary and answered; one that goes on holds its client's session; a session
without a frame for 1 s is closed with the abort code of a time-out. SAVE_PARAMETERS changes nothing; a restore of defaults is
noted for the next reset (R483). -/
def Obligations.TransfersServed : Prop :=
  (∀ (s : State) (v : Word) (w : CmdWorld),
     let u := { s with ls.index := v.setWidth 16, ls.sub := v.extractLsb' 16 8, ls.wr := v.getLsbD 24 }
     let i := (v.setWidth 16).toNat
     let j := (v.extractLsb' 16 8).toNat
     (lsServes s = true → 1 ≤ s.ls.len.toNat → s.ls.len.toNat ≤ 2048 →
       (v.getLsbD 24 = true → exec (.mailboxGo v w) s =
         .next (mbDone (odWrite u .mailbox i j (mbBytes u s.ls.len.toNat) w).1
           (odWrite u .mailbox i j (mbBytes u s.ls.len.toNat) w).2.status)) ∧
       (v.getLsbD 24 = false → ∀ (e : OdEntry) (r : State) (bs : List Byte), odFind i j = some e → e.acc ≠ .wo → e.var = false →
         s.ls.len.toNat = e.size → odRead u i j = (r, .ok bs) →
         exec (.mailboxGo v w) s = .next (mbDone (mbFill r (fit e.size bs)) stOk))) ∧
     (lsServes s = false → s.glb.twilight = none → exec (.mailboxGo v w) s = .next s) ∧
     (s.glb.twilight.isSome = true → exec (.mailboxGo v w) s = .next { u with ls.done := true, ls.status := stTwilight })) ∧
  ((∀ (s : State) (p : Path) (client idx sub : Nat) (bs : List Byte) (w : CmdWorld), lsServes s = true → usdoPath s p = true →
     (p = .can → (s.fi.sessions.countP fun x => x.1 != usbClient) < 4) →
     let k := usdoKey p client
     let u := closeSession (seeVbus s p) k
     ((idx ≠ 0x5010 ∨ (odWrite u p idx sub bs w).2 ≠ .ok) → exec (.usdoDownload p client idx sub bs true w) s =
       .next (emit (odWrite u p idx sub bs w).1 (Emit.usdoReply k (odWrite u p idx sub bs w).2.abort []))) ∧
     (∀ t v, odRead u idx sub = (t, .ok v) →
       exec (.usdoUpload p client idx sub true) s = .next (emit t (Emit.usdoReply k 0 v))) ∧
     (exec (.usdoDownload p client idx sub bs false w) s = .next { u with fi.sessions := (k, s.now) :: u.fi.sessions } ∧
       exec (.usdoUpload p client idx sub false) s = .next { u with fi.sessions := (k, s.now) :: u.fi.sessions })) ∧
   (∀ (s : State) (k t : Nat), (s.fi.sessions.find? fun x => x.1 == k) = some (k, t) → t + 1000 * 216000 ≤ s.now →
     exec (.usdoSessionTimeout k) s = .next { s with
       fi.sessions := s.fi.sessions.filter fun x => x.1 != k, out := Emit.usdoReply k 0x05040000 [] :: s.out }) ∧
   (∀ (s : State) (v : Word), exec (.saveParameters v) s = .next s) ∧
   (∀ (s : State) (n : Nat), lsServes s = true → 1 ≤ n → n ≤ 3 → (n = 1 → sessionOpen s = true) →
     exec (.restoreDefaultParameters n 0x64616F6C) s =
       .next { s with flash.restore := s.flash.restore ||| BitVec.ofNat 3 (2 ^ (n - 1)) }))

/-! ## The cartridge -/

/-- MOUNT (R119, R523), for a host or for the library (R480): a condition that fails ends it with its status; a step that fails
leaves nothing mounted; a read-only MOUNT then is over and the cartridge mounted; a read-write one goes on with its span closures
and checkpoints (R49, R182), and is over once they are on tape. A library request under the sequence last taken does nothing. -/
def Obligations.CartridgeMounts : Prop :=
  (∀ (s s₁ : State) (u : Sub) (c : Cmd) (w : MountWorld), admitOne s u = .run s₁ c → opcode u.sqe = 0x18 →
    let ro := (sqeBytes c.sqe 28 1) % 2 == 1
    (∀ st, mountRefused s₁ w = some st → exec (.mount u w) s = .next (finishId s₁ c.id { status := st })) ∧
    (mountRefused s₁ w = none → ∀ v st, mountSteps (wake s₁) w = (v, some st) →
      ∃ t, exec (.mount u w) s = .next t ∧ t.media.mount = 0 ∧ t.nw.permit = false ∧ t.fm.parts = []) ∧
    (mountRefused s₁ w = none → ∀ v, mountSteps (wake s₁) w = (v, none) →
      let m := mountTape v ro w
      (ro = true → exec (.mount u w) s = .next (finishMount m.1 (some c.id) none true m.2 w.peer)) ∧
      (m.1.fm.parts = [] → exec (.mount u w) s = .next (finishMount m.1 (some c.id) none ro m.2 w.peer)) ∧
      (ro = false → (∃ x ∈ m.1.fm.parts, x.faultWp = false) → retiredCount m.1 ≤ 4 → ∃ t, exec (.mount u w) s = .next t ∧
        t.media.op = some (.mount (some c.id) none m.2 { fails := w.unloadFails } w.peer) ∧ t.media.mount = m.1.media.mount))) ∧
  ((∀ (s : State) (cmd lib : Option Nat) (ro : Bool) (info : Nat) (peer : Option PeerInfo),
     (finishMount s cmd lib ro info peer).media.mount = (if ro = true then 2 else 1) ∧
     (finishMount s cmd lib ro info peer).media.op = none) ∧
   (∀ (s : State) (cmd lib : Option Nat) (info : Nat) (w : UnloadWorld) (peer : Option PeerInfo), motionStop s = false →
     (∀ x ∈ s.fm.parts, x.ckptWant = false ∧ x.ckptCur = none) → s.fm.sealed = [] → s.fm.wstate = 0 →
     advanceMount s cmd lib info w peer = finishMount s cmd lib false info peer)) ∧
  (∀ (s : State) (q : Nat) (w : LibWorld), q ≠ s.fi.libSeq → s.glb.twilight = none → s.media.op = none →
    (∀ v, let u := { s with fi.libSeq := q, fi.libCode := 1 }
      mountRefused u w.mount = none → mountSteps (wake u) w.mount = (v, none) → exec (.libraryMountReadWrite q w) s =
        .next (mountWrites (mountTape v false w.mount).1 none (some q) false (mountTape v false w.mount).2 w.mount)) ∧
    (∀ v, let u := { s with fi.libSeq := q, fi.libCode := 2 }
      mountRefused u w.mount = none → mountSteps (wake u) w.mount = (v, none) → exec (.libraryMountReadOnly q w) s =
        .next (finishMount (mountTape v true w.mount).1 none (some q) true (mountTape v true w.mount).2 w.mount.peer))) ∧
  (∀ (s : State) (q info : Nat) (ro : Bool) (peer : Option PeerInfo), let t := finishMount s none (some q) ro info peer
    t.fi.resSeq = q ∧ t.fi.resStatus = stOk ∧ t.fi.resState = 2) ∧
  (∀ (s : State) (w : LibWorld), exec (.libraryMountReadWrite s.fi.libSeq w) s = .next s ∧
    exec (.libraryMountReadOnly s.fi.libSeq w) s = .next s)

/-- UNMOUNT (R120, R480, R585) takes the media lock, for a host or for the library; once everything is on tape it moves
the tape itself, and its end leaves nothing mounted. In Twilight the
library's rewind-and-unload brings the cartridge to the eject position (R506). The grip wait limit ends what waits for the
transport with MEDIA_BUSY (R487); mount records follow the checkpoints (R525); the sensors show a cartridge coming and going
(R521). -/
def Obligations.CartridgeUnloads : Prop :=
  ((∀ (s s₁ : State) (u : Sub) (c : Cmd) (w : UnloadWorld), admitOne s u = .run s₁ c → opcode u.sqe = 0x19 → s₁.media.op = none →
     (s₁.media.mount = 0 → exec (.unmount u w) s = .next (finishId s₁ c.id { status := stNotMounted })) ∧
     (s₁.media.mount ≠ 0 → s₁.nw.state = 0 → s₁.ce.safe = false → s₁.rcl.visits = [] → s₁.rcl.hints = [] → s₁.fm.reallocs = [] →
       exec (.unmount u w) s =
         .next (wake { s₁ with media.op := some (.unmount (some c.id) none ((sqeBytes c.sqe 28 1) % 2 == 1) w 0) }))) ∧
   (∀ (s : State) (q : Nat) (w : LibWorld), q ≠ s.fi.libSeq → s.glb.twilight = none → s.media.op = none → s.media.mount ≠ 0 →
     s.nw.state = 0 → s.ce.safe = false → s.rcl.visits = [] → s.rcl.hints = [] → s.fm.reallocs = [] →
     let taken := fun (n : Nat) (eject : Bool) => { wake { s with
       fi.libSeq := q, fi.libCode := n, media.op := some (.unmount none (some q) eject w.unload 0) } with
       fi.resState := 1, fi.resSeq := q }
     exec (.libraryUnmount q w) s = .next (taken 3 false) ∧ exec (.libraryUnmountEject q w) s = .next (taken 4 true) ∧
       exec (.rewindAndUnload q w) s = .next (taken 5 true)) ∧
   (∀ (s : State) (q : Nat) (w : LibWorld), q ≠ s.fi.libSeq → s.glb.twilight.isSome = true → s.nw.state = 0 → s.ce.safe = false →
     w.unload.fails = none →
     ∃ t, exec (.rewindAndUnload q w) s = .next t ∧ t.fi.resSeq = q ∧ t.fi.resStatus = stOk ∧ t.fi.resState = 2 ∧
       t.media.seated = false ∧ t.media.threaded = false ∧ t.media.mount = 0 ∧ Emit.motion 2 ∈ t.out) ∧
   (∀ (s : State) (cmd lib : Option Nat) (eject : Bool) (w : UnloadWorld), motionStop s = false →
     (writerDone s = true → s.ce.vref = 0 → advanceUnmount s cmd lib eject w 2 =
       { s with media.op := some (.unmount cmd lib eject w 3), ce.media := true }) ∧
     let t := advanceUnmount s cmd lib eject w 3
     t.media.mount = 0 ∧ t.media.op = none ∧ t.fm.parts = [] ∧ t.fm.almanac = [])) ∧
  ((∀ (s : State) (t : Nat) (cmd lib : Option Nat) (eject : Bool) (w : UnloadWorld) (ph : Nat), s.nw.waitSince = some t →
     elapsed s t (setN s 0x6020 1) = true → s.media.op = some (.unmount cmd lib eject w ph) →
     exec .gripWaitLimitExpiry s = .next (mediaDone { s with nw.waitSince := none, media.op := none } cmd lib stMediaBusy 0)) ∧
   (∀ (s : State) (p f : Nat) (x : Part) (k : Cart) (d : TapeDs), partOf s p = some x → x.lastCkpt = some f →
     s.media.cart = some k → newestOf (k.tape.filter fun t => t.ds.part == p) f = some d → s.glb.restarting = none →
     s.glb.twilight = none → (∀ r ∈ s.flash.mounts, r.serial = serialOf s → r.part = p → elapsed s r.at_ 60000 = true ∧ r.seq ≠ f) →
     ∃ t, exec (.mountRecordUpdate p) s = .next t ∧ t = { s with flash.mounts := t.flash.mounts } ∧
       { serial := serialOf s, part := p, seq := f, wrap := d.wrap, lpos := d.lpos, at_ := s.now } ∈ t.flash.mounts) ∧
   (∀ (s : State) (b : BitVec 4),
     (s.nw.sns.getLsbD 0 = false → b.getLsbD 0 = true → s.media.cart = none → ∃ t k, exec (.snsChange b) s = .next t ∧
       t.nw.sns = b ∧ t.media.cart = some k ∧ k.tape = [] ∧ k.vols.length = 1) ∧
     (s.nw.sns.getLsbD 0 = true → b.getLsbD 0 = false → s.media.mount = 0 → s.media.threaded = false →
       ∃ t, exec (.snsChange b) s = .next t ∧ t.nw.sns = b ∧ t.media.cart = none ∧ t.nw.absentSince = true)))

/-- PARTITION_CREATE and PARTITION_DELETE past their checks hold the media lock, the new partition not there yet and its first label
copy sealed, the old one being deleted; CHECKPOINT waits for its checkpoint (R116, R117, R121, R265). On a secondary all three end
with ROLE_STALE (R451). -/
def Obligations.PartitionsComeAndGo : Prop :=
  ∀ (s s₁ : State) (u : Sub) (c : Cmd), admitOne s u = .run s₁ c →
    let p := partition c.sqe
    let peer := if mirroring s₁ = true then some (s₁.pl.msgSeq + 1) else none
    (secondary s₁ = false →
      (opcode u.sqe = 0x10 → createRefused s₁ c.sqe = none → ∃ t g l, exec (.partitionCreate u) s = .next t ∧
        t.media.op = some (.create (some c.id) p peer 1 g (meridian s₁)) ∧
        (partOf t p).map (fun x => (x.firstPair, x.pairs, x.version, x.nextSeq, x.shadow)) =
          some (sqeBytes c.sqe 28 1, sqeBytes c.sqe 29 1, 0, 512, true) ∧
        t.fm.sealed = s₁.fm.sealed ++ l ∧ l.length = 256 ∧
        ∀ w ∈ l, w.ds.part = p ∧ 256 ≤ w.ds.seq ∧ w.ds.seq < 512 ∧ (w.ds.kind = .label ∨ w.ds.kind = .parity)) ∧
      (opcode u.sqe = 0x11 → deleteRefused s₁ c.sqe = none →
        exec (.partitionDelete u) s =
          .next (deleteStart (forwardOp (wake s₁) c.sqe).1 (some c.id) p (forwardOp (wake s₁) c.sqe).2) ∧
        (s₁.fm.reallocs = [] → ∃ t, exec (.partitionDelete u) s = .next t ∧
          t.media.op = some (.delete (some c.id) p peer 2 none) ∧ (partOf t p).map Part.deleting = some true)) ∧
      (opcode u.sqe = 0x1A → ∀ x, mediaCheck s₁ p = none → partOf s₁ p = some x → writeProtected s₁ x = false →
        retiredCount s₁ ≤ 4 → tapeFault s₁ = none →
        exec (.checkpoint u) s = .next (wantCheckpoint (modCmd (wake s₁) c.id fun c => { c with st := .waiting }) p false))) ∧
    (secondary s₁ = true →
      (opcode u.sqe = 0x10 → exec (.partitionCreate u) s = .next (finish s₁ c { status := stRoleStale })) ∧
      (opcode u.sqe = 0x11 → exec (.partitionDelete u) s = .next (finish s₁ c { status := stRoleStale })) ∧
      (opcode u.sqe = 0x1A → mediaCheck s₁ p = none →
        exec (.checkpoint u) s = .next (finish s₁ c { status := stRoleStale })))

/-! ## The pair -/

/-- The link (R446, R447, R452): lanes that train are in use from stage 1 on, and what waited goes out; with nothing that waits an IDLE flit
carries what has been received last; a bad flit is answered with a NAK for the next sequence. An acknowledged sequence takes flits, and the
records acknowledged to their last flit, out of the replay buffer, and what waits follows; a NAK acknowledges the flits before its sequence and
sends those from it on again; a waiting flit takes the next sequence and a place in the replay buffer. Heartbeats and requests for the
primary's time are sent (R459, R462); a chunk of an image goes to the peer receive buffer, under an older role epoch it is dropped (R536). A
record past its stages goes to the secondary against its credit, in the order in which records get there, and its buffers are noted with its
last flit (R452). -/
def Obligations.PairLinkFlits : Prop :=
  ((∀ (s : State) (a b : Bool),
     let v := { s with
       pl.lanes := BitVec.ofNat 2 ((if a = true then 1 else 0) + if b = true then 2 else 0), pl.present := s.pl.present || a || b }
     (1 ≤ s.glb.stage → exec (.linkTraining a b) s = .next (sendIdle (pumpLink v))) ∧
     (s.glb.stage = 0 → exec (.linkTraining a b) s = .next s)) ∧
   (∀ s : State, linkUp s = true →
     (s.pl.waiting = [] → pumpLink s = s ∧ sendIdle s = { s with out := flitOf s 2 s.pl.txSeq [] :: s.out }) ∧
     (s.pl.waiting ≠ [] → sendIdle s = s) ∧
     (∀ k bs, s.pl.waiting = [(k, bs)] → s.pl.unacked.length < 64 →
       let f := flitOf s k ((s.pl.txSeq + 1) % 4096) bs
       pumpLink s = { s with
         pl.waiting := [], pl.txSeq := (s.pl.txSeq + 1) % 4096, pl.sent := s.pl.sent + 1,
         pl.unacked := s.pl.unacked ++ [((s.pl.txSeq + 1) % 4096, f)], out := f :: s.out })) ∧
   (∀ (s : State) (n : Nat), linkUp s = true →
     exec (.flitError n) s = .next { s with out := flitOf s 3 s.pl.txSeq (le 2 ((s.pl.rxSeq + 1) % 4096)) :: s.out } ∧
     (let u := acknowledge s (n % 4096 + 4095)
      exec (.nak n) s = .next (pumpLink { u with
        pl.replay := min 65535 (u.pl.replay + u.pl.unacked.length), out := (u.pl.unacked.map Prod.snd).reverse ++ u.out })) ∧
     (s.pl.hbSentAt = none → s.pl.unacked.length < 64 →
       exec (.heartbeatSend) s = .next (plSend { s with pl.hbSentAt := some s.now } (.heartbeat (ownHeartbeat s))))) ∧
   (∀ (s : State) (n : Nat), let left := s.pl.unacked.filter fun f => !ackedBy n f.1
     exec (.idleFlit n) s = .next (pumpLink (acknowledge s n)) ∧ (acknowledge s n).out = s.out ∧ (acknowledge s n).pl = { s.pl with
       ackSeq := n % 4096, unacked := left, sentRecs := s.pl.sentRecs.filter fun r => decide (s.pl.sent - left.length < r.1) }) ∧
   (∀ (s : State) (h : ImageHead) (bs : List Byte) (last : Bool), linkUp s = true → s.glb.twilight = none →
     let r := sendIdle (received s h.flit h.ack)
     (h.epoch < s.flash.roleEpoch → exec (.imageTransfer h bs last) s = .next { r with fw.peerBuf := [], fw.peerDone := false }) ∧
     (s.flash.roleEpoch ≤ h.epoch → s.fw.peerBuf.length + bs.length ≤ 25165824 → exec (.imageTransfer h bs last) s =
       .next { r with fw.peerBuf := s.fw.peerBuf ++ bs, fw.peerDone := last })) ∧
   (∀ s : State, s.pl.role = 2 → s.mt.running = true → s.pl.lost = false → linkUp s = true →
     (∀ u, s.pl.timeSentAt = some u → u + 1000 * 216000 ≤ s.now) →
     exec .timeExchSend s = .next (plSend { s with pl.timeSentAt := some s.now } (.timeExch (meridian s) 0 0 0)))) ∧
  (∀ (s : State) (n : Nat) (j : RecJob), recOf s n = some j → mirroring s = true → j.cmd.isSome = true → j.mirrored = false →
     j.dead = false → j.stage = .ready → creditOf s j.r ≤ s.pl.credits → s.pl.catchQ = [] →
     (∀ k ∈ s.fm.recs, k.toMirror = true → k.stage = .ready → j.readyNo ≤ k.readyNo) →
     ∃ t, exec (.recordMirror n) s = .next t ∧ t.pl.credits = s.pl.credits - creditOf s j.r ∧
       t.fm.recs = (s.fm.recs.map fun k => if k.id = n then { k with mirrored := true } else k) ∧
       Emit.plMsg s.pl.role s.flash.roleEpoch (s.pl.msgSeq + 1) (Msg.record j.part j.r) ∈ t.out ∧
       t.pl.sentRecs = s.pl.sentRecs ++ j.bufs.map fun b => (lastFlit t, b.toNat))

/-- Roles and epochs (R449, R450): formation gives both a role under a new epoch; a message of a newer epoch has that epoch and the
role it implies adopted first; one of an older epoch is answered with ROLE_STALE and has no other effect than on the link; ROLE_STALE itself is
counted and followed. Peer loss and takeover (R459 to R461, R501): suspicion by
time, loss after the peer-lost time or with PAIR_PRESENT; a secondary told to take over fences the peer and becomes primary
under the next epoch; a unit that is fenced has no role. -/
def Obligations.PairRoles : Prop :=
  ((∀ (s : State) (i : PeerInfo), linkUp s = true → setN s 0x6001 1 = 1 → s.glb.lsUp = true → s.pl.role = 0 →
     ∃ t, exec (.pairFormation i) s = .next t ∧ t.flash.roleEpoch = max s.flash.roleEpoch i.epoch + 1 ∧ t.pl.lost = false ∧
       t.pl.role = (if choosePrimary (setN s 0x6001 2) i.pref Config.instanceNo.toNat i.instanceNo = true then 1 else 2)) ∧
   (∀ (s : State) (h : MsgHead) (role e r : Nat), linkUp s = true → s.glb.twilight = none →
     let v := received { s with pl.staleRcvd := min 65535 (s.pl.staleRcvd + 1) } h.flit h.ack
     (h.epoch < s.flash.roleEpoch → exec (.roleStale h role e r) s = .next (sendIdle (plSend
       { v with pl.staleSent := min 65535 (v.pl.staleSent + 1) } (.roleStale s.pl.role s.flash.roleEpoch h.seq)))) ∧
     (h.epoch = s.flash.roleEpoch → exec (.roleStale h role e r) s = .next (sendIdle (roleStaleS v role e r))) ∧
     (s.flash.roleEpoch ≤ h.epoch → h.epoch ≤ e → s.pl.role ≠ 1 →
       ∃ t, exec (.roleStale h role e r) s = .next t ∧ t.flash.roleEpoch = e ∧ t.pl.lost = false ∧
         t.pl.staleRcvd = min 65535 (s.pl.staleRcvd + 1) ∧ t.pl.rxSeq = h.flit % 4096 ∧
         (role = 1 → t.pl.role = 2) ∧ (role = 2 → t.pl.role = 1) ∧ (role = 0 → t.pl.role = 0))) ∧
   (∀ (s : State) (h : MsgHead) (n : Nat), linkUp s = true → s.glb.twilight = none →
     let v := received s h.flit h.ack
     (s.flash.roleEpoch < h.epoch → let u := adoptRole v (impliedRole v h.role) h.epoch
       u.flash.roleEpoch = h.epoch ∧ u.pl.role = impliedRole v h.role ∧ u.pl.lost = false ∧ exec (.credit h n) s =
         .next (sendIdle (if u.pl.role = 1 then goOnCatch { u with pl.credits := n } else u))) ∧
     (h.epoch < s.flash.roleEpoch → exec (.credit h n) s = .next (sendIdle (plSend
       { v with pl.staleSent := min 65535 (v.pl.staleSent + 1) } (.roleStale s.pl.role s.flash.roleEpoch h.seq)))))) ∧
  ((∀ (s : State) (t : Nat), s.pl.role ≠ 0 → s.pl.lost = false → s.pl.suspect = false →
     (s.pl.hbAt = some t → t + 216000 ≤ s.now →
       exec .peerSuspect s = .next { s with pl.suspect := true, pl.suspectAt := some s.now }) ∧
     (s.pl.lsDownAt = some t → t + 1000 * 216000 ≤ s.now →
       exec .peerRestartTimeout s = .next { s with pl.suspect := true, pl.suspectAt := some s.now })) ∧
   (∀ (s : State) (t : Nat), s.pl.suspectAt = some t → s.pl.suspect = true → t + setN s 0x6001 6 * 216000 ≤ s.now →
     s.pl.lost = false → s.pl.role ≠ 0 → (s.pl.role ≠ 1 → setN s 0x6001 5 ≠ 1) →
     ∃ u, exec .peerLost s = .next u ∧ u.pl.lost = true ∧ u.pl.suspect = false ∧ u.pl.credits = 0 ∧ u.pl.role = s.pl.role ∧
       u.pl.unacked = [] ∧ u.pl.sentRecs = []) ∧
   (∀ s : State, ∃ t, exec .pairPresentFall s = .next t ∧ t.pl.present = false ∧
     (s.pl.role = 1 → t.pl.lost = true) ∧ (s.pl.role = 0 → s.pl.sentRecs = [] →
       t = { s with pl.present := false, pl.lanes := 0, pl.waiting := [], pl.unacked := [] })) ∧
   (∀ s : State, s.pl.role = 2 → s.pl.lost = true → s.glb.restarting = none → s.glb.twilight = none →
     ∃ t, exec .takeover s = .next t ∧ t.pl.role = 1 ∧ t.pl.reason = 0 ∧ t.flash.roleEpoch = s.flash.roleEpoch + 1 ∧
       Emit.pairRstOut ∈ t.out ∧ ∀ x ∈ t.fm.parts, x.version % 2 ^ 32 = 2 ^ 32 - 1) ∧
   (∀ s : State, ∃ t, exec .pairRstIn s = .next t ∧ t.pl.role = 0 ∧ t.pl.present = s.pl.present ∧ t.pl.lanes = 0 ∧
     t.pl.unacked = [] ∧ t.pl.sentRecs = []) ∧
   (∀ (s : State) (p : Path), p ≠ .can → s.pl.role = 2 → s.glb.restarting = none → s.glb.twilight = none →
     ∃ t, exec (.withdrawDivergentPieces p) s = .next t ∧
       ∀ x ∈ s.fm.parts, x.diverged = true → ∀ w, x.watermark = some w → ∀ e ∈ t.fm.almanac, e.part = x.num → e.version ≤ w))

/-- Messages of the role epoch in force: heartbeats, credit, records and pieces that are mirrored, partition commands that are forwarded and
their end, time (R450 to R459, R462). Each is taken by the link, which acknowledges it (R447). A record joins those to be placed; a commit
with the right count is noted; a failed piece loses the records that wait; a piece that the peer has verified counts at once, or after the
restart; the first answer to a request for the primary's time steps the secondary's. -/
def Obligations.PairMessages : Prop :=
  ∀ (s : State) (h : MsgHead), linkUp s = true → s.glb.twilight = none → h.epoch = s.flash.roleEpoch →
    let v := received s h.flit h.ack
    (∀ b : HbBody, b.twilight = false → b.lodestarUp = true → b.diverged = [] → s.pl.reason = 0 →
      exec (.heartbeat h b) s = .next (sendIdle { v with
        pl.hbAt := some s.now, pl.peerCommitted := b.committed, pl.peerDiverged := [], pl.lsDownAt := none,
        pl.suspect := false, pl.suspectAt := none })) ∧
    (∀ n, s.pl.role = 1 → exec (.credit h n) s = .next (sendIdle (goOnCatch { v with pl.credits := n }))) ∧
    (s.pl.catchQ = [] → goOnCatch s = { s with pl.catchup := false }) ∧
    (∀ (p : Nat) (d : Rec) (x : Part), secondary s = true → partOf s p = some x →
      mirrorOf s p d.stream d.version d.piece = none →
      ∃ t j, exec (.record h p d) s = .next t ∧ t.fm.recs.map RecJob.id = s.fm.recs.map RecJob.id ++ [s.fm.nextRec] ∧
        t.fm.recs.getLast? = some j ∧ j.r = d ∧ j.part = p ∧ j.cmd = none ∧
        (mirrorOf t p d.stream d.version d.piece).map MirrorPiece.received = some 1) ∧
    (∀ (p : Nat) (st : StreamId) (n i : Nat) (x : Part) (m : MirrorPiece), secondary s = true → partOf s p = some x →
      mirrorOf s p st n i = some m → m.st = .open_ →
      (∃ t, exec (.pieceCommit h p st n i m.received) s = .next t ∧
        (mirrorOf t p st n i).map MirrorPiece.commit = some (some m.received)) ∧
      (∃ t, exec (.pieceFail h p st n i) s = .next t ∧ (mirrorOf t p st n i).map MirrorPiece.st = some .failed ∧
        ∀ j ∈ t.fm.recs, ¬(j.cmd = none ∧ j.part = p ∧ j.r.stream = st ∧ j.r.version = n ∧ j.r.piece = i))) ∧
    (∀ (p : Nat) (st : StreamId) (n i : Nat), s.pl.role = 1 → s.pl.lost = false →
      (s.glb.restarting = none → exec (.pieceVerified h p st n i) s = .next (sendIdle (peerVerified v p st n i))) ∧
      (s.glb.restarting.isSome = true → exec (.pieceVerified h p st n i) s =
        .next (sendIdle { v with pl.verified := s.pl.verified ++ [(p, st, n, i)] }))) ∧
    (∀ q : SqeBits, s.pl.role = 2 → opcode q = 0x10 → createRefused v q = none →
      ∃ t g, exec (.partitionOp h q) s = .next t ∧ t.media.op = some (.create none (partition q) (some h.seq) 1 g (meridian s)) ∧
        (partOf t (partition q)).map (fun x => (x.firstPair, x.pairs, x.shadow)) =
          some (sqeBytes q 28 1, sqeBytes q 29 1, true)) ∧
    (∀ q : SqeBits, s.pl.role = 2 → opcode q = 0x11 → deleteRefused v q = none →
      exec (.partitionOp h q) s = .next (sendIdle (deleteStart (wake v) none (partition q) (some h.seq)))) ∧
    (∀ n st : Nat, s.media.op = none →
      exec (.opDone h n st) s = .next (sendIdle { v with pl.forwardOp := some (n, st) })) ∧
    (∀ t1 t2 t3 t4 : Nat,
      (s.pl.role = 1 → exec (.timeExch h t1 t2 t3 t4) s =
        .next (sendIdle (plSend v (.timeExch t1 (meridian s) (meridian s) 0)))) ∧
      (s.pl.role = 2 → s.mt.running = true → s.pl.timeSet = false →
        let off : Int := (((t2 : Int) - t1) - ((meridian s : Int) - t3)) / 2
        ∃ t, exec (.timeExch h t1 t2 t3 t4) s = .next t ∧ t.pl.timeSet = true ∧ t.mt.sync = 2 ∧ t.mt.ofs = ofsOf off ∧
          meridian t = code 64 (meridian s + off)))

/-! ## Firmware and the service session -/

/-- Images (R532, R535 to R538): a download lies in the receive buffer; verification claims the staging slot, where that is empty, or turns the image
away; the boot slot then holds it; it can be sent to the peer, or cancelled. The schedule (R540 to R543): an activation time is
taken for a staged image; at its instant Lodestar holds new work; at a quiescent point within the window Lodestar restarts on
the trial image; a window that passes skips the activation or waits on. -/
def Obligations.FirmwareStaged : Prop :=
  (∀ (s : State) (k : Nat) (bs : List Byte),
     (s.fw.slot = 0 → (claimSlot s k bs).2 = .ok ∧ (claimSlot s k bs).1.fw.slot = 1 ∧ (claimSlot s k bs).1.fw.source = k ∧
       (claimSlot s k bs).1.fw.image = bs ∧ (claimSlot s k bs).1.fw.digest = imageDigest bs) ∧
     (s.fw.slot ≠ 0 → s.fw.digest ≠ imageDigest bs → claimSlot s k bs = (s, .refused))) ∧
  (∀ s : State, lsServes s = true →
     (∀ bs : List Byte, sessionOpen s = true → bs.length ≤ 25165824 → exec (.imageDownload .usb bs) s =
       .next { s with fw.vbus := true, fw.usbBuf := bs, fw.usbDone := true }) ∧
     (s.fw.usbDone = true →
       let u := { s with fw.usbBuf := [], fw.usbDone := false }
       let r := if imageOk u s.fw.usbBuf = true then claimSlot u 1 s.fw.usbBuf else (u, .range)
       exec (.imageVerified 1) s = .next (emit r.1 (Emit.usdoReply 0 r.2.abort []))) ∧
     (s.fw.peerDone = true →
       let u := { s with fw.peerBuf := [], fw.peerDone := false }
       exec (.imageVerified 2) s = .next (if imageOk u s.fw.peerBuf = true then (claimSlot u 2 s.fw.peerBuf).1 else u)) ∧
     (s.fw.slot = 1 → ∃ t, exec .imageFlashWritten s = .next t ∧ t.fw.slot = 2 ∧
       bootSlot t (!s.flash.runB) = slotOf s.fw.source s.fw.image ∧ bootSlot t s.flash.runB = bootSlot s s.flash.runB) ∧
     (∀ a : PropAnswer, sessionOpen s = true → s.fw.slot = 2 →
       (linkUp s = false → exec (.propagateToPeer a) s = .next { s with fw.prop := 6 }) ∧
       (linkUp s = true → 1 ≤ a.result → a.result ≤ 5 → ∃ t, exec (.propagateToPeer a) s = .next t ∧ t.fw.prop = a.result ∧
         t.fw.slot = 2)) ∧
     (sessionOpen s = true → s.fw.slot ≠ 3 → ∃ t, exec .cancelStagedImage s = .next t ∧ t.fw.slot = 0 ∧
       setN t 0x5013 1 = 2 ^ 64 - 1 ∧ (s.fw.slot = 2 → (bootSlot t (!s.flash.runB)).valid = false))) ∧
  (∀ s : State, lsServes s = true →
     (∀ (p : Path) (ns : BitVec 64), sessionOpen s = true → (s.fw.slot = 2 ∨ ns = BitVec.allOnes 64) →
       ∃ t, exec (.activationTime p ns) s = .next t ∧ setN t 0x5013 1 = ns.toNat ∧ t.fw.slot = s.fw.slot) ∧
     (armed s = true → s.fw.holdAt = none → s.fw.lenient = false → setN s 0x5013 1 ≤ meridian s →
       exec .activationArmedInstant s = .next { s with fw.holdAt := some s.now }) ∧
     (∀ h, armed s = true → s.fw.holdAt = some h → elapsed s h (setN s 0x5013 3) = false → quiescent s = true →
       ∃ t, exec .quiescentPoint s = .next t ∧ t.fw.slot = 3 ∧ t.flash.trial = some (!s.flash.runB) ∧
         t.glb.restarting = some s.now ∧ t.glb.lsUp = false ∧ t.glb.restartCount = s.glb.restartCount) ∧
     (∀ h, s.fw.holdAt = some h → elapsed s h (setN s 0x5013 3) = true →
       ∃ t, exec .graceWindowExpiry s = .next t ∧ t.fw.holdAt = none ∧
         (setN s 0x5013 2 = 0 → setN t 0x5013 1 = 2 ^ 64 - 1) ∧ (setN s 0x5013 2 ≠ 0 → t.fw.lenient = true)))

/-- The service session (R547 to R550): a challenge is answered on the service port and kept with its time; a response or password that is right opens the session, a
wrong one is counted, and the fifth in a row locks out; the session ends by LOCK, by its time and with VBUS. In a session: a
key-encryption key is imported into an empty place, held wrapped under the device's own key, and removed (R221, R551); retired lanes, front ends and servo channels named by the
mask are cleared, no others (R286, R491, R492, R552). -/
def Obligations.ServiceSession : Prop :=
  (∀ s : State,
     (lsServes s = true → ∃ t c, exec .challenge s = .next t ∧ t.fw.challenge = some (c, s.now) ∧
       t.fw.challenges = s.fw.challenges + 1 ∧ t.out = Emit.usdoReply 0 0 c :: s.out) ∧
     (∀ (n : Nat) (sig c : List Byte) (t0 : Nat), lsServes s = true → lockedOut s = false → 60 ≤ n → n ≤ 28800 →
       s.fw.challenge = some (c, t0) → elapsed s t0 60000 = false →
       let u := { s with fw.vbus := true, fw.challenge := none }
       exec (.response .usb n sig) s =
         .next (if ecdsaOk Config.serviceKey (c ++ le 4 n) sig = true then openSession u 1 n else unlockFails u)) ∧
     (∀ chars salt stored : List Byte, lsServes s = true → lockedOut s = false → 8 ≤ chars.length → chars.length ≤ 64 →
       s.flash.password = some (salt, stored) →
       let u := { s with fw.vbus := true }
       exec (.servicePassword .usb chars) s =
         .next (if pbkdf2 chars salt = stored then openSession u 2 (60 * setN s 0x5021 3) else unlockFails u)) ∧
     (∀ n : Nat, (openSession s 1 n).fw.session = 1 ∧ (openSession s 1 n).fw.sessionEnd = s.now + n * 216000000 ∧
       (openSession s 1 n).flash.failures = 0) ∧
     ((unlockFails s).flash.failures = min 255 (s.flash.failures + 1) ∧
       (4 ≤ s.flash.failures → (unlockFails s).flash.lockUntil = some (s.now + s.flash.nextLock * 216000000) ∧
         (unlockFails s).flash.nextLock = min 86400 (2 * s.flash.nextLock))) ∧
     (lsServes s = true → sessionOpen s = true →
       exec (.setServicePassword .usb []) s = .next { s with fw.vbus := true, flash.password := none } ∧
       (∀ chars : List Byte, 8 ≤ chars.length → chars.length ≤ 64 → ∃ t salt, exec (.setServicePassword .usb chars) s = .next t ∧
         t.flash.password = some (salt, pbkdf2 chars salt) ∧ salt.length = 16)) ∧
     (lsServes s = true → exec (.lock .pcie) s = .next (endSession s)) ∧
     (∀ t, s.flash.lockUntil = some t → t ≤ s.now → exec .lockoutExpiry s = .next { s with flash.lockUntil := none }) ∧
     (sessionOpen s = true → s.fw.sessionEnd ≤ s.now → exec .sessionExpiry s = .next (endSession s)) ∧
     (∃ t, exec .vbusFall s = .next t ∧ t.fw.vbus = false ∧ t.fw.session = 0 ∧ t.fw.jtagOpen = false)) ∧
  (∀ s : State, lsServes s = true → sessionOpen s = true →
     (∀ (n : Nat) (blob : List Byte), blob.length = 104 → n ≤ 15 → (s.flash.keks.any fun k => k.1 == n) = false →
       let u := { s with fw.vbus := true }
       exec (.kekImport .usb n blob) s =
         .next (match kekOf n blob with
           | none => u
           | some k => { u with
               flash.keks := put n (kwWrap (be 32 s.flash.deviceKey.toNat) (be 32 k.toNat)) s.flash.keks })) ∧
     (∀ n : Nat, n ≤ 15 → exec (.kekRemove .pcie n) s = .next { s with flash.keks := del n s.flash.keks }) ∧
     (∀ m : BitVec 64, ∃ t, exec (.clearRetiredLanes .pcie m) s = .next t ∧ t.flash.lanes = s.flash.lanes &&& ~~~m ∧
       (s.fm.current = none → t.fm.retired = s.flash.lanes &&& ~~~m)) ∧
     (∀ m : BitVec 64, (∃ t, exec (.clearRetiredFrontEnds .pcie 0 m) s = .next t ∧
         t.rc.retiredA = s.rc.retiredA &&& ~~~m ∧ t.flash.feA = s.flash.feA &&& ~~~m ∧ t.rc.retiredB = s.rc.retiredB) ∧
       (∃ t, exec (.clearRetiredFrontEnds .pcie 1 m) s = .next t ∧
         t.rc.retiredB = s.rc.retiredB &&& ~~~m ∧ t.flash.feB = s.flash.feB &&& ~~~m ∧ t.rc.retiredA = s.rc.retiredA)) ∧
     (∀ m : BitVec 8, ∃ t, exec (.clearRetiredServoChannels .pcie m) s = .next t ∧
       t.sv.retired = s.sv.retired &&& ~~~(m.setWidth 4) ∧ t.flash.servo = s.flash.servo &&& ~~~(m.setWidth 4)))

/-- R549: the fifth failure in a row, and each after it, locks out for 15 min at first and twice as long each time, up to 24 h; a
success starts afresh; while locked out, responses and passwords are refused unchecked with abort code 0x0800_0022; the count
and the lockout survive a reset. -/
def Obligations.LockoutHolds : Prop :=
  State.reset.flash.nextLock = 900 ∧
  (∀ s : State, (unlockFails s).flash.failures = min 255 (s.flash.failures + 1) ∧
    (s.flash.failures < 4 → (unlockFails s).flash.lockUntil = s.flash.lockUntil) ∧
    (4 ≤ s.flash.failures → (unlockFails s).flash.lockUntil = some (s.now + s.flash.nextLock * 216000000) ∧
      (unlockFails s).flash.nextLock = min 86400 (2 * s.flash.nextLock))) ∧
  (∀ (s : State) (n k : Nat), (openSession s k n).flash.failures = 0 ∧ (openSession s k n).flash.nextLock = 900) ∧
  (∀ (s : State) (t : Nat), s.flash.lockUntil = some t →
    (s.now < t → (∀ n sig, responseOp s .usb n sig = (s, .refused)) ∧ (∀ cs, passwordOp s .usb cs = (s, .refused))) ∧
    (t ≤ s.now → exec .lockoutExpiry s = .next { s with flash.lockUntil := none })) ∧
  OdOut.refused.abort = 0x08000022 ∧
  (∀ s : State, s.glb.resetInN = true → ∃ t, exec .resetInNAssert s = .next t ∧
    t.flash.failures = s.flash.failures ∧ t.flash.lockUntil = s.flash.lockUntil ∧ t.flash.nextLock = s.flash.nextLock)
end

