-- ==== Sys2Proof/Laws/Frame.lean ====
section
/-! SUPPORT. The frame of every operation of Ops, Pool, Archive, Link, Pipeline, ReadPath: it keeps the waiting commands, the
model's time and staging memory, and only adds to the outputs. Each lemma is used by its name, not by unfolding the operation. -/

namespace Sys2Proof.Laws

open Sys2Proof Sys2Proof.Machine

set_option linter.unusedVariables false

/-- What every operation but a few leaves alone, seen from the state s₀ it began with: the waiting commands, the model's time and
staging memory stay, and outputs are only added. -/
def Quiet (s₀ s : State) : Prop :=
  s.pending = s₀.pending ∧ s.now = s₀.now ∧ s.bpm.mem = s₀.bpm.mem ∧ ∃ l, s.out = l ++ s₀.out

theorem Quiet.refl (s : State) : Quiet s s := ⟨rfl, rfl, rfl, [], rfl⟩

theorem Quiet.upd {s₀ s : State} (h : Quiet s₀ s) {free glb qe bpm cx tg fm rc sv rcl ce ps nw media od flash mt fi pl ls fw health}
    (hm : Bpm.mem bpm = s.bpm.mem) :
    Quiet s₀ ⟨s.pending, s.now, free, s.out, glb, qe, bpm, cx, tg, fm, rc, sv, rcl, ce, ps, nw, media, od, flash, mt, fi, pl, ls, fw, health⟩ :=
  ⟨h.1, h.2.1, hm.trans h.2.2.1, h.2.2.2⟩

theorem Quiet.foldl {α : Type} {s₀ s : State} {f : State → α → State} (hf : ∀ t, Quiet s₀ t → ∀ x, Quiet s₀ (f t x)) (h : Quiet s₀ s)
    (l : List α) : Quiet s₀ (l.foldl f s) := by
  induction l generalizing s with
  | nil => exact h
  | cons x l ih => exact ih (hf s h x)

theorem Quiet.foldl_fst {α β : Type} {s₀ : State} {a : State × β} {f : State × β → α → State × β}
    (hf : ∀ t, Quiet s₀ t.1 → ∀ x, Quiet s₀ (f t x).1) (h : Quiet s₀ a.1) (l : List α) : Quiet s₀ (l.foldl f a).1 := by
  induction l generalizing a with
  | nil => exact h
  | cons x l ih => exact ih (hf a h x)

theorem Quiet.foldl_snd {α β : Type} {s₀ : State} {a : β × State} {f : β × State → α → β × State}
    (hf : ∀ t, Quiet s₀ t.2 → ∀ x, Quiet s₀ (f t x).2) (h : Quiet s₀ a.2) (l : List α) : Quiet s₀ (l.foldl f a).2 := by
  induction l generalizing a with
  | nil => exact h
  | cons x l ih => exact ih (hf a h x)

theorem emit_quiet {s₀ s : State} (h : Quiet s₀ s) (e : Emit) : Quiet s₀ (emit s e) :=
  by
  obtain ⟨a, b, c, l, d⟩ := h
  exact ⟨a, b, c, e :: l, congrArg (e :: ·) d⟩

/-! ## Ops -/

theorem setBank_quiet {s₀ s : State} (h : Quiet s₀ s) (b : Bank) : Quiet s₀ (setBank s b) := by
  unfold setBank
  repeat' (first | with_reducible assumption | split | fail_if_no_progress (with_reducible refine Quiet.upd ?_ rfl))

theorem odPut_quiet {s₀ s : State} (h : Quiet s₀ s) (idx sub : Nat) (e : OdEntry) (v : List Byte) : Quiet s₀ (odPut s idx sub e v) := by
  unfold odPut
  repeat' (first
    | with_reducible assumption | with_reducible apply setBank_quiet | split
    | fail_if_no_progress (with_reducible refine Quiet.upd ?_ rfl))

theorem freshFree_quiet {s₀ s : State} (h : Quiet s₀ s) : Quiet s₀ (freshFree s).2 := by
  unfold freshFree
  repeat' (first | with_reducible assumption | fail_if_no_progress (with_reducible refine Quiet.upd ?_ rfl))

theorem setFn_quiet {s₀ s : State} (h : Quiet s₀ s) (n : Nat) (f : FnState) : Quiet s₀ (setFn s n f) := by
  unfold setFn
  repeat' (first | with_reducible assumption | fail_if_no_progress (with_reducible refine Quiet.upd ?_ rfl))

theorem modFn_quiet {s₀ s : State} (h : Quiet s₀ s) (n : Nat) (g : FnState → FnState) : Quiet s₀ (modFn s n g) := by
  unfold modFn
  repeat' (first | with_reducible assumption | with_reducible apply setFn_quiet)

theorem emitFor_quiet {s₀ s : State} (h : Quiet s₀ s) (n : Nat) (c : Option Nat) (e : Emit) : Quiet s₀ (emitFor s n c e) := by
  unfold emitFor
  repeat' (first
    | with_reducible assumption | with_reducible apply emit_quiet | split
    | fail_if_no_progress (with_reducible refine Quiet.upd ?_ rfl))

theorem emitFn_quiet {s₀ s : State} (h : Quiet s₀ s) (n : Nat) (e : Emit) : Quiet s₀ (emitFn s n e) := by
  unfold emitFn
  repeat' (first | with_reducible assumption | with_reducible apply emitFor_quiet)

theorem dmaOut_quiet {s₀ s : State} (h : Quiet s₀ s) (c : Cmd) (ws : List (Nat × Bool × List Byte)) : Quiet s₀ (dmaOut s c ws) := by
  unfold dmaOut
  repeat' (first | with_reducible assumption | with_reducible apply emitFor_quiet | with_reducible apply Quiet.foldl | intro _ _ _)

theorem sendVector_quiet {s₀ s : State} (h : Quiet s₀ s) (n v : Nat) : Quiet s₀ (sendVector s n v) := by
  unfold sendVector
  repeat' (first | with_reducible assumption | with_reducible apply modFn_quiet | with_reducible apply emitFn_quiet | split)

theorem msixWrite_quiet {s₀ s : State} (h : Quiet s₀ s) (n i v : Nat) : Quiet s₀ (msixWrite s n i v) := by
  unfold msixWrite
  repeat' (first | with_reducible assumption | with_reducible apply modFn_quiet | with_reducible apply emitFn_quiet | split | dsimp only)

theorem setQueue_quiet {s₀ s : State} (h : Quiet s₀ s) (q : Queue) : Quiet s₀ (setQueue s q) := by
  unfold setQueue
  repeat' (first | with_reducible assumption | fail_if_no_progress (with_reducible refine Quiet.upd ?_ rfl))

theorem modQueue_quiet {s₀ s : State} (h : Quiet s₀ s) (g : Nat) (f : Queue → Queue) : Quiet s₀ (modQueue s g f) := by
  unfold modQueue
  repeat' (first | with_reducible assumption | fail_if_no_progress (with_reducible refine Quiet.upd ?_ rfl))

theorem setCmd_quiet {s₀ s : State} (h : Quiet s₀ s) (c : Cmd) : Quiet s₀ (setCmd s c) := by
  unfold setCmd
  repeat' (first | with_reducible assumption | fail_if_no_progress (with_reducible refine Quiet.upd ?_ rfl))

theorem modCmd_quiet {s₀ s : State} (h : Quiet s₀ s) (id : Nat) (f : Cmd → Cmd) : Quiet s₀ (modCmd s id f) := by
  unfold modCmd
  repeat' (first | with_reducible assumption | fail_if_no_progress (with_reducible refine Quiet.upd ?_ rfl))

theorem removeCmd_quiet {s₀ s : State} (h : Quiet s₀ s) (id : Nat) : Quiet s₀ (removeCmd s id) := by
  unfold removeCmd
  repeat' (first | with_reducible assumption | fail_if_no_progress (with_reducible refine Quiet.upd ?_ rfl))

theorem setIstat_quiet {s₀ s : State} (h : Quiet s₀ s) (b : Nat) : Quiet s₀ (setIstat s b) := by
  unfold setIstat
  repeat' (first
    | with_reducible assumption | with_reducible apply sendVector_quiet | split | dsimp only
    | fail_if_no_progress (with_reducible refine Quiet.upd ?_ rfl))

theorem ringAdd_quiet {s₀ s : State} (h : Quiet s₀ s) (r : FaultRec) : Quiet s₀ (ringAdd s r) := by
  unfold ringAdd
  repeat' (first | with_reducible assumption | fail_if_no_progress (with_reducible refine Quiet.upd ?_ rfl))

theorem faultRec_quiet {s₀ s : State} (h : Quiet s₀ s) (fcode : Nat) (permanent : Bool) (unit p1 p2 : Nat) :
    Quiet s₀ (faultRec s fcode permanent unit p1 p2) := by
  unfold faultRec
  repeat' (first
    | with_reducible assumption | with_reducible apply ringAdd_quiet | split
    | fail_if_no_progress (with_reducible refine Quiet.upd ?_ rfl))

theorem servoOff_quiet {s₀ s : State} (h : Quiet s₀ s) : Quiet s₀ (servoOff s) := by
  unfold servoOff
  repeat' (first | with_reducible assumption | fail_if_no_progress (with_reducible refine Quiet.upd ?_ rfl))

theorem setSubst_quiet {s₀ s : State} (h : Quiet s₀ s) (b : Nat) : Quiet s₀ (setSubst s b) := by
  unfold setSubst
  repeat' (first | with_reducible assumption | fail_if_no_progress (with_reducible refine Quiet.upd ?_ rfl))

theorem postCqe_quiet {s₀ s : State} (h : Quiet s₀ s) (g : Nat) (mk : Queue → Cqe) (atOnce : Bool) :
    Quiet s₀ (postCqe s g mk atOnce) := by
  unfold postCqe
  repeat' (first
    | with_reducible assumption | with_reducible apply emitFn_quiet | with_reducible apply setQueue_quiet
    | with_reducible apply sendVector_quiet | split | dsimp only)

theorem freeze_quiet {s₀ s : State} (h : Quiet s₀ s) (g : Nat) : Quiet s₀ (freeze s g) := by
  unfold freeze
  repeat' (first | with_reducible assumption | with_reducible apply modQueue_quiet)

theorem logError_quiet {s₀ s : State} (h : Quiet s₀ s) (fn : Nat) (mk : Nat → ErrEntry) : Quiet s₀ (logError s fn mk) := by
  unfold logError
  repeat' (first | with_reducible assumption | with_reducible apply modFn_quiet)

theorem finish_quiet {s₀ s : State} (h : Quiet s₀ s) (c : Cmd) (r : Res) : Quiet s₀ (finish s c r) := by
  unfold finish
  repeat' (first
    | with_reducible assumption | with_reducible apply removeCmd_quiet | with_reducible apply freeze_quiet
    | with_reducible apply logError_quiet | with_reducible apply postCqe_quiet | split)

theorem finishSt_quiet {s₀ s : State} (h : Quiet s₀ s) (c : Cmd) (st : Nat) : Quiet s₀ (finishSt s c st) := by
  unfold finishSt
  repeat' (first | with_reducible assumption | with_reducible apply finish_quiet)

theorem finishField_quiet {s₀ s : State} (h : Quiet s₀ s) (c : Cmd) (off : Nat) : Quiet s₀ (finishField s c off) := by
  unfold finishField
  repeat' (first | with_reducible assumption | with_reducible apply finish_quiet)

theorem finishId_quiet {s₀ s : State} (h : Quiet s₀ s) (id : Nat) (r : Res) : Quiet s₀ (finishId s id r) := by
  unfold finishId
  repeat' (first | with_reducible assumption | with_reducible apply finish_quiet | split)

theorem queueFor1_quiet {s₀ s : State} (h : Quiet s₀ s) (n ecode : Nat) (scope part : Nat) (params : List Byte) :
    Quiet s₀ (queueFor1 s n ecode scope part params) := by
  unfold queueFor1
  repeat' (first
    | with_reducible assumption | with_reducible apply setFn_quiet | with_reducible apply finishId_quiet | split | dsimp only)

theorem flushLost_quiet {s₀ s : State} (h : Quiet s₀ s) (n : Nat) : Quiet s₀ (flushLost s n) := by
  unfold flushLost
  repeat' (first
    | with_reducible assumption | with_reducible apply queueFor1_quiet | with_reducible apply setFn_quiet | split | dsimp only)

theorem queueEmcy_quiet {s₀ s : State} (h : Quiet s₀ s) (m : Emcy) : Quiet s₀ (queueEmcy s m) := by
  unfold queueEmcy
  repeat' (first | with_reducible assumption | split | fail_if_no_progress (with_reducible refine Quiet.upd ?_ rfl))

theorem queueNow_quiet {s₀ s : State} (h : Quiet s₀ s) (ecode scope p : Nat) (params : List Byte) :
    Quiet s₀ (queueNow s ecode scope p params) := by
  unfold queueNow
  repeat' (first
    | with_reducible assumption | with_reducible apply queueFor1_quiet | with_reducible apply queueEmcy_quiet
    | with_reducible apply Quiet.foldl | intro _ _ _ | split)

theorem queueEvent_quiet {s₀ s : State} (h : Quiet s₀ s) (ecode scope p : Nat) (params : List Byte) :
    Quiet s₀ (queueEvent s ecode scope p params) := by
  unfold queueEvent
  repeat' (first
    | with_reducible assumption | with_reducible apply queueNow_quiet | split
    | fail_if_no_progress (with_reducible refine Quiet.upd ?_ rfl))

theorem setMount_quiet {s₀ s : State} (h : Quiet s₀ s) (m : Nat) : Quiet s₀ (setMount s m) := by
  unfold setMount
  repeat' (first
    | with_reducible assumption | with_reducible apply setIstat_quiet | split
    | fail_if_no_progress (with_reducible refine Quiet.upd ?_ rfl))

theorem setPowerState_quiet {s₀ s : State} (h : Quiet s₀ s) (p : Nat) : Quiet s₀ (setPowerState s p) := by
  unfold setPowerState
  repeat' (first
    | with_reducible assumption | with_reducible apply queueEvent_quiet | split
    | fail_if_no_progress (with_reducible refine Quiet.upd ?_ rfl))

theorem wake_quiet {s₀ s : State} (h : Quiet s₀ s) : Quiet s₀ (wake s) := by
  unfold wake
  repeat' (first | with_reducible assumption | with_reducible apply setPowerState_quiet)

/-! ## Pool -/

theorem setPool_quiet {s₀ s : State} (h : Quiet s₀ s) (p : Nat) (x : Pool) : Quiet s₀ (setPool s p x) := by
  unfold setPool
  repeat' (first | with_reducible assumption | fail_if_no_progress (with_reducible refine Quiet.upd ?_ rfl))

theorem allocNow_quiet {s₀ s : State} (h : Quiet s₀ s) {p cls : Nat} {a : BitVec 32 × State} (g : allocNow s p cls = some a) :
    Quiet s₀ a.2 := by
  unfold allocNow at g
  dsimp only at g
  split at g
  · split at g
    · cases g
      dsimp only
      with_reducible apply setPool_quiet
      exact h
    · cases g
  · cases g

theorem allocate_quiet {s₀ s : State} (h : Quiet s₀ s) (p cls : Nat) (cmd : Option Nat) : Quiet s₀ (allocate s p cls cmd).2 := by
  unfold allocate
  dsimp only
  repeat' (first | with_reducible assumption | with_reducible apply setPool_quiet | split)
  exact allocNow_quiet h (by assumption)

theorem acquire_quiet {s₀ s : State} (h : Quiet s₀ s) (h1 : BitVec 32) (cls : Nat) : Quiet s₀ (acquire s h1 cls).2 := by
  unfold acquire
  repeat' (first | with_reducible assumption | with_reducible apply setPool_quiet | split | dsimp only)

theorem rejectRelease_quiet {s₀ s : State} (h : Quiet s₀ s) (h1 : BitVec 32) (cls : Nat) (holders : BitVec 16) (wasFree : Bool) :
    Quiet s₀ (rejectRelease s h1 cls holders wasFree) := by
  unfold rejectRelease
  repeat' (first
    | with_reducible assumption | with_reducible apply faultRec_quiet | with_reducible apply setPool_quiet
    | with_reducible apply queueEvent_quiet | split | dsimp only | fail_if_no_progress (with_reducible refine Quiet.upd ?_ rfl))

theorem release_quiet {s₀ s : State} (h : Quiet s₀ s) (h1 : BitVec 32) (cls : Nat) : Quiet s₀ (release s h1 cls) := by
  unfold release
  repeat' (first
    | with_reducible assumption | with_reducible apply rejectRelease_quiet | with_reducible apply setPool_quiet | split | dsimp only)

theorem releaseAll_quiet {s₀ s : State} (h : Quiet s₀ s) (hs : List (BitVec 32)) (cls : Nat) : Quiet s₀ (releaseAll s hs cls) := by
  unfold releaseAll
  repeat' (first | with_reducible assumption | with_reducible apply release_quiet | with_reducible apply Quiet.foldl | intro _ _ _)

theorem unpark_quiet {s₀ s : State} (h : Quiet s₀ s) (id : Nat) : Quiet s₀ (unpark s id) := by
  unfold unpark
  repeat' (first | with_reducible assumption | fail_if_no_progress (with_reducible refine Quiet.upd ?_ rfl))

theorem clearPoison_quiet {s₀ s : State} (h : Quiet s₀ s) (a n : Nat) : Quiet s₀ (clearPoison s a n) := by
  unfold clearPoison
  repeat' (first | with_reducible assumption | fail_if_no_progress (with_reducible refine Quiet.upd ?_ rfl))

theorem fillBuf_quiet {s₀ s : State} (h : Quiet s₀ s) (h1 : BitVec 32) (off n : Nat) : Quiet s₀ (fillBuf s h1 off n) := by
  unfold fillBuf
  repeat' (first | with_reducible assumption | with_reducible apply clearPoison_quiet | split)

theorem fillBufs_quiet {s₀ s : State} (h : Quiet s₀ s) (hs : List (BitVec 32)) (n : Nat) : Quiet s₀ (fillBufs s hs n) := by
  unfold fillBufs
  repeat' (first | with_reducible assumption | with_reducible apply fillBuf_quiet | with_reducible apply Quiet.foldl | intro _ _ _)

theorem carve_quiet {s₀ s : State} (h : Quiet s₀ s) : Quiet s₀ (carve s) := by
  unfold carve
  repeat' (first
    | with_reducible assumption | with_reducible apply setSubst_quiet | split | dsimp only
    | fail_if_no_progress (with_reducible refine Quiet.upd ?_ rfl))

/-! ## Archive -/

theorem setPart_quiet {s₀ s : State} (h : Quiet s₀ s) (x : Part) : Quiet s₀ (setPart s x) := by
  unfold setPart
  repeat' (first | with_reducible assumption | fail_if_no_progress (with_reducible refine Quiet.upd ?_ rfl))

theorem modPart_quiet {s₀ s : State} (h : Quiet s₀ s) (p : Nat) (f : Part → Part) : Quiet s₀ (modPart s p f) := by
  unfold modPart
  repeat' (first | with_reducible assumption | fail_if_no_progress (with_reducible refine Quiet.upd ?_ rfl))

theorem faultProtect_quiet {s₀ s : State} (h : Quiet s₀ s) (p : Nat) : Quiet s₀ (faultProtect s p) := by
  unfold faultProtect
  repeat' (first
    | with_reducible assumption | with_reducible apply setPart_quiet | with_reducible apply faultRec_quiet
    | with_reducible apply queueEvent_quiet | split)

theorem checkExhausted_quiet {s₀ s : State} (h : Quiet s₀ s) (p : Nat) : Quiet s₀ (checkExhausted s p) := by
  unfold checkExhausted
  repeat' (first | with_reducible assumption | with_reducible apply queueEvent_quiet | with_reducible apply modPart_quiet | split)

theorem unitAlloc_quiet {s₀ s : State} (h : Quiet s₀ s) (p cls : Nat) : Quiet s₀ (unitAlloc s p cls).2 := by
  unfold unitAlloc
  repeat' (first
    | with_reducible assumption | with_reducible apply allocate_quiet | split
    | fail_if_no_progress (with_reducible refine Quiet.upd ?_ rfl))

theorem unitAllocN_quiet {s₀ s : State} (h : Quiet s₀ s) (p cls n : Nat) (got : List (BitVec 32)) :
    Quiet s₀ (unitAllocN s p cls n got).2 := by
  induction n generalizing s got with
  | zero => exact h
  | succ n ih =>
    unfold unitAllocN
    repeat' (first
      | with_reducible assumption | with_reducible apply ih | with_reducible apply unitAlloc_quiet | split | dsimp only
      | fail_if_no_progress (with_reducible refine Quiet.upd ?_ rfl))

theorem handOff_quiet {s₀ s : State} (h : Quiet s₀ s) (hs : List (BitVec 32)) (src dst : Nat) : Quiet s₀ (handOff s hs src dst) := by
  unfold handOff
  repeat' (first
    | with_reducible assumption | with_reducible apply release_quiet | with_reducible apply acquire_quiet
    | with_reducible apply Quiet.foldl | intro _ _ _ | split)

/-! ## Link -/

theorem pumpFlits_quiet {s₀ s : State} (h : Quiet s₀ s) (n : Nat) : Quiet s₀ (pumpFlits n s) := by
  induction n generalizing s with
  | zero => exact h
  | succ n ih =>
    unfold pumpFlits
    repeat' (first
      | with_reducible assumption | with_reducible apply ih | with_reducible apply emit_quiet | split
      | fail_if_no_progress (with_reducible refine Quiet.upd ?_ rfl))

theorem pumpLink_quiet {s₀ s : State} (h : Quiet s₀ s) : Quiet s₀ (pumpLink s) := by
  unfold pumpLink
  repeat' (first | with_reducible assumption | with_reducible apply pumpFlits_quiet | split)

theorem noteAsked_quiet {s₀ s : State} (h : Quiet s₀ s) (n : Nat) (m : Msg) : Quiet s₀ (noteAsked s n m) := by
  unfold noteAsked
  repeat' (first
    | with_reducible assumption | split | dsimp only | fail_if_no_progress (with_reducible refine Quiet.upd ?_ rfl))

theorem sendData_quiet {s₀ s : State} (h : Quiet s₀ s) (b : List Byte) : Quiet s₀ (sendData s b) := by
  unfold sendData
  repeat' (first
    | with_reducible assumption | with_reducible apply pumpLink_quiet | dsimp only
    | fail_if_no_progress (with_reducible refine Quiet.upd ?_ rfl))

theorem plSend_quiet {s₀ s : State} (h : Quiet s₀ s) (m : Msg) : Quiet s₀ (plSend s m) := by
  unfold plSend
  repeat' (first
    | with_reducible assumption | with_reducible apply noteAsked_quiet | with_reducible apply emit_quiet
    | with_reducible apply sendData_quiet | dsimp only | fail_if_no_progress (with_reducible refine Quiet.upd ?_ rfl))

theorem mirrorSend_quiet {s₀ s : State} (h : Quiet s₀ s) (m : Msg) : Quiet s₀ (mirrorSend s m) := by
  unfold mirrorSend
  repeat' (first
    | with_reducible assumption | with_reducible apply plSend_quiet | split
    | fail_if_no_progress (with_reducible refine Quiet.upd ?_ rfl))

theorem pumpCatch_quiet {s₀ s : State} (h : Quiet s₀ s) (n : Nat) : Quiet s₀ (pumpCatch n s) := by
  induction n generalizing s with
  | zero => exact h
  | succ n ih =>
    unfold pumpCatch
    repeat' (first
      | with_reducible assumption | with_reducible apply ih | with_reducible apply plSend_quiet | split | dsimp only
      | fail_if_no_progress (with_reducible refine Quiet.upd ?_ rfl))

theorem goOnCatch_quiet {s₀ s : State} (h : Quiet s₀ s) : Quiet s₀ (goOnCatch s) := by
  unfold goOnCatch
  repeat' (first | with_reducible assumption | with_reducible apply pumpCatch_quiet)

theorem roleEvent_quiet {s₀ s : State} (h : Quiet s₀ s) : Quiet s₀ (roleEvent s) := queueEvent_quiet h _ _ _ _

theorem setRole_quiet {s₀ s : State} (h : Quiet s₀ s) (role epoch : Nat) : Quiet s₀ (setRole s role epoch) :=
  roleEvent_quiet (Quiet.upd h rfl)

/-! ## Pipeline -/

theorem dropBuf_quiet {s₀ s : State} (h : Quiet s₀ s) (h1 : BitVec 32) : Quiet s₀ (dropBuf s h1) := by
  unfold dropBuf
  repeat' (first | with_reducible assumption | with_reducible apply release_quiet | split)

theorem dropRecBuf_quiet {s₀ s : State} (h : Quiet s₀ s) (h1 : BitVec 32) : Quiet s₀ (dropRecBuf s h1) := by
  unfold dropRecBuf
  repeat' (first
    | with_reducible assumption | with_reducible apply release_quiet | with_reducible apply Quiet.foldl
    | with_reducible apply Quiet.foldl_fst | with_reducible apply Quiet.foldl_snd | intro _ _ _ | intro _ _ | split)

theorem releasePiece_quiet {s₀ s : State} (h : Quiet s₀ s) (id : Nat) (k : Piece) : Quiet s₀ (releasePiece s id k) := by
  unfold releasePiece
  repeat' (first
    | with_reducible assumption | with_reducible apply dropBuf_quiet | with_reducible apply modCmd_quiet
    | with_reducible apply Quiet.foldl | intro _ _ _ | split)

theorem sweepCmd_quiet {s₀ s : State} (h : Quiet s₀ s) (c : Cmd) : Quiet s₀ (sweepCmd s c) := by
  unfold sweepCmd
  repeat' (first
    | with_reducible assumption | with_reducible apply releasePiece_quiet | with_reducible apply removeCmd_quiet
    | with_reducible apply Quiet.foldl | with_reducible apply Quiet.foldl_fst | with_reducible apply Quiet.foldl_snd | intro _ _ _
    | intro _ _ | split | dsimp only)

theorem sweep_quiet {s₀ s : State} (h : Quiet s₀ s) : Quiet s₀ (sweep s) := by
  unfold sweep
  repeat' (first | with_reducible assumption | with_reducible apply sweepCmd_quiet | with_reducible apply Quiet.foldl)

theorem dropHeld_quiet {s₀ s : State} (h : Quiet s₀ s) (j : RecJob) : Quiet s₀ (dropHeld s j) := by
  unfold dropHeld
  repeat' (first | with_reducible assumption | with_reducible apply releaseAll_quiet | split)

theorem cancelRecs_quiet {s₀ s : State} (h : Quiet s₀ s) (p : Nat) (st : StreamId) (v i : Nat) :
    Quiet s₀ (cancelRecs s p st v i) := by
  unfold cancelRecs
  repeat' (first
    | with_reducible assumption | with_reducible apply dropHeld_quiet | with_reducible apply modPart_quiet
    | with_reducible apply Quiet.foldl | with_reducible apply Quiet.foldl_fst | with_reducible apply Quiet.foldl_snd
    | intro _ _ _ | intro _ _ | split | dsimp only | fail_if_no_progress (with_reducible refine Quiet.upd ?_ rfl))

theorem failPiece_quiet {s₀ s : State} (h : Quiet s₀ s) (id : Nat) (k : Piece) : Quiet s₀ (failPiece s id k) := by
  unfold failPiece
  repeat' (first
    | with_reducible assumption | with_reducible apply modCmd_quiet | with_reducible apply cancelRecs_quiet
    | with_reducible apply sweepCmd_quiet | with_reducible apply mirrorSend_quiet | with_reducible apply Quiet.foldl
    | with_reducible apply Quiet.foldl_fst | with_reducible apply Quiet.foldl_snd | intro _ _ _ | intro _ _ | split)

theorem finishWrite_quiet {s₀ s : State} (h : Quiet s₀ s) (c : Cmd) (st d1 d2 : Nat) : Quiet s₀ (finishWrite s c st d1 d2) := by
  unfold finishWrite
  repeat' (first
    | with_reducible assumption | with_reducible apply finish_quiet | with_reducible apply sweepCmd_quiet
    | fail_if_no_progress (with_reducible refine Quiet.upd ?_ rfl))

theorem settleWrite_quiet {s₀ s : State} (h : Quiet s₀ s) (id : Nat) : Quiet s₀ (settleWrite s id) := by
  unfold settleWrite
  repeat' (first | with_reducible assumption | with_reducible apply sweepCmd_quiet | with_reducible apply finishWrite_quiet | split)

theorem settlePart_quiet {s₀ s : State} (h : Quiet s₀ s) (p : Nat) : Quiet s₀ (settlePart s p) := by
  unfold settlePart
  repeat' (first | with_reducible assumption | with_reducible apply settleWrite_quiet | with_reducible apply Quiet.foldl | intro _ _ _)

theorem addExtents_quiet {s₀ s : State} (h : Quiet s₀ s) (p : Nat) (es : List Extent) : Quiet s₀ (addExtents s p es) := by
  unfold addExtents
  repeat' (first
    | with_reducible assumption | with_reducible apply setPart_quiet | split
    | fail_if_no_progress (with_reducible refine Quiet.upd ?_ rfl))

theorem markPassed_quiet {s₀ s : State} (h : Quiet s₀ s) (p : Nat) (k : PieceId) : Quiet s₀ (markPassed s p k) := by
  unfold markPassed
  repeat' (first
    | with_reducible assumption | with_reducible apply modCmd_quiet | split
    | fail_if_no_progress (with_reducible refine Quiet.upd ?_ rfl))

theorem commitOwn_quiet {s₀ s : State} (h : Quiet s₀ s) (p : Nat) (c : Cmd) (q : Piece) : Quiet s₀ (commitOwn s p c q) := by
  unfold commitOwn
  repeat' (first
    | with_reducible assumption | with_reducible apply modCmd_quiet | with_reducible apply settleWrite_quiet
    | with_reducible apply mirrorSend_quiet | split | fail_if_no_progress (with_reducible refine Quiet.upd ?_ rfl))

theorem commitMirror_quiet {s₀ s : State} (h : Quiet s₀ s) (p : Nat) (k : PieceId) : Quiet s₀ (commitMirror s p k) := by
  unfold commitMirror
  repeat' (first
    | with_reducible assumption | with_reducible apply plSend_quiet | split | dsimp only
    | fail_if_no_progress (with_reducible refine Quiet.upd ?_ rfl))

theorem commitPiece_quiet {s₀ s : State} (h : Quiet s₀ s) (p : Nat) (k : PieceId) : Quiet s₀ (commitPiece s p k) := by
  unfold commitPiece
  repeat' (first
    | with_reducible assumption | with_reducible apply addExtents_quiet | with_reducible apply commitMirror_quiet
    | with_reducible apply commitOwn_quiet | split | dsimp only)

theorem commitLoop_quiet {s₀ s : State} (h : Quiet s₀ s) (n p : Nat) : Quiet s₀ (commitLoop n s p) := by
  induction n generalizing s with
  | zero => exact h
  | succ n ih =>
    unfold commitLoop
    repeat' (first | with_reducible assumption | with_reducible apply ih | with_reducible apply commitPiece_quiet | split)

theorem commitReady_quiet {s₀ s : State} (h : Quiet s₀ s) (p : Nat) : Quiet s₀ (commitReady s p) := by
  unfold commitReady
  repeat' (first | with_reducible assumption | with_reducible apply commitLoop_quiet)

theorem failPieces_quiet {s₀ s : State} (h : Quiet s₀ s) (id p : Nat) (ks : List Piece) : Quiet s₀ (failPieces s id p ks) := by
  unfold failPieces
  repeat' (first
    | with_reducible assumption | with_reducible apply commitReady_quiet | with_reducible apply failPiece_quiet
    | with_reducible apply Quiet.foldl | intro _ _ _)

theorem failFrom_quiet {s₀ s : State} (h : Quiet s₀ s) (id i : Nat) : Quiet s₀ (failFrom s id i) := by
  unfold failFrom
  repeat' (first | with_reducible assumption | with_reducible apply failPieces_quiet | split)

theorem failWrite_quiet {s₀ s : State} (h : Quiet s₀ s) (id i : Nat) (st d1 d2 : Nat) (gate : Option Nat) :
    Quiet s₀ (failWrite s id i st d1 d2 gate) := by
  unfold failWrite
  repeat' (first
    | with_reducible assumption | with_reducible apply modCmd_quiet | with_reducible apply settleWrite_quiet
    | with_reducible apply failFrom_quiet)

theorem endWrite_quiet {s₀ s : State} (h : Quiet s₀ s) (id st code : Nat) (keep : Bool) : Quiet s₀ (endWrite s id st code keep) := by
  unfold endWrite
  repeat' (first
    | with_reducible assumption | with_reducible apply failPieces_quiet | with_reducible apply sweepCmd_quiet
    | with_reducible apply finishWrite_quiet | split | dsimp only)

theorem queueDs_quiet {s₀ s : State} (h : Quiet s₀ s) (w : WriteDs) : Quiet s₀ (queueDs s w) := by
  unfold queueDs
  repeat' (first
    | with_reducible assumption | with_reducible apply fillBuf_quiet | dsimp only
    | fail_if_no_progress (with_reducible refine Quiet.upd ?_ rfl))

theorem closeSpan_quiet {s₀ s : State} (h : Quiet s₀ s) (p : Nat) : Quiet s₀ (closeSpan s p) := by
  unfold closeSpan
  repeat' (first
    | with_reducible assumption | with_reducible apply setPart_quiet | with_reducible apply unitAlloc_quiet
    | with_reducible apply queueDs_quiet | with_reducible apply modPart_quiet | split)

theorem joinSpan_quiet {s₀ s : State} (h : Quiet s₀ s) (d : Dataset) : Quiet s₀ (joinSpan s d) := by
  unfold joinSpan
  repeat' (first
    | with_reducible assumption | with_reducible apply setPart_quiet | with_reducible apply closeSpan_quiet | split | dsimp only
    | fail_if_no_progress (with_reducible refine Quiet.upd ?_ rfl))

theorem markPlaced_quiet {s₀ s : State} (h : Quiet s₀ s) (p : Nat) (ms : List Marker) : Quiet s₀ (markPlaced s p ms) := by
  unfold markPlaced
  repeat' (first
    | with_reducible assumption | with_reducible apply modCmd_quiet | with_reducible apply Quiet.foldl | intro _ _ _ | split
    | fail_if_no_progress (with_reducible refine Quiet.upd ?_ rfl))

theorem sealOpen_quiet {s₀ s : State} (h : Quiet s₀ s) (p : Nat) : Quiet s₀ (sealOpen s p) := by
  unfold sealOpen
  repeat' (first
    | with_reducible assumption | with_reducible apply closeSpan_quiet | with_reducible apply markPlaced_quiet
    | with_reducible apply queueDs_quiet | with_reducible apply joinSpan_quiet | with_reducible apply modPart_quiet | split
    | dsimp only)

theorem sealCheckpoint_quiet {s₀ s : State} (h : Quiet s₀ s) (p : Nat) (byUnmount : Bool) : Quiet s₀ (sealCheckpoint s p byUnmount) := by
  unfold sealCheckpoint
  repeat' (first
    | with_reducible assumption | with_reducible apply closeSpan_quiet | with_reducible apply markPlaced_quiet
    | with_reducible apply unitAlloc_quiet | with_reducible apply queueDs_quiet | with_reducible apply joinSpan_quiet
    | with_reducible apply modPart_quiet | with_reducible apply Quiet.foldl | intro _ _ _ | split | dsimp only
    | fail_if_no_progress (with_reducible refine Quiet.upd ?_ rfl))

theorem afterSeal_quiet {s₀ s : State} (h : Quiet s₀ s) (p : Nat) : Quiet s₀ (afterSeal s p) := by
  unfold afterSeal
  repeat' (first
    | with_reducible assumption | with_reducible apply sealCheckpoint_quiet | with_reducible apply modPart_quiet
    | with_reducible apply closeSpan_quiet | split | dsimp only)

theorem modRead_quiet {s₀ s : State} (h : Quiet s₀ s) (p seq : Nat) (f : ReadDs → ReadDs) : Quiet s₀ (modRead s p seq f) := by
  unfold modRead
  repeat' (first | with_reducible assumption | fail_if_no_progress (with_reducible refine Quiet.upd ?_ rfl))

theorem pauseJob_quiet {s₀ s : State} (h : Quiet s₀ s) (j : TagJob) : Quiet s₀ (pauseJob s j) := by
  unfold pauseJob
  repeat' (first
    | with_reducible assumption | with_reducible apply freshFree_quiet | fail_if_no_progress (with_reducible refine Quiet.upd ?_ rfl))

theorem runJob_quiet {s₀ s : State} (h : Quiet s₀ s) (j : TagJob) : Quiet s₀ (runJob s j) := by
  unfold runJob
  repeat' (first | with_reducible assumption | fail_if_no_progress (with_reducible refine Quiet.upd ?_ rfl))

theorem tagTurn_quiet {s₀ s : State} (h : Quiet s₀ s) : Quiet s₀ (tagTurn s) := by
  unfold tagTurn
  repeat' (first | with_reducible assumption | with_reducible apply runJob_quiet | with_reducible apply pauseJob_quiet | split)

theorem dropOpenDs_quiet {s₀ s : State} (h : Quiet s₀ s) (p : Nat) : Quiet s₀ (dropOpenDs s p) := by
  unfold dropOpenDs
  repeat' (first
    | with_reducible assumption | with_reducible apply sweep_quiet | with_reducible apply modPart_quiet
    | with_reducible apply releaseAll_quiet)

theorem sealIfDone_quiet {s₀ s : State} (h : Quiet s₀ s) (p : Nat) : Quiet s₀ (sealIfDone s p) := by
  unfold sealIfDone
  repeat' (first
    | with_reducible assumption | with_reducible apply afterSeal_quiet | with_reducible apply dropOpenDs_quiet
    | with_reducible apply sealOpen_quiet | split)

theorem stopDs_quiet {s₀ s : State} (h : Quiet s₀ s) (p : Nat) (urgent : Bool) : Quiet s₀ (stopDs s p urgent) := by
  unfold stopDs
  repeat' (first
    | with_reducible assumption | with_reducible apply sealIfDone_quiet | with_reducible apply tagTurn_quiet
    | with_reducible apply modPart_quiet)

theorem stopOpen_quiet {s₀ s : State} (h : Quiet s₀ s) (p : Nat) : Quiet s₀ (stopOpen s p) := by
  unfold stopOpen
  repeat' (first | with_reducible assumption | with_reducible apply stopDs_quiet)

theorem wantCheckpoint_quiet {s₀ s : State} (h : Quiet s₀ s) (p : Nat) (byUnmount : Bool) : Quiet s₀ (wantCheckpoint s p byUnmount) := by
  unfold wantCheckpoint
  repeat' (first | with_reducible assumption | with_reducible apply stopOpen_quiet | with_reducible apply modPart_quiet)

theorem closeForReserve_quiet {s₀ s : State} (h : Quiet s₀ s) (p : Nat) : Quiet s₀ (closeForReserve s p) := by
  unfold closeForReserve
  repeat' (first | with_reducible assumption | with_reducible apply stopOpen_quiet | with_reducible apply setPart_quiet | split)

theorem openDataset_quiet {s₀ s : State} (h : Quiet s₀ s) (p : Nat) (realloc : Bool) : Quiet s₀ (openDataset s p realloc) := by
  unfold openDataset
  repeat' (first
    | with_reducible assumption | with_reducible apply unitAlloc_quiet | with_reducible apply modPart_quiet | split | dsimp only)

theorem failMarkers_quiet {s₀ s : State} (h : Quiet s₀ s) (p : Nat) : Quiet s₀ (failMarkers s p) := by
  unfold failMarkers
  repeat' (first
    | with_reducible assumption | with_reducible apply failWrite_quiet | with_reducible apply Quiet.foldl | intro _ _ _ | split
    | dsimp only | fail_if_no_progress (with_reducible refine Quiet.upd ?_ rfl))

theorem openForMarkers_quiet {s₀ s : State} (h : Quiet s₀ s) (p : Nat) : Quiet s₀ (openForMarkers s p) := by
  unfold openForMarkers
  repeat' (first
    | with_reducible assumption | with_reducible apply openDataset_quiet | with_reducible apply closeForReserve_quiet
    | with_reducible apply failMarkers_quiet | split)

theorem leaveDue_quiet {s₀ s : State} (h : Quiet s₀ s) (w : WriteDs) : Quiet s₀ (leaveDue s w) := by
  unfold leaveDue
  repeat' (first | with_reducible assumption | fail_if_no_progress (with_reducible refine Quiet.upd ?_ rfl))

theorem forgetMembers_quiet {s₀ s : State} (h : Quiet s₀ s) (d : Dataset) : Quiet s₀ (forgetMembers s d) := by
  unfold forgetMembers
  repeat' (first | with_reducible assumption | split | fail_if_no_progress (with_reducible refine Quiet.upd ?_ rfl))

theorem dropSealed_quiet {s₀ s : State} (h : Quiet s₀ s) (w : WriteDs) : Quiet s₀ (dropSealed s w) := by
  unfold dropSealed
  repeat' (first
    | with_reducible assumption | with_reducible apply forgetMembers_quiet | with_reducible apply leaveDue_quiet
    | with_reducible apply release_quiet | split | dsimp only | fail_if_no_progress (with_reducible refine Quiet.upd ?_ rfl))

theorem modTape_quiet {s₀ s : State} (h : Quiet s₀ s) (w : WriteDs) (f : TapeDs → TapeDs) : Quiet s₀ (modTape s w f) := by
  unfold modTape
  repeat' (first | with_reducible assumption | fail_if_no_progress (with_reducible refine Quiet.upd ?_ rfl))

theorem checkpointPassed_quiet {s₀ s : State} (h : Quiet s₀ s) (p first n : Nat) : Quiet s₀ (checkpointPassed s p first n) := by
  unfold checkpointPassed
  repeat' (first
    | with_reducible assumption | with_reducible apply setPart_quiet | with_reducible apply finish_quiet
    | with_reducible apply Quiet.foldl | intro _ _ _ | split)

theorem clearCkpt_quiet {s₀ s : State} (h : Quiet s₀ s) (p : Nat → Bool) : Quiet s₀ (clearCkpt s p) := by
  unfold clearCkpt
  repeat' (first
    | with_reducible assumption | split | dsimp only | fail_if_no_progress (with_reducible refine Quiet.upd ?_ rfl))

theorem endMoves_quiet {s₀ s : State} (h : Quiet s₀ s) (p : Nat) : Quiet s₀ (endMoves s p) := by
  unfold endMoves
  repeat' (first | with_reducible assumption | dsimp only | fail_if_no_progress (with_reducible refine Quiet.upd ?_ rfl))

theorem endCheckpoints_quiet {s₀ s : State} (h : Quiet s₀ s) (p : Nat → Bool) (st d1 : Nat) :
    Quiet s₀ (endCheckpoints s p st d1) := by
  unfold endCheckpoints
  repeat' (first
    | with_reducible assumption | with_reducible apply finish_quiet | with_reducible apply Quiet.foldl
    | with_reducible apply Quiet.foldl_fst | with_reducible apply Quiet.foldl_snd | intro _ _ _)

theorem checkpointAbandoned_quiet {s₀ s : State} (h : Quiet s₀ s) (p q : Nat) : Quiet s₀ (checkpointAbandoned s p q) := by
  unfold checkpointAbandoned
  repeat' (first
    | with_reducible assumption | with_reducible apply endCheckpoints_quiet | with_reducible apply clearCkpt_quiet
    | with_reducible apply endMoves_quiet | with_reducible apply faultProtect_quiet
    | with_reducible apply wantCheckpoint_quiet | with_reducible apply setPart_quiet | split)

theorem modRec_quiet {s₀ s : State} (h : Quiet s₀ s) (id : Nat) (f : RecJob → RecJob) : Quiet s₀ (modRec s id f) := by
  unfold modRec
  repeat' (first
    | with_reducible assumption | split | dsimp only | fail_if_no_progress (with_reducible refine Quiet.upd ?_ rfl))

theorem takeMirrors_quiet {s₀ s : State} (h : Quiet s₀ s) (a0 : List RecJob) : Quiet s₀ (takeMirrors a0 s) := by
  induction a0 generalizing s with
  | nil => exact h
  | cons x a0 ih =>
    unfold takeMirrors
    repeat' (first
      | with_reducible assumption | with_reducible apply ih | with_reducible apply unitAllocN_quiet
      | with_reducible apply modRec_quiet | with_reducible apply fillBufs_quiet | split | dsimp only)

theorem giveCredit_quiet {s₀ s : State} (h : Quiet s₀ s) : Quiet s₀ (giveCredit s) := by
  unfold giveCredit
  repeat' (first
    | with_reducible assumption | with_reducible apply takeMirrors_quiet | with_reducible apply plSend_quiet | split)

theorem dropMirrored_quiet {s₀ s : State} (h : Quiet s₀ s) (p : Nat) (hit : MirrorPiece → Bool) :
    Quiet s₀ (dropMirrored s p hit) := by
  unfold dropMirrored
  repeat' (first
    | with_reducible assumption | with_reducible apply dropRecBuf_quiet | with_reducible apply giveCredit_quiet
    | with_reducible apply Quiet.foldl | with_reducible apply Quiet.foldl_fst | with_reducible apply Quiet.foldl_snd
    | intro _ _ _ | intro _ _ | split | dsimp only | fail_if_no_progress (with_reducible refine Quiet.upd ?_ rfl))

theorem discardOpen_quiet {s₀ s : State} (h : Quiet s₀ s) (p : Nat) : Quiet s₀ (discardOpen s p) := by
  unfold discardOpen
  repeat' (first | with_reducible assumption | with_reducible apply sealIfDone_quiet | with_reducible apply modPart_quiet)

theorem dropRealloc_quiet {s₀ s : State} (h : Quiet s₀ s) (p seq : Nat) : Quiet s₀ (dropRealloc s p seq) := by
  unfold dropRealloc
  repeat' (first
    | with_reducible assumption | with_reducible apply modPart_quiet | with_reducible apply setSubst_quiet | dsimp only
    | fail_if_no_progress (with_reducible refine Quiet.upd ?_ rfl))

theorem endReallocs_quiet {s₀ s : State} (h : Quiet s₀ s) (p : Nat) : Quiet s₀ (endReallocs s p) := by
  unfold endReallocs
  repeat' (first
    | with_reducible assumption | with_reducible apply dropRealloc_quiet | with_reducible apply Quiet.foldl
    | with_reducible apply Quiet.foldl_fst | with_reducible apply Quiet.foldl_snd | intro _ _ _ | intro _ _ | dsimp only
    | fail_if_no_progress (with_reducible refine Quiet.upd ?_ rfl))

theorem haltPartition_quiet {s₀ s : State} (h : Quiet s₀ s) (p : Nat) : Quiet s₀ (haltPartition s p) := by
  unfold haltPartition
  repeat' (first
    | with_reducible assumption | with_reducible apply modPart_quiet | with_reducible apply dropMirrored_quiet
    | with_reducible apply clearCkpt_quiet | with_reducible apply endWrite_quiet | with_reducible apply discardOpen_quiet
    | with_reducible apply endReallocs_quiet | with_reducible apply endCheckpoints_quiet | with_reducible apply Quiet.foldl
    | with_reducible apply Quiet.foldl_fst | with_reducible apply Quiet.foldl_snd | intro _ _ _ | intro _ _ | split
    | dsimp only | fail_if_no_progress (with_reducible refine Quiet.upd ?_ rfl))

theorem haltIfDrained_quiet {s₀ s : State} (h : Quiet s₀ s) (p : Nat) : Quiet s₀ (haltIfDrained s p) := by
  unfold haltIfDrained
  repeat' (first | with_reducible assumption | with_reducible apply haltPartition_quiet | split)

theorem passDataset_quiet {s₀ s : State} (h : Quiet s₀ s) (w : WriteDs) : Quiet s₀ (passDataset s w) := by
  unfold passDataset
  extract_lets p s1 s2 r1 s3 s4 s5 s6 s7
  have h_s1 : Quiet s₀ s1 := by
    unfold s1
    repeat' (first | with_reducible assumption | with_reducible apply dropSealed_quiet)
  clear_value s1
  have h_s2 : Quiet s₀ s2 := by
    unfold s2
    repeat' (first | with_reducible assumption | with_reducible apply modPart_quiet)
  clear_value s2
  have h_s3 : Quiet s₀ s3 := by
    unfold s3
    repeat' (first
      | with_reducible assumption | with_reducible apply Quiet.foldl | intro _ _ _ | split | dsimp only
      | fail_if_no_progress (with_reducible refine Quiet.upd ?_ rfl))
  clear_value s3
  have h_s4 : Quiet s₀ s4 := by
    unfold s4
    repeat' (first
      | with_reducible assumption | with_reducible apply commitReady_quiet | with_reducible apply markPassed_quiet
      | with_reducible apply Quiet.foldl | intro _ _ _)
  clear_value s4
  have h_s5 : Quiet s₀ s5 := by
    unfold s5
    repeat' (first
      | with_reducible assumption | with_reducible apply checkpointPassed_quiet | with_reducible apply setPart_quiet
      | with_reducible apply Quiet.foldl | intro _ _ _ | split | dsimp only)
  clear_value s5
  have h_s6 : Quiet s₀ s6 := by
    unfold s6
    repeat' (first | with_reducible assumption | with_reducible apply openForMarkers_quiet | with_reducible apply settlePart_quiet)
  clear_value s6
  have h_s7 : Quiet s₀ s7 := by
    unfold s7
    repeat' (first
      | with_reducible assumption | with_reducible apply afterSeal_quiet | with_reducible apply Quiet.foldl | intro _ _ _ | split)
  clear_value s7
  repeat' (first | with_reducible assumption | with_reducible apply haltIfDrained_quiet)

theorem abandonDataset_quiet {s₀ s : State} (h : Quiet s₀ s) (w : WriteDs) (st : Nat) : Quiet s₀ (abandonDataset s w st) := by
  unfold abandonDataset
  repeat' (first
    | with_reducible assumption | with_reducible apply dropSealed_quiet | with_reducible apply faultRec_quiet
    | with_reducible apply modPart_quiet | with_reducible apply failWrite_quiet | with_reducible apply commitReady_quiet
    | with_reducible apply checkpointAbandoned_quiet | with_reducible apply openForMarkers_quiet | with_reducible apply afterSeal_quiet
    | with_reducible apply haltIfDrained_quiet | with_reducible apply Quiet.foldl | intro _ _ _ | split
    | fail_if_no_progress (with_reducible refine Quiet.upd ?_ rfl))

/-! ## ReadPath -/

theorem joinRun_quiet {s₀ s : State} (h : Quiet s₀ s) (p seq wrap : Nat) : Quiet s₀ (joinRun s p seq wrap) := by
  unfold joinRun
  repeat' (first | with_reducible assumption | split | dsimp only | fail_if_no_progress (with_reducible refine Quiet.upd ?_ rfl))

theorem needVisit_quiet {s₀ s : State} (h : Quiet s₀ s) (id prio since p seq : Nat) :
    Quiet s₀ (needVisit s id prio since p seq) := by
  unfold needVisit
  repeat' (first
    | with_reducible assumption | split | dsimp only | fail_if_no_progress (with_reducible refine Quiet.upd ?_ rfl))

theorem addVisit_quiet {s₀ s : State} (h : Quiet s₀ s) (id prio since p seq : Nat) : Quiet s₀ (addVisit s id prio since p seq) := by
  unfold addVisit
  repeat' (first
    | with_reducible assumption | with_reducible apply needVisit_quiet | with_reducible apply joinRun_quiet | split
    | dsimp only)

theorem dropRead_quiet {s₀ s : State} (h : Quiet s₀ s) (p seq : Nat) : Quiet s₀ (dropRead s p seq) := by
  unfold dropRead
  repeat' (first
    | with_reducible assumption | with_reducible apply release_quiet | with_reducible apply releaseAll_quiet | split
    | fail_if_no_progress (with_reducible refine Quiet.upd ?_ rfl))

theorem closeVisit_quiet {s₀ s : State} (h : Quiet s₀ s) (p seq : Nat) : Quiet s₀ (closeVisit s p seq) := by
  unfold closeVisit
  repeat' (first | with_reducible assumption | with_reducible apply dropRead_quiet | split)

theorem lanesOff_quiet {s₀ s : State} (h : Quiet s₀ s) : Quiet s₀ (lanesOff s) := by
  unfold lanesOff
  repeat' (first | with_reducible assumption | dsimp only | fail_if_no_progress (with_reducible refine Quiet.upd ?_ rfl))

theorem endRun_quiet {s₀ s : State} (h : Quiet s₀ s) : Quiet s₀ (endRun s) := by
  unfold endRun
  repeat' (first
    | with_reducible assumption | with_reducible apply lanesOff_quiet | dsimp only
    | fail_if_no_progress (with_reducible refine Quiet.upd ?_ rfl))

theorem keepRun_quiet {s₀ s : State} (h : Quiet s₀ s) (run : List (Nat × Nat)) : Quiet s₀ (keepRun s run) := by
  unfold keepRun
  repeat' (first
    | with_reducible assumption | with_reducible apply endRun_quiet | split | dsimp only
    | fail_if_no_progress (with_reducible refine Quiet.upd ?_ rfl))

theorem setVisits_quiet {s₀ s : State} (h : Quiet s₀ s) (vs : List Visit) : Quiet s₀ (setVisits s vs) := by
  unfold setVisits
  repeat' (first
    | with_reducible assumption | with_reducible apply keepRun_quiet | dsimp only
    | fail_if_no_progress (with_reducible refine Quiet.upd ?_ rfl))

theorem leaveSome_quiet {s₀ s : State} (h : Quiet s₀ s) (c : Cmd) (which : Visit → Bool) : Quiet s₀ (leaveSome s c which) := by
  unfold leaveSome
  repeat' (first | with_reducible assumption | with_reducible apply setVisits_quiet)

theorem readerOut_quiet {s₀ s : State} (h : Quiet s₀ s) (c : Cmd) : Quiet s₀ (readerOut s c) := by
  unfold readerOut
  repeat' (first
    | with_reducible assumption | with_reducible apply release_quiet | with_reducible apply unpark_quiet
    | with_reducible apply leaveSome_quiet | with_reducible apply closeVisit_quiet | with_reducible apply Quiet.foldl
    | with_reducible apply Quiet.foldl_fst | with_reducible apply Quiet.foldl_snd | intro _ _ _ | intro _ _ | split
    | dsimp only | fail_if_no_progress (with_reducible refine Quiet.upd ?_ rfl))

theorem endRead_quiet {s₀ s : State} (h : Quiet s₀ s) (c : Cmd) (st d1 d2 : Nat) : Quiet s₀ (endRead s c st d1 d2) := by
  unfold endRead
  dsimp only
  repeat' (first
    | with_reducible assumption | with_reducible apply readerOut_quiet | with_reducible apply dmaOut_quiet
    | with_reducible apply finish_quiet)

theorem deliver_quiet {s₀ s : State} (h : Quiet s₀ s) (c : Cmd) (bs : List Byte) (fromStaging fromRecovery : Bool) :
    Quiet s₀ (deliver s c bs fromStaging fromRecovery) := by
  unfold deliver
  repeat' (first | with_reducible assumption | with_reducible apply modCmd_quiet)

theorem failRecord_quiet {s₀ s : State} (h : Quiet s₀ s) (c : Cmd) (seq st d2 : Nat) : Quiet s₀ (failRecord s c seq st d2) := by
  unfold failRecord
  repeat' (first
    | with_reducible assumption | with_reducible apply endRead_quiet | fail_if_no_progress (with_reducible refine Quiet.upd ?_ rfl))

theorem pinAll_quiet {s₀ s : State} (h : Quiet s₀ s) {c w : Cmd} {hs : List (BitVec 32)} {t : State}
    (g : pinAll s c w hs = some t) : Quiet s₀ t := by
  unfold pinAll at g
  suffices q : ∀ (l : List (BitVec 32)) (o : Option State) (f : Option State → BitVec 32 → Option State),
      (∀ y b x, Quiet s₀ y → f (some y) b = some x → Quiet s₀ x) → (∀ b, f none b = none) →
      (∀ x, o = some x → Quiet s₀ x) → ∀ x, l.foldl f o = some x → Quiet s₀ x by
    refine q hs (some s) _ ?_ (fun _ => rfl) (fun x e => by cases e; exact h) t g
    intro y b x hy e
    dsimp only at e
    split at e
    · cases e
    · split at e
      · cases e; exact hy
      · split at e
        · cases e
        · cases e
          with_reducible apply modCmd_quiet
          with_reducible apply acquire_quiet
          exact hy
  intro l
  induction l with
  | nil => intro o f _ _ ho x e; exact ho x e
  | cons b l ih =>
    intro o f hf hn ho
    refine ih _ f hf hn ?_
    intro x e
    cases o with
    | none => rw [hn] at e; cases e
    | some y => exact hf y b x (ho y rfl) e

theorem pinStaged_quiet {s₀ s : State} (h : Quiet s₀ s) (c : Cmd) : Quiet s₀ (pinStaged s c) := by
  have g : ∀ (t : State) (w : Cmd) (l : List (BitVec 32)), Quiet s₀ t → Quiet s₀ ((pinAll t c w l).getD t) := by
    intro t w l ht
    cases e : pinAll t c w l with
    | none => exact ht
    | some x => exact pinAll_quiet ht e
  unfold pinStaged
  repeat' (first | with_reducible assumption | apply g | with_reducible apply Quiet.foldl | intro _ _ _ | split)

theorem makeChains_quiet {s₀ s : State} (h : Quiet s₀ s) (p seq : Nat) : Quiet s₀ (makeChains s p seq) := by
  unfold makeChains
  repeat' (first
    | with_reducible assumption | with_reducible apply Quiet.foldl | intro _ _ _ | split | dsimp only
    | fail_if_no_progress (with_reducible refine Quiet.upd ?_ rfl))

theorem needTape_quiet {s₀ s : State} (h : Quiet s₀ s) (c : Cmd) (p seq : Nat) : Quiet s₀ (needTape s c p seq) := by
  unfold needTape
  repeat' (first
    | with_reducible assumption | with_reducible apply endRead_quiet | with_reducible apply makeChains_quiet
    | with_reducible apply addVisit_quiet | split | dsimp only | fail_if_no_progress (with_reducible refine Quiet.upd ?_ rfl))

theorem visitAll_quiet {s₀ s : State} (h : Quiet s₀ s) (c : Cmd) : Quiet s₀ (visitAll s c) := by
  unfold visitAll
  repeat' (first
    | with_reducible assumption | with_reducible apply addVisit_quiet | with_reducible apply Quiet.foldl | intro _ _ _ | split)

theorem wrongHeader_quiet {s₀ s : State} (h : Quiet s₀ s) (p seq : Nat) : Quiet s₀ (wrongHeader s p seq) := by
  unfold wrongHeader
  repeat' (first | with_reducible assumption | with_reducible apply modRead_quiet)

theorem serveTape_quiet {s₀ s : State} (h : Quiet s₀ s) (c : Cmd) (r : Run) (e : Extent) : Quiet s₀ (serveTape s c r e).1 := by
  unfold serveTape
  repeat' (first
    | with_reducible assumption | with_reducible apply endRead_quiet | with_reducible apply needTape_quiet
    | with_reducible apply wrongHeader_quiet | with_reducible apply addVisit_quiet | with_reducible apply failRecord_quiet
    | with_reducible apply deliver_quiet | split | dsimp only)

theorem serveLoop_quiet {s₀ s : State} (h : Quiet s₀ s) (fuel id : Nat) : Quiet s₀ (serveLoop fuel id s) := by
  induction fuel generalizing s with
  | zero => exact h
  | succ fuel ih =>
    unfold serveLoop
    repeat' (first
      | with_reducible assumption | with_reducible apply ih | with_reducible apply endRead_quiet | with_reducible apply deliver_quiet
      | with_reducible apply serveTape_quiet | with_reducible apply modCmd_quiet | split | dsimp only)
    all_goals exact pinAll_quiet h (by assumption)

theorem locatorDeliver_quiet {s₀ s : State} (h : Quiet s₀ s) (st d1 d2 a0 a1 : Nat) :
    Quiet s₀ (locatorDeliver st d1 d2 a0 a1 s) := by
  induction a0 generalizing s st d1 d2 a1 with
  | zero => exact h
  | succ a0 ih =>
    unfold locatorDeliver
    repeat' (first
      | with_reducible assumption | with_reducible apply ih | with_reducible apply endRead_quiet
      | with_reducible apply deliver_quiet | with_reducible apply Quiet.foldl | with_reducible apply Quiet.foldl_fst
      | with_reducible apply Quiet.foldl_snd | intro _ _ _ | intro _ _ | split | dsimp only)

theorem serveLocator_quiet {s₀ s : State} (h : Quiet s₀ s) (id : Nat) : Quiet s₀ (serveLocator s id) := by
  unfold serveLocator
  repeat' (first
    | with_reducible assumption | with_reducible apply locatorDeliver_quiet | with_reducible apply modCmd_quiet
    | with_reducible apply makeChains_quiet | with_reducible apply addVisit_quiet | split)

theorem locatorTake_quiet {s₀ s : State} (h : Quiet s₀ s) (id p seq : Nat) : Quiet s₀ (locatorTake s id p seq) := by
  unfold locatorTake
  repeat' (first
    | with_reducible assumption | with_reducible apply wrongHeader_quiet | with_reducible apply failRecord_quiet
    | with_reducible apply modCmd_quiet | with_reducible apply recovered_quiet | with_reducible apply serveLocator_quiet
    | with_reducible apply closeVisit_quiet | with_reducible apply leaveSome_quiet | split | dsimp only)

theorem trimVisits_quiet {s₀ s : State} (h : Quiet s₀ s) (id : Nat) : Quiet s₀ (trimVisits s id) := by
  unfold trimVisits
  repeat' (first
    | with_reducible assumption | with_reducible apply closeVisit_quiet | with_reducible apply leaveSome_quiet
    | with_reducible apply Quiet.foldl | with_reducible apply Quiet.foldl_fst | with_reducible apply Quiet.foldl_snd
    | intro _ _ _ | intro _ _ | split | dsimp only)

theorem serveOne_quiet {s₀ s : State} (h : Quiet s₀ s) (id : Nat) : Quiet s₀ (serveOne s id) := by
  unfold serveOne
  repeat' (first
    | with_reducible assumption | with_reducible apply serveLocator_quiet | with_reducible apply locatorTake_quiet
    | with_reducible apply modCmd_quiet | with_reducible apply trimVisits_quiet | with_reducible apply serveLoop_quiet
    | with_reducible apply pinStaged_quiet | split)

theorem retryHeld_quiet {s₀ s : State} (h : Quiet s₀ s) (n : Nat) : Quiet s₀ (retryHeld n s) := by
  induction n generalizing s with
  | zero => exact h
  | succ n ih =>
    unfold retryHeld
    repeat' (first
      | with_reducible assumption | with_reducible apply ih | with_reducible apply serveOne_quiet | with_reducible apply Quiet.foldl
      | split | dsimp only)

theorem serveRead_quiet {s₀ s : State} (h : Quiet s₀ s) (id : Nat) : Quiet s₀ (serveRead s id) := by
  unfold serveRead
  repeat' (first | with_reducible assumption | with_reducible apply serveOne_quiet | with_reducible apply retryHeld_quiet)

theorem finishRead_quiet {s₀ s : State} (h : Quiet s₀ s) (c : Cmd) (st d1 d2 : Nat) : Quiet s₀ (finishRead s c st d1 d2) := by
  unfold finishRead
  repeat' (first | with_reducible assumption | with_reducible apply endRead_quiet | with_reducible apply retryHeld_quiet)

theorem serveAll_quiet {s₀ s : State} (h : Quiet s₀ s) : Quiet s₀ (serveAll s) := by
  unfold serveAll
  repeat' (first | with_reducible assumption | with_reducible apply serveRead_quiet | with_reducible apply Quiet.foldl)

theorem startRead_quiet {s₀ s : State} (h : Quiet s₀ s) (id : Nat) : Quiet s₀ (startRead s id) := by
  unfold startRead
  repeat' (first
    | with_reducible assumption | with_reducible apply modCmd_quiet | with_reducible apply serveRead_quiet
    | with_reducible apply addVisit_quiet | with_reducible apply visitAll_quiet | with_reducible apply pinStaged_quiet
    | with_reducible apply Quiet.foldl | with_reducible apply Quiet.foldl_fst | with_reducible apply Quiet.foldl_snd
    | intro _ _ _ | intro _ _ | split)

theorem serveVisit_quiet {s₀ s : State} (h : Quiet s₀ s) (p seq : Nat) : Quiet s₀ (serveVisit s p seq) := by
  unfold serveVisit
  repeat' (first | with_reducible assumption | with_reducible apply serveRead_quiet | with_reducible apply Quiet.foldl | split)

theorem removeVisit_quiet {s₀ s : State} (h : Quiet s₀ s) (p seq : Nat) : Quiet s₀ (removeVisit s p seq) := by
  unfold removeVisit
  repeat' (first | with_reducible assumption | with_reducible apply dropRead_quiet | with_reducible apply setVisits_quiet)

theorem failVisit_quiet {s₀ s : State} (h : Quiet s₀ s) (p seq st reason : Nat) : Quiet s₀ (failVisit s p seq st reason) := by
  unfold failVisit
  repeat' (first
    | with_reducible assumption | with_reducible apply dropRead_quiet | with_reducible apply removeVisit_quiet
    | with_reducible apply locatorDeliver_quiet | with_reducible apply retryHeld_quiet | with_reducible apply serveRead_quiet
    | with_reducible apply modCmd_quiet | with_reducible apply Quiet.foldl | with_reducible apply Quiet.foldl_fst
    | with_reducible apply Quiet.foldl_snd | intro _ _ _ | intro _ _ | split)

theorem endVisit_quiet {s₀ s : State} (h : Quiet s₀ s) (p seq st : Nat) : Quiet s₀ (endVisit s p seq st) := by
  unfold endVisit
  repeat' (first
    | with_reducible assumption | with_reducible apply dropRead_quiet | with_reducible apply removeVisit_quiet
    | with_reducible apply finishRead_quiet | with_reducible apply Quiet.foldl | intro _ _ _ | split)

end Sys2Proof.Laws
end

