-- ==== Sys2Proof/Laws/Frame2.lean ====
section
/-! SUPPORT. The frame of every operation of Realloc, WritePath, Tags, Decompress, FrontEnd, Writer: it keeps the waiting
commands, the model's time and staging memory, and only adds to the outputs. Each lemma is used by its name, not by unfolding the
operation. -/

namespace Sys2Proof.Laws

open Sys2Proof Sys2Proof.Machine

set_option linter.unusedVariables false

/-! ## Realloc -/

theorem placeChains_quiet {s₀ s : State} (h : Quiet s₀ s) (a0 a2 : Nat) : Quiet s₀ (placeChains a0 s a2) := by
  induction a0 generalizing s a2 with
  | zero => exact h
  | succ a0 ih =>
    unfold placeChains
    repeat' (first
      | with_reducible assumption | with_reducible apply ih | with_reducible apply dropRealloc_quiet
      | with_reducible apply openDataset_quiet | with_reducible apply fillBuf_quiet | with_reducible apply setPart_quiet
      | with_reducible apply sealIfDone_quiet | split | dsimp only)

theorem flushChains_quiet {s₀ s : State} (h : Quiet s₀ s) (p : Nat) : Quiet s₀ (flushChains s p) := by
  unfold flushChains
  repeat' (first | with_reducible assumption | with_reducible apply placeChains_quiet)

theorem startRealloc_quiet {s₀ s : State} (h : Quiet s₀ s) (p seq : Nat) (ds : Dataset) : Quiet s₀ (startRealloc s p seq ds) := by
  unfold startRealloc
  repeat' (first
    | with_reducible assumption | with_reducible apply setPart_quiet | with_reducible apply flushChains_quiet | split | dsimp only
    | fail_if_no_progress (with_reducible refine Quiet.upd ?_ rfl))

theorem moveRealloc_quiet {s₀ s : State} (h : Quiet s₀ s) (r : Realloc) : Quiet s₀ (moveRealloc s r) := by
  unfold moveRealloc
  repeat' (first
    | with_reducible assumption | with_reducible apply modPart_quiet | with_reducible apply wantCheckpoint_quiet | split | dsimp only
    | fail_if_no_progress (with_reducible refine Quiet.upd ?_ rfl))

theorem advanceReallocs_quiet {s₀ s : State} (h : Quiet s₀ s) (p : Nat) : Quiet s₀ (advanceReallocs s p) := by
  unfold advanceReallocs
  repeat' (first
    | with_reducible assumption | with_reducible apply moveRealloc_quiet | with_reducible apply Quiet.foldl | intro _ _ _ | split)

theorem reallocsDone_quiet {s₀ s : State} (h : Quiet s₀ s) (p first : Nat) : Quiet s₀ (reallocsDone s p first) := by
  unfold reallocsDone
  repeat' (first
    | with_reducible assumption | with_reducible apply queueEvent_quiet | with_reducible apply Quiet.foldl | intro _ _ _
    | fail_if_no_progress (with_reducible refine Quiet.upd ?_ rfl))

theorem reallocAbandoned_quiet {s₀ s : State} (h : Quiet s₀ s) (w : WriteDs) : Quiet s₀ (reallocAbandoned s w) := by
  unfold reallocAbandoned
  repeat' (first
    | with_reducible assumption | with_reducible apply dropRealloc_quiet | with_reducible apply modPart_quiet
    | with_reducible apply flushChains_quiet | with_reducible apply Quiet.foldl | intro _ _ _ | split
    | fail_if_no_progress (with_reducible refine Quiet.upd ?_ rfl))

/-! ## WritePath -/

theorem growBufs_quiet {s₀ s : State} (h : Quiet s₀ s) (fuel id n : Nat) : Quiet s₀ (growBufs fuel s id n).2 := by
  induction fuel generalizing s with
  | zero => exact h
  | succ fuel ih =>
    unfold growBufs
    repeat' (first
      | with_reducible assumption | with_reducible apply ih | with_reducible apply allocate_quiet | with_reducible apply modCmd_quiet
      | split | dsimp only)

theorem discardMirror_quiet {s₀ s : State} (h : Quiet s₀ s) (p : Nat) (st : StreamId) (v i : Nat) :
    Quiet s₀ (discardMirror s p st v i) := by
  unfold discardMirror
  repeat' (first
    | with_reducible assumption | with_reducible apply giveCredit_quiet | with_reducible apply releaseAll_quiet | split
    | dsimp only | fail_if_no_progress (with_reducible refine Quiet.upd ?_ rfl))

theorem cutRecord_quiet {s₀ s : State} (h : Quiet s₀ s) (p : Nat) (o : OpenDs) (c : Cmd) (k : Piece) (len : Nat) :
    Quiet s₀ (cutRecord s p o c k len) := by
  unfold cutRecord
  repeat' (first
    | with_reducible assumption | with_reducible apply modCmd_quiet | with_reducible apply modPart_quiet
    | fail_if_no_progress (with_reducible refine Quiet.upd ?_ rfl))

theorem recordCutS_quiet {s₀ s : State} (h : Quiet s₀ s) (p : Nat) : Quiet s₀ (recordCutS s p) := by
  unfold recordCutS
  repeat' (first
    | with_reducible assumption | with_reducible apply closeForReserve_quiet | with_reducible apply failWrite_quiet
    | with_reducible apply openDataset_quiet | with_reducible apply cutRecord_quiet | with_reducible apply sealIfDone_quiet
    | with_reducible apply setPart_quiet | split | dsimp only)

theorem failUntaggable_quiet {s₀ s : State} (h : Quiet s₀ s) : Quiet s₀ (failUntaggable s) := by
  unfold failUntaggable
  repeat' (first
    | with_reducible assumption | with_reducible apply failWrite_quiet | with_reducible apply Quiet.foldl | intro _ _ _ | split)

theorem setEngine_quiet {s₀ s : State} (h : Quiet s₀ s) (e : Nat) (x : Engine) : Quiet s₀ (setEngine s e x) := by
  unfold setEngine
  repeat' (first | with_reducible assumption | fail_if_no_progress (with_reducible refine Quiet.upd ?_ rfl))

theorem holdForPeer_quiet {s₀ s : State} (h : Quiet s₀ s) (id : Nat) : Quiet s₀ (holdForPeer s id) := by
  unfold holdForPeer
  repeat' (first
    | with_reducible assumption | with_reducible apply acquire_quiet | with_reducible apply Quiet.foldl
    | with_reducible apply Quiet.foldl_fst | with_reducible apply Quiet.foldl_snd | intro _ _ _ | intro _ _ | split)

theorem recReady_quiet {s₀ s : State} (h : Quiet s₀ s) (id : Nat) : Quiet s₀ (recReady s id) := by
  unfold recReady
  repeat' (first
    | with_reducible assumption | with_reducible apply holdForPeer_quiet | with_reducible apply modRec_quiet | dsimp only
    | fail_if_no_progress (with_reducible refine Quiet.upd ?_ rfl))

theorem untaggable_quiet {s₀ s : State} (h : Quiet s₀ s) (j : RecJob) : Quiet s₀ (untaggable s j) := by
  unfold untaggable
  repeat' (first
    | with_reducible assumption | with_reducible apply modRec_quiet | with_reducible apply recReady_quiet
    | with_reducible apply handOff_quiet | with_reducible apply failWrite_quiet | split)

theorem compressed_quiet {s₀ s : State} (h : Quiet s₀ s) (j : RecJob) (form : Nat) (hcont : Bool) (payload : List Byte) :
    Quiet s₀ (compressed s j form hcont payload) := by
  unfold compressed
  repeat' (first
    | with_reducible assumption | with_reducible apply releaseAll_quiet | with_reducible apply modRec_quiet
    | with_reducible apply recReady_quiet | with_reducible apply handOff_quiet | with_reducible apply fillBufs_quiet
    | with_reducible apply untaggable_quiet | with_reducible apply sweep_quiet | split)

theorem compressOn_quiet {s₀ : State} (e : Nat) (j : RecJob) (a : Option (List (BitVec 32)) × State) (h : Quiet s₀ a.2) :
    Quiet s₀ (compressOn e j a) := by
  unfold compressOn
  repeat' (first
    | with_reducible assumption | with_reducible apply modRec_quiet | with_reducible apply compressed_quiet
    | with_reducible apply setEngine_quiet | split | dsimp only)

theorem compressorJobStartS_quiet {s₀ s : State} (h : Quiet s₀ s) (e : Nat) : Quiet s₀ (compressorJobStartS s e) := by
  unfold compressorJobStartS
  repeat' (first
    | with_reducible assumption | with_reducible apply compressOn_quiet | with_reducible apply unitAllocN_quiet | split | dsimp only)

theorem compressorJobDoneS_quiet {s₀ s : State} (h : Quiet s₀ s) (e : Nat) (attempt : List Byte) :
    Quiet s₀ (compressorJobDoneS s e attempt) := by
  unfold compressorJobDoneS
  repeat' (first
    | with_reducible assumption | with_reducible apply setEngine_quiet | with_reducible apply compressed_quiet | split | dsimp only
    | fail_if_no_progress (with_reducible refine Quiet.upd ?_ rfl))

theorem placeRec_quiet {s₀ s : State} (h : Quiet s₀ s) (j : RecJob) (o : OpenDs) : Quiet s₀ (placeRec s j o) := by
  unfold placeRec
  repeat' (first
    | with_reducible assumption | with_reducible apply releaseAll_quiet | with_reducible apply fillBuf_quiet
    | with_reducible apply modPart_quiet | with_reducible apply giveCredit_quiet | split | dsimp only
    | fail_if_no_progress (with_reducible refine Quiet.upd ?_ rfl))

theorem recordPlaceS_quiet {s₀ s : State} (h : Quiet s₀ s) (id : Nat) : Quiet s₀ (recordPlaceS s id) := by
  unfold recordPlaceS
  repeat' (first
    | with_reducible assumption | with_reducible apply openDataset_quiet | with_reducible apply closeForReserve_quiet
    | with_reducible apply discardMirror_quiet | with_reducible apply sealIfDone_quiet | with_reducible apply modPart_quiet
    | with_reducible apply placeRec_quiet | split | dsimp only)

/-! ## Tags -/

theorem holdInput_quiet {s₀ s t : State} {n : Nat} {hs : List (BitVec 32)} (h : Quiet s₀ s) (g : holdInput s n = some (hs, t)) :
    Quiet s₀ t := by
  unfold holdInput at g
  split at g
  · cases g; exact h
  · split at g
    · cases g
    · dsimp only at g
      split at g
      · cases g; exact h
      · split at g
        · cases g
        · cases g; exact acquire_quiet h _ _

theorem freeInput_quiet {s₀ s : State} (h : Quiet s₀ s) (j : TagJob) : Quiet s₀ (freeInput s j) := by
  unfold freeInput
  repeat' (first | with_reducible assumption | with_reducible apply releaseAll_quiet)

theorem tagJobStartS_quiet {s₀ s : State} (h : Quiet s₀ s) (n : Nat) : Quiet s₀ (tagJobStartS s n) := by
  unfold tagJobStartS
  repeat' (first
    | with_reducible assumption | with_reducible apply modRec_quiet | with_reducible apply tagTurn_quiet | split
    | fail_if_no_progress (with_reducible refine Quiet.upd ?_ rfl))
  all_goals exact holdInput_quiet h (by assumption)

theorem retireTg_quiet {s₀ s : State} (h : Quiet s₀ s) : Quiet s₀ (retireTg s) := by
  unfold retireTg
  repeat' (first
    | with_reducible assumption | with_reducible apply releaseAll_quiet | with_reducible apply faultRec_quiet
    | with_reducible apply queueEvent_quiet | with_reducible apply serveAll_quiet | with_reducible apply compressed_quiet
    | with_reducible apply untaggable_quiet | with_reducible apply Quiet.foldl | with_reducible apply Quiet.foldl_fst
    | with_reducible apply Quiet.foldl_snd | intro _ _ _ | intro _ _ | split | dsimp only
    | fail_if_no_progress (with_reducible refine Quiet.upd ?_ rfl))

theorem checkDone_quiet {s₀ s : State} (h : Quiet s₀ s) (p q i : Nat) : Quiet s₀ (checkDone s p q i) := by
  unfold checkDone
  repeat' (first | with_reducible assumption | with_reducible apply serveVisit_quiet | with_reducible apply modRead_quiet)

theorem tagDone_quiet {s₀ s : State} (h : Quiet s₀ s) (n : Nat) : Quiet s₀ (tagDone s n) := by
  unfold tagDone
  repeat' (first
    | with_reducible assumption | with_reducible apply untaggable_quiet | with_reducible apply modRec_quiet
    | with_reducible apply recReady_quiet | with_reducible apply handOff_quiet | split)

theorem tagJobDoneS_quiet {s₀ s : State} (h : Quiet s₀ s) (ctx : Nat) (agree again : Bool) :
    Quiet s₀ (tagJobDoneS s ctx agree again) := by
  unfold tagJobDoneS
  repeat' (first
    | with_reducible assumption | with_reducible apply freeInput_quiet | with_reducible apply faultRec_quiet
    | with_reducible apply tagTurn_quiet | with_reducible apply checkDone_quiet | with_reducible apply tagDone_quiet
    | with_reducible apply retireTg_quiet | split | fail_if_no_progress (with_reducible refine Quiet.upd ?_ rfl))

/-! ## Decompress -/

theorem decodedS_quiet {s₀ s : State} (h : Quiet s₀ s) (p seq : Nat) (ds : Dataset) : Quiet s₀ (decodedS s p seq ds) := by
  unfold decodedS
  repeat' (first
    | with_reducible assumption | with_reducible apply serveVisit_quiet | with_reducible apply makeChains_quiet
    | with_reducible apply modRead_quiet)

theorem decompressionJobStartS_quiet {s₀ s : State} (h : Quiet s₀ s) (e : Nat) : Quiet s₀ (decompressionJobStartS s e) := by
  unfold decompressionJobStartS
  repeat' (first
    | with_reducible assumption | with_reducible apply unitAllocN_quiet | with_reducible apply setEngine_quiet | split | dsimp only
    | fail_if_no_progress (with_reducible refine Quiet.upd ?_ rfl))

theorem countFault_quiet {s₀ s : State} (h : Quiet s₀ s) (e : Nat) (res : RecResult) : Quiet s₀ (countFault s e res) := by
  unfold countFault
  repeat' (first | with_reducible assumption | split | fail_if_no_progress (with_reducible refine Quiet.upd ?_ rfl))

theorem keepOuts_quiet {s₀ s : State} (h : Quiet s₀ s) (j : ChainJob) (rs : List (Nat × RecResult)) : Quiet s₀ (keepOuts s j rs) := by
  unfold keepOuts
  repeat' (first
    | with_reducible assumption | with_reducible apply handOff_quiet | with_reducible apply fillBufs_quiet
    | with_reducible apply releaseAll_quiet | with_reducible apply modRead_quiet)

theorem decompressionJobDoneS_quiet {s₀ s : State} (h : Quiet s₀ s) (e : Nat) : Quiet s₀ (decompressionJobDoneS s e) := by
  unfold decompressionJobDoneS
  repeat' (first
    | with_reducible assumption | with_reducible apply setEngine_quiet | with_reducible apply releaseAll_quiet
    | with_reducible apply keepOuts_quiet | with_reducible apply countFault_quiet | with_reducible apply serveVisit_quiet | split
    | dsimp only | fail_if_no_progress (with_reducible refine Quiet.upd ?_ rfl))

/-! ## FrontEnd -/

theorem modFe_quiet {s₀ s : State} (h : Quiet s₀ s) (m l : Nat) (f : FrontEnd → FrontEnd) : Quiet s₀ (modFe s m l f) := by
  unfold modFe
  repeat' (first | with_reducible assumption | fail_if_no_progress (with_reducible refine Quiet.upd ?_ rfl))

theorem feSlot_quiet {s₀ s : State} (h : Quiet s₀ s) (m l : Nat) (stuck : Bool) : Quiet s₀ (feSlot s m l stuck) := by
  unfold feSlot
  repeat' (first | with_reducible assumption | with_reducible apply modFe_quiet)

theorem calibrate_quiet {s₀ s : State} (h : Quiet s₀ s) (dir : Nat) (ls : List (Nat × Nat × Nat × Bool × List Byte)) :
    Quiet s₀ (calibrate s dir ls) := by
  unfold calibrate
  repeat' (first
    | with_reducible assumption | with_reducible apply odPut_quiet | with_reducible apply Quiet.foldl | intro _ _ _ | split | dsimp only
    | fail_if_no_progress (with_reducible refine Quiet.upd ?_ rfl))

theorem revCalibrate_quiet {s₀ s : State} (h : Quiet s₀ s) (wrap : Nat) : Quiet s₀ (revCalibrate s wrap) := by
  unfold revCalibrate
  repeat' (first
    | with_reducible assumption | with_reducible apply calibrate_quiet | split | dsimp only
    | fail_if_no_progress (with_reducible refine Quiet.upd ?_ rfl))

theorem loadEphemeris_quiet {s₀ s : State} (h : Quiet s₀ s) (wrap : Nat) (modules : List Nat) :
    Quiet s₀ (loadEphemeris s wrap modules) := by
  unfold loadEphemeris
  repeat' (first
    | with_reducible assumption | with_reducible apply modFe_quiet | with_reducible apply setSubst_quiet
    | with_reducible apply Quiet.foldl | intro _ _ _ | split | dsimp only
    | fail_if_no_progress (with_reducible refine Quiet.upd ?_ rfl))

theorem noteHeard_quiet {s₀ s : State} (h : Quiet s₀ s) (wrap mmps : Nat) (m l : Nat) (h1 : Heard) :
    Quiet s₀ (noteHeard s wrap mmps m l h1) := by
  unfold noteHeard
  repeat' (first | with_reducible assumption | with_reducible apply modFe_quiet | with_reducible apply feSlot_quiet | split)

theorem feDecided_quiet {s₀ s : State} (h : Quiet s₀ s) (m l : Nat) (ok : Bool) (agc : Int) (moves : List Int) :
    Quiet s₀ (feDecided s m l ok agc moves) := by
  unfold feDecided
  repeat' (first | with_reducible assumption | with_reducible apply modFe_quiet | split)

/-! ## Writer -/

theorem judgeCurve_quiet {s₀ s : State} (h : Quiet s₀ s) : Quiet s₀ (judgeCurve s) := by
  unfold judgeCurve
  repeat' (first
    | with_reducible assumption | with_reducible apply setSubst_quiet | split
    | fail_if_no_progress (with_reducible refine Quiet.upd ?_ rfl))

theorem setSpeed_quiet {s₀ s : State} (h : Quiet s₀ s) (idx : Nat) : Quiet s₀ (setSpeed s idx) := by
  unfold setSpeed
  repeat' (first | with_reducible assumption | split | fail_if_no_progress (with_reducible refine Quiet.upd ?_ rfl))

theorem goTo_quiet {s₀ s : State} (h : Quiet s₀ s) (wrap lpos : Nat) (before mmps : Nat) : Quiet s₀ (goTo s wrap lpos before mmps) := by
  unfold goTo
  repeat' (first | with_reducible assumption | fail_if_no_progress (with_reducible refine Quiet.upd ?_ rfl))

theorem takeCurrents_quiet {s₀ s : State} (h : Quiet s₀ s) (m : Nat) : Quiet s₀ (takeCurrents s m) := by
  unfold takeCurrents
  repeat' (first | with_reducible assumption | fail_if_no_progress (with_reducible refine Quiet.upd ?_ rfl))

theorem updateCurrents_quiet {s₀ s : State} (h : Quiet s₀ s) (m : Nat) (t : Int) : Quiet s₀ (updateCurrents s m t) := by
  unfold updateCurrents
  repeat' (first | with_reducible assumption | fail_if_no_progress (with_reducible refine Quiet.upd ?_ rfl))

theorem slotCurrents_quiet {s₀ s : State} (h : Quiet s₀ s) : Quiet s₀ (slotCurrents s) := by
  unfold slotCurrents
  repeat' (first | with_reducible assumption | split | fail_if_no_progress (with_reducible refine Quiet.upd ?_ rfl))

theorem passDs_quiet {s₀ s : State} (h : Quiet s₀ s) (w : WriteDs) : Quiet s₀ (passDs s w) := by
  unfold passDs
  repeat' (first
    | with_reducible assumption | with_reducible apply advanceReallocs_quiet | with_reducible apply passDataset_quiet
    | with_reducible apply reallocsDone_quiet | split | dsimp only)

theorem abandonDs_quiet {s₀ s : State} (h : Quiet s₀ s) (w : WriteDs) (st : Nat) : Quiet s₀ (abandonDs s w st) := by
  unfold abandonDs
  repeat' (first | with_reducible assumption | with_reducible apply reallocAbandoned_quiet | with_reducible apply abandonDataset_quiet)

theorem rewriteDs_quiet {s₀ s : State} (h : Quiet s₀ s) (w : WriteDs) : Quiet s₀ (rewriteDs s w) := by
  unfold rewriteDs
  repeat' (first
    | with_reducible assumption | with_reducible apply abandonDs_quiet | with_reducible apply leaveDue_quiet | split
    | fail_if_no_progress (with_reducible refine Quiet.upd ?_ rfl))

theorem putDs_quiet {s₀ s : State} (h : Quiet s₀ s) (w : WriteDs) : Quiet s₀ (putDs s w) := by
  unfold putDs
  repeat' (first | with_reducible assumption | fail_if_no_progress (with_reducible refine Quiet.upd ?_ rfl))

theorem judgeDs_quiet {s₀ s : State} (h : Quiet s₀ s) (w : WriteDs) : Quiet s₀ (judgeDs s w) := by
  unfold judgeDs
  repeat' (first
    | with_reducible assumption | with_reducible apply rewriteDs_quiet | with_reducible apply putDs_quiet
    | with_reducible apply passDs_quiet | split)

theorem dropOpen_quiet {s₀ s : State} (h : Quiet s₀ s) (x : Part) : Quiet s₀ (dropOpen s x) := by
  unfold dropOpen
  repeat' (first
    | with_reducible assumption | with_reducible apply dropRealloc_quiet | with_reducible apply discardOpen_quiet
    | with_reducible apply dropMirrored_quiet | with_reducible apply failFrom_quiet | with_reducible apply sealIfDone_quiet
    | with_reducible apply Quiet.foldl | with_reducible apply Quiet.foldl_fst | with_reducible apply Quiet.foldl_snd
    | intro _ _ _ | intro _ _ | split)

theorem startClosing_quiet {s₀ s : State} (h : Quiet s₀ s) : Quiet s₀ (startClosing s) := by
  unfold startClosing
  repeat' (first
    | with_reducible assumption | with_reducible apply dropOpen_quiet | with_reducible apply Quiet.foldl
    | fail_if_no_progress (with_reducible refine Quiet.upd ?_ rfl))

theorem haltWriter_quiet {s₀ s : State} (h : Quiet s₀ s) : Quiet s₀ (haltWriter s) := by
  unfold haltWriter
  repeat' (first
    | with_reducible assumption | split | dsimp only | fail_if_no_progress (with_reducible refine Quiet.upd ?_ rfl))

theorem haltClosed_quiet {s₀ s : State} (h : Quiet s₀ s) : Quiet s₀ (haltClosed s) := by
  unfold haltClosed
  repeat' (first
    | with_reducible assumption | with_reducible apply clearCkpt_quiet | with_reducible apply haltWriter_quiet
    | with_reducible apply endWrite_quiet | with_reducible apply endCheckpoints_quiet
    | with_reducible apply endReallocs_quiet | with_reducible apply Quiet.foldl | with_reducible apply Quiet.foldl_fst
    | with_reducible apply Quiet.foldl_snd | intro _ _ _)

theorem closeOn_quiet {s₀ s : State} (h : Quiet s₀ s) (n : Nat) : Quiet s₀ (closeOn n s) := by
  induction n generalizing s with
  | zero => exact h
  | succ n ih =>
    unfold closeOn
    repeat' (first
      | with_reducible assumption | with_reducible apply ih | with_reducible apply wantCheckpoint_quiet
      | with_reducible apply closeSpan_quiet | with_reducible apply haltClosed_quiet | with_reducible apply Quiet.foldl | intro _ _ _
      | split | fail_if_no_progress (with_reducible refine Quiet.upd ?_ rfl))

theorem ninthStop_quiet {s₀ s : State} (h : Quiet s₀ s) : Quiet s₀ (ninthStop s) := by
  unfold ninthStop
  repeat' (first
    | with_reducible assumption | with_reducible apply clearCkpt_quiet | with_reducible apply haltWriter_quiet
    | with_reducible apply failPieces_quiet | with_reducible apply endWrite_quiet | with_reducible apply dropSealed_quiet
    | with_reducible apply endCheckpoints_quiet | with_reducible apply endReallocs_quiet | with_reducible apply Quiet.foldl
    | with_reducible apply Quiet.foldl_fst | with_reducible apply Quiet.foldl_snd | intro _ _ _)

theorem endClosing_quiet {s₀ s : State} (h : Quiet s₀ s) : Quiet s₀ (endClosing s) := by
  unfold endClosing
  repeat' (first
    | with_reducible assumption | with_reducible apply ninthStop_quiet | with_reducible apply closeOn_quiet | split)

theorem retireLane_quiet {s₀ s : State} (h : Quiet s₀ s) (l : Nat) : Quiet s₀ (retireLane s l) := by
  unfold retireLane
  repeat' (first
    | with_reducible assumption | with_reducible apply faultRec_quiet | with_reducible apply queueEvent_quiet
    | with_reducible apply startClosing_quiet | split | dsimp only | fail_if_no_progress (with_reducible refine Quiet.upd ?_ rfl))

theorem addPb_quiet {s₀ s : State} (h : Quiet s₀ s) (l n : Nat) : Quiet s₀ (addPb s l n) := by
  unfold addPb
  repeat' (first
    | with_reducible assumption | with_reducible apply retireLane_quiet | split | dsimp only
    | fail_if_no_progress (with_reducible refine Quiet.upd ?_ rfl))

theorem addTb_quiet {s₀ s : State} (h : Quiet s₀ s) (l : Nat) : Quiet s₀ (addTb s l) := by
  unfold addTb
  repeat' (first
    | with_reducible assumption | with_reducible apply addPb_quiet | split | dsimp only
    | fail_if_no_progress (with_reducible refine Quiet.upd ?_ rfl))

theorem laneVerdict_quiet {s₀ s : State} (h : Quiet s₀ s) (l : Nat) (pass : Bool) : Quiet s₀ (laneVerdict s l pass) := by
  unfold laneVerdict
  repeat' (first
    | with_reducible assumption | with_reducible apply addTb_quiet | with_reducible apply addPb_quiet | split | dsimp only
    | fail_if_no_progress (with_reducible refine Quiet.upd ?_ rfl))

theorem setMag_quiet {s₀ s : State} (h : Quiet s₀ s) (lane : Nat) (pol : Bool) : Quiet s₀ (setMag s lane pol) := by
  unfold setMag
  repeat' (first | with_reducible assumption | fail_if_no_progress (with_reducible refine Quiet.upd ?_ rfl))

theorem writeSeg_quiet {s₀ s : State} (h : Quiet s₀ s) (slot lane : Nat) (payload : List Byte) :
    Quiet s₀ (writeSeg s slot lane payload) := by
  unfold writeSeg
  repeat' (first
    | with_reducible assumption | with_reducible apply emit_quiet | with_reducible apply setMag_quiet
    | fail_if_no_progress (with_reducible refine Quiet.upd ?_ rfl))

theorem dataSlot_quiet {s₀ s : State} (h : Quiet s₀ s) (w : WriteDs) (i : Nat) : Quiet s₀ (dataSlot s w i) := by
  unfold dataSlot
  repeat' (first
    | with_reducible assumption | with_reducible apply writeSeg_quiet | with_reducible apply modTape_quiet
    | with_reducible apply putDs_quiet | with_reducible apply Quiet.foldl | intro _ _ _ | split
    | fail_if_no_progress (with_reducible refine Quiet.upd ?_ rfl))

theorem trailerSlot_quiet {s₀ s : State} (h : Quiet s₀ s) (w : WriteDs) (b : Nat) : Quiet s₀ (trailerSlot s w b) := by
  unfold trailerSlot
  repeat' (first
    | with_reducible assumption | with_reducible apply writeSeg_quiet | with_reducible apply modTape_quiet
    | with_reducible apply putDs_quiet | with_reducible apply Quiet.foldl | intro _ _ _ | split
    | fail_if_no_progress (with_reducible refine Quiet.upd ?_ rfl))

theorem endDataset_quiet {s₀ s : State} (h : Quiet s₀ s) (w : WriteDs) : Quiet s₀ (endDataset s w) := by
  unfold endDataset
  repeat' (first
    | with_reducible assumption | with_reducible apply modTape_quiet | with_reducible apply putDs_quiet
    | with_reducible apply modPart_quiet | with_reducible apply judgeDs_quiet
    | fail_if_no_progress (with_reducible refine Quiet.upd ?_ rfl))

theorem mapPosition_quiet {s₀ s : State} (h : Quiet s₀ s) (p seq : Nat) (wrap lpos : Nat) (corrects : Bool) :
    Quiet s₀ (mapPosition s p seq wrap lpos corrects) := by
  unfold mapPosition
  repeat' (first | with_reducible assumption | fail_if_no_progress (with_reducible refine Quiet.upd ?_ rfl))

theorem noteOnTape_quiet {s₀ s : State} (h : Quiet s₀ s) (w : WriteDs) : Quiet s₀ (noteOnTape s w) := by
  unfold noteOnTape
  repeat' (first | with_reducible assumption | with_reducible apply modCmd_quiet | with_reducible apply Quiet.foldl | intro _ _ _ | split)

theorem toVerify_quiet {s₀ s : State} (h : Quiet s₀ s) (h1 : BitVec 32) : Quiet s₀ (toVerify s h1) := by
  unfold toVerify
  repeat' (first | with_reducible assumption | with_reducible apply handOff_quiet | split)

theorem beginDataset_quiet {s₀ s : State} (h : Quiet s₀ s) (x : Part) (w : WriteDs) : Quiet s₀ (beginDataset s x w) := by
  unfold beginDataset
  repeat' (first
    | with_reducible assumption | with_reducible apply mapPosition_quiet | with_reducible apply updateCurrents_quiet
    | with_reducible apply takeCurrents_quiet | with_reducible apply dataSlot_quiet | with_reducible apply noteOnTape_quiet
    | with_reducible apply toVerify_quiet | split | dsimp only | fail_if_no_progress (with_reducible refine Quiet.upd ?_ rfl))

theorem aimHead_quiet {s₀ s : State} (h : Quiet s₀ s) (wrap : Nat) : Quiet s₀ (aimHead s wrap) := by
  unfold aimHead
  repeat' (first
    | with_reducible assumption | with_reducible apply servoOff_quiet | split | dsimp only
    | fail_if_no_progress (with_reducible refine Quiet.upd ?_ rfl))

theorem aimVerifying_quiet {s₀ s : State} (h : Quiet s₀ s) (wrap : Nat) : Quiet s₀ (aimVerifying s wrap) := by
  unfold aimVerifying
  repeat' (first | with_reducible assumption | with_reducible apply aimHead_quiet | with_reducible apply loadEphemeris_quiet)

theorem enterDrain_quiet {s₀ s : State} (h : Quiet s₀ s) : Quiet s₀ (enterDrain s) := by
  unfold enterDrain
  repeat' (first
    | with_reducible assumption | with_reducible apply stopDs_quiet | with_reducible apply Quiet.foldl | intro _ _ _ | split
    | fail_if_no_progress (with_reducible refine Quiet.upd ?_ rfl))

theorem enterStop_quiet {s₀ s : State} (h : Quiet s₀ s) : Quiet s₀ (enterStop s) := by
  unfold enterStop
  repeat' (first | with_reducible assumption | fail_if_no_progress (with_reducible refine Quiet.upd ?_ rfl))

theorem enterTurn_quiet {s₀ s : State} (h : Quiet s₀ s) (x : Part) : Quiet s₀ (enterTurn s x) := by
  unfold enterTurn
  repeat' (first
    | with_reducible assumption | with_reducible apply setPart_quiet | with_reducible apply goTo_quiet | split | dsimp only
    | fail_if_no_progress (with_reducible refine Quiet.upd ?_ rfl))

theorem noneReady_quiet {s₀ s : State} (h : Quiet s₀ s) : Quiet s₀ (noneReady s) := by
  unfold noneReady
  repeat' (first
    | with_reducible assumption | with_reducible apply enterDrain_quiet | with_reducible apply enterStop_quiet | split
    | fail_if_no_progress (with_reducible refine Quiet.upd ?_ rfl))

theorem noRoom_quiet {s₀ s t : State} {x : Part} {w : WriteDs} (h : Quiet s₀ s) (g : noRoom s x w = some t) : Quiet s₀ t := by
  unfold noRoom at g
  split at g
  · cases g; exact dropSealed_quiet (modPart_quiet h _ _) _
  · split at g
    · cases g; exact abandonDs_quiet h _ _
    · split at g
      · cases g; exact closeForReserve_quiet (abandonDs_quiet h _ _) _
      · split at g
        · cases g; exact abandonDs_quiet h _ _
        · cases g

theorem nextDataset_quiet {s₀ s : State} (h : Quiet s₀ s) (n : Nat) : Quiet s₀ (nextDataset n s) := by
  induction n generalizing s with
  | zero => exact h
  | succ n ih =>
    unfold nextDataset
    repeat' (first
      | with_reducible assumption | with_reducible apply ih | with_reducible apply enterStop_quiet
      | with_reducible apply unitAlloc_quiet | with_reducible apply fillBuf_quiet | with_reducible apply putDs_quiet
      | with_reducible apply abandonDs_quiet | with_reducible apply enterTurn_quiet
      | with_reducible apply closeForReserve_quiet | with_reducible apply beginDataset_quiet
      | with_reducible apply noneReady_quiet | with_reducible exact noRoom_quiet h (by assumption) | split | dsimp only)

theorem trackLevels_quiet {s₀ s : State} (h : Quiet s₀ s) : Quiet s₀ (trackLevels s) := by
  unfold trackLevels
  repeat' (first | with_reducible assumption | fail_if_no_progress (with_reducible refine Quiet.upd ?_ rfl))

theorem closeGate_quiet {s₀ s : State} (h : Quiet s₀ s) : Quiet s₀ (closeGate s) := by
  unfold closeGate
  repeat' (first
    | with_reducible assumption | with_reducible apply putDs_quiet | split | dsimp only
    | fail_if_no_progress (with_reducible refine Quiet.upd ?_ rfl))

theorem gateAt_quiet {s₀ s : State} (h : Quiet s₀ s) (pesNm : Int) : Quiet s₀ (gateAt s pesNm) := by
  unfold gateAt
  repeat' (first | with_reducible assumption | split | dsimp only | fail_if_no_progress (with_reducible refine Quiet.upd ?_ rfl))

theorem nextSlot_quiet {s₀ s : State} (h : Quiet s₀ s) : Quiet s₀ (nextSlot s) := by
  unfold nextSlot
  repeat' (first
    | with_reducible assumption | with_reducible apply nextDataset_quiet | with_reducible apply dataSlot_quiet
    | with_reducible apply trailerSlot_quiet | with_reducible apply endDataset_quiet | split | dsimp only
    | fail_if_no_progress (with_reducible refine Quiet.upd ?_ rfl))

theorem slotBoundaryS_quiet {s₀ s : State} (h : Quiet s₀ s) (pesNm : Int) : Quiet s₀ (slotBoundaryS s pesNm) := by
  unfold slotBoundaryS
  split
  · exact h
  split
  · exact ninthStop_quiet h
  extract_lets r1 s1 s2 s3
  have h_s1 : Quiet s₀ s1 := by
    unfold s1
    repeat' (first
      | with_reducible assumption | with_reducible apply slotCurrents_quiet | split
      | fail_if_no_progress (with_reducible refine Quiet.upd ?_ rfl))
  clear_value s1
  have h_s2 : Quiet s₀ s2 := by
    unfold s2
    repeat' (first | with_reducible assumption | with_reducible apply trackLevels_quiet | with_reducible apply gateAt_quiet)
  clear_value s2
  have h_s3 : Quiet s₀ s3 := by
    unfold s3
    repeat' (first | with_reducible assumption | with_reducible apply setSpeed_quiet | split)
  clear_value s3
  exact endClosing_quiet (nextSlot_quiet h_s3)

theorem noteVerify_quiet {s₀ s : State} (h : Quiet s₀ s) (wrap lane : Nat) (h1 : Heard) (ok : Bool) :
    Quiet s₀ (noteVerify s wrap lane h1 ok) := by
  unfold noteVerify
  repeat' (first
    | with_reducible assumption | with_reducible apply noteHeard_quiet | with_reducible apply modFe_quiet | split
    | fail_if_no_progress (with_reducible refine Quiet.upd ?_ rfl))

theorem noteVerdict_quiet {s₀ s : State} (h : Quiet s₀ s) (wrap lane : Nat) (pass stuck : Bool) :
    Quiet s₀ (noteVerdict s wrap lane pass stuck) := by
  unfold noteVerdict
  repeat' (first
    | with_reducible assumption | with_reducible apply modFe_quiet | with_reducible apply laneVerdict_quiet
    | with_reducible apply addPb_quiet | split)

theorem verdictS_quiet {s₀ s : State} (h : Quiet s₀ s) (seq attempt : Nat) (slot lane : Nat) (x : VerdictObs) :
    Quiet s₀ (verdictS s seq attempt slot lane x) := by
  unfold verdictS
  repeat' (first
    | with_reducible assumption | with_reducible apply endClosing_quiet | with_reducible apply noteVerdict_quiet
    | with_reducible apply judgeDs_quiet | with_reducible apply putDs_quiet | with_reducible apply nextDataset_quiet | split
    | dsimp only | fail_if_no_progress (with_reducible refine Quiet.upd ?_ rfl))

theorem segmentVerdictS_quiet {s₀ s : State} (h : Quiet s₀ s) (seq attempt : Nat) (slot lane : Nat) (codes : List Int) :
    Quiet s₀ (segmentVerdictS s seq attempt slot lane codes) := by
  unfold segmentVerdictS
  repeat' (first | with_reducible assumption | with_reducible apply verdictS_quiet | with_reducible apply noteVerify_quiet | split)

theorem interruptWriting_quiet {s₀ s : State} (h : Quiet s₀ s) (st : Nat) : Quiet s₀ (interruptWriting s st) := by
  unfold interruptWriting
  repeat' (first
    | with_reducible assumption | with_reducible apply modPart_quiet | with_reducible apply abandonDs_quiet
    | with_reducible apply endWrite_quiet | with_reducible apply Quiet.foldl | intro _ _ _ | split
    | fail_if_no_progress (with_reducible refine Quiet.upd ?_ rfl))

theorem startWriter_quiet {s₀ s : State} (h : Quiet s₀ s) : Quiet s₀ (startWriter s) := by
  unfold startWriter
  repeat' (first
    | with_reducible assumption | with_reducible apply revCalibrate_quiet | with_reducible apply setSpeed_quiet
    | with_reducible apply goTo_quiet | with_reducible apply aimVerifying_quiet | split
    | fail_if_no_progress (with_reducible refine Quiet.upd ?_ rfl))

theorem askStart_quiet {s₀ s : State} (h : Quiet s₀ s) : Quiet s₀ (askStart s) := by
  unfold askStart
  repeat' (first
    | with_reducible assumption | with_reducible apply interruptWriting_quiet | with_reducible apply startWriter_quiet | split
    | dsimp only)

end Sys2Proof.Laws
end

