-- ==== Sys2Proof/Laws/Frame3.lean ====
section
/-! SUPPORT. The frame of every operation of ReadChannel, Recovery, RecallSched, Servo, Motion, ControlEngine, Admit, PairForm,
Media: it keeps the waiting commands, the model's time and staging memory, and only adds to the outputs. Each lemma is used by its
name, not by unfolding the operation. -/

namespace Sys2Proof.Laws

open Sys2Proof Sys2Proof.Machine

set_option linter.unusedVariables false

/-! ## ReadChannel -/

theorem modLane_quiet {s₀ s : State} (h : Quiet s₀ s) (l : Nat) (f : Lane → Lane) : Quiet s₀ (modLane s l f) := by
  unfold modLane
  repeat' (first | with_reducible assumption | fail_if_no_progress (with_reducible refine Quiet.upd ?_ rfl))

theorem openRead_quiet {s₀ s : State} (h : Quiet s₀ s) (p q : Nat) : Quiet s₀ (openRead s p q) := by
  unfold openRead
  repeat' (first
    | with_reducible assumption | with_reducible apply unitAlloc_quiet | split | dsimp only
    | fail_if_no_progress (with_reducible refine Quiet.upd ?_ rfl))

theorem trimPool6_quiet {s₀ s : State} (h : Quiet s₀ s) (p q : Nat) : Quiet s₀ (trimPool6 s p q) := by
  unfold trimPool6
  repeat' (first | with_reducible assumption | with_reducible apply releaseAll_quiet | with_reducible apply modRead_quiet | split)

theorem storeRow_quiet {s₀ s : State} (h : Quiet s₀ s) (l : Nat) (h1 : SegHead) (payload : List Byte) (suspect : Bool) :
    Quiet s₀ (storeRow s l h1 payload suspect) := by
  unfold storeRow
  repeat' (first
    | with_reducible assumption | with_reducible apply modLane_quiet | with_reducible apply openRead_quiet
    | with_reducible apply trimPool6_quiet | with_reducible apply modRead_quiet | with_reducible apply fillBuf_quiet | split
    | dsimp only)

theorem keepLlrs_quiet {s₀ s : State} (h : Quiet s₀ s) (p q : Nat) (sub row : Nat) (best : TryResult) :
    Quiet s₀ (keepLlrs s p q sub row best) := by
  unfold keepLlrs
  repeat' (first
    | with_reducible assumption | with_reducible apply modRead_quiet | with_reducible apply fillBuf_quiet
    | with_reducible apply unitAlloc_quiet | split | dsimp only)

theorem relocate_quiet {s₀ s : State} (h : Quiet s₀ s) : Quiet s₀ (relocate s) := by
  unfold relocate
  repeat' (first
    | with_reducible assumption | with_reducible apply lanesOff_quiet | with_reducible apply aimHead_quiet
    | with_reducible apply loadEphemeris_quiet | fail_if_no_progress (with_reducible refine Quiet.upd ?_ rfl))

theorem seek_quiet {s₀ s : State} (h : Quiet s₀ s) (p q mmps : Nat) : Quiet s₀ (seek s p q mmps) := by
  unfold seek
  repeat' (first
    | with_reducible assumption | with_reducible apply goTo_quiet | with_reducible apply relocate_quiet
    | fail_if_no_progress (with_reducible refine Quiet.upd ?_ rfl))

theorem capReading_quiet {s₀ s : State} (h : Quiet s₀ s) : Quiet s₀ (capReading s) := by
  unfold capReading
  repeat' (first
    | with_reducible assumption | split | dsimp only | fail_if_no_progress (with_reducible refine Quiet.upd ?_ rfl))

theorem seekRun_quiet {s₀ s : State} (h : Quiet s₀ s) : Quiet s₀ (seekRun s) := by
  unfold seekRun
  repeat' (first | with_reducible assumption | with_reducible apply seek_quiet | with_reducible apply relocate_quiet | split)

theorem leaveRun_quiet {s₀ s : State} (h : Quiet s₀ s) (p q : Nat) : Quiet s₀ (leaveRun s p q) := by
  unfold leaveRun
  repeat' (first
    | with_reducible assumption | with_reducible apply endRun_quiet | split | dsimp only
    | fail_if_no_progress (with_reducible refine Quiet.upd ?_ rfl))

theorem countFailed_quiet {s₀ s : State} (h : Quiet s₀ s) : Quiet s₀ (countFailed s) := by
  unfold countFailed
  repeat' (first | with_reducible assumption | dsimp only | fail_if_no_progress (with_reducible refine Quiet.upd ?_ rfl))

theorem locateMiss_quiet {s₀ s : State} (h : Quiet s₀ s) : Quiet s₀ (locateMiss s) := by
  unfold locateMiss
  repeat' (first
    | with_reducible assumption | with_reducible apply seek_quiet | with_reducible apply failVisit_quiet
    | with_reducible apply countFailed_quiet | with_reducible apply leaveRun_quiet | with_reducible apply seekRun_quiet
    | split | dsimp only | fail_if_no_progress (with_reducible refine Quiet.upd ?_ rfl))

theorem mapSegment_quiet {s₀ s : State} (h : Quiet s₀ s) (h1 : SegHead) (corrects : Bool) :
    Quiet s₀ (mapSegment s h1 corrects) := by
  unfold mapSegment
  repeat' (first | with_reducible assumption | with_reducible apply mapPosition_quiet | split)

theorem checkLocate_quiet {s₀ s : State} (h : Quiet s₀ s) (h1 : SegHead) : Quiet s₀ (checkLocate s h1) := by
  unfold checkLocate
  repeat' (first
    | with_reducible assumption | with_reducible apply mapSegment_quiet | with_reducible apply locateMiss_quiet | split
    | dsimp only | fail_if_no_progress (with_reducible refine Quiet.upd ?_ rfl))

theorem intake_quiet {s₀ s : State} (h : Quiet s₀ s) (l : Nat) (x : SegSlot) : Quiet s₀ (intake s l x).1 := by
  unfold intake
  repeat' (first | with_reducible assumption | with_reducible apply noteHeard_quiet | with_reducible apply modLane_quiet)

theorem noSegment_quiet {s₀ s : State} (h : Quiet s₀ s) (l : Nat) (x : SegObs) (best : Option TryResult) (flagged : Bool) :
    Quiet s₀ (noSegment s l x best flagged) := by
  unfold noSegment
  repeat' (first
    | with_reducible assumption | with_reducible apply modLane_quiet | with_reducible apply keepLlrs_quiet
    | with_reducible apply openRead_quiet | with_reducible apply modRead_quiet | split | dsimp only)

theorem segmentAccepted_quiet {s₀ s : State} (h : Quiet s₀ s) (l : Nat) (x : SegObs) (place : Int) (top : List Candidate) (i : Nat) (single contested suspect : Bool) (r : TryResult) (h1 : SegHead) (payload : List Byte) :
    Quiet s₀ (segmentAccepted s l x place top i single contested suspect r h1 payload) := by
  unfold segmentAccepted
  repeat' (first
    | with_reducible assumption | with_reducible apply modLane_quiet | with_reducible apply checkLocate_quiet
    | with_reducible apply storeRow_quiet)

theorem decideSegment_quiet {s₀ s : State} (h : Quiet s₀ s) (l : Nat) (x : SegObs) (late : Option Nat) :
    Quiet s₀ (decideSegment s l x late) := by
  unfold decideSegment
  repeat' (first
    | with_reducible assumption | with_reducible apply feDecided_quiet | with_reducible apply modLane_quiet
    | with_reducible apply segmentAccepted_quiet | with_reducible apply noSegment_quiet | split | dsimp only)

theorem readingAt_quiet {s₀ s : State} (h : Quiet s₀ s) (x : SegSlot) : Quiet s₀ (readingAt s x) := by
  unfold readingAt
  repeat' (first
    | with_reducible assumption | split | dsimp only | fail_if_no_progress (with_reducible refine Quiet.upd ?_ rfl))

theorem segmentDecodeS_quiet {s₀ s : State} (h : Quiet s₀ s) (l : Nat) (x : SegSlot) (late : Option Nat) :
    Quiet s₀ (segmentDecodeS s l x late) := by
  unfold segmentDecodeS
  repeat' (first
    | with_reducible assumption | with_reducible apply locateMiss_quiet | with_reducible apply readingAt_quiet
    | with_reducible apply modLane_quiet | with_reducible apply intake_quiet | with_reducible apply decideSegment_quiet
    | split)

theorem retireFe_quiet {s₀ s : State} (h : Quiet s₀ s) (l m : Nat) : Quiet s₀ (retireFe s l m) := by
  unfold retireFe
  repeat' (first
    | with_reducible assumption | with_reducible apply faultRec_quiet | with_reducible apply retireLane_quiet | split | dsimp only
    | fail_if_no_progress (with_reducible refine Quiet.upd ?_ rfl))

/-! ## Recovery -/

theorem runSteps_quiet {s₀ s : State} (h : Quiet s₀ s) (p q : Nat) : Quiet s₀ (runSteps s p q).1 := by
  unfold runSteps
  repeat' (first
    | with_reducible assumption | with_reducible apply modRead_quiet | with_reducible apply trimPool6_quiet | split
    | fail_if_no_progress (with_reducible refine Quiet.upd ?_ rfl))

theorem noteLast_quiet {s₀ s : State} (h : Quiet s₀ s) (p q step : Nat) : Quiet s₀ (noteLast s p q step) := by
  unfold noteLast
  repeat' (first | with_reducible assumption | split | fail_if_no_progress (with_reducible refine Quiet.upd ?_ rfl))

theorem restoreKept_quiet {s₀ s : State} (h : Quiet s₀ s) : Quiet s₀ (restoreKept s) := by
  unfold restoreKept
  repeat' (first
    | with_reducible assumption | split | dsimp only | fail_if_no_progress (with_reducible refine Quiet.upd ?_ rfl))

theorem endPass_quiet {s₀ s : State} (h : Quiet s₀ s) : Quiet s₀ (endPass s) := by
  unfold endPass
  repeat' (first
    | with_reducible assumption | with_reducible apply restoreKept_quiet | dsimp only
    | fail_if_no_progress (with_reducible refine Quiet.upd ?_ rfl))

theorem closeLadder_quiet {s₀ s : State} (h : Quiet s₀ s) : Quiet s₀ (closeLadder s) := by
  unfold closeLadder
  repeat' (first
    | with_reducible assumption | with_reducible apply releaseAll_quiet | with_reducible apply relocate_quiet
    | with_reducible apply endPass_quiet | split | fail_if_no_progress (with_reducible refine Quiet.upd ?_ rfl))

theorem recovered_quiet {s₀ s : State} (h : Quiet s₀ s) (p q step : Nat) (user : List Byte) (byC3 : Bool) :
    Quiet s₀ (recovered s p q step user byC3) := by
  unfold recovered
  repeat' (first
    | with_reducible assumption | with_reducible apply noteLast_quiet | with_reducible apply modRead_quiet
    | with_reducible apply trimPool6_quiet | split | fail_if_no_progress (with_reducible refine Quiet.upd ?_ rfl))

theorem failRecovery_quiet {s₀ s : State} (h : Quiet s₀ s) (p q st step reason missing : Nat) :
    Quiet s₀ (failRecovery s p q st step reason missing) := by
  unfold failRecovery
  repeat' (first
    | with_reducible assumption | with_reducible apply noteLast_quiet | with_reducible apply countFailed_quiet
    | with_reducible apply leaveRun_quiet | with_reducible apply failVisit_quiet | split)

theorem beginPass_quiet {s₀ s : State} (h : Quiet s₀ s) (n : Nat) : Quiet s₀ (beginPass s n) := by
  unfold beginPass
  repeat' (first
    | with_reducible assumption | with_reducible apply seek_quiet | with_reducible apply relocate_quiet | split | dsimp only
    | fail_if_no_progress (with_reducible refine Quiet.upd ?_ rfl))

theorem startSpan_quiet {s₀ s : State} (h : Quiet s₀ s) (p q : Nat) : Quiet s₀ (startSpan s p q) := by
  unfold startSpan
  repeat' (first
    | with_reducible assumption | with_reducible apply unitAllocN_quiet | with_reducible apply beginPass_quiet | split
    | dsimp only | fail_if_no_progress (with_reducible refine Quiet.upd ?_ rfl))

theorem ladderOver_quiet {s₀ s : State} (h : Quiet s₀ s) (p q : Nat) : Quiet s₀ (ladderOver s p q).1 := by
  unfold ladderOver
  repeat' (first
    | with_reducible assumption | with_reducible apply failRecovery_quiet | with_reducible apply noteLast_quiet
    | with_reducible apply modRead_quiet | with_reducible apply startSpan_quiet | split | dsimp only
    | fail_if_no_progress (with_reducible refine Quiet.upd ?_ rfl))

theorem nextPass_quiet {s₀ s : State} (h : Quiet s₀ s) (p q : Nat) : Quiet s₀ (nextPass s p q).1 := by
  unfold nextPass
  repeat' (first
    | with_reducible assumption | with_reducible apply ladderOver_quiet | with_reducible apply modRead_quiet
    | with_reducible apply beginPass_quiet | split)

theorem startLadders_quiet {s₀ s : State} (h : Quiet s₀ s) (a0 : Nat) : Quiet s₀ (startLadders a0 s) := by
  induction a0 generalizing s with
  | zero => exact h
  | succ a0 ih =>
    unfold startLadders
    repeat' (first
      | with_reducible assumption | with_reducible apply ih | with_reducible apply nextPass_quiet
      | with_reducible apply closeLadder_quiet | split | dsimp only
      | fail_if_no_progress (with_reducible refine Quiet.upd ?_ rfl))

theorem leaveLadder_quiet {s₀ s : State} (h : Quiet s₀ s) : Quiet s₀ (leaveLadder s) := by
  unfold leaveLadder
  repeat' (first | with_reducible assumption | with_reducible apply startLadders_quiet | with_reducible apply closeLadder_quiet)

theorem enterLadder_quiet {s₀ s : State} (h : Quiet s₀ s) (p q : Nat) : Quiet s₀ (enterLadder s p q) := by
  unfold enterLadder
  repeat' (first
    | with_reducible assumption | with_reducible apply noteLast_quiet | with_reducible apply modRead_quiet
    | with_reducible apply startLadders_quiet | with_reducible apply endRun_quiet | split | dsimp only
    | fail_if_no_progress (with_reducible refine Quiet.upd ?_ rfl))

theorem cutPass_quiet {s₀ s : State} (h : Quiet s₀ s) : Quiet s₀ (cutPass s) := by
  unfold cutPass
  repeat' (first
    | with_reducible assumption | with_reducible apply endPass_quiet | fail_if_no_progress (with_reducible refine Quiet.upd ?_ rfl))

theorem resumeLadders_quiet {s₀ s : State} (h : Quiet s₀ s) : Quiet s₀ (resumeLadders s) := by
  unfold resumeLadders
  repeat' (first
    | with_reducible assumption | with_reducible apply beginPass_quiet | with_reducible apply startSpan_quiet
    | with_reducible apply startLadders_quiet | split | dsimp only | fail_if_no_progress (with_reducible refine Quiet.upd ?_ rfl))

theorem boundary_quiet {s₀ s : State} (h : Quiet s₀ s) : Quiet s₀ (boundary s) := by
  unfold boundary
  repeat' (first
    | with_reducible assumption | with_reducible apply cutPass_quiet | with_reducible apply startLadders_quiet
    | with_reducible apply endRun_quiet | split
    | dsimp only | fail_if_no_progress (with_reducible refine Quiet.upd ?_ rfl))

theorem endOfDataset_quiet {s₀ s : State} (h : Quiet s₀ s) (p q : Nat) : Quiet s₀ (endOfDataset s p q) := by
  unfold endOfDataset
  repeat' (first | with_reducible assumption | with_reducible apply boundary_quiet | split)

theorem takeMember_quiet {s₀ s : State} (h : Quiet s₀ s) (i : Nat) : Quiet s₀ (takeMember s i) := by
  unfold takeMember
  repeat' (first
    | with_reducible assumption | with_reducible apply runSteps_quiet | with_reducible apply modRead_quiet
    | with_reducible apply dropRead_quiet | split | dsimp only | fail_if_no_progress (with_reducible refine Quiet.upd ?_ rfl))

theorem recoveryEntryS_quiet {s₀ s : State} (h : Quiet s₀ s) (p q : Nat) : Quiet s₀ (recoveryEntryS s p q) := by
  unfold recoveryEntryS
  repeat' (first
    | with_reducible assumption | with_reducible apply endOfDataset_quiet | with_reducible apply openRead_quiet
    | with_reducible apply takeMember_quiet | with_reducible apply locateMiss_quiet | with_reducible apply runSteps_quiet
    | with_reducible apply modRead_quiet | with_reducible apply recovered_quiet | with_reducible apply enterLadder_quiet
    | split | dsimp only)

theorem ladderPassDoneS_quiet {s₀ s : State} (h : Quiet s₀ s) (p q : Nat) (servoHeld : Bool) :
    Quiet s₀ (ladderPassDoneS s p q servoHeld) := by
  unfold ladderPassDoneS
  repeat' (first
    | with_reducible assumption | with_reducible apply endPass_quiet | with_reducible apply modRead_quiet
    | with_reducible apply runSteps_quiet | with_reducible apply leaveLadder_quiet | with_reducible apply recovered_quiet
    | with_reducible apply nextPass_quiet | with_reducible apply noteLast_quiet | split | dsimp only)

theorem reallocRebuilt_quiet {s₀ s : State} (h : Quiet s₀ s) (p target : Nat) (sp : SpanRead) (xs : List (Nat × List Byte)) :
    Quiet s₀ (reallocRebuilt s p target sp xs) := by
  unfold reallocRebuilt
  repeat' (first
    | with_reducible assumption | with_reducible apply startRealloc_quiet | with_reducible apply Quiet.foldl | intro _ _ _ | split)

theorem dropSpanReads_quiet {s₀ s : State} (h : Quiet s₀ s) (sp : SpanRead) : Quiet s₀ (dropSpanReads s sp) := by
  unfold dropSpanReads
  repeat' (first
    | with_reducible assumption | with_reducible apply dropRead_quiet | with_reducible apply Quiet.foldl | intro _ _ _ | split
    | dsimp only)

theorem spanReadDoneS_quiet {s₀ s : State} (h : Quiet s₀ s) (p q : Nat) (servoHeld : Bool) :
    Quiet s₀ (spanReadDoneS s p q servoHeld) := by
  unfold spanReadDoneS
  repeat' (first
    | with_reducible assumption | with_reducible apply modRead_quiet | with_reducible apply takeMember_quiet
    | with_reducible apply leaveLadder_quiet | with_reducible apply dropSpanReads_quiet
    | with_reducible apply failRecovery_quiet | with_reducible apply recovered_quiet
    | with_reducible apply reallocRebuilt_quiet | with_reducible apply beginPass_quiet | with_reducible apply Quiet.foldl
    | with_reducible apply Quiet.foldl_fst | with_reducible apply Quiet.foldl_snd | intro _ _ _ | intro _ _ | split
    | dsimp only | fail_if_no_progress (with_reducible refine Quiet.upd ?_ rfl))

theorem headerFailed_quiet {s₀ s : State} (h : Quiet s₀ s) (p q : Nat) (r : ReadDs) : Quiet s₀ (headerFailed s p q r) := by
  unfold headerFailed
  repeat' (first
    | with_reducible assumption | with_reducible apply modRead_quiet | with_reducible apply failRecovery_quiet
    | with_reducible apply releaseAll_quiet | with_reducible apply enterLadder_quiet | with_reducible apply trimPool6_quiet
    | split | dsimp only | fail_if_no_progress (with_reducible refine Quiet.upd ?_ rfl))

theorem mapHome_quiet {s₀ s : State} (h : Quiet s₀ s) (p q : Nat) (ds : Dataset) : Quiet s₀ (mapHome s p q ds) := by
  unfold mapHome
  repeat' (first | with_reducible assumption | with_reducible apply mapPosition_quiet | split)

theorem datasetDecodedS_quiet {s₀ s : State} (h : Quiet s₀ s) (p q : Nat) : Quiet s₀ (datasetDecodedS s p q) := by
  unfold datasetDecodedS
  repeat' (first
    | with_reducible assumption | with_reducible apply endOfDataset_quiet | with_reducible apply takeMember_quiet
    | with_reducible apply headerFailed_quiet | with_reducible apply leaveRun_quiet | with_reducible apply decodedS_quiet
    | with_reducible apply mapHome_quiet | with_reducible apply modPart_quiet | with_reducible apply startRealloc_quiet
    | with_reducible apply closeVisit_quiet | split | dsimp only)

/-! ## RecallSched -/

theorem endBatch_quiet {s₀ s : State} (h : Quiet s₀ s) : Quiet s₀ (endBatch s) := by
  unfold endBatch
  repeat' (first
    | with_reducible assumption | with_reducible apply endRun_quiet | split | dsimp only
    | fail_if_no_progress (with_reducible refine Quiet.upd ?_ rfl))

theorem failVisits_quiet {s₀ s : State} (h : Quiet s₀ s) (st : Nat) : Quiet s₀ (failVisits s st) := by
  unfold failVisits
  repeat' (first
    | with_reducible assumption | with_reducible apply endVisit_quiet | with_reducible apply Quiet.foldl | intro _ _ _ | split)

theorem startRun_quiet {s₀ s : State} (h : Quiet s₀ s) (r : List Visit) : Quiet s₀ (startRun s r) := by
  unfold startRun
  repeat' (first
    | with_reducible assumption | with_reducible apply seekRun_quiet | with_reducible apply revCalibrate_quiet | split
    | fail_if_no_progress (with_reducible refine Quiet.upd ?_ rfl))

theorem trimAll_quiet {s₀ s : State} (h : Quiet s₀ s) : Quiet s₀ (trimAll s) := by
  unfold trimAll
  repeat' (first
    | with_reducible assumption | with_reducible apply trimVisits_quiet | with_reducible apply Quiet.foldl
    | with_reducible apply Quiet.foldl_fst | with_reducible apply Quiet.foldl_snd | intro _ _ _)

theorem recallRunSelectS_quiet {s₀ s : State} (h : Quiet s₀ s) : Quiet s₀ (recallRunSelectS s) := by
  unfold recallRunSelectS
  repeat' (first
    | with_reducible assumption | with_reducible apply trimAll_quiet | with_reducible apply endBatch_quiet
    | with_reducible apply failVisits_quiet | with_reducible apply startRun_quiet | split | dsimp only
    | fail_if_no_progress (with_reducible refine Quiet.upd ?_ rfl))

theorem dropHint_quiet {s₀ s : State} (h : Quiet s₀ s) (id : Nat) : Quiet s₀ (dropHint s id) := by
  unfold dropHint
  repeat' (first
    | with_reducible assumption | with_reducible apply closeVisit_quiet | with_reducible apply setVisits_quiet | split
    | dsimp only | fail_if_no_progress (with_reducible refine Quiet.upd ?_ rfl))

/-! ## Servo -/

theorem settleLpos_quiet {s₀ s : State} (h : Quiet s₀ s) : Quiet s₀ (settleLpos s) := by
  unfold settleLpos
  repeat' (first
    | with_reducible assumption | split | dsimp only | fail_if_no_progress (with_reducible refine Quiet.upd ?_ rfl))

theorem servoNext_quiet {s₀ s : State} (h : Quiet s₀ s) (vEnd : Nat) : Quiet s₀ (servoNext s vEnd) := by
  unfold servoNext
  repeat' (first
    | with_reducible assumption | split | dsimp only | fail_if_no_progress (with_reducible refine Quiet.upd ?_ rfl))

theorem servoWindow_quiet {s₀ s : State} (h : Quiet s₀ s) : Quiet s₀ (servoWindow s) := by
  unfold servoWindow
  repeat' (first
    | with_reducible assumption | with_reducible apply faultRec_quiet | split
    | fail_if_no_progress (with_reducible refine Quiet.upd ?_ rfl))

theorem servoFrameS_quiet {s₀ s : State} (h : Quiet s₀ s) (xs : List ServoCh) : Quiet s₀ (servoFrameS s xs) := by
  unfold servoFrameS
  repeat' (first
    | with_reducible assumption | with_reducible apply servoNext_quiet | with_reducible apply settleLpos_quiet
    | with_reducible apply servoWindow_quiet | with_reducible apply closeGate_quiet | split | dsimp only
    | fail_if_no_progress (with_reducible refine Quiet.upd ?_ rfl))

theorem repeatLocate_quiet {s₀ s : State} (h : Quiet s₀ s) : Quiet s₀ (repeatLocate s) := by
  unfold repeatLocate
  repeat' (first
    | with_reducible assumption | with_reducible apply seekRun_quiet | with_reducible apply goTo_quiet
    | with_reducible apply aimVerifying_quiet | split | dsimp only
    | fail_if_no_progress (with_reducible refine Quiet.upd ?_ rfl))

theorem slowDown_quiet {s₀ s : State} (h : Quiet s₀ s) : Quiet s₀ (slowDown s) := by
  unfold slowDown
  repeat' (first | with_reducible assumption | dsimp only | fail_if_no_progress (with_reducible refine Quiet.upd ?_ rfl))

theorem runServoLost_quiet {s₀ s : State} (h : Quiet s₀ s) : Quiet s₀ (runServoLost s) := by
  unfold runServoLost
  repeat' (first
    | with_reducible assumption | with_reducible apply repeatLocate_quiet | with_reducible apply slowDown_quiet
    | with_reducible apply endRun_quiet | with_reducible apply failVisit_quiet | with_reducible apply Quiet.foldl
    | with_reducible apply Quiet.foldl_fst | with_reducible apply Quiet.foldl_snd | intro _ _ _ | intro _ _ | split
    | dsimp only | fail_if_no_progress (with_reducible refine Quiet.upd ?_ rfl))

/-! ## Motion -/

theorem modReel_quiet {s₀ s : State} (h : Quiet s₀ s) (r : Reel) (f : ReelState → ReelState) : Quiet s₀ (modReel s r f) := by
  unfold modReel
  repeat' (first | with_reducible assumption | split | fail_if_no_progress (with_reducible refine Quiet.upd ?_ rfl))

theorem endReading_quiet {s₀ s : State} (h : Quiet s₀ s) (st : Nat) : Quiet s₀ (endReading s st) := by
  unfold endReading
  repeat' (first
    | with_reducible assumption | with_reducible apply failVisits_quiet | with_reducible apply releaseAll_quiet
    | with_reducible apply endRun_quiet | with_reducible apply endPass_quiet | with_reducible apply dropRead_quiet
    | with_reducible apply Quiet.foldl | with_reducible apply Quiet.foldl_fst | with_reducible apply Quiet.foldl_snd
    | intro _ _ _ | intro _ _ | split | dsimp only | fail_if_no_progress (with_reducible refine Quiet.upd ?_ rfl))

theorem endWriter_quiet {s₀ s : State} (h : Quiet s₀ s) (st : Nat) : Quiet s₀ (endWriter s st) := by
  unfold endWriter
  repeat' (first
    | with_reducible assumption | with_reducible apply endCheckpoints_quiet | with_reducible apply interruptWriting_quiet | split
    | fail_if_no_progress (with_reducible refine Quiet.upd ?_ rfl))

theorem noteCause_quiet {s₀ s : State} (h : Quiet s₀ s) (cause : Nat) (rs rt : Bool) : Quiet s₀ (noteCause s cause rs rt) := by
  unfold noteCause
  repeat' (first | with_reducible assumption | fail_if_no_progress (with_reducible refine Quiet.upd ?_ rfl))

theorem safeStop_quiet {s₀ s : State} (h : Quiet s₀ s) (cause : Nat) (rs rt : Bool) : Quiet s₀ (safeStop s cause rs rt) := by
  unfold safeStop
  repeat' (first
    | with_reducible assumption | with_reducible apply noteCause_quiet | with_reducible apply faultRec_quiet
    | with_reducible apply setIstat_quiet | with_reducible apply queueEvent_quiet | with_reducible apply endReading_quiet
    | with_reducible apply endWriter_quiet | split | dsimp only | fail_if_no_progress (with_reducible refine Quiet.upd ?_ rfl))

theorem halveDecel_quiet {s₀ s : State} (h : Quiet s₀ s) : Quiet s₀ (halveDecel s) := by
  unfold halveDecel
  repeat' (first | with_reducible assumption | fail_if_no_progress (with_reducible refine Quiet.upd ?_ rfl))

theorem chopperEvent_quiet {s₀ s : State} (h : Quiet s₀ s) : Quiet s₀ (chopperEvent s) := by
  unfold chopperEvent
  repeat' (first
    | with_reducible assumption | with_reducible apply queueEvent_quiet | split
    | fail_if_no_progress (with_reducible refine Quiet.upd ?_ rfl))

theorem reelsAtRestS_quiet {s₀ s : State} (h : Quiet s₀ s) : Quiet s₀ (reelsAtRestS s) := by
  unfold reelsAtRestS
  repeat' (first
    | with_reducible assumption | with_reducible apply servoOff_quiet | with_reducible apply chopperEvent_quiet | split | dsimp only
    | fail_if_no_progress (with_reducible refine Quiet.upd ?_ rfl))

theorem nwClear_quiet {s₀ s : State} (h : Quiet s₀ s) : Quiet s₀ (nwClear s) := by
  unfold nwClear
  repeat' (first | with_reducible assumption | fail_if_no_progress (with_reducible refine Quiet.upd ?_ rfl))

/-! ## ControlEngine -/

theorem satFlag_quiet {s₀ s : State} (h : Quiet s₀ s) (b : Nat) (c : Bool) : Quiet s₀ (satFlag s b c) := by
  unfold satFlag
  repeat' (first | with_reducible assumption | split | fail_if_no_progress (with_reducible refine Quiet.upd ?_ rfl))

theorem rampTick_quiet {s₀ s : State} (h : Quiet s₀ s) : Quiet s₀ (rampTick s) := by
  unfold rampTick
  repeat' (first
    | with_reducible assumption | with_reducible apply satFlag_quiet | split | dsimp only
    | fail_if_no_progress (with_reducible refine Quiet.upd ?_ rfl))

theorem lanesSeek_quiet {s₀ s : State} (h : Quiet s₀ s) : Quiet s₀ (lanesSeek s) := by
  unfold lanesSeek
  repeat' (first
    | with_reducible assumption | with_reducible apply modLane_quiet | with_reducible apply Quiet.foldl
    | with_reducible apply Quiet.foldl_fst | with_reducible apply Quiet.foldl_snd | intro _ _ _ | intro _ _ | split)

theorem stopReached_quiet {s₀ s : State} (h : Quiet s₀ s) : Quiet s₀ (stopReached s) := by
  unfold stopReached
  repeat' (first
    | with_reducible assumption | with_reducible apply servoOff_quiet | with_reducible apply lanesSeek_quiet | split
    | dsimp only | fail_if_no_progress (with_reducible refine Quiet.upd ?_ rfl))

theorem tensionRef_quiet {s₀ s : State} (h : Quiet s₀ s) : Quiet s₀ (tensionRef s) := by
  unfold tensionRef
  repeat' (first | with_reducible assumption | split | fail_if_no_progress (with_reducible refine Quiet.upd ?_ rfl))

theorem modelSlot_quiet {s₀ s : State} (h : Quiet s₀ s) : Quiet s₀ (modelSlot s) := by
  unfold modelSlot
  repeat' (first
    | with_reducible assumption | with_reducible apply satFlag_quiet | split | dsimp only
    | fail_if_no_progress (with_reducible refine Quiet.upd ?_ rfl))

theorem stillTape_quiet {s₀ s : State} (was : State) (h : Quiet s₀ s) : Quiet s₀ (stillTape was s) := by
  unfold stillTape
  repeat' (first | with_reducible assumption | with_reducible apply servoOff_quiet | split)

theorem loopSlot_quiet {s₀ s : State} (h : Quiet s₀ s) : Quiet s₀ (loopSlot s) := by
  unfold loopSlot
  repeat' (first
    | with_reducible assumption | with_reducible apply tensionRef_quiet | with_reducible apply stopReached_quiet
    | with_reducible apply stillTape_quiet | with_reducible apply rampTick_quiet | with_reducible apply satFlag_quiet
    | dsimp only | fail_if_no_progress (with_reducible refine Quiet.upd ?_ rfl))

theorem actProfile_quiet {s₀ s : State} (h : Quiet s₀ s) (target : Int) : Quiet s₀ (actProfile s target) := by
  unfold actProfile
  repeat' (first | with_reducible assumption | split | dsimp only | fail_if_no_progress (with_reducible refine Quiet.upd ?_ rfl))

theorem stepperSlot_quiet {s₀ s : State} (h : Quiet s₀ s) : Quiet s₀ (stepperSlot s) := by
  unfold stepperSlot
  repeat' (first | with_reducible assumption | dsimp only | fail_if_no_progress (with_reducible refine Quiet.upd ?_ rfl))

theorem actuatorSlot_quiet {s₀ s : State} (h : Quiet s₀ s) : Quiet s₀ (actuatorSlot s) := by
  unfold actuatorSlot
  repeat' (first
    | with_reducible assumption | with_reducible apply stepperSlot_quiet | with_reducible apply actProfile_quiet
    | with_reducible apply satFlag_quiet | split | dsimp only | fail_if_no_progress (with_reducible refine Quiet.upd ?_ rfl))

theorem zvLaw_quiet {s₀ s : State} (h : Quiet s₀ s) : Quiet s₀ (zvLaw s) := by
  unfold zvLaw
  repeat' (first
    | with_reducible assumption | split | dsimp only | fail_if_no_progress (with_reducible refine Quiet.upd ?_ rfl))

theorem busVoltage_quiet {s₀ s : State} (h : Quiet s₀ s) (x : CeSample) : Quiet s₀ (busVoltage s x) := by
  unfold busVoltage
  repeat' (first
    | with_reducible assumption | with_reducible apply zvLaw_quiet | split | dsimp only
    | fail_if_no_progress (with_reducible refine Quiet.upd ?_ rfl))

theorem brakeFractions_quiet {s₀ s : State} (h : Quiet s₀ s) (x : CeSample) : Quiet s₀ (brakeFractions s x) := by
  unfold brakeFractions
  extract_lets est src s1
  have h1 : Quiet s₀ s1 := Quiet.upd h rfl
  clear_value s1
  split
  · exact Quiet.upd h1 rfl
  · exact Quiet.upd (freshFree_quiet (Quiet.upd h1 rfl)) rfl

theorem writerAtRest_quiet {s₀ s : State} (h : Quiet s₀ s) : Quiet s₀ (writerAtRest s) := by
  unfold writerAtRest
  repeat' (first | with_reducible assumption | split | fail_if_no_progress (with_reducible refine Quiet.upd ?_ rfl))

theorem reelPeriod_quiet {s₀ s : State} (h : Quiet s₀ s) (k : Reel) (x : ReelSample) (dist : Int) (vmot flag : Nat) :
    Quiet s₀ (reelPeriod s k x dist vmot flag) := by
  unfold reelPeriod
  repeat' (first
    | with_reducible assumption | with_reducible apply satFlag_quiet | with_reducible apply modReel_quiet | split
    | fail_if_no_progress (with_reducible refine Quiet.upd ?_ rfl))

theorem tachPeriod_quiet {s₀ s : State} (h : Quiet s₀ s) (x : CeSample) : Quiet s₀ (tachPeriod s x) := by
  unfold tachPeriod
  repeat' (first | with_reducible assumption | fail_if_no_progress (with_reducible refine Quiet.upd ?_ rfl))

theorem nightwatchPeriod_quiet {s₀ s : State} (h : Quiet s₀ s) (x : CeSample) : Quiet s₀ (nightwatchPeriod s x) := by
  unfold nightwatchPeriod
  repeat' (first
    | with_reducible assumption | with_reducible apply safeStop_quiet | split | dsimp only
    | fail_if_no_progress (with_reducible refine Quiet.upd ?_ rfl))

theorem stillPeriod_quiet {s₀ s : State} (h : Quiet s₀ s) (x : CeSample) : Quiet s₀ (stillPeriod s x) := by
  unfold stillPeriod
  repeat' (first
    | with_reducible assumption | split | dsimp only | fail_if_no_progress (with_reducible refine Quiet.upd ?_ rfl))

theorem latch_quiet {s₀ s : State} (h : Quiet s₀ s) (x : CeSample) (actOut : Int) : Quiet s₀ (latch s x actOut) := by
  unfold latch
  repeat' (first
    | with_reducible assumption | split | dsimp only | fail_if_no_progress (with_reducible refine Quiet.upd ?_ rfl))

theorem setDrives_quiet {s₀ s : State} (h : Quiet s₀ s) : Quiet s₀ (setDrives s) := by
  unfold setDrives
  repeat' (first | with_reducible assumption | dsimp only | fail_if_no_progress (with_reducible refine Quiet.upd ?_ rfl))

theorem basePeriodS_quiet {s₀ s : State} (h : Quiet s₀ s) (x : CeSample) : Quiet s₀ (basePeriodS s x) := by
  unfold basePeriodS
  repeat' (first
    | with_reducible assumption | with_reducible apply brakeFractions_quiet | with_reducible apply stillPeriod_quiet
    | with_reducible apply busVoltage_quiet | with_reducible apply tachPeriod_quiet | with_reducible apply reelPeriod_quiet
    | with_reducible apply loopSlot_quiet | with_reducible apply modelSlot_quiet | with_reducible apply actuatorSlot_quiet
    | with_reducible apply latch_quiet | with_reducible apply faultRec_quiet | with_reducible apply safeStop_quiet
    | with_reducible apply writerAtRest_quiet | with_reducible apply setDrives_quiet
    | with_reducible apply nightwatchPeriod_quiet | split)

/-! ## Admit -/

theorem admitOne_over_quiet {s₀ s t : State} {u : Sub} (h : Quiet s₀ s) (g : admitOne s u = .over t) : Quiet s₀ t := by
  unfold admitOne at g
  dsimp only at g
  split at g
  · cases g
  · split at g
    · cases g
    · split at g
      · cases g
        apply finish_quiet
        split
        · exact Quiet.upd (emit_quiet h _) rfl
        · exact Quiet.upd h rfl
      · cases g

theorem admitOne_run_quiet {s₀ s t : State} {u : Sub} {c : Cmd} (h : Quiet s₀ s) (g : admitOne s u = .run t c) : Quiet s₀ t := by
  unfold admitOne at g
  dsimp only at g
  split at g
  · cases g
  · split at g
    · cases g
    · split at g
      · cases g
      · cases g
        apply setCmd_quiet
        split
        · exact Quiet.upd (emit_quiet h _) rfl
        · exact Quiet.upd h rfl

theorem runCmd_quiet {s₀ s : State} (h : Quiet s₀ s) (op : Nat) (u : Sub) (k : State → Cmd → State)
    (hk : ∀ t, Quiet s₀ t → ∀ c, Quiet s₀ (k t c)) : Quiet s₀ (runCmd s op u k) := by
  unfold runCmd
  split
  · exact h
  · split
    · exact h
    · exact admitOne_over_quiet h (by assumption)
    · exact hk _ (admitOne_run_quiet h (by assumption)) _

theorem toHost_quiet {s₀ s : State} (h : Quiet s₀ s) (c : Cmd) (bs : List Byte) : Quiet s₀ (toHost s c bs) := by
  unfold toHost
  repeat' (first | with_reducible assumption | with_reducible apply dmaOut_quiet)

/-! ## PairForm -/

theorem markDiverged_quiet {s₀ s : State} (h : Quiet s₀ s) : Quiet s₀ (markDiverged s) := by
  unfold markDiverged
  repeat' (first | with_reducible assumption | fail_if_no_progress (with_reducible refine Quiet.upd ?_ rfl))

theorem catchUpPart_quiet {s₀ s : State} (h : Quiet s₀ s) (p : Nat) : Quiet s₀ (catchUpPart s p) := by
  unfold catchUpPart
  repeat' (first | with_reducible assumption | fail_if_no_progress (with_reducible refine Quiet.upd ?_ rfl))

theorem catchUp_quiet {s₀ s : State} (h : Quiet s₀ s) : Quiet s₀ (catchUp s) := by
  unfold catchUp
  repeat' (first
    | with_reducible assumption | with_reducible apply catchUpPart_quiet | with_reducible apply goOnCatch_quiet
    | with_reducible apply Quiet.foldl | intro _ _ _ | fail_if_no_progress (with_reducible refine Quiet.upd ?_ rfl))

theorem freezeMarks_quiet {s₀ s : State} (h : Quiet s₀ s) : Quiet s₀ (freezeMarks s) := by
  unfold freezeMarks
  repeat' (first
    | with_reducible assumption | with_reducible apply dropHeld_quiet | with_reducible apply Quiet.foldl
    | with_reducible apply Quiet.foldl_fst | with_reducible apply Quiet.foldl_snd | intro _ _ _ | intro _ _ | dsimp only
    | fail_if_no_progress (with_reducible refine Quiet.upd ?_ rfl))

theorem breakPair_quiet {s₀ s : State} (h : Quiet s₀ s) (reason : Nat) : Quiet s₀ (breakPair s reason) := by
  unfold breakPair
  repeat' (first
    | with_reducible assumption | with_reducible apply freezeMarks_quiet | with_reducible apply settleWrite_quiet
    | with_reducible apply Quiet.foldl | with_reducible apply Quiet.foldl_fst | with_reducible apply Quiet.foldl_snd
    | intro _ _ _ | intro _ _ | dsimp only | fail_if_no_progress (with_reducible refine Quiet.upd ?_ rfl))

theorem comparePair_quiet {s₀ s : State} (h : Quiet s₀ s) (i : PeerInfo) : Quiet s₀ (comparePair s i) := by
  unfold comparePair
  repeat' (first
    | with_reducible assumption | with_reducible apply catchUp_quiet | with_reducible apply breakPair_quiet | split
    | dsimp only | fail_if_no_progress (with_reducible refine Quiet.upd ?_ rfl))

/-! ## Media -/

theorem mediaDone_quiet {s₀ s : State} (h : Quiet s₀ s) (cmd lib : Option Nat) (st info : Nat) :
    Quiet s₀ (mediaDone s cmd lib st info) := by
  unfold mediaDone
  repeat' (first
    | with_reducible assumption | with_reducible apply finishId_quiet | split
    | fail_if_no_progress (with_reducible refine Quiet.upd ?_ rfl))

theorem unlock_quiet {s₀ s : State} (h : Quiet s₀ s) : Quiet s₀ (unlock s) := by
  unfold unlock
  repeat' (first | with_reducible assumption | fail_if_no_progress (with_reducible refine Quiet.upd ?_ rfl))

theorem writeVolSlot_quiet {s₀ s : State} (h : Quiet s₀ s) (wrap gen : Nat) (body : List Byte) :
    Quiet s₀ (writeVolSlot s wrap gen body) := by
  unfold writeVolSlot
  repeat' (first
    | with_reducible assumption | with_reducible apply emit_quiet | with_reducible apply setMag_quiet
    | with_reducible apply Quiet.foldl | with_reducible apply Quiet.foldl_fst | with_reducible apply Quiet.foldl_snd
    | intro _ _ _)

theorem writeVolume_quiet {s₀ s : State} (h : Quiet s₀ s) (live : Nat → Bool) (f : Nat → List VolEntry → List VolEntry) :
    Quiet s₀ (writeVolume s live f) := by
  unfold writeVolume
  repeat' (first
    | with_reducible assumption | with_reducible apply writeVolSlot_quiet | split
    | fail_if_no_progress (with_reducible refine Quiet.upd ?_ rfl))

theorem storeRecord_quiet {s₀ s : State} (h : Quiet s₀ s) (p : Nat) : Quiet s₀ (storeRecord s p) := by
  unfold storeRecord
  repeat' (first | with_reducible assumption | split | fail_if_no_progress (with_reducible refine Quiet.upd ?_ rfl))

theorem releaseWork_quiet {s₀ s : State} (h : Quiet s₀ s) : Quiet s₀ (releaseWork s) := by
  unfold releaseWork
  repeat' (first
    | with_reducible assumption | with_reducible apply dropBuf_quiet | with_reducible apply removeCmd_quiet
    | with_reducible apply dropRecBuf_quiet | with_reducible apply releaseAll_quiet | with_reducible apply dropSealed_quiet
    | with_reducible apply Quiet.foldl | intro _ _ _ | split)

theorem forgetCart_quiet {s₀ s : State} (h : Quiet s₀ s) : Quiet s₀ (forgetCart s) := by
  unfold forgetCart
  repeat' (first
    | with_reducible assumption | with_reducible apply releaseWork_quiet | fail_if_no_progress (with_reducible refine Quiet.upd ?_ rfl))

theorem unthreaded_quiet {s₀ s : State} (h : Quiet s₀ s) : Quiet s₀ (unthreaded s) := by
  unfold unthreaded
  repeat' (first | with_reducible assumption | fail_if_no_progress (with_reducible refine Quiet.upd ?_ rfl))

theorem unloadSteps_quiet {s₀ s : State} (h : Quiet s₀ s) (fails : Option Nat) (eject : Bool) :
    Quiet s₀ (unloadSteps s fails eject).1 := by
  unfold unloadSteps
  repeat' (first
    | with_reducible assumption | with_reducible apply setMount_quiet | with_reducible apply forgetCart_quiet
    | with_reducible apply unthreaded_quiet | with_reducible apply emit_quiet | split | dsimp only
    | fail_if_no_progress (with_reducible refine Quiet.upd ?_ rfl))

theorem alignReel_quiet {s₀ s : State} (h : Quiet s₀ s) (k : Reel) : Quiet s₀ (alignReel s k) := by
  unfold alignReel
  repeat' (first | with_reducible assumption | with_reducible apply modReel_quiet)

theorem alignTurn_quiet {s₀ s : State} (h : Quiet s₀ s) (k : Reel) (xs : List Int) : Quiet s₀ (alignTurn s k xs) := by
  unfold alignTurn
  repeat' (first | with_reducible assumption | with_reducible apply modReel_quiet | split)

theorem addRolled_quiet {s₀ s : State} (h : Quiet s₀ s) (r : Rolled) : Quiet s₀ (addRolled s r) := by
  unfold addRolled
  repeat' (first
    | with_reducible assumption | with_reducible apply checkExhausted_quiet | with_reducible apply setSubst_quiet
    | with_reducible apply faultProtect_quiet | split | fail_if_no_progress (with_reducible refine Quiet.upd ?_ rfl))

theorem afterRoll_quiet {s₀ s : State} (h : Quiet s₀ s) (p : Nat) : Quiet s₀ (afterRoll s p) := by
  unfold afterRoll
  repeat' (first | with_reducible assumption | with_reducible apply wantCheckpoint_quiet | with_reducible apply closeSpan_quiet | split)

theorem freshCounts_quiet {s₀ s : State} (h : Quiet s₀ s) : Quiet s₀ (freshCounts s) := by
  unfold freshCounts
  repeat' (first | with_reducible assumption | fail_if_no_progress (with_reducible refine Quiet.upd ?_ rfl))

theorem mountSteps_quiet {s₀ s : State} (h : Quiet s₀ s) (w : MountWorld) : Quiet s₀ (mountSteps s w).1 := by
  unfold mountSteps
  repeat' (first
    | with_reducible assumption | with_reducible apply carve_quiet | with_reducible apply alignReel_quiet
    | with_reducible apply alignTurn_quiet | split | dsimp only | fail_if_no_progress (with_reducible refine Quiet.upd ?_ rfl))

theorem mountTape_quiet {s₀ s : State} (h : Quiet s₀ s) (ro : Bool) (w : MountWorld) : Quiet s₀ (mountTape s ro w).1 := by
  unfold mountTape
  repeat' (first
    | with_reducible assumption | with_reducible apply writeVolume_quiet | with_reducible apply calibrate_quiet
    | with_reducible apply setSubst_quiet | with_reducible apply freshCounts_quiet | with_reducible apply addRolled_quiet
    | with_reducible apply Quiet.foldl | split | fail_if_no_progress (with_reducible refine Quiet.upd ?_ rfl))

theorem finishMount_quiet {s₀ s : State} (h : Quiet s₀ s) (cmd lib : Option Nat) (ro : Bool) (info : Nat) (peer : Option PeerInfo) :
    Quiet s₀ (finishMount s cmd lib ro info peer) := by
  unfold finishMount
  repeat' (first
    | with_reducible assumption | with_reducible apply setMount_quiet | with_reducible apply unlock_quiet
    | with_reducible apply queueEvent_quiet | with_reducible apply comparePair_quiet | with_reducible apply mediaDone_quiet | split)

theorem mountWrites_quiet {s₀ s : State} (h : Quiet s₀ s) (cmd lib : Option Nat) (ro : Bool) (info : Nat) (w : MountWorld) :
    Quiet s₀ (mountWrites s cmd lib ro info w) := by
  unfold mountWrites
  repeat' (first
    | with_reducible assumption | with_reducible apply finishMount_quiet | with_reducible apply afterRoll_quiet
    | with_reducible apply Quiet.foldl | intro _ _ _ | split | dsimp only
    | fail_if_no_progress (with_reducible refine Quiet.upd ?_ rfl))

theorem mountS_quiet {s₀ s : State} (h : Quiet s₀ s) (cmd lib : Option Nat) (ro : Bool) (w : MountWorld) :
    Quiet s₀ (mountS s cmd lib ro w) := by
  unfold mountS
  repeat' (first
    | with_reducible assumption | with_reducible apply mediaDone_quiet | with_reducible apply mountSteps_quiet
    | with_reducible apply wake_quiet | with_reducible apply unloadSteps_quiet | with_reducible apply mountTape_quiet
    | with_reducible apply mountWrites_quiet | split | dsimp only | fail_if_no_progress (with_reducible refine Quiet.upd ?_ rfl))

theorem failMount_quiet {s₀ s : State} (h : Quiet s₀ s) (cmd lib : Option Nat) (w : UnloadWorld) (st : Nat) :
    Quiet s₀ (failMount s cmd lib w st) := by
  unfold failMount
  repeat' (first
    | with_reducible assumption | with_reducible apply mediaDone_quiet | with_reducible apply unloadSteps_quiet
    | with_reducible apply unlock_quiet | fail_if_no_progress (with_reducible refine Quiet.upd ?_ rfl))

theorem advanceMount_quiet {s₀ s : State} (h : Quiet s₀ s) (cmd lib : Option Nat) (info : Nat) (w : UnloadWorld)
    (peer : Option PeerInfo) : Quiet s₀ (advanceMount s cmd lib info w peer) := by
  unfold advanceMount
  repeat' (first | with_reducible assumption | with_reducible apply failMount_quiet | with_reducible apply finishMount_quiet | split)

theorem dropUnplaced_quiet {s₀ s : State} (h : Quiet s₀ s) (p : Nat → Bool) : Quiet s₀ (dropUnplaced s p) := by
  unfold dropUnplaced
  repeat' (first | with_reducible assumption | with_reducible apply dropRealloc_quiet | with_reducible apply Quiet.foldl | intro _ _ _)

theorem realignReels_quiet {s₀ s : State} (h : Quiet s₀ s) : Quiet s₀ (realignReels s) := by
  unfold realignReels
  repeat' (first | with_reducible assumption | with_reducible apply alignReel_quiet | split | dsimp only)

theorem askClear_quiet {s₀ s : State} (h : Quiet s₀ s) (startup : Bool) : Quiet s₀ (askClear s startup) := by
  unfold askClear
  repeat' (first
    | with_reducible assumption | with_reducible apply realignReels_quiet | with_reducible apply nwClear_quiet | split
    | dsimp only)

theorem unmountS_quiet {s₀ s : State} (h : Quiet s₀ s) (cmd lib : Option Nat) (eject : Bool) (w : UnloadWorld) :
    Quiet s₀ (unmountS s cmd lib eject w) := by
  unfold unmountS
  repeat' (first
    | with_reducible assumption | with_reducible apply mediaDone_quiet | with_reducible apply askClear_quiet
    | with_reducible apply wake_quiet | with_reducible apply finishRead_quiet | with_reducible apply dropHint_quiet
    | with_reducible apply dropUnplaced_quiet | with_reducible apply Quiet.foldl | with_reducible apply Quiet.foldl_fst
    | with_reducible apply Quiet.foldl_snd | intro _ _ _ | intro _ _ | split | dsimp only
    | fail_if_no_progress (with_reducible refine Quiet.upd ?_ rfl))

theorem finishUnmount_quiet {s₀ s : State} (h : Quiet s₀ s) (cmd lib : Option Nat) (eject : Bool) (w : UnloadWorld) :
    Quiet s₀ (finishUnmount s cmd lib eject w) := by
  unfold finishUnmount
  repeat' (first
    | with_reducible assumption | with_reducible apply writeVolume_quiet | with_reducible apply storeRecord_quiet
    | with_reducible apply unloadSteps_quiet | with_reducible apply unlock_quiet | with_reducible apply queueEvent_quiet
    | with_reducible apply mediaDone_quiet | with_reducible apply Quiet.foldl | intro _ _ _ | split
    | fail_if_no_progress (with_reducible refine Quiet.upd ?_ rfl))

theorem advanceUnmount_quiet {s₀ s : State} (h : Quiet s₀ s) (cmd lib : Option Nat) (eject : Bool) (w : UnloadWorld) (phase : Nat) :
    Quiet s₀ (advanceUnmount s cmd lib eject w phase) := by
  unfold advanceUnmount
  repeat' (first
    | with_reducible assumption | with_reducible apply mediaDone_quiet | with_reducible apply unlock_quiet
    | with_reducible apply wantCheckpoint_quiet | with_reducible apply afterSeal_quiet | with_reducible apply closeSpan_quiet
    | with_reducible apply finishUnmount_quiet | with_reducible apply Quiet.foldl | intro _ _ _ | split | dsimp only
    | fail_if_no_progress (with_reducible refine Quiet.upd ?_ rfl))

theorem startLabels_quiet {s₀ s : State} (h : Quiet s₀ s) (l : LabelBody) (copy : Nat) : Quiet s₀ (startLabels s l copy) := by
  unfold startLabels
  repeat' (first
    | with_reducible assumption | with_reducible apply modPart_quiet | fail_if_no_progress (with_reducible refine Quiet.upd ?_ rfl))

theorem wipeWraps_quiet {s₀ s : State} (h : Quiet s₀ s) (first pairs : Nat) : Quiet s₀ (wipeWraps s first pairs) := by
  unfold wipeWraps
  repeat' (first | with_reducible assumption | fail_if_no_progress (with_reducible refine Quiet.upd ?_ rfl))

theorem forwardOp_quiet {s₀ s : State} (h : Quiet s₀ s) (q : SqeBits) : Quiet s₀ (forwardOp s q).1 := by
  unfold forwardOp
  repeat' (first
    | with_reducible assumption | with_reducible apply plSend_quiet | split
    | fail_if_no_progress (with_reducible refine Quiet.upd ?_ rfl))

theorem opEnds_quiet {s₀ s : State} (h : Quiet s₀ s) (cmd : Option Nat) (st info peer d1 : Nat) :
    Quiet s₀ (opEnds s cmd st info peer d1) := by
  unfold opEnds
  repeat' (first
    | with_reducible assumption | with_reducible apply breakPair_quiet | with_reducible apply unlock_quiet
    | with_reducible apply finishId_quiet | with_reducible apply plSend_quiet | split | dsimp only
    | fail_if_no_progress (with_reducible refine Quiet.upd ?_ rfl))

theorem removePart_quiet {s₀ s : State} (h : Quiet s₀ s) (p : Nat) : Quiet s₀ (removePart s p) := by
  unfold removePart
  repeat' (first | with_reducible assumption | fail_if_no_progress (with_reducible refine Quiet.upd ?_ rfl))

theorem dropPart_quiet {s₀ s : State} (h : Quiet s₀ s) (p : Nat) : Quiet s₀ (dropPart s p) := by
  unfold dropPart
  repeat' (first
    | with_reducible assumption | with_reducible apply dropSealed_quiet | with_reducible apply removePart_quiet
    | with_reducible apply enterStop_quiet | with_reducible apply Quiet.foldl | split)

theorem createS_quiet {s₀ s : State} (h : Quiet s₀ s) (q : SqeBits) (cmd peer : Option Nat) : Quiet s₀ (createS s q cmd peer) := by
  unfold createS
  repeat' (first
    | with_reducible assumption | with_reducible apply writeVolume_quiet | with_reducible apply wipeWraps_quiet
    | with_reducible apply startLabels_quiet | fail_if_no_progress (with_reducible refine Quiet.upd ?_ rfl))

theorem endOp_quiet {s₀ s : State} (h : Quiet s₀ s) (t : State) (cmd peer : Option Nat) (st info d1 : Nat) (ht : Quiet s₀ t) :
    Quiet s₀ (endOp s t cmd peer st info d1) := by
  unfold endOp
  repeat' (first | with_reducible assumption | with_reducible apply opEnds_quiet | split)

theorem advanceCreate_quiet {s₀ s : State} (h : Quiet s₀ s) (cmd : Option Nat) (p : Nat) (peer : Option Nat) (phase gen time : Nat) :
    Quiet s₀ (advanceCreate s cmd p peer phase gen time) := by
  unfold advanceCreate
  repeat' (first
    | with_reducible assumption | with_reducible apply endOp_quiet | with_reducible apply dropPart_quiet
    | with_reducible apply setPart_quiet | with_reducible apply startLabels_quiet | with_reducible apply wantCheckpoint_quiet
    | split | dsimp only | fail_if_no_progress (with_reducible refine Quiet.upd ?_ rfl))

theorem failUnsealed_quiet {s₀ s : State} (h : Quiet s₀ s) (c : Cmd) : Quiet s₀ (failUnsealed s c) := by
  unfold failUnsealed
  repeat' (first | with_reducible assumption | with_reducible apply failWrite_quiet | split)

theorem deleteStart_quiet {s₀ s : State} (h : Quiet s₀ s) (cmd : Option Nat) (p : Nat) (peer : Option Nat) :
    Quiet s₀ (deleteStart s cmd p peer) := by
  unfold deleteStart
  repeat' (first
    | with_reducible assumption | with_reducible apply modPart_quiet | with_reducible apply dropOpen_quiet
    | with_reducible apply endReallocs_quiet | with_reducible apply failUnsealed_quiet | with_reducible apply finish_quiet
    | with_reducible apply Quiet.foldl | with_reducible apply Quiet.foldl_fst | with_reducible apply Quiet.foldl_snd
    | intro _ _ _ | intro _ _ | split | dsimp only | fail_if_no_progress (with_reducible refine Quiet.upd ?_ rfl))

theorem freePart_quiet {s₀ s : State} (h : Quiet s₀ s) (cmd : Option Nat) (x : Part) (peer : Option Nat) :
    Quiet s₀ (freePart s cmd x peer) := by
  unfold freePart
  repeat' (first
    | with_reducible assumption | with_reducible apply setPart_quiet | with_reducible apply writeVolume_quiet
    | with_reducible apply startLabels_quiet | fail_if_no_progress (with_reducible refine Quiet.upd ?_ rfl))

theorem advanceDelete_quiet {s₀ s : State} (h : Quiet s₀ s) (cmd : Option Nat) (p : Nat) (peer : Option Nat) (phase : Nat) (label : Option LabelBody) :
    Quiet s₀ (advanceDelete s cmd p peer phase label) := by
  unfold advanceDelete
  repeat' (first
    | with_reducible assumption | with_reducible apply endOp_quiet | with_reducible apply opEnds_quiet
    | with_reducible apply setPart_quiet | with_reducible apply freePart_quiet | with_reducible apply dropPart_quiet
    | with_reducible apply startLabels_quiet | with_reducible apply removePart_quiet | split | dsimp only
    | fail_if_no_progress (with_reducible refine Quiet.upd ?_ rfl))

theorem advanceMedia_quiet {s₀ s : State} (h : Quiet s₀ s) : Quiet s₀ (advanceMedia s) := by
  unfold advanceMedia
  repeat' (first
    | with_reducible assumption | with_reducible apply advanceMount_quiet | with_reducible apply advanceUnmount_quiet
    | with_reducible apply advanceCreate_quiet | with_reducible apply advanceDelete_quiet | split)

theorem checkpointS_quiet {s₀ s : State} (h : Quiet s₀ s) (k : Cmd) : Quiet s₀ (checkpointS s k) := by
  unfold checkpointS
  repeat' (first
    | with_reducible assumption | with_reducible apply finish_quiet | with_reducible apply finishSt_quiet
    | with_reducible apply wantCheckpoint_quiet | with_reducible apply modCmd_quiet | with_reducible apply wake_quiet | split
    | dsimp only)

theorem endWaiting_quiet {s₀ s : State} (h : Quiet s₀ s) : Quiet s₀ (endWaiting s) := by
  unfold endWaiting
  repeat' (first
    | with_reducible assumption | with_reducible apply endReading_quiet | with_reducible apply endCheckpoints_quiet
    | with_reducible apply interruptWriting_quiet | with_reducible apply endWrite_quiet | with_reducible apply Quiet.foldl | intro _ _ _
    | split | dsimp only)

theorem gripTimeout_quiet {s₀ s : State} (h : Quiet s₀ s) : Quiet s₀ (gripTimeout s) := by
  unfold gripTimeout
  repeat' (first
    | with_reducible assumption | with_reducible apply mediaDone_quiet | with_reducible apply unlock_quiet
    | with_reducible apply failMount_quiet | with_reducible apply opEnds_quiet | with_reducible apply dropPart_quiet
    | with_reducible apply modPart_quiet | with_reducible apply endWaiting_quiet | split)

theorem libRequest_quiet {s₀ s : State} (h : Quiet s₀ s) (code seq : Nat) (w : LibWorld) (twilightRun : State → State)
    (htwilightRun : ∀ t, Quiet s₀ t → Quiet s₀ (twilightRun t)) : Quiet s₀ (libRequest s code seq w twilightRun) := by
  unfold libRequest
  repeat' (first
    | with_reducible assumption | with_reducible apply mountS_quiet | with_reducible apply unmountS_quiet
    | with_reducible apply htwilightRun | split | dsimp only | fail_if_no_progress (with_reducible refine Quiet.upd ?_ rfl))

theorem twilightUnload_quiet {s₀ s : State} (h : Quiet s₀ s) (seq : Nat) (w : UnloadWorld) : Quiet s₀ (twilightUnload seq w s) := by
  unfold twilightUnload
  repeat' (first
    | with_reducible assumption | with_reducible apply askClear_quiet | with_reducible apply alignReel_quiet
    | with_reducible apply unloadSteps_quiet | with_reducible apply unlock_quiet | split | dsimp only
    | fail_if_no_progress (with_reducible refine Quiet.upd ?_ rfl))

theorem libraryS_quiet {s₀ s : State} (h : Quiet s₀ s) (code seq : Nat) (w : LibWorld) : Quiet s₀ (libraryS s code seq w) := by
  unfold libraryS
  repeat' (first
    | with_reducible assumption | with_reducible apply libRequest_quiet | with_reducible apply twilightUnload_quiet | intro _ _)

end Sys2Proof.Laws
end

