-- ==== Sys2Proof/Laws/Frame4.lean ====
section
/-! SUPPORT. The frame of every operation of Time, Lodestar, Pair, Firmware, Access, Can: it keeps the waiting commands, the
model's time and staging memory, and only adds to the outputs. Each lemma is used by its name, not by unfolding the operation. -/

namespace Sys2Proof.Laws

open Sys2Proof Sys2Proof.Machine

set_option linter.unusedVariables false

/-! ## Time -/

theorem stepBy_quiet {s₀ s : State} (h : Quiet s₀ s) (d : Int) : Quiet s₀ (stepBy s d) := by
  unfold stepBy
  extract_lets t r1 s1 r2
  have h_s1 : Quiet s₀ s1 := Quiet.upd h rfl
  clear_value s1
  exact Quiet.upd h_s1 rfl

theorem trimBy_quiet {s₀ s : State} (h : Quiet s₀ s) (d : Int) : Quiet s₀ (trimBy s d) := by
  unfold trimBy
  repeat' (first | with_reducible assumption | fail_if_no_progress (with_reducible refine Quiet.upd ?_ rfl))

theorem correct_quiet {s₀ s : State} (h : Quiet s₀ s) (d : Int) : Quiet s₀ (correct s d) := by
  unfold correct
  repeat' (first
    | with_reducible assumption | with_reducible apply stepBy_quiet | with_reducible apply trimBy_quiet | split
    | fail_if_no_progress (with_reducible refine Quiet.upd ?_ rfl))

theorem setMeridianOp_quiet {s₀ s : State} (h : Quiet s₀ s) (ns : BitVec 64) : Quiet s₀ (setMeridianOp s ns).1 := by
  unfold setMeridianOp
  repeat' (first
    | with_reducible assumption | with_reducible apply stepBy_quiet | split
    | fail_if_no_progress (with_reducible refine Quiet.upd ?_ rfl))

theorem ppsInEdgeS_quiet {s₀ s : State} (h : Quiet s₀ s) : Quiet s₀ (ppsInEdgeS s) := by
  unfold ppsInEdgeS
  extract_lets t off early free r0 s1 r2 r3
  have h_s1 : Quiet s₀ s1 := Quiet.upd h rfl
  clear_value s1
  repeat' (first
    | with_reducible assumption | with_reducible apply correct_quiet | split
    | fail_if_no_progress (with_reducible refine Quiet.upd ?_ rfl))

theorem takeTime_quiet {s₀ s : State} (h : Quiet s₀ s) (t off : Int) : Quiet s₀ (takeTime s t off) := by
  unfold takeTime
  repeat' (first
    | with_reducible assumption | with_reducible apply correct_quiet | with_reducible apply stepBy_quiet | split | dsimp only
    | fail_if_no_progress (with_reducible refine Quiet.upd ?_ rfl))

/-! ## Lodestar -/

theorem endSession_quiet {s₀ s : State} (h : Quiet s₀ s) : Quiet s₀ (endSession s) := by
  unfold endSession
  repeat' (first
    | with_reducible assumption | with_reducible apply emit_quiet | split | dsimp only
    | fail_if_no_progress (with_reducible refine Quiet.upd ?_ rfl))

theorem twilightCmd_quiet {s₀ s : State} (h : Quiet s₀ s) (id : Nat) : Quiet s₀ (twilightCmd s id) := by
  unfold twilightCmd
  repeat' (first
    | with_reducible assumption | with_reducible apply sweepCmd_quiet | with_reducible apply failFrom_quiet
    | with_reducible apply endWrite_quiet | with_reducible apply finishRead_quiet | with_reducible apply finishSt_quiet | split)

theorem twilightWaits_quiet {s₀ s : State} (h : Quiet s₀ s) : Quiet s₀ (twilightWaits s) := by
  unfold twilightWaits
  repeat' (first
    | with_reducible assumption | with_reducible apply finishId_quiet | with_reducible apply Quiet.foldl | intro _ _ _
    | fail_if_no_progress (with_reducible refine Quiet.upd ?_ rfl))

theorem enterTwilight_quiet {s₀ s : State} (h : Quiet s₀ s) (cause : Nat) : Quiet s₀ (enterTwilight s cause) := by
  unfold enterTwilight
  repeat' (first
    | with_reducible assumption | with_reducible apply endSession_quiet | with_reducible apply faultRec_quiet
    | with_reducible apply mediaDone_quiet | with_reducible apply unlock_quiet | with_reducible apply twilightCmd_quiet
    | with_reducible apply dropSealed_quiet | with_reducible apply releaseAll_quiet | with_reducible apply endRun_quiet
    | with_reducible apply endPass_quiet | with_reducible apply setIstat_quiet | with_reducible apply queueEvent_quiet
    | with_reducible apply twilightWaits_quiet | with_reducible apply Quiet.foldl | with_reducible apply Quiet.foldl_fst
    | with_reducible apply Quiet.foldl_snd | intro _ _ _ | intro _ _ | split | dsimp only
    | fail_if_no_progress (with_reducible refine Quiet.upd ?_ rfl))

theorem abortUsdo_quiet {s₀ s : State} (h : Quiet s₀ s) (abort : Nat) : Quiet s₀ (abortUsdo s abort) := by
  unfold abortUsdo
  repeat' (first
    | with_reducible assumption | with_reducible apply emit_quiet | with_reducible apply Quiet.foldl | intro _ _ _
    | fail_if_no_progress (with_reducible refine Quiet.upd ?_ rfl))

theorem beginRestart_quiet {s₀ s : State} (h : Quiet s₀ s) : Quiet s₀ (beginRestart s) := by
  unfold beginRestart
  repeat' (first
    | with_reducible assumption | with_reducible apply setIstat_quiet | with_reducible apply abortUsdo_quiet
    | with_reducible apply endSession_quiet | with_reducible apply enterStop_quiet | with_reducible apply keepRun_quiet
    | with_reducible apply cutPass_quiet | split | dsimp only | fail_if_no_progress (with_reducible refine Quiet.upd ?_ rfl))

theorem lodestarFailed_quiet {s₀ s : State} (h : Quiet s₀ s) (fcode : Nat) : Quiet s₀ (lodestarFailed s fcode) := by
  unfold lodestarFailed
  repeat' (first
    | with_reducible assumption | with_reducible apply faultRec_quiet | with_reducible apply enterTwilight_quiet
    | with_reducible apply beginRestart_quiet | split | dsimp only | fail_if_no_progress (with_reducible refine Quiet.upd ?_ rfl))

theorem modBoot_quiet {s₀ s : State} (h : Quiet s₀ s) (b : Bool) (f : Slot → Slot) : Quiet s₀ (modBoot s b f) := by
  unfold modBoot
  repeat' (first | with_reducible assumption | split | fail_if_no_progress (with_reducible refine Quiet.upd ?_ rfl))

theorem trialFailed_quiet {s₀ s : State} (h : Quiet s₀ s) (b : Bool) : Quiet s₀ (trialFailed s b) := by
  unfold trialFailed
  repeat' (first | with_reducible assumption | fail_if_no_progress (with_reducible refine Quiet.upd ?_ rfl))

theorem bootRom_quiet {s₀ s : State} (h : Quiet s₀ s) (w : BootWorld) : Quiet s₀ (bootRom s w).1 := by
  unfold bootRom
  repeat' (first
    | with_reducible assumption | with_reducible apply trialFailed_quiet | split
    | fail_if_no_progress (with_reducible refine Quiet.upd ?_ rfl))

theorem loadBank_quiet {s₀ s : State} (h : Quiet s₀ s) (keep : Bool) : Quiet s₀ (loadBank s keep) := by
  unfold loadBank
  repeat' (first | with_reducible assumption | fail_if_no_progress (with_reducible refine Quiet.upd ?_ rfl))

theorem settleTrial_quiet {s₀ s : State} (h : Quiet s₀ s) (w : BootWorld) (b : Bool) : Quiet s₀ (settleTrial s w b) := by
  unfold settleTrial
  repeat' (first
    | with_reducible assumption | with_reducible apply modBoot_quiet | with_reducible apply queueEvent_quiet
    | with_reducible apply loadBank_quiet | split | dsimp only | fail_if_no_progress (with_reducible refine Quiet.upd ?_ rfl))

theorem reportFallback_quiet {s₀ s : State} (h : Quiet s₀ s) : Quiet s₀ (reportFallback s) := by
  unfold reportFallback
  repeat' (first
    | with_reducible assumption | with_reducible apply queueEvent_quiet | split
    | fail_if_no_progress (with_reducible refine Quiet.upd ?_ rfl))

theorem applyJournal_quiet {s₀ s : State} (h : Quiet s₀ s) : Quiet s₀ (applyJournal s) := by
  unfold applyJournal
  repeat' (first
    | with_reducible assumption | with_reducible apply addExtents_quiet | with_reducible apply Quiet.foldl | intro _ _ _
    | fail_if_no_progress (with_reducible refine Quiet.upd ?_ rfl))

theorem peerVerified_quiet {s₀ s : State} (h : Quiet s₀ s) (p : Nat) (st : StreamId) (v i : Nat) :
    Quiet s₀ (peerVerified s p st v i) := by
  unfold peerVerified
  repeat' (first
    | with_reducible assumption | with_reducible apply settleWrite_quiet | with_reducible apply modCmd_quiet | split | dsimp only
    | fail_if_no_progress (with_reducible refine Quiet.upd ?_ rfl))

theorem finishRestart_quiet {s₀ s : State} (h : Quiet s₀ s) : Quiet s₀ (finishRestart s) := by
  unfold finishRestart
  repeat' (first
    | with_reducible assumption | with_reducible apply applyJournal_quiet | with_reducible apply ringAdd_quiet
    | with_reducible apply queueNow_quiet | with_reducible apply queueEvent_quiet | with_reducible apply judgeCurve_quiet
    | with_reducible apply reportFallback_quiet | with_reducible apply setIstat_quiet | with_reducible apply peerVerified_quiet
    | with_reducible apply resumeLadders_quiet | with_reducible apply Quiet.foldl | intro _ _ _ | split | dsimp only
    | fail_if_no_progress (with_reducible refine Quiet.upd ?_ rfl))

theorem lodestarRestartCompleteS_quiet {s₀ s : State} (h : Quiet s₀ s) (w : BootWorld) : Quiet s₀ (lodestarRestartCompleteS s w) := by
  unfold lodestarRestartCompleteS
  repeat' (first
    | with_reducible assumption | with_reducible apply finishRestart_quiet | with_reducible apply bootRom_quiet
    | with_reducible apply settleTrial_quiet | with_reducible apply enterTwilight_quiet | split | dsimp only
    | fail_if_no_progress (with_reducible refine Quiet.upd ?_ rfl))

/-! ## Pair -/

theorem acknowledge_quiet {s₀ s : State} (h : Quiet s₀ s) (ack : Nat) : Quiet s₀ (acknowledge s ack) := by
  unfold acknowledge
  repeat' (first
    | with_reducible assumption | with_reducible apply release_quiet | with_reducible apply Quiet.foldl
    | with_reducible apply Quiet.foldl_fst | with_reducible apply Quiet.foldl_snd | intro _ _ _ | intro _ _ | dsimp only
    | fail_if_no_progress (with_reducible refine Quiet.upd ?_ rfl))

theorem idleFlitS_quiet {s₀ s : State} (h : Quiet s₀ s) (ack : Nat) : Quiet s₀ (idleFlitS s ack) := by
  unfold idleFlitS
  repeat' (first | with_reducible assumption | with_reducible apply pumpLink_quiet | with_reducible apply acknowledge_quiet)

theorem dropLink_quiet {s₀ s : State} (h : Quiet s₀ s) : Quiet s₀ (dropLink s) := by
  unfold dropLink
  repeat' (first
    | with_reducible assumption | with_reducible apply release_quiet | with_reducible apply Quiet.foldl | intro _ _ _
    | fail_if_no_progress (with_reducible refine Quiet.upd ?_ rfl))

theorem takeOver_quiet {s₀ s : State} (h : Quiet s₀ s) : Quiet s₀ (takeOver s) := by
  unfold takeOver
  repeat' (first
    | with_reducible assumption | with_reducible apply roleEvent_quiet | with_reducible apply emit_quiet
    | with_reducible apply discardMirror_quiet | with_reducible apply openForMarkers_quiet | with_reducible apply commitReady_quiet
    | with_reducible apply checkExhausted_quiet | with_reducible apply Quiet.foldl | intro _ _ _
    | fail_if_no_progress (with_reducible refine Quiet.upd ?_ rfl))

theorem losePeer_quiet {s₀ s : State} (h : Quiet s₀ s) : Quiet s₀ (losePeer s) := by
  unfold losePeer
  repeat' (first
    | with_reducible assumption | with_reducible apply freezeMarks_quiet | with_reducible apply settleWrite_quiet
    | with_reducible apply queueEvent_quiet | with_reducible apply takeOver_quiet | with_reducible apply Quiet.foldl | intro _ _ _
    | split | dsimp only | fail_if_no_progress (with_reducible refine Quiet.upd ?_ rfl))

theorem endPairWrites_quiet {s₀ s : State} (h : Quiet s₀ s) (st : Nat) : Quiet s₀ (endPairWrites s st) := by
  unfold endPairWrites
  repeat' (first | with_reducible assumption | with_reducible apply endWrite_quiet | with_reducible apply Quiet.foldl | intro _ _ _)

theorem answerOp_quiet {s₀ s : State} (h : Quiet s₀ s) (st : Nat) : Quiet s₀ (answerOp s st) := by
  unfold answerOp
  repeat' (first | with_reducible assumption | split | fail_if_no_progress (with_reducible refine Quiet.upd ?_ rfl))

theorem pairRstInS_quiet {s₀ s : State} (h : Quiet s₀ s) : Quiet s₀ (pairRstInS s) := by
  unfold pairRstInS
  repeat' (first
    | with_reducible assumption | with_reducible apply answerOp_quiet | with_reducible apply endPairWrites_quiet
    | with_reducible apply freezeMarks_quiet | with_reducible apply release_quiet | with_reducible apply Quiet.foldl | intro _ _ _
    | split | fail_if_no_progress (with_reducible refine Quiet.upd ?_ rfl))

theorem pairFormationS_quiet {s₀ s : State} (h : Quiet s₀ s) (i : PeerInfo) : Quiet s₀ (pairFormationS s i) := by
  unfold pairFormationS
  repeat' (first
    | with_reducible assumption | with_reducible apply comparePair_quiet | with_reducible apply setRole_quiet
    | with_reducible apply plSend_quiet | with_reducible apply markDiverged_quiet | split
    | fail_if_no_progress (with_reducible refine Quiet.upd ?_ rfl))

theorem adoptRole_quiet {s₀ s : State} (h : Quiet s₀ s) (role epoch : Nat) : Quiet s₀ (adoptRole s role epoch) := by
  unfold adoptRole
  repeat' (first
    | with_reducible assumption | with_reducible apply losePeer_quiet | with_reducible apply setRole_quiet
    | with_reducible apply markDiverged_quiet | split | fail_if_no_progress (with_reducible refine Quiet.upd ?_ rfl))

theorem received_quiet {s₀ s : State} (h : Quiet s₀ s) (flit ack : Nat) : Quiet s₀ (received s flit ack) := by
  unfold received
  repeat' (first
    | with_reducible assumption | with_reducible apply idleFlitS_quiet | dsimp only
    | fail_if_no_progress (with_reducible refine Quiet.upd ?_ rfl))

theorem endRejectedOp_quiet {s₀ s : State} (h : Quiet s₀ s) (rejected : Nat) : Quiet s₀ (endRejectedOp s rejected) := by
  unfold endRejectedOp
  repeat' (first | with_reducible assumption | with_reducible apply answerOp_quiet | split)

theorem endRejected_quiet {s₀ s : State} (h : Quiet s₀ s) (rejected : Nat) : Quiet s₀ (endRejected s rejected) := by
  unfold endRejected
  repeat' (first
    | with_reducible assumption | with_reducible apply endWrite_quiet | with_reducible apply endRejectedOp_quiet
    | with_reducible apply Quiet.foldl | with_reducible apply Quiet.foldl_fst | with_reducible apply Quiet.foldl_snd
    | intro _ _ _ | intro _ _ | split | dsimp only | fail_if_no_progress (with_reducible refine Quiet.upd ?_ rfl))

theorem sendIdle_quiet {s₀ s : State} (h : Quiet s₀ s) : Quiet s₀ (sendIdle s) := by
  unfold sendIdle
  repeat' (first | with_reducible assumption | with_reducible apply emit_quiet | split)

theorem acceptMsg_quiet {s₀ s : State} (h : Quiet s₀ s) (h1 : MsgHead) {k : State → State}
    (hk : ∀ t, Quiet s₀ t → Quiet s₀ (k t)) : Quiet s₀ (acceptMsg s h1 k) := by
  unfold acceptMsg
  repeat' (first
    | with_reducible assumption | with_reducible apply hk | with_reducible apply received_quiet | with_reducible apply sendIdle_quiet
    | with_reducible apply plSend_quiet | with_reducible apply adoptRole_quiet | split | dsimp only
    | fail_if_no_progress (with_reducible refine Quiet.upd ?_ rfl))

theorem heartbeatS_quiet {s₀ s : State} (h : Quiet s₀ s) (b : HbBody) : Quiet s₀ (heartbeatS s b) := by
  unfold heartbeatS
  repeat' (first
    | with_reducible assumption | with_reducible apply losePeer_quiet | with_reducible apply breakPair_quiet
    | with_reducible apply catchUp_quiet | split | dsimp only | fail_if_no_progress (with_reducible refine Quiet.upd ?_ rfl))

theorem recordMirrorS_quiet {s₀ s : State} (h : Quiet s₀ s) (id : Nat) : Quiet s₀ (recordMirrorS s id) := by
  unfold recordMirrorS
  repeat' (first
    | with_reducible assumption | with_reducible apply holdForPeer_quiet | with_reducible apply plSend_quiet
    | with_reducible apply modRec_quiet | split | dsimp only | fail_if_no_progress (with_reducible refine Quiet.upd ?_ rfl))

theorem mirrorPut_quiet {s₀ s : State} (h : Quiet s₀ s) (p : Nat) (st : StreamId) (v i : Nat) (f : MirrorPiece → MirrorPiece) :
    Quiet s₀ (mirrorPut s p st v i f) := by
  unfold mirrorPut
  repeat' (first | with_reducible assumption | split | dsimp only | fail_if_no_progress (with_reducible refine Quiet.upd ?_ rfl))

theorem recordS_quiet {s₀ s : State} (h : Quiet s₀ s) (p : Nat) (r : Rec) : Quiet s₀ (recordS s p r) := by
  unfold recordS
  repeat' (first
    | with_reducible assumption | with_reducible apply takeMirrors_quiet | with_reducible apply mirrorPut_quiet
    | with_reducible apply received_quiet | with_reducible apply modPart_quiet | split | dsimp only
    | fail_if_no_progress (with_reducible refine Quiet.upd ?_ rfl))

theorem pieceCommitS_quiet {s₀ s : State} (h : Quiet s₀ s) (p : Nat) (st : StreamId) (v i n : Nat) :
    Quiet s₀ (pieceCommitS s p st v i n) := by
  unfold pieceCommitS
  repeat' (first
    | with_reducible assumption | with_reducible apply mirrorPut_quiet | with_reducible apply openForMarkers_quiet
    | with_reducible apply discardMirror_quiet | split | dsimp only)

theorem partitionOpS_quiet {s₀ s : State} (h : Quiet s₀ s) (seq : Nat) (sqe : SqeBits) : Quiet s₀ (partitionOpS s seq sqe) := by
  unfold partitionOpS
  repeat' (first
    | with_reducible assumption | with_reducible apply plSend_quiet | with_reducible apply createS_quiet
    | with_reducible apply wake_quiet | with_reducible apply deleteStart_quiet | split)

theorem withdrawS_quiet {s₀ s : State} (h : Quiet s₀ s) (path : Path) : Quiet s₀ (withdrawS s path) := by
  unfold withdrawS
  repeat' (first
    | with_reducible assumption | with_reducible apply modPart_quiet | with_reducible apply wantCheckpoint_quiet
    | with_reducible apply Quiet.foldl | intro _ _ _ | split | fail_if_no_progress (with_reducible refine Quiet.upd ?_ rfl))

theorem timeExchS_quiet {s₀ s : State} (h : Quiet s₀ s) (t1 t2 t3 : Nat) : Quiet s₀ (timeExchS s t1 t2 t3) := by
  unfold timeExchS
  repeat' (first
    | with_reducible assumption | with_reducible apply plSend_quiet | with_reducible apply stepBy_quiet
    | with_reducible apply trimBy_quiet | split | dsimp only | fail_if_no_progress (with_reducible refine Quiet.upd ?_ rfl))

/-! ## Firmware -/

theorem seeVbus_quiet {s₀ s : State} (h : Quiet s₀ s) (p : Path) : Quiet s₀ (seeVbus s p) := by
  unfold seeVbus
  repeat' (first | with_reducible assumption | split | fail_if_no_progress (with_reducible refine Quiet.upd ?_ rfl))

theorem imageDownloadOp_quiet {s₀ s : State} (h : Quiet s₀ s) (p : Path) (bs : List Byte) : Quiet s₀ (imageDownloadOp s p bs).1 := by
  unfold imageDownloadOp
  repeat' (first | with_reducible assumption | split | fail_if_no_progress (with_reducible refine Quiet.upd ?_ rfl))

theorem claimSlot_quiet {s₀ s : State} (h : Quiet s₀ s) (source : Nat) (bs : List Byte) : Quiet s₀ (claimSlot s source bs).1 := by
  unfold claimSlot
  repeat' (first
    | with_reducible assumption | with_reducible apply queueEvent_quiet | split | dsimp only
    | fail_if_no_progress (with_reducible refine Quiet.upd ?_ rfl))

theorem sendImages_quiet {s₀ s : State} (h : Quiet s₀ s) (payloads : List (List Byte)) : Quiet s₀ (sendImages s payloads) := by
  unfold sendImages
  repeat' (first
    | with_reducible assumption | with_reducible apply pumpLink_quiet | dsimp only
    | fail_if_no_progress (with_reducible refine Quiet.upd ?_ rfl))

theorem propagateOp_quiet {s₀ s : State} (h : Quiet s₀ s) (a : PropAnswer) : Quiet s₀ (propagateOp s a).1 := by
  unfold propagateOp
  repeat' (first
    | with_reducible assumption | with_reducible apply sendImages_quiet | split | dsimp only
    | fail_if_no_progress (with_reducible refine Quiet.upd ?_ rfl))

theorem putTime_quiet {s₀ s : State} (h : Quiet s₀ s) (v : Nat) : Quiet s₀ (putTime s v) := by
  unfold putTime
  repeat' (first | with_reducible assumption | with_reducible apply odPut_quiet | split)

theorem cancelOp_quiet {s₀ s : State} (h : Quiet s₀ s) : Quiet s₀ (cancelOp s).1 := by
  unfold cancelOp
  repeat' (first
    | with_reducible assumption | with_reducible apply putTime_quiet | with_reducible apply modBoot_quiet | split
    | fail_if_no_progress (with_reducible refine Quiet.upd ?_ rfl))

theorem activationTimeOp_quiet {s₀ s : State} (h : Quiet s₀ s) (ns : Nat) : Quiet s₀ (activationTimeOp s ns).1 := by
  unfold activationTimeOp
  repeat' (first
    | with_reducible assumption | with_reducible apply putTime_quiet | split
    | fail_if_no_progress (with_reducible refine Quiet.upd ?_ rfl))

theorem challengeOp_quiet {s₀ s : State} (h : Quiet s₀ s) : Quiet s₀ (challengeOp s).1 := by
  unfold challengeOp
  repeat' (first
    | with_reducible assumption | with_reducible apply freshFree_quiet | fail_if_no_progress (with_reducible refine Quiet.upd ?_ rfl))

theorem unlockFails_quiet {s₀ s : State} (h : Quiet s₀ s) : Quiet s₀ (unlockFails s) := by
  unfold unlockFails
  repeat' (first | with_reducible assumption | split | dsimp only | fail_if_no_progress (with_reducible refine Quiet.upd ?_ rfl))

theorem openSession_quiet {s₀ s : State} (h : Quiet s₀ s) (kind seconds : Nat) : Quiet s₀ (openSession s kind seconds) := by
  unfold openSession
  repeat' (first | with_reducible assumption | fail_if_no_progress (with_reducible refine Quiet.upd ?_ rfl))

theorem responseOp_quiet {s₀ s : State} (h : Quiet s₀ s) (p : Path) (seconds : Nat) (sig : List Byte) :
    Quiet s₀ (responseOp s p seconds sig).1 := by
  unfold responseOp
  repeat' (first
    | with_reducible assumption | with_reducible apply openSession_quiet | with_reducible apply unlockFails_quiet | split
    | fail_if_no_progress (with_reducible refine Quiet.upd ?_ rfl))

theorem passwordOp_quiet {s₀ s : State} (h : Quiet s₀ s) (p : Path) (chars : List Byte) : Quiet s₀ (passwordOp s p chars).1 := by
  unfold passwordOp
  repeat' (first | with_reducible assumption | with_reducible apply openSession_quiet | with_reducible apply unlockFails_quiet | split)

theorem setPasswordOp_quiet {s₀ s : State} (h : Quiet s₀ s) (p : Path) (chars : List Byte) : Quiet s₀ (setPasswordOp s p chars).1 := by
  unfold setPasswordOp
  repeat' (first
    | with_reducible assumption | with_reducible apply freshFree_quiet | split
    | fail_if_no_progress (with_reducible refine Quiet.upd ?_ rfl))

theorem kekImportOp_quiet {s₀ s : State} (h : Quiet s₀ s) (p : Path) (n : Nat) (blob : List Byte) :
    Quiet s₀ (kekImportOp s p n blob).1 := by
  unfold kekImportOp
  repeat' (first | with_reducible assumption | split | fail_if_no_progress (with_reducible refine Quiet.upd ?_ rfl))

theorem kekRemoveOp_quiet {s₀ s : State} (h : Quiet s₀ s) (n : Nat) : Quiet s₀ (kekRemoveOp s n).1 := by
  unfold kekRemoveOp
  repeat' (first | with_reducible assumption | split | fail_if_no_progress (with_reducible refine Quiet.upd ?_ rfl))

theorem clearLanesOp_quiet {s₀ s : State} (h : Quiet s₀ s) (mask : BitVec 64) : Quiet s₀ (clearLanesOp s mask).1 := by
  unfold clearLanesOp
  repeat' (first | with_reducible assumption | split | dsimp only | fail_if_no_progress (with_reducible refine Quiet.upd ?_ rfl))

theorem clearFrontEndsOp_quiet {s₀ s : State} (h : Quiet s₀ s) (module : Nat) (mask : BitVec 64) :
    Quiet s₀ (clearFrontEndsOp s module mask).1 := by
  unfold clearFrontEndsOp
  repeat' (first | with_reducible assumption | split | fail_if_no_progress (with_reducible refine Quiet.upd ?_ rfl))

theorem clearServoOp_quiet {s₀ s : State} (h : Quiet s₀ s) (mask : BitVec 8) : Quiet s₀ (clearServoOp s mask).1 := by
  unfold clearServoOp
  repeat' (first | with_reducible assumption | split | fail_if_no_progress (with_reducible refine Quiet.upd ?_ rfl))

/-! ## Access -/

theorem odRead_quiet {s₀ s : State} (h : Quiet s₀ s) (idx sub : Nat) : Quiet s₀ (odRead s idx sub).1 := by
  unfold odRead
  repeat' (first | with_reducible assumption | with_reducible apply challengeOp_quiet | split)

theorem restoreOp_quiet {s₀ s : State} (h : Quiet s₀ s) (sub v : Nat) : Quiet s₀ (restoreOp s sub v).1 := by
  unfold restoreOp
  repeat' (first | with_reducible assumption | split | fail_if_no_progress (with_reducible refine Quiet.upd ?_ rfl))

theorem odStore_quiet {s₀ s : State} (h : Quiet s₀ s) (idx sub : Nat) (e : OdEntry) (bs : List Byte) :
    Quiet s₀ (odStore s idx sub e bs).1 := by
  unfold odStore
  repeat' (first | with_reducible assumption | with_reducible apply odPut_quiet | split)

theorem odEffect_quiet {s₀ s : State} (h : Quiet s₀ s) (p : Path) (idx sub : Nat) (e : OdEntry) (bs : List Byte) (w : CmdWorld) :
    Quiet s₀ (odEffect s p idx sub e bs w).1 := by
  unfold odEffect
  repeat' (first
    | with_reducible assumption | with_reducible apply restoreOp_quiet | with_reducible apply libraryS_quiet
    | with_reducible apply imageDownloadOp_quiet | with_reducible apply cancelOp_quiet | with_reducible apply activationTimeOp_quiet
    | with_reducible apply propagateOp_quiet | with_reducible apply responseOp_quiet | with_reducible apply passwordOp_quiet
    | with_reducible apply setPasswordOp_quiet | with_reducible apply endSession_quiet | with_reducible apply kekImportOp_quiet
    | with_reducible apply kekRemoveOp_quiet | with_reducible apply clearLanesOp_quiet | with_reducible apply clearFrontEndsOp_quiet
    | with_reducible apply clearServoOp_quiet | with_reducible apply takeOver_quiet | with_reducible apply withdrawS_quiet
    | with_reducible apply setMeridianOp_quiet | with_reducible apply odStore_quiet | split
    | fail_if_no_progress (with_reducible refine Quiet.upd ?_ rfl))

theorem odWrite_quiet {s₀ s : State} (h : Quiet s₀ s) (p : Path) (idx sub : Nat) (bs : List Byte) (w : CmdWorld) :
    Quiet s₀ (odWrite s p idx sub bs w).1 := by
  unfold odWrite
  repeat' (first | with_reducible assumption | with_reducible apply odEffect_quiet | split)

/-! ## Can -/

theorem busCounters_quiet {s₀ s : State} (h : Quiet s₀ s) (tec rcv : Nat) : Quiet s₀ (busCounters s tec rcv) := by
  unfold busCounters
  repeat' (first | with_reducible assumption | fail_if_no_progress (with_reducible refine Quiet.upd ?_ rfl))

theorem sendFrame_quiet {s₀ s : State} (h : Quiet s₀ s) (cob : Nat) (bs : List Byte) (tec rcv : Nat) :
    Quiet s₀ (sendFrame s cob bs tec rcv) := by
  unfold sendFrame
  repeat' (first
    | with_reducible assumption | with_reducible apply busCounters_quiet | with_reducible apply emit_quiet | split | dsimp only)

theorem reloadComm_quiet {s₀ s : State} (h : Quiet s₀ s) : Quiet s₀ (reloadComm s) := by
  unfold reloadComm
  repeat' (first | with_reducible assumption | fail_if_no_progress (with_reducible refine Quiet.upd ?_ rfl))

theorem fiReset_quiet {s₀ s : State} (h : Quiet s₀ s) (pins : BitVec 3) : Quiet s₀ (fiReset s pins) := by
  unfold fiReset
  repeat' (first
    | with_reducible assumption | with_reducible apply reloadComm_quiet | with_reducible apply emit_quiet | split | dsimp only
    | fail_if_no_progress (with_reducible refine Quiet.upd ?_ rfl))

theorem nmtSet_quiet {s₀ s : State} (h : Quiet s₀ s) (n : Nat) : Quiet s₀ (nmtSet s n) := by
  unfold nmtSet
  repeat' (first | with_reducible assumption | split | fail_if_no_progress (with_reducible refine Quiet.upd ?_ rfl))

theorem canHeartbeatS_quiet {s₀ s : State} (h : Quiet s₀ s) (tec rcv : Nat) : Quiet s₀ (canHeartbeatS s tec rcv) := by
  unfold canHeartbeatS
  repeat' (first
    | with_reducible assumption | with_reducible apply sendFrame_quiet | split | dsimp only
    | fail_if_no_progress (with_reducible refine Quiet.upd ?_ rfl))

theorem emcySendS_quiet {s₀ s : State} (h : Quiet s₀ s) (tec rcv : Nat) : Quiet s₀ (emcySendS s tec rcv) := by
  unfold emcySendS
  repeat' (first
    | with_reducible assumption | with_reducible apply busCounters_quiet | with_reducible apply emit_quiet | split | dsimp only
    | fail_if_no_progress (with_reducible refine Quiet.upd ?_ rfl))

theorem tpdoSendS_quiet {s₀ s : State} (h : Quiet s₀ s) (n tec rcv : Nat) : Quiet s₀ (tpdoSendS s n tec rcv) := by
  unfold tpdoSendS
  repeat' (first
    | with_reducible assumption | with_reducible apply sendFrame_quiet | split | dsimp only
    | fail_if_no_progress (with_reducible refine Quiet.upd ?_ rfl))

theorem usdoReply_quiet {s₀ s : State} (h : Quiet s₀ s) (p : Path) (client abort : Nat) (bs : List Byte) :
    Quiet s₀ (usdoReply s p client abort bs) := by
  unfold usdoReply
  repeat' (first | with_reducible assumption | with_reducible apply emit_quiet)

theorem closeSession_quiet {s₀ s : State} (h : Quiet s₀ s) (k : Nat) : Quiet s₀ (closeSession s k) := by
  unfold closeSession
  repeat' (first | with_reducible assumption | fail_if_no_progress (with_reducible refine Quiet.upd ?_ rfl))

theorem usdoFrame_quiet {s₀ s : State} (h : Quiet s₀ s) (p : Path) (client : Nat) (last : Bool) (k : State → State)
    (hk : ∀ t, Quiet s₀ t → Quiet s₀ (k t)) : Quiet s₀ (usdoFrame s p client last k) := by
  unfold usdoFrame
  repeat' (first
    | with_reducible assumption | with_reducible apply seeVbus_quiet | with_reducible apply usdoReply_quiet
    | with_reducible apply closeSession_quiet | with_reducible apply hk | split | dsimp only
    | fail_if_no_progress (with_reducible refine Quiet.upd ?_ rfl))

theorem usdoDownloadS_quiet {s₀ s : State} (h : Quiet s₀ s) (p : Path) (client idx sub : Nat) (bs : List Byte) (last : Bool)
    (w : CmdWorld) : Quiet s₀ (usdoDownloadS s p client idx sub bs last w) := by
  unfold usdoDownloadS
  repeat' (first
    | with_reducible assumption | with_reducible apply usdoFrame_quiet | with_reducible apply odWrite_quiet
    | with_reducible apply usdoReply_quiet | intro _ _ | split | dsimp only)

theorem usdoUploadS_quiet {s₀ s : State} (h : Quiet s₀ s) (p : Path) (client idx sub : Nat) (last : Bool) :
    Quiet s₀ (usdoUploadS s p client idx sub last) := by
  unfold usdoUploadS
  repeat' (first
    | with_reducible assumption | with_reducible apply usdoFrame_quiet | with_reducible apply odRead_quiet
    | with_reducible apply usdoReply_quiet | intro _ _ | split | dsimp only)

end Sys2Proof.Laws
end

