-- ==== Sys2Proof/Laws/Frame5.lean ====
section
/-! SUPPORT. The frame of every operation of Drop, Doorbell, Admin, Io, Fetch, Registers, ConfigSpace, Functions, BpmCmds,
Startup: it keeps the waiting commands, the model's time and staging memory, and only adds to the outputs. Each lemma is used by
its name, not by unfolding the operation. -/

namespace Sys2Proof.Laws

open Sys2Proof Sys2Proof.Machine

set_option linter.unusedVariables false

/-! ## Drop -/

theorem dropWrite_quiet {s₀ s : State} (h : Quiet s₀ s) (c : Cmd) : Quiet s₀ (dropWrite s c) := by
  unfold dropWrite
  repeat' (first
    | with_reducible assumption | with_reducible apply openForMarkers_quiet | with_reducible apply failPieces_quiet
    | with_reducible apply unpark_quiet | with_reducible apply modCmd_quiet | with_reducible apply sweepCmd_quiet | split | dsimp only
    | fail_if_no_progress (with_reducible refine Quiet.upd ?_ rfl))

theorem unclear_quiet {s₀ s : State} (h : Quiet s₀ s) (c : Cmd) : Quiet s₀ (unclear s c) := by
  unfold unclear
  repeat' (first | with_reducible assumption | fail_if_no_progress (with_reducible refine Quiet.upd ?_ rfl))

theorem dropOther_quiet {s₀ s : State} (h : Quiet s₀ s) (c : Cmd) : Quiet s₀ (dropOther s c) := by
  unfold dropOther
  dsimp only
  repeat' (first
    | with_reducible assumption | with_reducible apply readerOut_quiet | with_reducible apply modFn_quiet
    | with_reducible apply unclear_quiet | with_reducible apply removeCmd_quiet | split
    | fail_if_no_progress (with_reducible refine Quiet.upd ?_ rfl))

theorem dropCmds_quiet {s₀ s : State} (h : Quiet s₀ s) (p : Cmd → Bool) :
    Quiet s₀ (dropCmds s p) := by
  unfold dropCmds
  repeat' (first
    | with_reducible assumption | with_reducible apply dropOther_quiet | with_reducible apply dropWrite_quiet
    | with_reducible apply retryHeld_quiet | with_reducible apply Quiet.foldl | with_reducible apply Quiet.foldl_fst
    | with_reducible apply Quiet.foldl_snd | intro _ _ _ | intro _ _ | split | dsimp only
    | fail_if_no_progress (with_reducible refine Quiet.upd ?_ rfl))

theorem dropQueue_quiet {s₀ s : State} (h : Quiet s₀ s) (g : Nat) : Quiet s₀ (dropQueue s g) := by
  unfold dropQueue
  repeat' (first | with_reducible assumption | with_reducible apply dropCmds_quiet)

theorem disableFn_quiet {s₀ s : State} (h : Quiet s₀ s) (n : Nat) : Quiet s₀ (disableFn s n) := by
  unfold disableFn
  repeat' (first
    | with_reducible assumption | with_reducible apply modFn_quiet | with_reducible apply dropCmds_quiet
    | split | fail_if_no_progress (with_reducible refine Quiet.upd ?_ rfl))

/-! ## Doorbell -/

theorem dropBell_quiet {s₀ s : State} (h : Quiet s₀ s) (fn : Nat) : Quiet s₀ (dropBell s fn) := by
  unfold dropBell
  repeat' (first | with_reducible assumption | with_reducible apply modFn_quiet)

theorem sqTailS_quiet {s₀ s : State} (h : Quiet s₀ s) (fn q v : Nat) : Quiet s₀ (sqTailS s fn q v) := by
  unfold sqTailS
  repeat' (first
    | with_reducible assumption | with_reducible apply setQueue_quiet | with_reducible apply dropBell_quiet | split | dsimp only)

theorem cqHeadS_quiet {s₀ s : State} (h : Quiet s₀ s) (fn q v : Nat) : Quiet s₀ (cqHeadS s fn q v) := by
  unfold cqHeadS
  repeat' (first
    | with_reducible assumption | with_reducible apply setQueue_quiet | with_reducible apply dropBell_quiet | split | dsimp only)

theorem resumeS_quiet {s₀ s : State} (h : Quiet s₀ s) (fn q : Nat) : Quiet s₀ (resumeS s fn q) := by
  unfold resumeS
  repeat' (first | with_reducible assumption | with_reducible apply setQueue_quiet | with_reducible apply dropBell_quiet | split)

theorem queueResetS_quiet {s₀ s : State} (h : Quiet s₀ s) (fn q : Nat) : Quiet s₀ (queueResetS s fn q) := by
  unfold queueResetS
  repeat' (first
    | with_reducible assumption | with_reducible apply dropQueue_quiet | with_reducible apply setQueue_quiet
    | with_reducible apply dropBell_quiet | split)

theorem resetMarkerPostS_quiet {s₀ s : State} (h : Quiet s₀ s) (g : Nat) : Quiet s₀ (resetMarkerPostS s g) := by
  unfold resetMarkerPostS
  repeat' (first
    | with_reducible assumption | with_reducible apply freeze_quiet | with_reducible apply logError_quiet
    | with_reducible apply postCqe_quiet | with_reducible apply modQueue_quiet | split)

/-! ## Admin -/

theorem identifyS_quiet {s₀ s : State} (h : Quiet s₀ s) (c : Cmd) : Quiet s₀ (identifyS s c) := by
  unfold identifyS
  repeat' (first
    | with_reducible assumption | with_reducible apply finishSt_quiet | with_reducible apply toHost_quiet
    | with_reducible apply finishField_quiet | split)

theorem getLogS_quiet {s₀ s : State} (h : Quiet s₀ s) (c : Cmd) : Quiet s₀ (getLogS s c) := by
  unfold getLogS
  repeat' (first
    | with_reducible assumption | with_reducible apply finishField_quiet | with_reducible apply finishSt_quiet
    | with_reducible apply finish_quiet | with_reducible apply toHost_quiet | split | dsimp only)

theorem createQueueS_quiet {s₀ s : State} (h : Quiet s₀ s) (c : Cmd) : Quiet s₀ (createQueueS s c) := by
  unfold createQueueS
  repeat' (first
    | with_reducible assumption | with_reducible apply finishField_quiet | with_reducible apply finishSt_quiet | split
    | fail_if_no_progress (with_reducible refine Quiet.upd ?_ rfl))

theorem deleteQueueS_quiet {s₀ s : State} (h : Quiet s₀ s) (c : Cmd) : Quiet s₀ (deleteQueueS s c) := by
  unfold deleteQueueS
  repeat' (first
    | with_reducible assumption | with_reducible apply finishField_quiet | with_reducible apply dropQueue_quiet
    | with_reducible apply setQueue_quiet | with_reducible apply modCmd_quiet | split)

theorem assignQueuesS_quiet {s₀ s : State} (h : Quiet s₀ s) (c : Cmd) : Quiet s₀ (assignQueuesS s c) := by
  unfold assignQueuesS
  repeat' (first
    | with_reducible assumption | with_reducible apply finishField_quiet | with_reducible apply finishSt_quiet | split | dsimp only
    | fail_if_no_progress (with_reducible refine Quiet.upd ?_ rfl))

theorem setWindowsS_quiet {s₀ s : State} (h : Quiet s₀ s) (c : Cmd) : Quiet s₀ (setWindowsS s c) := by
  unfold setWindowsS
  repeat' (first
    | with_reducible assumption | with_reducible apply finishField_quiet | with_reducible apply finishSt_quiet
    | with_reducible apply modFn_quiet | split | dsimp only)

theorem setPowerS_quiet {s₀ s : State} (h : Quiet s₀ s) (c : Cmd) : Quiet s₀ (setPowerS s c) := by
  unfold setPowerS
  repeat' (first
    | with_reducible assumption | with_reducible apply finishField_quiet | with_reducible apply finish_quiet
    | with_reducible apply finishSt_quiet | with_reducible apply setPowerState_quiet | with_reducible apply modCmd_quiet | split
    | dsimp only | fail_if_no_progress (with_reducible refine Quiet.upd ?_ rfl))

theorem keyLoadS_quiet {s₀ s : State} (h : Quiet s₀ s) (c : Cmd) (data : List Byte) : Quiet s₀ (keyLoadS s c data) := by
  unfold keyLoadS
  repeat' (first
    | with_reducible assumption | with_reducible apply finishField_quiet | with_reducible apply finishSt_quiet | split | dsimp only
    | fail_if_no_progress (with_reducible refine Quiet.upd ?_ rfl))

theorem keyClearDone_quiet {s₀ s : State} (h : Quiet s₀ s) (n : Nat) : Quiet s₀ (keyClearDone s n) := by
  unfold keyClearDone
  repeat' (first
    | with_reducible assumption | with_reducible apply finishId_quiet | with_reducible apply Quiet.foldl | intro _ _ _ | split
    | fail_if_no_progress (with_reducible refine Quiet.upd ?_ rfl))

theorem keyClearS_quiet {s₀ s : State} (h : Quiet s₀ s) (c : Cmd) : Quiet s₀ (keyClearS s c) := by
  unfold keyClearS
  repeat' (first
    | with_reducible assumption | with_reducible apply finishSt_quiet | with_reducible apply modCmd_quiet
    | with_reducible apply keyClearDone_quiet | split | dsimp only | fail_if_no_progress (with_reducible refine Quiet.upd ?_ rfl))

theorem finishOd_quiet {s₀ s : State} (h : Quiet s₀ s) (c : Cmd) (o : OdOut) : Quiet s₀ (finishOd s c o) := by
  unfold finishOd
  repeat' (first | with_reducible assumption | with_reducible apply finish_quiet)

theorem odReadS_quiet {s₀ s : State} (h : Quiet s₀ s) (c : Cmd) : Quiet s₀ (odReadS s c) := by
  unfold odReadS
  repeat' (first
    | with_reducible assumption | with_reducible apply finishOd_quiet | with_reducible apply odRead_quiet
    | with_reducible apply finish_quiet | with_reducible apply toHost_quiet | split | dsimp only)

theorem odWriteS_quiet {s₀ s : State} (h : Quiet s₀ s) (c : Cmd) (data : List Byte) (w : CmdWorld) : Quiet s₀ (odWriteS s c data w) := by
  unfold odWriteS
  repeat' (first
    | with_reducible assumption | with_reducible apply odWrite_quiet | with_reducible apply finishOd_quiet | split | dsimp only)

theorem eventWaitS_quiet {s₀ s : State} (h : Quiet s₀ s) (c : Cmd) : Quiet s₀ (eventWaitS s c) := by
  unfold eventWaitS
  repeat' (first
    | with_reducible assumption | with_reducible apply finish_quiet | with_reducible apply setFn_quiet
    | with_reducible apply flushLost_quiet | with_reducible apply finishField_quiet | with_reducible apply modCmd_quiet | split
    | dsimp only)

/-! ## Io -/

theorem enterHostIndexed_quiet {s₀ s : State} (h : Quiet s₀ s) (p : Nat) : Quiet s₀ (enterHostIndexed s p) := by
  unfold enterHostIndexed
  repeat' (first | with_reducible assumption | with_reducible apply queueEvent_quiet | with_reducible apply modPart_quiet)

theorem assignVersion_quiet {s₀ s : State} (h : Quiet s₀ s) (c : Cmd) : Quiet s₀ (assignVersion s c) := by
  unfold assignVersion
  repeat' (first
    | with_reducible assumption | with_reducible apply enterHostIndexed_quiet | with_reducible apply modPart_quiet
    | with_reducible apply checkExhausted_quiet | with_reducible apply modCmd_quiet | split | dsimp only)

theorem takeLock_quiet {s₀ s : State} (h : Quiet s₀ s) (c : Cmd) : Quiet s₀ (takeLock s c) := by
  unfold takeLock
  repeat' (first | with_reducible assumption | split | dsimp only | fail_if_no_progress (with_reducible refine Quiet.upd ?_ rfl))

theorem streamStatRun_quiet {s₀ s : State} (h : Quiet s₀ s) (c : Cmd) : Quiet s₀ (streamStatRun s c) := by
  unfold streamStatRun
  repeat' (first | with_reducible assumption | with_reducible apply finish_quiet | with_reducible apply toHost_quiet)

theorem evictHint_quiet {s₀ s : State} (h : Quiet s₀ s) : Quiet s₀ (evictHint s) := by
  unfold evictHint
  repeat' (first
    | with_reducible assumption | with_reducible apply dropHint_quiet | split | dsimp only
    | fail_if_no_progress (with_reducible refine Quiet.upd ?_ rfl))

theorem addHint_quiet {s₀ s : State} (h : Quiet s₀ s) (h1 : Hint) : Quiet s₀ (addHint s h1) := by
  unfold addHint
  repeat' (first
    | with_reducible assumption | with_reducible apply evictHint_quiet | with_reducible apply joinRun_quiet | split | dsimp only
    | fail_if_no_progress (with_reducible refine Quiet.upd ?_ rfl))

theorem cancelHints_quiet {s₀ s : State} (h : Quiet s₀ s) (c : Cmd) : Quiet s₀ (cancelHints s c) := by
  unfold cancelHints
  repeat' (first
    | with_reducible assumption | with_reducible apply dropHint_quiet | with_reducible apply addHint_quiet
    | with_reducible apply Quiet.foldl | with_reducible apply Quiet.foldl_fst | with_reducible apply Quiet.foldl_snd
    | intro _ _ _ | intro _ _ | split | dsimp only | fail_if_no_progress (with_reducible refine Quiet.upd ?_ rfl))

theorem recallHintRun_quiet {s₀ s : State} (h : Quiet s₀ s) (c : Cmd) : Quiet s₀ (recallHintRun s c) := by
  unfold recallHintRun
  repeat' (first
    | with_reducible assumption | with_reducible apply cancelHints_quiet | with_reducible apply addHint_quiet
    | with_reducible apply finishSt_quiet | with_reducible apply Quiet.foldl | intro _ _ _ | split)

theorem recheckHeads_quiet {s₀ s : State} (h : Quiet s₀ s) : Quiet s₀ (recheckHeads s) := by
  unfold recheckHeads
  repeat' (first
    | with_reducible assumption | with_reducible apply headerFailed_quiet | with_reducible apply Quiet.foldl
    | with_reducible apply Quiet.foldl_fst | with_reducible apply Quiet.foldl_snd | intro _ _ _)

theorem startIo_quiet {s₀ s : State} (h : Quiet s₀ s) (id : Nat) : Quiet s₀ (startIo s id) := by
  unfold startIo
  repeat' (first
    | with_reducible assumption | with_reducible apply modCmd_quiet | with_reducible apply recheckHeads_quiet
    | with_reducible apply startRead_quiet | with_reducible apply streamStatRun_quiet
    | with_reducible apply recallHintRun_quiet | split)

theorem holdOrStart_quiet {s₀ s : State} (h : Quiet s₀ s) (id : Nat) : Quiet s₀ (holdOrStart s id) := by
  unfold holdOrStart
  repeat' (first | with_reducible assumption | with_reducible apply modCmd_quiet | with_reducible apply startIo_quiet | split)

theorem ioStart_quiet {s₀ s : State} (h : Quiet s₀ s) (c : Cmd) : Quiet s₀ (ioStart s c) := by
  unfold ioStart
  repeat' (first
    | with_reducible assumption | with_reducible apply checkExhausted_quiet | with_reducible apply finish_quiet
    | with_reducible apply assignVersion_quiet | with_reducible apply wake_quiet | with_reducible apply failWrite_quiet
    | with_reducible apply holdOrStart_quiet | with_reducible apply takeLock_quiet | split | dsimp only)

theorem barrierDone_quiet {s₀ s : State} (h : Quiet s₀ s) (g : Nat) : Quiet s₀ (barrierDone s g) := by
  unfold barrierDone
  repeat' (first
    | with_reducible assumption | with_reducible apply finishSt_quiet | with_reducible apply holdOrStart_quiet
    | with_reducible apply Quiet.foldl | intro _ _ _ | split)

theorem barrierStart_quiet {s₀ s : State} (h : Quiet s₀ s) (c : Cmd) : Quiet s₀ (barrierStart s c) := by
  unfold barrierStart
  repeat' (first
    | with_reducible assumption | with_reducible apply finish_quiet | with_reducible apply barrierDone_quiet
    | with_reducible apply modCmd_quiet | split)

/-! ## Fetch -/

theorem unassigned_quiet {s₀ s : State} (h : Quiet s₀ s) (u : Sub) : Quiet s₀ (unassigned s u) := by
  unfold unassigned
  split
  · exact admitOne_over_quiet h (by assumption)
  · exact h

theorem runSub_quiet {s₀ s : State} (h : Quiet s₀ s) (u : Sub) : Quiet s₀ (runSub s u) := by
  unfold runSub
  split <;> first
    | exact unassigned_quiet h _
    | (simp only [outState, execIdentify, execCreateQueue, execDeleteQueue, execGetLog, execSetPower, execAssignQueues, execSetWindows,
      execPartitionCreate, execPartitionDelete, execPartitionList, execMount, execUnmount, execCheckpoint, execKeyLoad, execKeyClear,
      execOdRead, execOdWrite, execEventWait, execWrite, execRead, execVerify, execBarrier, execStreamStat, execRecallHint]
       repeat' (first
         | with_reducible assumption | with_reducible apply assignQueuesS_quiet | with_reducible apply barrierStart_quiet
         | with_reducible apply checkpointS_quiet | with_reducible apply createQueueS_quiet | with_reducible apply createS_quiet
         | with_reducible apply deleteQueueS_quiet | with_reducible apply deleteStart_quiet | with_reducible apply eventWaitS_quiet
         | with_reducible apply finish_quiet | with_reducible apply finishSt_quiet | with_reducible apply forwardOp_quiet
         | with_reducible apply getLogS_quiet | with_reducible apply identifyS_quiet | with_reducible apply ioStart_quiet
         | with_reducible apply keyClearS_quiet | with_reducible apply keyLoadS_quiet | with_reducible apply modCmd_quiet
         | with_reducible apply mountS_quiet | with_reducible apply odReadS_quiet | with_reducible apply odWriteS_quiet
         | with_reducible apply runCmd_quiet | with_reducible apply setPowerS_quiet | with_reducible apply setWindowsS_quiet
         | with_reducible apply toHost_quiet | with_reducible apply unmountS_quiet | with_reducible apply wake_quiet | intro _ _ _
         | split))

theorem headAt_quiet {s₀ s : State} (h : Quiet s₀ s) (g base n : Nat) : Quiet s₀ (headAt s g base n) := by
  unfold headAt
  exact modQueue_quiet h _ _

theorem runSubs_quiet {s₀ s : State} (h : Quiet s₀ s) (g base total i : Nat) (us : List Sub) :
    Quiet s₀ (runSubs g base total i us s) := by
  induction us generalizing s i with
  | nil => exact h
  | cons u r ih =>
    unfold runSubs
    repeat' (first
      | with_reducible assumption | with_reducible apply ih | with_reducible apply headAt_quiet | with_reducible apply runSub_quiet
      | with_reducible apply modQueue_quiet | split | dsimp only)

theorem sqeFetchS_quiet {s₀ s : State} (h : Quiet s₀ s) (g : Nat) (subs : List Sub) : Quiet s₀ (sqeFetchS s g subs) := by
  unfold sqeFetchS
  repeat' (first
    | with_reducible assumption | with_reducible apply runSubs_quiet | with_reducible apply modQueue_quiet | split
    | fail_if_no_progress (with_reducible refine Quiet.upd ?_ rfl))

/-! ## Registers -/

theorem accessErrorS_quiet {s₀ s : State} (h : Quiet s₀ s) (fn : Nat) (off : BitVec 25) : Quiet s₀ (accessErrorS s fn off) := by
  unfold accessErrorS
  repeat' (first
    | with_reducible assumption | with_reducible apply modFn_quiet | with_reducible apply setIstat_quiet | split | dsimp only)

theorem readOut_quiet {s₀ s : State} (h : Quiet s₀ s) (fn off v : Nat) : Quiet s₀ (readOut s fn off v) := by
  unfold readOut
  repeat' (first | with_reducible assumption | with_reducible apply emit_quiet)

theorem latchCtr_quiet {s₀ s : State} (h : Quiet s₀ s) : Quiet s₀ (latchCtr s) := by
  unfold latchCtr
  repeat' (first | with_reducible assumption | fail_if_no_progress (with_reducible refine Quiet.upd ?_ rfl))

theorem latchTime_quiet {s₀ s : State} (h : Quiet s₀ s) : Quiet s₀ (latchTime s) := by
  unfold latchTime
  repeat' (first | with_reducible assumption | fail_if_no_progress (with_reducible refine Quiet.upd ?_ rfl))

theorem latchMir_quiet {s₀ s : State} (h : Quiet s₀ s) (fn : Nat) : Quiet s₀ (latchMir s fn) := by
  unfold latchMir
  repeat' (first | with_reducible assumption | with_reducible apply modFn_quiet)

theorem blockRead_quiet {s₀ s : State} (h : Quiet s₀ s) (blk o : Nat) : Quiet s₀ (blockRead s blk o) := by
  unfold blockRead
  repeat' (first
    | with_reducible assumption | with_reducible apply modFn_quiet | with_reducible apply setPool_quiet
    | with_reducible apply setEngine_quiet | with_reducible apply latchCtr_quiet | with_reducible apply modLane_quiet
    | with_reducible apply latchTime_quiet | split | fail_if_no_progress (with_reducible refine Quiet.upd ?_ rfl))

theorem placeRead_quiet {s₀ s : State} (h : Quiet s₀ s) (fn : Nat) (_internal_hyg0 : Place) :
    Quiet s₀ (placeRead s fn _internal_hyg0) := by
  unfold placeRead
  repeat' (first
    | with_reducible assumption | with_reducible apply blockRead_quiet | with_reducible apply modFn_quiet
    | with_reducible apply latchMir_quiet | split)

theorem readS_quiet {s₀ s : State} (h : Quiet s₀ s) (fn off : Nat) : Quiet s₀ (readS s fn off) := by
  unfold readS
  repeat' (first
    | with_reducible assumption | with_reducible apply readOut_quiet | with_reducible apply placeRead_quiet
    | with_reducible apply accessErrorS_quiet | split)

theorem enableAdmin_quiet {s₀ s : State} (h : Quiet s₀ s) (fn : Nat) : Quiet s₀ (enableAdmin s fn) := by
  unfold enableAdmin
  repeat' (first
    | with_reducible assumption | with_reducible apply modFn_quiet | split
    | fail_if_no_progress (with_reducible refine Quiet.upd ?_ rfl))

theorem aqCfgS_quiet {s₀ s : State} (h : Quiet s₀ s) (fn v : Nat) : Quiet s₀ (aqCfgS s fn v) := by
  unfold aqCfgS
  repeat' (first
    | with_reducible assumption | with_reducible apply disableFn_quiet | with_reducible apply modFn_quiet
    | with_reducible apply enableAdmin_quiet | split | dsimp only)

theorem icfgS_quiet {s₀ s : State} (h : Quiet s₀ s) (v : Nat) : Quiet s₀ (icfgS s v) := by
  unfold icfgS
  repeat' (first
    | with_reducible assumption | with_reducible apply sendVector_quiet | split | dsimp only
    | fail_if_no_progress (with_reducible refine Quiet.upd ?_ rfl))

theorem adminField_quiet {s₀ s : State} (h : Quiet s₀ s) (fn : Nat) (g : FnState → FnState) : Quiet s₀ (adminField s fn g) := by
  unfold adminField
  repeat' (first | with_reducible assumption | with_reducible apply modFn_quiet | split)

theorem glbWrite_quiet {s₀ s : State} (h : Quiet s₀ s) (fn o v : Nat) : Quiet s₀ (glbWrite s fn o v) := by
  unfold glbWrite
  repeat' (first
    | with_reducible assumption | with_reducible apply icfgS_quiet | with_reducible apply adminField_quiet
    | with_reducible apply aqCfgS_quiet | split | fail_if_no_progress (with_reducible refine Quiet.upd ?_ rfl))

theorem mbFill_quiet {s₀ s : State} (h : Quiet s₀ s) (bs : List Byte) : Quiet s₀ (mbFill s bs) := by
  unfold mbFill
  repeat' (first | with_reducible assumption | fail_if_no_progress (with_reducible refine Quiet.upd ?_ rfl))

theorem mbDone_quiet {s₀ s : State} (h : Quiet s₀ s) (st : Nat) : Quiet s₀ (mbDone s st) := by
  unfold mbDone
  repeat' (first | with_reducible assumption | fail_if_no_progress (with_reducible refine Quiet.upd ?_ rfl))

theorem mbServe_quiet {s₀ s : State} (h : Quiet s₀ s) (w : CmdWorld) : Quiet s₀ (mbServe s w) := by
  unfold mbServe
  repeat' (first
    | with_reducible assumption | with_reducible apply mbDone_quiet | with_reducible apply odWrite_quiet
    | with_reducible apply odRead_quiet | with_reducible apply mbFill_quiet | split | dsimp only)

theorem mbReqS_quiet {s₀ s : State} (h : Quiet s₀ s) (v : Nat) (w : CmdWorld) : Quiet s₀ (mbReqS s v w) := by
  unfold mbReqS
  repeat' (first
    | with_reducible assumption | with_reducible apply mbServe_quiet | split
    | fail_if_no_progress (with_reducible refine Quiet.upd ?_ rfl))

theorem lsWrite_quiet {s₀ s : State} (h : Quiet s₀ s) (o v : Nat) : Quiet s₀ (lsWrite s o v) := by
  unfold lsWrite
  repeat' (first
    | with_reducible assumption | with_reducible apply mbReqS_quiet | split
    | fail_if_no_progress (with_reducible refine Quiet.upd ?_ rfl))

theorem chopClear_quiet {s₀ s : State} (h : Quiet s₀ s) : Quiet s₀ (chopClear s) := by
  unfold chopClear
  repeat' (first | with_reducible assumption | fail_if_no_progress (with_reducible refine Quiet.upd ?_ rfl))

theorem qeWrite_quiet {s₀ s : State} (h : Quiet s₀ s) (o v : Nat) : Quiet s₀ (qeWrite s o v) := by
  unfold qeWrite
  repeat' (first
    | with_reducible assumption | with_reducible apply modFn_quiet | split
    | fail_if_no_progress (with_reducible refine Quiet.upd ?_ rfl))

theorem sessionWrite_quiet {s₀ s : State} (h : Quiet s₀ s) (blk o v : Nat) : Quiet s₀ (sessionWrite s blk o v) := by
  unfold sessionWrite
  repeat' (first
    | with_reducible assumption | with_reducible apply accessErrorS_quiet | with_reducible apply chopClear_quiet | split
    | fail_if_no_progress (with_reducible refine Quiet.upd ?_ rfl))

theorem qctlWrite_quiet {s₀ s : State} (h : Quiet s₀ s) (fn q v : Nat) : Quiet s₀ (qctlWrite s fn q v) := by
  unfold qctlWrite
  repeat' (first
    | with_reducible assumption | with_reducible apply resumeS_quiet | with_reducible apply queueResetS_quiet
    | with_reducible apply dropBell_quiet | split)

theorem bellWrite_quiet {s₀ s : State} (h : Quiet s₀ s) (fn q : Nat) (o v : Nat) : Quiet s₀ (bellWrite s fn q o v) := by
  unfold bellWrite
  repeat' (first
    | with_reducible assumption | with_reducible apply sqTailS_quiet | with_reducible apply cqHeadS_quiet
    | with_reducible apply qctlWrite_quiet | with_reducible apply setQueue_quiet | with_reducible apply dropBell_quiet | split)

theorem placeWrite_quiet {s₀ s : State} (h : Quiet s₀ s) (fn off v : Nat) (_internal_hyg0 : Place) :
    Quiet s₀ (placeWrite s fn off v _internal_hyg0) := by
  unfold placeWrite
  repeat' (first
    | with_reducible assumption | with_reducible apply glbWrite_quiet | with_reducible apply qeWrite_quiet
    | with_reducible apply sessionWrite_quiet | with_reducible apply lsWrite_quiet | with_reducible apply accessErrorS_quiet
    | with_reducible apply msixWrite_quiet | with_reducible apply bellWrite_quiet | split)

theorem writeS_quiet {s₀ s : State} (h : Quiet s₀ s) (fn off v : Nat) : Quiet s₀ (writeS s fn off v) := by
  unfold writeS
  repeat' (first | with_reducible assumption | with_reducible apply placeWrite_quiet | with_reducible apply accessErrorS_quiet | split)

/-! ## ConfigSpace -/

theorem configRequest_quiet {s₀ s : State} (h : Quiet s₀ s) (f : State → State) (hf : ∀ t, Quiet s₀ t → Quiet s₀ (f t)) :
    Quiet s₀ (configRequest s f) := by
  unfold configRequest
  repeat' (first | with_reducible assumption | with_reducible apply hf | split)

/-! ## Functions -/

theorem clearVfs_quiet {s₀ s : State} (h : Quiet s₀ s) : Quiet s₀ (clearVfs s) := by
  unfold clearVfs
  repeat' (first
    | with_reducible assumption | with_reducible apply disableFn_quiet | with_reducible apply modFn_quiet
    | with_reducible apply Quiet.foldl | intro _ _ _ | fail_if_no_progress (with_reducible refine Quiet.upd ?_ rfl))

theorem resetPf0_quiet {s₀ s : State} (h : Quiet s₀ s) : Quiet s₀ (resetPf0 s) := by
  unfold resetPf0
  repeat' (first
    | with_reducible assumption | with_reducible apply disableFn_quiet | with_reducible apply clearVfs_quiet
    | with_reducible apply modFn_quiet | fail_if_no_progress (with_reducible refine Quiet.upd ?_ rfl))

theorem readSubsystem_quiet {s₀ s : State} (h : Quiet s₀ s) : Quiet s₀ (readSubsystem s) := by
  unfold readSubsystem
  repeat' (first | with_reducible assumption | split | fail_if_no_progress (with_reducible refine Quiet.upd ?_ rfl))

/-! ## BpmCmds -/

theorem bufferAllocateS_quiet {s₀ s : State} (h : Quiet s₀ s) (p cls : Nat) (cmd : Option Nat) :
    Quiet s₀ (bufferAllocateS s p cls cmd) := by
  unfold bufferAllocateS
  repeat' (first
    | with_reducible assumption | with_reducible apply setPool_quiet | with_reducible apply allocate_quiet
    | with_reducible apply modCmd_quiet | split | dsimp only | fail_if_no_progress (with_reducible refine Quiet.upd ?_ rfl))

theorem parkedServedS_quiet {s₀ s : State} (h : Quiet s₀ s) (p : Nat) : Quiet s₀ (parkedServedS s p) := by
  unfold parkedServedS
  repeat' (first
    | with_reducible assumption | with_reducible apply setPool_quiet | with_reducible apply modCmd_quiet
    | with_reducible apply release_quiet | split | dsimp only)
  all_goals exact allocNow_quiet h (by assumption)

theorem bufferWaitS_quiet {s₀ s : State} (h : Quiet s₀ s) (p id : Nat) : Quiet s₀ (bufferWaitS s p id) := by
  unfold bufferWaitS
  repeat' (first
    | with_reducible assumption | with_reducible apply unpark_quiet | with_reducible apply setPool_quiet
    | with_reducible apply endWrite_quiet | with_reducible apply finishRead_quiet | with_reducible apply finishSt_quiet | split
    | dsimp only)

theorem losePiece_quiet {s₀ s : State} (h : Quiet s₀ s) (id i : Nat) : Quiet s₀ (losePiece s id i) := by
  unfold losePiece
  repeat' (first
    | with_reducible assumption | with_reducible apply settleWrite_quiet | with_reducible apply failPiece_quiet
    | with_reducible apply modCmd_quiet | split)

theorem loseRecs_quiet {s₀ s : State} (h : Quiet s₀ s) (p : Nat) (rs : List Rec) : Quiet s₀ (loseRecs s p rs) := by
  unfold loseRecs
  repeat' (first
    | with_reducible assumption | with_reducible apply losePiece_quiet | with_reducible apply discardMirror_quiet
    | with_reducible apply Quiet.foldl | intro _ _ _ | split)

theorem loseHost_quiet {s₀ s : State} (h : Quiet s₀ s) (h1 : BitVec 32) (a : Nat) : Quiet s₀ (loseHost s h1 a) := by
  unfold loseHost
  repeat' (first
    | with_reducible assumption | with_reducible apply losePiece_quiet | with_reducible apply Quiet.foldl
    | with_reducible apply Quiet.foldl_fst | with_reducible apply Quiet.foldl_snd | intro _ _ _ | intro _ _ | split)

theorem forgetOutputs_quiet {s₀ s : State} (h : Quiet s₀ s) (p q : Nat) : Quiet s₀ (forgetOutputs s p q) := by
  unfold forgetOutputs
  repeat' (first
    | with_reducible assumption | with_reducible apply tagTurn_quiet | with_reducible apply freeInput_quiet
    | with_reducible apply releaseAll_quiet | with_reducible apply modRead_quiet | with_reducible apply Quiet.foldl
    | fail_if_no_progress (with_reducible refine Quiet.upd ?_ rfl))

theorem reread_quiet {s₀ s : State} (h : Quiet s₀ s) (r : ReadDs) : Quiet s₀ (reread s r) := by
  unfold reread
  repeat' (first
    | with_reducible assumption | with_reducible apply forgetOutputs_quiet | with_reducible apply enterLadder_quiet
    | with_reducible apply dropRead_quiet | split)

theorem loseLlrs_quiet {s₀ s : State} (h : Quiet s₀ s) (h1 : BitVec 32) : Quiet s₀ (loseLlrs s h1) := by
  unfold loseLlrs
  repeat' (first | with_reducible assumption | fail_if_no_progress (with_reducible refine Quiet.upd ?_ rfl))

theorem rereadAll_quiet {s₀ s : State} (h : Quiet s₀ s) (h1 : BitVec 32) : Quiet s₀ (rereadAll s h1) := by
  unfold rereadAll
  repeat' (first | with_reducible assumption | with_reducible apply reread_quiet | with_reducible apply Quiet.foldl)

theorem loseStaged_quiet {s₀ s : State} (h : Quiet s₀ s) (h1 : BitVec 32) (off : Nat) : Quiet s₀ (loseStaged s h1 off) := by
  unfold loseStaged
  repeat' (first
    | with_reducible assumption | with_reducible apply loseRecs_quiet | with_reducible apply Quiet.foldl
    | with_reducible apply Quiet.foldl_fst | with_reducible apply Quiet.foldl_snd | intro _ _ _ | intro _ _ | split
    | dsimp only)

theorem loseBuffer_quiet {s₀ s : State} (h : Quiet s₀ s) (h1 : BitVec 32) (a : Nat) : Quiet s₀ (loseBuffer s h1 a) := by
  unfold loseBuffer
  repeat' (first
    | with_reducible assumption | with_reducible apply loseHost_quiet | with_reducible apply loseRecs_quiet
    | with_reducible apply loseStaged_quiet | with_reducible apply loseLlrs_quiet | with_reducible apply rereadAll_quiet
    | with_reducible apply Quiet.foldl | with_reducible apply Quiet.foldl_fst | with_reducible apply Quiet.foldl_snd
    | intro _ _ _ | intro _ _ | split)

theorem countLine_quiet {s₀ s : State} (h : Quiet s₀ s) (l : Nat) : Quiet s₀ (countLine s l) := by
  unfold countLine
  repeat' (first | with_reducible assumption | fail_if_no_progress (with_reducible refine Quiet.upd ?_ rfl))

theorem bufferLost_quiet {s₀ s : State} (h : Quiet s₀ s) (a : Nat) : Quiet s₀ (bufferLost s a) := by
  unfold bufferLost
  generalize bufferAt s a = o
  cases o with
  | none => exact h
  | some b =>
    dsimp only
    split
    · exact loseBuffer_quiet h _ _
    · exact h

theorem protectPart_quiet {s₀ s : State} (h : Quiet s₀ s) (p : Nat) : Quiet s₀ (protectPart s p) := by
  unfold protectPart
  repeat' (first
    | with_reducible assumption | with_reducible apply modPart_quiet | with_reducible apply faultProtect_quiet
    | with_reducible apply finishSt_quiet | with_reducible apply Quiet.foldl | with_reducible apply Quiet.foldl_fst
    | with_reducible apply Quiet.foldl_snd | intro _ _ _)

theorem setPoison_quiet {s₀ s : State} (h : Quiet s₀ s) (l : Nat) : Quiet s₀ (setPoison s l) := by
  unfold setPoison
  repeat' (first | with_reducible assumption | dsimp only | fail_if_no_progress (with_reducible refine Quiet.upd ?_ rfl))

theorem lineLost_quiet {s₀ s : State} (h : Quiet s₀ s) (l : Nat) (x : LineRead) : Quiet s₀ (lineLost s l x) := by
  unfold lineLost
  repeat' (first
    | with_reducible assumption | with_reducible apply setPoison_quiet | with_reducible apply countLine_quiet
    | with_reducible apply enterTwilight_quiet | with_reducible apply faultRec_quiet | with_reducible apply clearPoison_quiet
    | with_reducible apply protectPart_quiet | with_reducible apply bufferLost_quiet | split | dsimp only)

theorem scrubS_quiet {s₀ s : State} (h : Quiet s₀ s) (x : LineRead) : Quiet s₀ (scrubS s x) := by
  unfold scrubS
  repeat' (first
    | with_reducible assumption | with_reducible apply lineLost_quiet | split
    | fail_if_no_progress (with_reducible refine Quiet.upd ?_ rfl))

/-! ## Startup -/

theorem tryStart_quiet {s₀ s : State} (h : Quiet s₀ s) : Quiet s₀ (tryStart s) := by
  unfold tryStart
  repeat' (first | with_reducible assumption | split | fail_if_no_progress (with_reducible refine Quiet.upd ?_ rfl))

theorem stagePower_quiet {s₀ s : State} (h : Quiet s₀ s) (turning : Bool) : Quiet s₀ (stagePower s turning) := by
  unfold stagePower
  repeat' (first | with_reducible assumption | split | fail_if_no_progress (with_reducible refine Quiet.upd ?_ rfl))

theorem stageRom_quiet {s₀ s : State} (h : Quiet s₀ s) (w : BootWorld) : Quiet s₀ (stageRom s w) := by
  unfold stageRom
  repeat' (first
    | with_reducible assumption | with_reducible apply bootRom_quiet | with_reducible apply enterTwilight_quiet | split | dsimp only
    | fail_if_no_progress (with_reducible refine Quiet.upd ?_ rfl))

theorem stageMemory_quiet {s₀ s : State} (h : Quiet s₀ s) (ok : Bool) : Quiet s₀ (stageMemory s ok) := by
  unfold stageMemory
  repeat' (first | with_reducible assumption | with_reducible apply enterTwilight_quiet | split)

theorem rebuildCopies_quiet {s₀ s : State} (h : Quiet s₀ s) (bad : List Nat) : Quiet s₀ (rebuildCopies s bad) := by
  unfold rebuildCopies
  repeat' (first
    | with_reducible assumption | with_reducible apply setBank_quiet | with_reducible apply faultRec_quiet
    | with_reducible apply Quiet.foldl | intro _ _ _)

theorem restoreDefaults_quiet {s₀ s : State} (h : Quiet s₀ s) : Quiet s₀ (restoreDefaults s) := by
  unfold restoreDefaults
  repeat' (first
    | with_reducible assumption | with_reducible apply setBank_quiet | fail_if_no_progress (with_reducible refine Quiet.upd ?_ rfl))

theorem stageTrial_quiet {s₀ s : State} (h : Quiet s₀ s) (w : BootWorld) : Quiet s₀ (stageTrial s w) := by
  unfold stageTrial
  repeat' (first
    | with_reducible assumption | with_reducible apply settleTrial_quiet | with_reducible apply enterTwilight_quiet | split | dsimp only
    | fail_if_no_progress (with_reducible refine Quiet.upd ?_ rfl))

theorem testTg_quiet {s₀ s : State} (h : Quiet s₀ s) (fails : Bool) : Quiet s₀ (testTg s fails) := by
  unfold testTg
  repeat' (first
    | with_reducible assumption | with_reducible apply retireTg_quiet | split
    | fail_if_no_progress (with_reducible refine Quiet.upd ?_ rfl))

theorem testCx_quiet {s₀ s : State} (h : Quiet s₀ s) (fails : List Nat) : Quiet s₀ (testCx s fails) := by
  unfold testCx
  repeat' (first
    | with_reducible assumption | with_reducible apply faultRec_quiet | with_reducible apply setEngine_quiet
    | with_reducible apply enterTwilight_quiet | with_reducible apply Quiet.foldl | intro _ _ _ | split | dsimp only)

theorem resumeMeridian_quiet {s₀ s : State} (h : Quiet s₀ s) : Quiet s₀ (resumeMeridian s) := by
  unfold resumeMeridian
  repeat' (first | with_reducible assumption | fail_if_no_progress (with_reducible refine Quiet.upd ?_ rfl))

theorem startNonces_quiet {s₀ s : State} (h : Quiet s₀ s) : Quiet s₀ (startNonces s) := by
  unfold startNonces
  repeat' (first | with_reducible assumption | fail_if_no_progress (with_reducible refine Quiet.upd ?_ rfl))

theorem loadRetired_quiet {s₀ s : State} (h : Quiet s₀ s) : Quiet s₀ (loadRetired s) := by
  unfold loadRetired
  repeat' (first | with_reducible assumption | fail_if_no_progress (with_reducible refine Quiet.upd ?_ rfl))

theorem stageSelftest_quiet {s₀ s : State} (h : Quiet s₀ s) (w : StageWorld) : Quiet s₀ (stageSelftest s w) := by
  unfold stageSelftest
  repeat' (first
    | with_reducible assumption | with_reducible apply loadRetired_quiet | with_reducible apply loadBank_quiet
    | with_reducible apply restoreDefaults_quiet | with_reducible apply rebuildCopies_quiet | with_reducible apply testCx_quiet
    | with_reducible apply testTg_quiet | with_reducible apply startNonces_quiet | with_reducible apply stageTrial_quiet
    | with_reducible apply resumeMeridian_quiet | split | dsimp only)

theorem stageQe_quiet {s₀ s : State} (h : Quiet s₀ s) : Quiet s₀ (stageQe s) := by
  unfold stageQe
  repeat' (first
    | with_reducible assumption | with_reducible apply readSubsystem_quiet | split | dsimp only
    | fail_if_no_progress (with_reducible refine Quiet.upd ?_ rfl))

theorem stageReady_quiet {s₀ s : State} (h : Quiet s₀ s) : Quiet s₀ (stageReady s) := by
  unfold stageReady
  repeat' (first
    | with_reducible assumption | with_reducible apply fiReset_quiet | with_reducible apply reportFallback_quiet
    | with_reducible apply setIstat_quiet | with_reducible apply judgeCurve_quiet | with_reducible apply askClear_quiet
    | split | dsimp only | fail_if_no_progress (with_reducible refine Quiet.upd ?_ rfl))

theorem startupStageDoneS_quiet {s₀ s : State} (h : Quiet s₀ s) (w : StageWorld) : Quiet s₀ (startupStageDoneS s w) := by
  unfold startupStageDoneS
  repeat' (first
    | with_reducible assumption | with_reducible apply stagePower_quiet | with_reducible apply stageRom_quiet
    | with_reducible apply stageMemory_quiet | with_reducible apply stageSelftest_quiet | with_reducible apply stageQe_quiet
    | with_reducible apply stageReady_quiet | split | dsimp only | fail_if_no_progress (with_reducible refine Quiet.upd ?_ rfl))

theorem noteTemp_quiet {s₀ s : State} (h : Quiet s₀ s) (i : Nat) (t : Int) : Quiet s₀ (noteTemp s i t) := by
  unfold noteTemp
  repeat' (first | with_reducible assumption | fail_if_no_progress (with_reducible refine Quiet.upd ?_ rfl))

end Sys2Proof.Laws
end

