-- ==== Sys2Proof/Laws/Keyed.lean ====
section
/-! SUPPORT. Keyed lists: what is read after a write, and the records of functions, queues and commands that are kept in lists. -/

namespace Sys2Proof.Laws

open Sys2Proof Sys2Proof.Machine

/-! ## get, put, del -/

@[simp] theorem get_nil {α : Type} (k : Nat) (d : α) : get [] k d = d := rfl

theorem get_cons {α : Type} (p : Nat × α) (l : List (Nat × α)) (k : Nat) (d : α) :
    get (p :: l) k d = if p.1 = k then p.2 else get l k d := by
  by_cases h : p.1 = k <;> simp [Machine.get, h]

@[simp] theorem get_put_same {α : Type} (k : Nat) (v d : α) (l : List (Nat × α)) : get (put k v l) k d = v := by
  induction l with
  | nil => simp [put, get_cons]
  | cons p r ih =>
    unfold put
    split
    · simp [get_cons]
    · split
      · simp [get_cons]
      · rw [get_cons, if_neg (fun e => by omega), ih]

theorem get_put_ne {α : Type} {j k : Nat} (h : j ≠ k) (v d : α) (l : List (Nat × α)) : get (put k v l) j d = get l j d := by
  induction l with
  | nil => simp [put, get_cons, Ne.symm h]
  | cons p r ih =>
    unfold put
    split
    · rw [get_cons, if_neg (Ne.symm h)]
    · split
      · rename_i e
        rw [get_cons, get_cons, if_neg (Ne.symm h), if_neg (fun g => h (g.symm.trans e.symm))]
      · rw [get_cons, get_cons, ih]

theorem get_put {α : Type} (j k : Nat) (v d : α) (l : List (Nat × α)) : get (put k v l) j d = if j = k then v else get l j d := by
  split
  · rename_i h; rw [h]; exact get_put_same k v d l
  · rename_i h; exact get_put_ne h v d l

@[simp] theorem get_del_same {α : Type} (k : Nat) (d : α) (l : List (Nat × α)) : get (del k l) k d = d := by
  induction l with
  | nil => rfl
  | cons p r ih =>
    by_cases h : p.1 = k
    · simpa [del, h] using ih
    · have e : del k (p :: r) = p :: del k r := by simp [del, h]
      rw [e, get_cons, if_neg h, ih]

theorem get_del_ne {α : Type} {j k : Nat} (h : j ≠ k) (d : α) (l : List (Nat × α)) : get (del k l) j d = get l j d := by
  induction l with
  | nil => rfl
  | cons p r ih =>
    by_cases e : p.1 = k
    · have g : del k (p :: r) = del k r := by simp [del, e]
      rw [g, ih, get_cons, if_neg (fun x => h (x.symm.trans e))]
    · have g : del k (p :: r) = p :: del k r := by simp [del, e]
      rw [g, get_cons, get_cons, ih]

/-- An entry reads as it was written, whether it is listed or not. -/
theorem get_putD {α : Type} [DecidableEq α] (j k : Nat) (v d : α) (l : List (Nat × α)) :
    get (putD k v d l) j d = if j = k then v else get l j d := by
  unfold putD
  split
  · rename_i e
    split
    · rename_i h; rw [h, get_del_same, e]
    · rename_i h; exact get_del_ne h d l
  · exact get_put j k v d l

/-! ## Functions -/

@[simp] theorem fnOf_setFn (s : State) (n : Nat) (f : FnState) : fnOf (setFn s n f) n = f := get_put_same n f {} s.qe.fns

theorem fnOf_setFn_ne {m n : Nat} (h : m ≠ n) (s : State) (f : FnState) : fnOf (setFn s n f) m = fnOf s m :=
  get_put_ne h f {} s.qe.fns

@[simp] theorem fnOf_modFn (s : State) (n : Nat) (g : FnState → FnState) : fnOf (modFn s n g) n = g (fnOf s n) := fnOf_setFn s n _

theorem fnOf_modFn_ne {m n : Nat} (h : m ≠ n) (s : State) (g : FnState → FnState) : fnOf (modFn s n g) m = fnOf s m :=
  fnOf_setFn_ne h s _

/-! ## A list whose elements are changed where their key is k -/

/-- Finding after a change that keeps the keys. -/
theorem find_map_key {α : Type} (key : α → Nat) (k j : Nat) (f : α → α) (hf : ∀ x, key x = k → key (f x) = k) (l : List α) :
    (l.map fun x => if key x = k then f x else x).find? (fun x => key x == j) =
      (l.find? fun x => key x == j).map fun x => if j = k then f x else x := by
  induction l with
  | nil => rfl
  | cons a l ih =>
    by_cases h : key a = k
    · by_cases g : key a = j
      · have e : j = k := g.symm.trans h
        simp [h, hf a h, e]
      · have e : ¬ k = j := fun x => g (h.trans x)
        simp only [List.map_cons, h, if_true, List.find?_cons, hf a h, beq_eq_false_iff_ne.mpr e]
        exact ih
    · by_cases g : key a = j
      · have e : ¬ j = k := fun x => h (g.trans x)
        simp [g, e]
      · simp only [List.map_cons, h, if_false, List.find?_cons, beq_eq_false_iff_ne.mpr g]
        exact ih

/-- A queue after a change of queue g. -/
theorem queueOf_modQueue (s : State) (g j : Nat) (f : Queue → Queue) (hf : ∀ x : Queue, x.g = g → (f x).g = g) :
    queueOf (modQueue s g f) j = (queueOf s j).map fun x => if j = g then f x else x :=
  find_map_key Queue.g g j f hf s.qe.queues

/-- A queue after one queue is replaced. -/
theorem queueOf_setQueue (s : State) (q : Queue) (j : Nat) :
    queueOf (setQueue s q) j = (queueOf s j).map fun x => if j = q.g then q else x :=
  find_map_key Queue.g q.g j (fun _ => q) (fun _ _ => rfl) s.qe.queues

theorem queueOf_g {s : State} {g : Nat} {q : Queue} (h : queueOf s g = some q) : q.g = g := by
  have e := List.find?_some h
  simpa using e

/-- A command in flight after a change of command id. -/
theorem cmdOf_modCmd (s : State) (id j : Nat) (f : Cmd → Cmd) (hf : ∀ c : Cmd, c.id = id → (f c).id = id) :
    cmdOf (modCmd s id f) j = (cmdOf s j).map fun c => if j = id then f c else c :=
  find_map_key Cmd.id id j f hf s.qe.cmds

theorem cmdOf_setCmd (s : State) (c : Cmd) (j : Nat) :
    cmdOf (setCmd s c) j = (cmdOf s j).map fun d => if j = c.id then c else d :=
  find_map_key Cmd.id c.id j (fun _ => c) (fun _ _ => rfl) s.qe.cmds

theorem cmdOf_id {s : State} {id : Nat} {c : Cmd} (h : cmdOf s id = some c) : c.id = id := by
  have e := List.find?_some h
  simpa using e

/-- A command that ended is no longer in flight. -/
@[simp] theorem cmdOf_removeCmd (s : State) (id : Nat) : cmdOf (removeCmd s id) id = none := by
  simp [cmdOf, removeCmd, List.find?_eq_none]

theorem cmdOf_removeCmd_ne {j id : Nat} (h : j ≠ id) (s : State) : cmdOf (removeCmd s id) j = cmdOf s j := by
  have e : ∀ l : List Cmd, (l.filter fun d => d.id != id).find? (fun c => c.id == j) = l.find? fun c => c.id == j := by
    intro l
    induction l with
    | nil => rfl
    | cons a l ih =>
      by_cases g : a.id = id
      · have n : ¬ id = j := fun x => h x.symm
        simp [g, beq_eq_false_iff_ne.mpr n, ih]
      · simp [g, List.find?_cons, ih]
  exact e s.qe.cmds

end Sys2Proof.Laws
end

