-- ==== Sys2Proof/Laws/Memory.lean ====
section
/-! SUPPORT. Staging memory: every operation keeps its canonical form, a byte reads as it was written, and what an arrival of host
data and a reset of the module keep. -/

namespace Sys2Proof.Laws

open Sys2Proof Sys2Proof.Machine

/-! ## The canonical form -/

theorem memWfFrom_mono {lo hi : Nat} (h : lo ≤ hi) {m : List Host.Cell} (w : memWfFrom hi m = true) : memWfFrom lo m = true := by
  cases m with
  | nil => rfl
  | cons c r =>
    simp only [memWfFrom, Bool.and_eq_true, decide_eq_true_eq] at w ⊢
    exact ⟨⟨⟨by omega, w.1.1.2⟩, w.1.2⟩, w.2⟩

theorem put_memWf {lo a : Nat} {v : Byte} (hl : lo ≤ a) (ha : a < stagingTop) (hv : v ≠ 0) {m : List Host.Cell}
    (w : memWfFrom lo m = true) : memWfFrom lo (put a v m) = true := by
  induction m generalizing lo with
  | nil =>
    simp only [put, memWfFrom, Bool.and_true, Bool.and_eq_true, decide_eq_true_eq]
    exact ⟨⟨hl, ha⟩, hv⟩
  | cons c r ih =>
    simp only [memWfFrom, Bool.and_eq_true, decide_eq_true_eq] at w
    unfold put
    split
    · simp only [memWfFrom, Bool.and_eq_true, decide_eq_true_eq]
      exact ⟨⟨⟨hl, ha⟩, hv⟩, ⟨⟨by omega, w.1.1.2⟩, w.1.2⟩, w.2⟩
    · split
      · rename_i e
        simp only [memWfFrom, Bool.and_eq_true, decide_eq_true_eq]
        exact ⟨⟨⟨hl, ha⟩, hv⟩, by rw [e]; exact w.2⟩
      · simp only [memWfFrom, Bool.and_eq_true, decide_eq_true_eq]
        exact ⟨⟨⟨w.1.1.1, w.1.1.2⟩, w.1.2⟩, ih (by omega) w.2⟩

theorem del_memWf {lo : Nat} (a : Nat) {m : List Host.Cell} (w : memWfFrom lo m = true) : memWfFrom lo (del a m) = true := by
  induction m generalizing lo with
  | nil => exact w
  | cons c r ih =>
    simp only [memWfFrom, Bool.and_eq_true, decide_eq_true_eq] at w
    by_cases h : c.1 = a
    · have e : del a (c :: r) = del a r := by simp [del, h]
      rw [e]
      exact memWfFrom_mono (by omega) (ih w.2)
    · have e : del a (c :: r) = c :: del a r := by simp [del, h]
      rw [e]
      simp only [memWfFrom, Bool.and_eq_true, decide_eq_true_eq]
      exact ⟨w.1, ih w.2⟩

/-- A byte written keeps the canonical form. -/
theorem stWrite_wf {m : List Host.Cell} (w : Memory.wf m = true) (a : Nat) (v : Byte) : Memory.wf (stWrite m a v) = true := by
  unfold stWrite
  split
  · unfold putD
    split
    · exact del_memWf a w
    · exact put_memWf (Nat.zero_le a) (by assumption) (by assumption) w
  · exact w

/-- Bytes written keep the canonical form. -/
theorem stWriteBytes_wf {m : List Host.Cell} (w : Memory.wf m = true) (a : Nat) (bs : List Byte) :
    Memory.wf (stWriteBytes m a bs) = true := by
  induction bs generalizing m a with
  | nil => exact w
  | cons b bs ih => exact ih (stWrite_wf w a b) (a + 1)

/-- Memory after reset is canonical. -/
theorem reset_memory_wf : Memory.wf State.reset.bpm.mem = true := rfl

/-! ## Reads -/

/-- A byte reads as it was written; every other byte reads as before. -/
theorem stRead_stWrite {m : List Host.Cell} {a : Nat} (ha : a < stagingTop) (v : Byte) (b : Nat) :
    stRead (stWrite m a v) b = if b = a then v else stRead m b := by
  simp only [stRead, stWrite, if_pos ha]
  exact get_putD b a v 0 m

/-- A byte outside those written reads as before. -/
theorem stRead_stWriteBytes_outside (m : List Host.Cell) (a : Nat) (bs : List Byte) {b : Nat} (h : b < a ∨ a + bs.length ≤ b) :
    stRead (stWriteBytes m a bs) b = stRead m b := by
  induction bs generalizing m a with
  | nil => rfl
  | cons x bs ih =>
    have g : b < a + 1 ∨ a + 1 + bs.length ≤ b := by
      simp only [List.length_cons] at h
      omega
    unfold stWriteBytes
    rw [ih (stWrite m a x) (a + 1) g]
    unfold stWrite
    split
    · have n : b ≠ a := by
        simp only [List.length_cons] at h
        omega
      have e := get_putD b a x 0 m
      rw [if_neg n] at e
      exact e
    · rfl

/-! ## Writes to staging and resets of the module -/

/-- What even an arrival of host data and a reset of the module keep: the waiting commands, the model's time, the outputs so far,
and the canonical form of staging. -/
def Kept (s₀ s : State) : Prop :=
  s.pending = s₀.pending ∧ s.now = s₀.now ∧ (stagingCanonical s₀ = true → stagingCanonical s = true) ∧ ∃ l, s.out = l ++ s₀.out

theorem Kept.refl (s : State) : Kept s s := ⟨rfl, rfl, id, [], rfl⟩

theorem Kept.trans {a b c : State} (h : Kept a b) (g : Kept b c) : Kept a c := by
  obtain ⟨p, n, w, l, e⟩ := h
  obtain ⟨p', n', w', l', e'⟩ := g
  exact ⟨p'.trans p, n'.trans n, w' ∘ w, l' ++ l, by rw [e', e, List.append_assoc]⟩

theorem Quiet.kept {a b : State} (h : Quiet a b) : Kept a b := by
  obtain ⟨p, n, m, o⟩ := h
  refine ⟨p, n, ?_, o⟩
  intro w
  unfold stagingCanonical at w ⊢
  rw [m]
  exact w

theorem stageWrite_kept (s : State) (a : Nat) (bs : List Byte) : Kept s (stageWrite s a bs) :=
  ⟨rfl, rfl, fun w => stWriteBytes_wf w a bs, [], rfl⟩

theorem storeBytes_kept (fuel : Nat) (s : State) (c : Cmd) (off : Nat) (bs : List Byte) : Kept s (storeBytes fuel s c off bs) := by
  induction fuel generalizing s off bs with
  | zero => exact Kept.refl s
  | succ fuel ih =>
    unfold storeBytes
    dsimp only
    split
    · exact Kept.refl s
    · exact (stageWrite_kept s _ _).trans (ih _ _ _)

/-- A reset of the module empties staging. -/
theorem resetModule_kept (s : State) (cause : Nat) (powered : Bool) : Kept s (resetModule s cause powered) :=
  ⟨rfl, rfl, fun _ => rfl, [], rfl⟩

end Sys2Proof.Laws
end

