-- ==== Sys2Proof/Laws/State.lean ====
section
/-! SUPPORT. The named updates of the state: one lemma for every field of State and update, and for every field of the record it
changes, true by definition. -/

namespace Sys2Proof.Laws

open Sys2Proof Sys2Proof.Machine

/-! ## emit -/

@[simp] theorem emit_pending (s : State) (e : Emit) : (emit s e).pending = s.pending := rfl
@[simp] theorem emit_now (s : State) (e : Emit) : (emit s e).now = s.now := rfl
@[simp] theorem emit_free (s : State) (e : Emit) : (emit s e).free = s.free := rfl
@[simp] theorem emit_glb (s : State) (e : Emit) : (emit s e).glb = s.glb := rfl
@[simp] theorem emit_qe (s : State) (e : Emit) : (emit s e).qe = s.qe := rfl
@[simp] theorem emit_bpm (s : State) (e : Emit) : (emit s e).bpm = s.bpm := rfl
@[simp] theorem emit_cx (s : State) (e : Emit) : (emit s e).cx = s.cx := rfl
@[simp] theorem emit_tg (s : State) (e : Emit) : (emit s e).tg = s.tg := rfl
@[simp] theorem emit_fm (s : State) (e : Emit) : (emit s e).fm = s.fm := rfl
@[simp] theorem emit_rc (s : State) (e : Emit) : (emit s e).rc = s.rc := rfl
@[simp] theorem emit_sv (s : State) (e : Emit) : (emit s e).sv = s.sv := rfl
@[simp] theorem emit_rcl (s : State) (e : Emit) : (emit s e).rcl = s.rcl := rfl
@[simp] theorem emit_ce (s : State) (e : Emit) : (emit s e).ce = s.ce := rfl
@[simp] theorem emit_ps (s : State) (e : Emit) : (emit s e).ps = s.ps := rfl
@[simp] theorem emit_nw (s : State) (e : Emit) : (emit s e).nw = s.nw := rfl
@[simp] theorem emit_media (s : State) (e : Emit) : (emit s e).media = s.media := rfl
@[simp] theorem emit_od (s : State) (e : Emit) : (emit s e).od = s.od := rfl
@[simp] theorem emit_flash (s : State) (e : Emit) : (emit s e).flash = s.flash := rfl
@[simp] theorem emit_mt (s : State) (e : Emit) : (emit s e).mt = s.mt := rfl
@[simp] theorem emit_fi (s : State) (e : Emit) : (emit s e).fi = s.fi := rfl
@[simp] theorem emit_pl (s : State) (e : Emit) : (emit s e).pl = s.pl := rfl
@[simp] theorem emit_ls (s : State) (e : Emit) : (emit s e).ls = s.ls := rfl
@[simp] theorem emit_fw (s : State) (e : Emit) : (emit s e).fw = s.fw := rfl
@[simp] theorem emit_health (s : State) (e : Emit) : (emit s e).health = s.health := rfl
@[simp] theorem emit_out (s : State) (e : Emit) : (emit s e).out = e :: s.out := rfl

/-! ## setFn -/

@[simp] theorem setFn_pending (s : State) (n : Nat) (f : FnState) : (setFn s n f).pending = s.pending := rfl
@[simp] theorem setFn_now (s : State) (n : Nat) (f : FnState) : (setFn s n f).now = s.now := rfl
@[simp] theorem setFn_free (s : State) (n : Nat) (f : FnState) : (setFn s n f).free = s.free := rfl
@[simp] theorem setFn_out (s : State) (n : Nat) (f : FnState) : (setFn s n f).out = s.out := rfl
@[simp] theorem setFn_glb (s : State) (n : Nat) (f : FnState) : (setFn s n f).glb = s.glb := rfl
@[simp] theorem setFn_bpm (s : State) (n : Nat) (f : FnState) : (setFn s n f).bpm = s.bpm := rfl
@[simp] theorem setFn_cx (s : State) (n : Nat) (f : FnState) : (setFn s n f).cx = s.cx := rfl
@[simp] theorem setFn_tg (s : State) (n : Nat) (f : FnState) : (setFn s n f).tg = s.tg := rfl
@[simp] theorem setFn_fm (s : State) (n : Nat) (f : FnState) : (setFn s n f).fm = s.fm := rfl
@[simp] theorem setFn_rc (s : State) (n : Nat) (f : FnState) : (setFn s n f).rc = s.rc := rfl
@[simp] theorem setFn_sv (s : State) (n : Nat) (f : FnState) : (setFn s n f).sv = s.sv := rfl
@[simp] theorem setFn_rcl (s : State) (n : Nat) (f : FnState) : (setFn s n f).rcl = s.rcl := rfl
@[simp] theorem setFn_ce (s : State) (n : Nat) (f : FnState) : (setFn s n f).ce = s.ce := rfl
@[simp] theorem setFn_ps (s : State) (n : Nat) (f : FnState) : (setFn s n f).ps = s.ps := rfl
@[simp] theorem setFn_nw (s : State) (n : Nat) (f : FnState) : (setFn s n f).nw = s.nw := rfl
@[simp] theorem setFn_media (s : State) (n : Nat) (f : FnState) : (setFn s n f).media = s.media := rfl
@[simp] theorem setFn_od (s : State) (n : Nat) (f : FnState) : (setFn s n f).od = s.od := rfl
@[simp] theorem setFn_flash (s : State) (n : Nat) (f : FnState) : (setFn s n f).flash = s.flash := rfl
@[simp] theorem setFn_mt (s : State) (n : Nat) (f : FnState) : (setFn s n f).mt = s.mt := rfl
@[simp] theorem setFn_fi (s : State) (n : Nat) (f : FnState) : (setFn s n f).fi = s.fi := rfl
@[simp] theorem setFn_pl (s : State) (n : Nat) (f : FnState) : (setFn s n f).pl = s.pl := rfl
@[simp] theorem setFn_ls (s : State) (n : Nat) (f : FnState) : (setFn s n f).ls = s.ls := rfl
@[simp] theorem setFn_fw (s : State) (n : Nat) (f : FnState) : (setFn s n f).fw = s.fw := rfl
@[simp] theorem setFn_health (s : State) (n : Nat) (f : FnState) : (setFn s n f).health = s.health := rfl
@[simp] theorem setFn_qe_queues (s : State) (n : Nat) (f : FnState) : (setFn s n f).qe.queues = s.qe.queues := rfl
@[simp] theorem setFn_qe_assigns (s : State) (n : Nat) (f : FnState) : (setFn s n f).qe.assigns = s.qe.assigns := rfl
@[simp] theorem setFn_qe_cmds (s : State) (n : Nat) (f : FnState) : (setFn s n f).qe.cmds = s.qe.cmds := rfl
@[simp] theorem setFn_qe_nextId (s : State) (n : Nat) (f : FnState) : (setFn s n f).qe.nextId = s.qe.nextId := rfl
@[simp] theorem setFn_qe_locks (s : State) (n : Nat) (f : FnState) : (setFn s n f).qe.locks = s.qe.locks := rfl
@[simp] theorem setFn_qe_lockFull (s : State) (n : Nat) (f : FnState) : (setFn s n f).qe.lockFull = s.qe.lockFull := rfl
@[simp] theorem setFn_qe_qprio (s : State) (n : Nat) (f : FnState) : (setFn s n f).qe.qprio = s.qe.qprio := rfl
@[simp] theorem setFn_qe_held (s : State) (n : Nat) (f : FnState) : (setFn s n f).qe.held = s.qe.held := rfl
@[simp] theorem setFn_qe_lastAdmin (s : State) (n : Nat) (f : FnState) : (setFn s n f).qe.lastAdmin = s.qe.lastAdmin := rfl
@[simp] theorem setFn_qe_lastFn (s : State) (n : Nat) (f : FnState) : (setFn s n f).qe.lastFn = s.qe.lastFn := rfl
@[simp] theorem setFn_qe_roundUsed (s : State) (n : Nat) (f : FnState) : (setFn s n f).qe.roundUsed = s.qe.roundUsed := rfl
@[simp] theorem setFn_qe_turnQs (s : State) (n : Nat) (f : FnState) : (setFn s n f).qe.turnQs = s.qe.turnQs := rfl
@[simp] theorem setFn_qe_lastOf (s : State) (n : Nat) (f : FnState) : (setFn s n f).qe.lastOf = s.qe.lastOf := rfl

/-! ## modFn -/

@[simp] theorem modFn_pending (s : State) (n : Nat) (g : FnState → FnState) : (modFn s n g).pending = s.pending := rfl
@[simp] theorem modFn_now (s : State) (n : Nat) (g : FnState → FnState) : (modFn s n g).now = s.now := rfl
@[simp] theorem modFn_free (s : State) (n : Nat) (g : FnState → FnState) : (modFn s n g).free = s.free := rfl
@[simp] theorem modFn_out (s : State) (n : Nat) (g : FnState → FnState) : (modFn s n g).out = s.out := rfl
@[simp] theorem modFn_glb (s : State) (n : Nat) (g : FnState → FnState) : (modFn s n g).glb = s.glb := rfl
@[simp] theorem modFn_bpm (s : State) (n : Nat) (g : FnState → FnState) : (modFn s n g).bpm = s.bpm := rfl
@[simp] theorem modFn_cx (s : State) (n : Nat) (g : FnState → FnState) : (modFn s n g).cx = s.cx := rfl
@[simp] theorem modFn_tg (s : State) (n : Nat) (g : FnState → FnState) : (modFn s n g).tg = s.tg := rfl
@[simp] theorem modFn_fm (s : State) (n : Nat) (g : FnState → FnState) : (modFn s n g).fm = s.fm := rfl
@[simp] theorem modFn_rc (s : State) (n : Nat) (g : FnState → FnState) : (modFn s n g).rc = s.rc := rfl
@[simp] theorem modFn_sv (s : State) (n : Nat) (g : FnState → FnState) : (modFn s n g).sv = s.sv := rfl
@[simp] theorem modFn_rcl (s : State) (n : Nat) (g : FnState → FnState) : (modFn s n g).rcl = s.rcl := rfl
@[simp] theorem modFn_ce (s : State) (n : Nat) (g : FnState → FnState) : (modFn s n g).ce = s.ce := rfl
@[simp] theorem modFn_ps (s : State) (n : Nat) (g : FnState → FnState) : (modFn s n g).ps = s.ps := rfl
@[simp] theorem modFn_nw (s : State) (n : Nat) (g : FnState → FnState) : (modFn s n g).nw = s.nw := rfl
@[simp] theorem modFn_media (s : State) (n : Nat) (g : FnState → FnState) : (modFn s n g).media = s.media := rfl
@[simp] theorem modFn_od (s : State) (n : Nat) (g : FnState → FnState) : (modFn s n g).od = s.od := rfl
@[simp] theorem modFn_flash (s : State) (n : Nat) (g : FnState → FnState) : (modFn s n g).flash = s.flash := rfl
@[simp] theorem modFn_mt (s : State) (n : Nat) (g : FnState → FnState) : (modFn s n g).mt = s.mt := rfl
@[simp] theorem modFn_fi (s : State) (n : Nat) (g : FnState → FnState) : (modFn s n g).fi = s.fi := rfl
@[simp] theorem modFn_pl (s : State) (n : Nat) (g : FnState → FnState) : (modFn s n g).pl = s.pl := rfl
@[simp] theorem modFn_ls (s : State) (n : Nat) (g : FnState → FnState) : (modFn s n g).ls = s.ls := rfl
@[simp] theorem modFn_fw (s : State) (n : Nat) (g : FnState → FnState) : (modFn s n g).fw = s.fw := rfl
@[simp] theorem modFn_health (s : State) (n : Nat) (g : FnState → FnState) : (modFn s n g).health = s.health := rfl
@[simp] theorem modFn_qe_queues (s : State) (n : Nat) (g : FnState → FnState) : (modFn s n g).qe.queues = s.qe.queues := rfl
@[simp] theorem modFn_qe_assigns (s : State) (n : Nat) (g : FnState → FnState) : (modFn s n g).qe.assigns = s.qe.assigns := rfl
@[simp] theorem modFn_qe_cmds (s : State) (n : Nat) (g : FnState → FnState) : (modFn s n g).qe.cmds = s.qe.cmds := rfl
@[simp] theorem modFn_qe_nextId (s : State) (n : Nat) (g : FnState → FnState) : (modFn s n g).qe.nextId = s.qe.nextId := rfl
@[simp] theorem modFn_qe_locks (s : State) (n : Nat) (g : FnState → FnState) : (modFn s n g).qe.locks = s.qe.locks := rfl
@[simp] theorem modFn_qe_lockFull (s : State) (n : Nat) (g : FnState → FnState) : (modFn s n g).qe.lockFull = s.qe.lockFull := rfl
@[simp] theorem modFn_qe_qprio (s : State) (n : Nat) (g : FnState → FnState) : (modFn s n g).qe.qprio = s.qe.qprio := rfl
@[simp] theorem modFn_qe_held (s : State) (n : Nat) (g : FnState → FnState) : (modFn s n g).qe.held = s.qe.held := rfl
@[simp] theorem modFn_qe_lastAdmin (s : State) (n : Nat) (g : FnState → FnState) : (modFn s n g).qe.lastAdmin = s.qe.lastAdmin := rfl
@[simp] theorem modFn_qe_lastFn (s : State) (n : Nat) (g : FnState → FnState) : (modFn s n g).qe.lastFn = s.qe.lastFn := rfl
@[simp] theorem modFn_qe_roundUsed (s : State) (n : Nat) (g : FnState → FnState) : (modFn s n g).qe.roundUsed = s.qe.roundUsed := rfl
@[simp] theorem modFn_qe_turnQs (s : State) (n : Nat) (g : FnState → FnState) : (modFn s n g).qe.turnQs = s.qe.turnQs := rfl
@[simp] theorem modFn_qe_lastOf (s : State) (n : Nat) (g : FnState → FnState) : (modFn s n g).qe.lastOf = s.qe.lastOf := rfl

/-! ## setQueue -/

@[simp] theorem setQueue_pending (s : State) (q : Queue) : (setQueue s q).pending = s.pending := rfl
@[simp] theorem setQueue_now (s : State) (q : Queue) : (setQueue s q).now = s.now := rfl
@[simp] theorem setQueue_free (s : State) (q : Queue) : (setQueue s q).free = s.free := rfl
@[simp] theorem setQueue_out (s : State) (q : Queue) : (setQueue s q).out = s.out := rfl
@[simp] theorem setQueue_glb (s : State) (q : Queue) : (setQueue s q).glb = s.glb := rfl
@[simp] theorem setQueue_bpm (s : State) (q : Queue) : (setQueue s q).bpm = s.bpm := rfl
@[simp] theorem setQueue_cx (s : State) (q : Queue) : (setQueue s q).cx = s.cx := rfl
@[simp] theorem setQueue_tg (s : State) (q : Queue) : (setQueue s q).tg = s.tg := rfl
@[simp] theorem setQueue_fm (s : State) (q : Queue) : (setQueue s q).fm = s.fm := rfl
@[simp] theorem setQueue_rc (s : State) (q : Queue) : (setQueue s q).rc = s.rc := rfl
@[simp] theorem setQueue_sv (s : State) (q : Queue) : (setQueue s q).sv = s.sv := rfl
@[simp] theorem setQueue_rcl (s : State) (q : Queue) : (setQueue s q).rcl = s.rcl := rfl
@[simp] theorem setQueue_ce (s : State) (q : Queue) : (setQueue s q).ce = s.ce := rfl
@[simp] theorem setQueue_ps (s : State) (q : Queue) : (setQueue s q).ps = s.ps := rfl
@[simp] theorem setQueue_nw (s : State) (q : Queue) : (setQueue s q).nw = s.nw := rfl
@[simp] theorem setQueue_media (s : State) (q : Queue) : (setQueue s q).media = s.media := rfl
@[simp] theorem setQueue_od (s : State) (q : Queue) : (setQueue s q).od = s.od := rfl
@[simp] theorem setQueue_flash (s : State) (q : Queue) : (setQueue s q).flash = s.flash := rfl
@[simp] theorem setQueue_mt (s : State) (q : Queue) : (setQueue s q).mt = s.mt := rfl
@[simp] theorem setQueue_fi (s : State) (q : Queue) : (setQueue s q).fi = s.fi := rfl
@[simp] theorem setQueue_pl (s : State) (q : Queue) : (setQueue s q).pl = s.pl := rfl
@[simp] theorem setQueue_ls (s : State) (q : Queue) : (setQueue s q).ls = s.ls := rfl
@[simp] theorem setQueue_fw (s : State) (q : Queue) : (setQueue s q).fw = s.fw := rfl
@[simp] theorem setQueue_health (s : State) (q : Queue) : (setQueue s q).health = s.health := rfl
@[simp] theorem setQueue_qe_fns (s : State) (q : Queue) : (setQueue s q).qe.fns = s.qe.fns := rfl
@[simp] theorem setQueue_qe_assigns (s : State) (q : Queue) : (setQueue s q).qe.assigns = s.qe.assigns := rfl
@[simp] theorem setQueue_qe_cmds (s : State) (q : Queue) : (setQueue s q).qe.cmds = s.qe.cmds := rfl
@[simp] theorem setQueue_qe_nextId (s : State) (q : Queue) : (setQueue s q).qe.nextId = s.qe.nextId := rfl
@[simp] theorem setQueue_qe_locks (s : State) (q : Queue) : (setQueue s q).qe.locks = s.qe.locks := rfl
@[simp] theorem setQueue_qe_lockFull (s : State) (q : Queue) : (setQueue s q).qe.lockFull = s.qe.lockFull := rfl
@[simp] theorem setQueue_qe_qprio (s : State) (q : Queue) : (setQueue s q).qe.qprio = s.qe.qprio := rfl
@[simp] theorem setQueue_qe_held (s : State) (q : Queue) : (setQueue s q).qe.held = s.qe.held := rfl
@[simp] theorem setQueue_qe_lastAdmin (s : State) (q : Queue) : (setQueue s q).qe.lastAdmin = s.qe.lastAdmin := rfl
@[simp] theorem setQueue_qe_lastFn (s : State) (q : Queue) : (setQueue s q).qe.lastFn = s.qe.lastFn := rfl
@[simp] theorem setQueue_qe_roundUsed (s : State) (q : Queue) : (setQueue s q).qe.roundUsed = s.qe.roundUsed := rfl
@[simp] theorem setQueue_qe_turnQs (s : State) (q : Queue) : (setQueue s q).qe.turnQs = s.qe.turnQs := rfl
@[simp] theorem setQueue_qe_lastOf (s : State) (q : Queue) : (setQueue s q).qe.lastOf = s.qe.lastOf := rfl

/-! ## modQueue -/

@[simp] theorem modQueue_pending (s : State) (g : Nat) (f : Queue → Queue) : (modQueue s g f).pending = s.pending := rfl
@[simp] theorem modQueue_now (s : State) (g : Nat) (f : Queue → Queue) : (modQueue s g f).now = s.now := rfl
@[simp] theorem modQueue_free (s : State) (g : Nat) (f : Queue → Queue) : (modQueue s g f).free = s.free := rfl
@[simp] theorem modQueue_out (s : State) (g : Nat) (f : Queue → Queue) : (modQueue s g f).out = s.out := rfl
@[simp] theorem modQueue_glb (s : State) (g : Nat) (f : Queue → Queue) : (modQueue s g f).glb = s.glb := rfl
@[simp] theorem modQueue_bpm (s : State) (g : Nat) (f : Queue → Queue) : (modQueue s g f).bpm = s.bpm := rfl
@[simp] theorem modQueue_cx (s : State) (g : Nat) (f : Queue → Queue) : (modQueue s g f).cx = s.cx := rfl
@[simp] theorem modQueue_tg (s : State) (g : Nat) (f : Queue → Queue) : (modQueue s g f).tg = s.tg := rfl
@[simp] theorem modQueue_fm (s : State) (g : Nat) (f : Queue → Queue) : (modQueue s g f).fm = s.fm := rfl
@[simp] theorem modQueue_rc (s : State) (g : Nat) (f : Queue → Queue) : (modQueue s g f).rc = s.rc := rfl
@[simp] theorem modQueue_sv (s : State) (g : Nat) (f : Queue → Queue) : (modQueue s g f).sv = s.sv := rfl
@[simp] theorem modQueue_rcl (s : State) (g : Nat) (f : Queue → Queue) : (modQueue s g f).rcl = s.rcl := rfl
@[simp] theorem modQueue_ce (s : State) (g : Nat) (f : Queue → Queue) : (modQueue s g f).ce = s.ce := rfl
@[simp] theorem modQueue_ps (s : State) (g : Nat) (f : Queue → Queue) : (modQueue s g f).ps = s.ps := rfl
@[simp] theorem modQueue_nw (s : State) (g : Nat) (f : Queue → Queue) : (modQueue s g f).nw = s.nw := rfl
@[simp] theorem modQueue_media (s : State) (g : Nat) (f : Queue → Queue) : (modQueue s g f).media = s.media := rfl
@[simp] theorem modQueue_od (s : State) (g : Nat) (f : Queue → Queue) : (modQueue s g f).od = s.od := rfl
@[simp] theorem modQueue_flash (s : State) (g : Nat) (f : Queue → Queue) : (modQueue s g f).flash = s.flash := rfl
@[simp] theorem modQueue_mt (s : State) (g : Nat) (f : Queue → Queue) : (modQueue s g f).mt = s.mt := rfl
@[simp] theorem modQueue_fi (s : State) (g : Nat) (f : Queue → Queue) : (modQueue s g f).fi = s.fi := rfl
@[simp] theorem modQueue_pl (s : State) (g : Nat) (f : Queue → Queue) : (modQueue s g f).pl = s.pl := rfl
@[simp] theorem modQueue_ls (s : State) (g : Nat) (f : Queue → Queue) : (modQueue s g f).ls = s.ls := rfl
@[simp] theorem modQueue_fw (s : State) (g : Nat) (f : Queue → Queue) : (modQueue s g f).fw = s.fw := rfl
@[simp] theorem modQueue_health (s : State) (g : Nat) (f : Queue → Queue) : (modQueue s g f).health = s.health := rfl
@[simp] theorem modQueue_qe_fns (s : State) (g : Nat) (f : Queue → Queue) : (modQueue s g f).qe.fns = s.qe.fns := rfl
@[simp] theorem modQueue_qe_assigns (s : State) (g : Nat) (f : Queue → Queue) : (modQueue s g f).qe.assigns = s.qe.assigns := rfl
@[simp] theorem modQueue_qe_cmds (s : State) (g : Nat) (f : Queue → Queue) : (modQueue s g f).qe.cmds = s.qe.cmds := rfl
@[simp] theorem modQueue_qe_nextId (s : State) (g : Nat) (f : Queue → Queue) : (modQueue s g f).qe.nextId = s.qe.nextId := rfl
@[simp] theorem modQueue_qe_locks (s : State) (g : Nat) (f : Queue → Queue) : (modQueue s g f).qe.locks = s.qe.locks := rfl
@[simp] theorem modQueue_qe_lockFull (s : State) (g : Nat) (f : Queue → Queue) : (modQueue s g f).qe.lockFull = s.qe.lockFull := rfl
@[simp] theorem modQueue_qe_qprio (s : State) (g : Nat) (f : Queue → Queue) : (modQueue s g f).qe.qprio = s.qe.qprio := rfl
@[simp] theorem modQueue_qe_held (s : State) (g : Nat) (f : Queue → Queue) : (modQueue s g f).qe.held = s.qe.held := rfl
@[simp] theorem modQueue_qe_lastAdmin (s : State) (g : Nat) (f : Queue → Queue) : (modQueue s g f).qe.lastAdmin = s.qe.lastAdmin := rfl
@[simp] theorem modQueue_qe_lastFn (s : State) (g : Nat) (f : Queue → Queue) : (modQueue s g f).qe.lastFn = s.qe.lastFn := rfl
@[simp] theorem modQueue_qe_roundUsed (s : State) (g : Nat) (f : Queue → Queue) : (modQueue s g f).qe.roundUsed = s.qe.roundUsed := rfl
@[simp] theorem modQueue_qe_turnQs (s : State) (g : Nat) (f : Queue → Queue) : (modQueue s g f).qe.turnQs = s.qe.turnQs := rfl
@[simp] theorem modQueue_qe_lastOf (s : State) (g : Nat) (f : Queue → Queue) : (modQueue s g f).qe.lastOf = s.qe.lastOf := rfl

/-! ## freeze -/

@[simp] theorem freeze_pending (s : State) (g : Nat) : (freeze s g).pending = s.pending := rfl
@[simp] theorem freeze_now (s : State) (g : Nat) : (freeze s g).now = s.now := rfl
@[simp] theorem freeze_free (s : State) (g : Nat) : (freeze s g).free = s.free := rfl
@[simp] theorem freeze_out (s : State) (g : Nat) : (freeze s g).out = s.out := rfl
@[simp] theorem freeze_glb (s : State) (g : Nat) : (freeze s g).glb = s.glb := rfl
@[simp] theorem freeze_bpm (s : State) (g : Nat) : (freeze s g).bpm = s.bpm := rfl
@[simp] theorem freeze_cx (s : State) (g : Nat) : (freeze s g).cx = s.cx := rfl
@[simp] theorem freeze_tg (s : State) (g : Nat) : (freeze s g).tg = s.tg := rfl
@[simp] theorem freeze_fm (s : State) (g : Nat) : (freeze s g).fm = s.fm := rfl
@[simp] theorem freeze_rc (s : State) (g : Nat) : (freeze s g).rc = s.rc := rfl
@[simp] theorem freeze_sv (s : State) (g : Nat) : (freeze s g).sv = s.sv := rfl
@[simp] theorem freeze_rcl (s : State) (g : Nat) : (freeze s g).rcl = s.rcl := rfl
@[simp] theorem freeze_ce (s : State) (g : Nat) : (freeze s g).ce = s.ce := rfl
@[simp] theorem freeze_ps (s : State) (g : Nat) : (freeze s g).ps = s.ps := rfl
@[simp] theorem freeze_nw (s : State) (g : Nat) : (freeze s g).nw = s.nw := rfl
@[simp] theorem freeze_media (s : State) (g : Nat) : (freeze s g).media = s.media := rfl
@[simp] theorem freeze_od (s : State) (g : Nat) : (freeze s g).od = s.od := rfl
@[simp] theorem freeze_flash (s : State) (g : Nat) : (freeze s g).flash = s.flash := rfl
@[simp] theorem freeze_mt (s : State) (g : Nat) : (freeze s g).mt = s.mt := rfl
@[simp] theorem freeze_fi (s : State) (g : Nat) : (freeze s g).fi = s.fi := rfl
@[simp] theorem freeze_pl (s : State) (g : Nat) : (freeze s g).pl = s.pl := rfl
@[simp] theorem freeze_ls (s : State) (g : Nat) : (freeze s g).ls = s.ls := rfl
@[simp] theorem freeze_fw (s : State) (g : Nat) : (freeze s g).fw = s.fw := rfl
@[simp] theorem freeze_health (s : State) (g : Nat) : (freeze s g).health = s.health := rfl
@[simp] theorem freeze_qe_fns (s : State) (g : Nat) : (freeze s g).qe.fns = s.qe.fns := rfl
@[simp] theorem freeze_qe_assigns (s : State) (g : Nat) : (freeze s g).qe.assigns = s.qe.assigns := rfl
@[simp] theorem freeze_qe_cmds (s : State) (g : Nat) : (freeze s g).qe.cmds = s.qe.cmds := rfl
@[simp] theorem freeze_qe_nextId (s : State) (g : Nat) : (freeze s g).qe.nextId = s.qe.nextId := rfl
@[simp] theorem freeze_qe_locks (s : State) (g : Nat) : (freeze s g).qe.locks = s.qe.locks := rfl
@[simp] theorem freeze_qe_lockFull (s : State) (g : Nat) : (freeze s g).qe.lockFull = s.qe.lockFull := rfl
@[simp] theorem freeze_qe_qprio (s : State) (g : Nat) : (freeze s g).qe.qprio = s.qe.qprio := rfl
@[simp] theorem freeze_qe_held (s : State) (g : Nat) : (freeze s g).qe.held = s.qe.held := rfl
@[simp] theorem freeze_qe_lastAdmin (s : State) (g : Nat) : (freeze s g).qe.lastAdmin = s.qe.lastAdmin := rfl
@[simp] theorem freeze_qe_lastFn (s : State) (g : Nat) : (freeze s g).qe.lastFn = s.qe.lastFn := rfl
@[simp] theorem freeze_qe_roundUsed (s : State) (g : Nat) : (freeze s g).qe.roundUsed = s.qe.roundUsed := rfl
@[simp] theorem freeze_qe_turnQs (s : State) (g : Nat) : (freeze s g).qe.turnQs = s.qe.turnQs := rfl
@[simp] theorem freeze_qe_lastOf (s : State) (g : Nat) : (freeze s g).qe.lastOf = s.qe.lastOf := rfl

/-! ## setCmd -/

@[simp] theorem setCmd_pending (s : State) (c : Cmd) : (setCmd s c).pending = s.pending := rfl
@[simp] theorem setCmd_now (s : State) (c : Cmd) : (setCmd s c).now = s.now := rfl
@[simp] theorem setCmd_free (s : State) (c : Cmd) : (setCmd s c).free = s.free := rfl
@[simp] theorem setCmd_out (s : State) (c : Cmd) : (setCmd s c).out = s.out := rfl
@[simp] theorem setCmd_glb (s : State) (c : Cmd) : (setCmd s c).glb = s.glb := rfl
@[simp] theorem setCmd_bpm (s : State) (c : Cmd) : (setCmd s c).bpm = s.bpm := rfl
@[simp] theorem setCmd_cx (s : State) (c : Cmd) : (setCmd s c).cx = s.cx := rfl
@[simp] theorem setCmd_tg (s : State) (c : Cmd) : (setCmd s c).tg = s.tg := rfl
@[simp] theorem setCmd_fm (s : State) (c : Cmd) : (setCmd s c).fm = s.fm := rfl
@[simp] theorem setCmd_rc (s : State) (c : Cmd) : (setCmd s c).rc = s.rc := rfl
@[simp] theorem setCmd_sv (s : State) (c : Cmd) : (setCmd s c).sv = s.sv := rfl
@[simp] theorem setCmd_rcl (s : State) (c : Cmd) : (setCmd s c).rcl = s.rcl := rfl
@[simp] theorem setCmd_ce (s : State) (c : Cmd) : (setCmd s c).ce = s.ce := rfl
@[simp] theorem setCmd_ps (s : State) (c : Cmd) : (setCmd s c).ps = s.ps := rfl
@[simp] theorem setCmd_nw (s : State) (c : Cmd) : (setCmd s c).nw = s.nw := rfl
@[simp] theorem setCmd_media (s : State) (c : Cmd) : (setCmd s c).media = s.media := rfl
@[simp] theorem setCmd_od (s : State) (c : Cmd) : (setCmd s c).od = s.od := rfl
@[simp] theorem setCmd_flash (s : State) (c : Cmd) : (setCmd s c).flash = s.flash := rfl
@[simp] theorem setCmd_mt (s : State) (c : Cmd) : (setCmd s c).mt = s.mt := rfl
@[simp] theorem setCmd_fi (s : State) (c : Cmd) : (setCmd s c).fi = s.fi := rfl
@[simp] theorem setCmd_pl (s : State) (c : Cmd) : (setCmd s c).pl = s.pl := rfl
@[simp] theorem setCmd_ls (s : State) (c : Cmd) : (setCmd s c).ls = s.ls := rfl
@[simp] theorem setCmd_fw (s : State) (c : Cmd) : (setCmd s c).fw = s.fw := rfl
@[simp] theorem setCmd_health (s : State) (c : Cmd) : (setCmd s c).health = s.health := rfl
@[simp] theorem setCmd_qe_fns (s : State) (c : Cmd) : (setCmd s c).qe.fns = s.qe.fns := rfl
@[simp] theorem setCmd_qe_queues (s : State) (c : Cmd) : (setCmd s c).qe.queues = s.qe.queues := rfl
@[simp] theorem setCmd_qe_assigns (s : State) (c : Cmd) : (setCmd s c).qe.assigns = s.qe.assigns := rfl
@[simp] theorem setCmd_qe_nextId (s : State) (c : Cmd) : (setCmd s c).qe.nextId = s.qe.nextId := rfl
@[simp] theorem setCmd_qe_locks (s : State) (c : Cmd) : (setCmd s c).qe.locks = s.qe.locks := rfl
@[simp] theorem setCmd_qe_lockFull (s : State) (c : Cmd) : (setCmd s c).qe.lockFull = s.qe.lockFull := rfl
@[simp] theorem setCmd_qe_qprio (s : State) (c : Cmd) : (setCmd s c).qe.qprio = s.qe.qprio := rfl
@[simp] theorem setCmd_qe_held (s : State) (c : Cmd) : (setCmd s c).qe.held = s.qe.held := rfl
@[simp] theorem setCmd_qe_lastAdmin (s : State) (c : Cmd) : (setCmd s c).qe.lastAdmin = s.qe.lastAdmin := rfl
@[simp] theorem setCmd_qe_lastFn (s : State) (c : Cmd) : (setCmd s c).qe.lastFn = s.qe.lastFn := rfl
@[simp] theorem setCmd_qe_roundUsed (s : State) (c : Cmd) : (setCmd s c).qe.roundUsed = s.qe.roundUsed := rfl
@[simp] theorem setCmd_qe_turnQs (s : State) (c : Cmd) : (setCmd s c).qe.turnQs = s.qe.turnQs := rfl
@[simp] theorem setCmd_qe_lastOf (s : State) (c : Cmd) : (setCmd s c).qe.lastOf = s.qe.lastOf := rfl

/-! ## modCmd -/

@[simp] theorem modCmd_pending (s : State) (id : Nat) (f : Cmd → Cmd) : (modCmd s id f).pending = s.pending := rfl
@[simp] theorem modCmd_now (s : State) (id : Nat) (f : Cmd → Cmd) : (modCmd s id f).now = s.now := rfl
@[simp] theorem modCmd_free (s : State) (id : Nat) (f : Cmd → Cmd) : (modCmd s id f).free = s.free := rfl
@[simp] theorem modCmd_out (s : State) (id : Nat) (f : Cmd → Cmd) : (modCmd s id f).out = s.out := rfl
@[simp] theorem modCmd_glb (s : State) (id : Nat) (f : Cmd → Cmd) : (modCmd s id f).glb = s.glb := rfl
@[simp] theorem modCmd_bpm (s : State) (id : Nat) (f : Cmd → Cmd) : (modCmd s id f).bpm = s.bpm := rfl
@[simp] theorem modCmd_cx (s : State) (id : Nat) (f : Cmd → Cmd) : (modCmd s id f).cx = s.cx := rfl
@[simp] theorem modCmd_tg (s : State) (id : Nat) (f : Cmd → Cmd) : (modCmd s id f).tg = s.tg := rfl
@[simp] theorem modCmd_fm (s : State) (id : Nat) (f : Cmd → Cmd) : (modCmd s id f).fm = s.fm := rfl
@[simp] theorem modCmd_rc (s : State) (id : Nat) (f : Cmd → Cmd) : (modCmd s id f).rc = s.rc := rfl
@[simp] theorem modCmd_sv (s : State) (id : Nat) (f : Cmd → Cmd) : (modCmd s id f).sv = s.sv := rfl
@[simp] theorem modCmd_rcl (s : State) (id : Nat) (f : Cmd → Cmd) : (modCmd s id f).rcl = s.rcl := rfl
@[simp] theorem modCmd_ce (s : State) (id : Nat) (f : Cmd → Cmd) : (modCmd s id f).ce = s.ce := rfl
@[simp] theorem modCmd_ps (s : State) (id : Nat) (f : Cmd → Cmd) : (modCmd s id f).ps = s.ps := rfl
@[simp] theorem modCmd_nw (s : State) (id : Nat) (f : Cmd → Cmd) : (modCmd s id f).nw = s.nw := rfl
@[simp] theorem modCmd_media (s : State) (id : Nat) (f : Cmd → Cmd) : (modCmd s id f).media = s.media := rfl
@[simp] theorem modCmd_od (s : State) (id : Nat) (f : Cmd → Cmd) : (modCmd s id f).od = s.od := rfl
@[simp] theorem modCmd_flash (s : State) (id : Nat) (f : Cmd → Cmd) : (modCmd s id f).flash = s.flash := rfl
@[simp] theorem modCmd_mt (s : State) (id : Nat) (f : Cmd → Cmd) : (modCmd s id f).mt = s.mt := rfl
@[simp] theorem modCmd_fi (s : State) (id : Nat) (f : Cmd → Cmd) : (modCmd s id f).fi = s.fi := rfl
@[simp] theorem modCmd_pl (s : State) (id : Nat) (f : Cmd → Cmd) : (modCmd s id f).pl = s.pl := rfl
@[simp] theorem modCmd_ls (s : State) (id : Nat) (f : Cmd → Cmd) : (modCmd s id f).ls = s.ls := rfl
@[simp] theorem modCmd_fw (s : State) (id : Nat) (f : Cmd → Cmd) : (modCmd s id f).fw = s.fw := rfl
@[simp] theorem modCmd_health (s : State) (id : Nat) (f : Cmd → Cmd) : (modCmd s id f).health = s.health := rfl
@[simp] theorem modCmd_qe_fns (s : State) (id : Nat) (f : Cmd → Cmd) : (modCmd s id f).qe.fns = s.qe.fns := rfl
@[simp] theorem modCmd_qe_queues (s : State) (id : Nat) (f : Cmd → Cmd) : (modCmd s id f).qe.queues = s.qe.queues := rfl
@[simp] theorem modCmd_qe_assigns (s : State) (id : Nat) (f : Cmd → Cmd) : (modCmd s id f).qe.assigns = s.qe.assigns := rfl
@[simp] theorem modCmd_qe_nextId (s : State) (id : Nat) (f : Cmd → Cmd) : (modCmd s id f).qe.nextId = s.qe.nextId := rfl
@[simp] theorem modCmd_qe_locks (s : State) (id : Nat) (f : Cmd → Cmd) : (modCmd s id f).qe.locks = s.qe.locks := rfl
@[simp] theorem modCmd_qe_lockFull (s : State) (id : Nat) (f : Cmd → Cmd) : (modCmd s id f).qe.lockFull = s.qe.lockFull := rfl
@[simp] theorem modCmd_qe_qprio (s : State) (id : Nat) (f : Cmd → Cmd) : (modCmd s id f).qe.qprio = s.qe.qprio := rfl
@[simp] theorem modCmd_qe_held (s : State) (id : Nat) (f : Cmd → Cmd) : (modCmd s id f).qe.held = s.qe.held := rfl
@[simp] theorem modCmd_qe_lastAdmin (s : State) (id : Nat) (f : Cmd → Cmd) : (modCmd s id f).qe.lastAdmin = s.qe.lastAdmin := rfl
@[simp] theorem modCmd_qe_lastFn (s : State) (id : Nat) (f : Cmd → Cmd) : (modCmd s id f).qe.lastFn = s.qe.lastFn := rfl
@[simp] theorem modCmd_qe_roundUsed (s : State) (id : Nat) (f : Cmd → Cmd) : (modCmd s id f).qe.roundUsed = s.qe.roundUsed := rfl
@[simp] theorem modCmd_qe_turnQs (s : State) (id : Nat) (f : Cmd → Cmd) : (modCmd s id f).qe.turnQs = s.qe.turnQs := rfl
@[simp] theorem modCmd_qe_lastOf (s : State) (id : Nat) (f : Cmd → Cmd) : (modCmd s id f).qe.lastOf = s.qe.lastOf := rfl

/-! ## removeCmd -/

@[simp] theorem removeCmd_pending (s : State) (id : Nat) : (removeCmd s id).pending = s.pending := rfl
@[simp] theorem removeCmd_now (s : State) (id : Nat) : (removeCmd s id).now = s.now := rfl
@[simp] theorem removeCmd_free (s : State) (id : Nat) : (removeCmd s id).free = s.free := rfl
@[simp] theorem removeCmd_out (s : State) (id : Nat) : (removeCmd s id).out = s.out := rfl
@[simp] theorem removeCmd_glb (s : State) (id : Nat) : (removeCmd s id).glb = s.glb := rfl
@[simp] theorem removeCmd_bpm (s : State) (id : Nat) : (removeCmd s id).bpm = s.bpm := rfl
@[simp] theorem removeCmd_cx (s : State) (id : Nat) : (removeCmd s id).cx = s.cx := rfl
@[simp] theorem removeCmd_tg (s : State) (id : Nat) : (removeCmd s id).tg = s.tg := rfl
@[simp] theorem removeCmd_fm (s : State) (id : Nat) : (removeCmd s id).fm = s.fm := rfl
@[simp] theorem removeCmd_rc (s : State) (id : Nat) : (removeCmd s id).rc = s.rc := rfl
@[simp] theorem removeCmd_sv (s : State) (id : Nat) : (removeCmd s id).sv = s.sv := rfl
@[simp] theorem removeCmd_rcl (s : State) (id : Nat) : (removeCmd s id).rcl = s.rcl := rfl
@[simp] theorem removeCmd_ce (s : State) (id : Nat) : (removeCmd s id).ce = s.ce := rfl
@[simp] theorem removeCmd_ps (s : State) (id : Nat) : (removeCmd s id).ps = s.ps := rfl
@[simp] theorem removeCmd_nw (s : State) (id : Nat) : (removeCmd s id).nw = s.nw := rfl
@[simp] theorem removeCmd_media (s : State) (id : Nat) : (removeCmd s id).media = s.media := rfl
@[simp] theorem removeCmd_od (s : State) (id : Nat) : (removeCmd s id).od = s.od := rfl
@[simp] theorem removeCmd_flash (s : State) (id : Nat) : (removeCmd s id).flash = s.flash := rfl
@[simp] theorem removeCmd_mt (s : State) (id : Nat) : (removeCmd s id).mt = s.mt := rfl
@[simp] theorem removeCmd_fi (s : State) (id : Nat) : (removeCmd s id).fi = s.fi := rfl
@[simp] theorem removeCmd_pl (s : State) (id : Nat) : (removeCmd s id).pl = s.pl := rfl
@[simp] theorem removeCmd_ls (s : State) (id : Nat) : (removeCmd s id).ls = s.ls := rfl
@[simp] theorem removeCmd_fw (s : State) (id : Nat) : (removeCmd s id).fw = s.fw := rfl
@[simp] theorem removeCmd_health (s : State) (id : Nat) : (removeCmd s id).health = s.health := rfl
@[simp] theorem removeCmd_qe_fns (s : State) (id : Nat) : (removeCmd s id).qe.fns = s.qe.fns := rfl
@[simp] theorem removeCmd_qe_queues (s : State) (id : Nat) : (removeCmd s id).qe.queues = s.qe.queues := rfl
@[simp] theorem removeCmd_qe_assigns (s : State) (id : Nat) : (removeCmd s id).qe.assigns = s.qe.assigns := rfl
@[simp] theorem removeCmd_qe_nextId (s : State) (id : Nat) : (removeCmd s id).qe.nextId = s.qe.nextId := rfl
@[simp] theorem removeCmd_qe_lockFull (s : State) (id : Nat) : (removeCmd s id).qe.lockFull = s.qe.lockFull := rfl
@[simp] theorem removeCmd_qe_qprio (s : State) (id : Nat) : (removeCmd s id).qe.qprio = s.qe.qprio := rfl
@[simp] theorem removeCmd_qe_held (s : State) (id : Nat) : (removeCmd s id).qe.held = s.qe.held := rfl
@[simp] theorem removeCmd_qe_lastAdmin (s : State) (id : Nat) : (removeCmd s id).qe.lastAdmin = s.qe.lastAdmin := rfl
@[simp] theorem removeCmd_qe_lastFn (s : State) (id : Nat) : (removeCmd s id).qe.lastFn = s.qe.lastFn := rfl
@[simp] theorem removeCmd_qe_roundUsed (s : State) (id : Nat) : (removeCmd s id).qe.roundUsed = s.qe.roundUsed := rfl
@[simp] theorem removeCmd_qe_turnQs (s : State) (id : Nat) : (removeCmd s id).qe.turnQs = s.qe.turnQs := rfl
@[simp] theorem removeCmd_qe_lastOf (s : State) (id : Nat) : (removeCmd s id).qe.lastOf = s.qe.lastOf := rfl

/-! ## logError -/

@[simp] theorem logError_pending (s : State) (n : Nat) (mk : Nat → ErrEntry) : (logError s n mk).pending = s.pending := rfl
@[simp] theorem logError_now (s : State) (n : Nat) (mk : Nat → ErrEntry) : (logError s n mk).now = s.now := rfl
@[simp] theorem logError_free (s : State) (n : Nat) (mk : Nat → ErrEntry) : (logError s n mk).free = s.free := rfl
@[simp] theorem logError_out (s : State) (n : Nat) (mk : Nat → ErrEntry) : (logError s n mk).out = s.out := rfl
@[simp] theorem logError_glb (s : State) (n : Nat) (mk : Nat → ErrEntry) : (logError s n mk).glb = s.glb := rfl
@[simp] theorem logError_bpm (s : State) (n : Nat) (mk : Nat → ErrEntry) : (logError s n mk).bpm = s.bpm := rfl
@[simp] theorem logError_cx (s : State) (n : Nat) (mk : Nat → ErrEntry) : (logError s n mk).cx = s.cx := rfl
@[simp] theorem logError_tg (s : State) (n : Nat) (mk : Nat → ErrEntry) : (logError s n mk).tg = s.tg := rfl
@[simp] theorem logError_fm (s : State) (n : Nat) (mk : Nat → ErrEntry) : (logError s n mk).fm = s.fm := rfl
@[simp] theorem logError_rc (s : State) (n : Nat) (mk : Nat → ErrEntry) : (logError s n mk).rc = s.rc := rfl
@[simp] theorem logError_sv (s : State) (n : Nat) (mk : Nat → ErrEntry) : (logError s n mk).sv = s.sv := rfl
@[simp] theorem logError_rcl (s : State) (n : Nat) (mk : Nat → ErrEntry) : (logError s n mk).rcl = s.rcl := rfl
@[simp] theorem logError_ce (s : State) (n : Nat) (mk : Nat → ErrEntry) : (logError s n mk).ce = s.ce := rfl
@[simp] theorem logError_ps (s : State) (n : Nat) (mk : Nat → ErrEntry) : (logError s n mk).ps = s.ps := rfl
@[simp] theorem logError_nw (s : State) (n : Nat) (mk : Nat → ErrEntry) : (logError s n mk).nw = s.nw := rfl
@[simp] theorem logError_media (s : State) (n : Nat) (mk : Nat → ErrEntry) : (logError s n mk).media = s.media := rfl
@[simp] theorem logError_od (s : State) (n : Nat) (mk : Nat → ErrEntry) : (logError s n mk).od = s.od := rfl
@[simp] theorem logError_flash (s : State) (n : Nat) (mk : Nat → ErrEntry) : (logError s n mk).flash = s.flash := rfl
@[simp] theorem logError_mt (s : State) (n : Nat) (mk : Nat → ErrEntry) : (logError s n mk).mt = s.mt := rfl
@[simp] theorem logError_fi (s : State) (n : Nat) (mk : Nat → ErrEntry) : (logError s n mk).fi = s.fi := rfl
@[simp] theorem logError_pl (s : State) (n : Nat) (mk : Nat → ErrEntry) : (logError s n mk).pl = s.pl := rfl
@[simp] theorem logError_ls (s : State) (n : Nat) (mk : Nat → ErrEntry) : (logError s n mk).ls = s.ls := rfl
@[simp] theorem logError_fw (s : State) (n : Nat) (mk : Nat → ErrEntry) : (logError s n mk).fw = s.fw := rfl
@[simp] theorem logError_health (s : State) (n : Nat) (mk : Nat → ErrEntry) : (logError s n mk).health = s.health := rfl
@[simp] theorem logError_qe_queues (s : State) (n : Nat) (mk : Nat → ErrEntry) : (logError s n mk).qe.queues = s.qe.queues := rfl
@[simp] theorem logError_qe_assigns (s : State) (n : Nat) (mk : Nat → ErrEntry) : (logError s n mk).qe.assigns = s.qe.assigns := rfl
@[simp] theorem logError_qe_cmds (s : State) (n : Nat) (mk : Nat → ErrEntry) : (logError s n mk).qe.cmds = s.qe.cmds := rfl
@[simp] theorem logError_qe_nextId (s : State) (n : Nat) (mk : Nat → ErrEntry) : (logError s n mk).qe.nextId = s.qe.nextId := rfl
@[simp] theorem logError_qe_locks (s : State) (n : Nat) (mk : Nat → ErrEntry) : (logError s n mk).qe.locks = s.qe.locks := rfl
@[simp] theorem logError_qe_lockFull (s : State) (n : Nat) (mk : Nat → ErrEntry) : (logError s n mk).qe.lockFull = s.qe.lockFull := rfl
@[simp] theorem logError_qe_qprio (s : State) (n : Nat) (mk : Nat → ErrEntry) : (logError s n mk).qe.qprio = s.qe.qprio := rfl
@[simp] theorem logError_qe_held (s : State) (n : Nat) (mk : Nat → ErrEntry) : (logError s n mk).qe.held = s.qe.held := rfl
@[simp] theorem logError_qe_lastAdmin (s : State) (n : Nat) (mk : Nat → ErrEntry) : (logError s n mk).qe.lastAdmin = s.qe.lastAdmin := rfl
@[simp] theorem logError_qe_lastFn (s : State) (n : Nat) (mk : Nat → ErrEntry) : (logError s n mk).qe.lastFn = s.qe.lastFn := rfl
@[simp] theorem logError_qe_roundUsed (s : State) (n : Nat) (mk : Nat → ErrEntry) : (logError s n mk).qe.roundUsed = s.qe.roundUsed := rfl
@[simp] theorem logError_qe_turnQs (s : State) (n : Nat) (mk : Nat → ErrEntry) : (logError s n mk).qe.turnQs = s.qe.turnQs := rfl
@[simp] theorem logError_qe_lastOf (s : State) (n : Nat) (mk : Nat → ErrEntry) : (logError s n mk).qe.lastOf = s.qe.lastOf := rfl

/-! ## setSubst -/

@[simp] theorem setSubst_pending (s : State) (b : Nat) : (setSubst s b).pending = s.pending := rfl
@[simp] theorem setSubst_now (s : State) (b : Nat) : (setSubst s b).now = s.now := rfl
@[simp] theorem setSubst_free (s : State) (b : Nat) : (setSubst s b).free = s.free := rfl
@[simp] theorem setSubst_out (s : State) (b : Nat) : (setSubst s b).out = s.out := rfl
@[simp] theorem setSubst_glb (s : State) (b : Nat) : (setSubst s b).glb = s.glb := rfl
@[simp] theorem setSubst_qe (s : State) (b : Nat) : (setSubst s b).qe = s.qe := rfl
@[simp] theorem setSubst_bpm (s : State) (b : Nat) : (setSubst s b).bpm = s.bpm := rfl
@[simp] theorem setSubst_cx (s : State) (b : Nat) : (setSubst s b).cx = s.cx := rfl
@[simp] theorem setSubst_tg (s : State) (b : Nat) : (setSubst s b).tg = s.tg := rfl
@[simp] theorem setSubst_fm (s : State) (b : Nat) : (setSubst s b).fm = s.fm := rfl
@[simp] theorem setSubst_rc (s : State) (b : Nat) : (setSubst s b).rc = s.rc := rfl
@[simp] theorem setSubst_sv (s : State) (b : Nat) : (setSubst s b).sv = s.sv := rfl
@[simp] theorem setSubst_rcl (s : State) (b : Nat) : (setSubst s b).rcl = s.rcl := rfl
@[simp] theorem setSubst_ce (s : State) (b : Nat) : (setSubst s b).ce = s.ce := rfl
@[simp] theorem setSubst_ps (s : State) (b : Nat) : (setSubst s b).ps = s.ps := rfl
@[simp] theorem setSubst_nw (s : State) (b : Nat) : (setSubst s b).nw = s.nw := rfl
@[simp] theorem setSubst_media (s : State) (b : Nat) : (setSubst s b).media = s.media := rfl
@[simp] theorem setSubst_od (s : State) (b : Nat) : (setSubst s b).od = s.od := rfl
@[simp] theorem setSubst_flash (s : State) (b : Nat) : (setSubst s b).flash = s.flash := rfl
@[simp] theorem setSubst_mt (s : State) (b : Nat) : (setSubst s b).mt = s.mt := rfl
@[simp] theorem setSubst_fi (s : State) (b : Nat) : (setSubst s b).fi = s.fi := rfl
@[simp] theorem setSubst_pl (s : State) (b : Nat) : (setSubst s b).pl = s.pl := rfl
@[simp] theorem setSubst_ls (s : State) (b : Nat) : (setSubst s b).ls = s.ls := rfl
@[simp] theorem setSubst_fw (s : State) (b : Nat) : (setSubst s b).fw = s.fw := rfl
@[simp] theorem setSubst_health_ring (s : State) (b : Nat) : (setSubst s b).health.ring = s.health.ring := rfl
@[simp] theorem setSubst_health_seq (s : State) (b : Nat) : (setSubst s b).health.seq = s.health.seq := rfl
@[simp] theorem setSubst_health_badEph (s : State) (b : Nat) : (setSubst s b).health.badEph = s.health.badEph := rfl
@[simp] theorem setSubst_health_dropped (s : State) (b : Nat) : (setSubst s b).health.dropped = s.health.dropped := rfl
@[simp] theorem setSubst_health_lateFaults (s : State) (b : Nat) : (setSubst s b).health.lateFaults = s.health.lateFaults := rfl
@[simp] theorem setSubst_health_lateEvents (s : State) (b : Nat) : (setSubst s b).health.lateEvents = s.health.lateEvents := rfl
@[simp] theorem setSubst_health_satAtUnmount (s : State) (b : Nat) : (setSubst s b).health.satAtUnmount = s.health.satAtUnmount := rfl

/-! ## setPool -/

@[simp] theorem setPool_pending (s : State) (p : Nat) (x : Pool) : (setPool s p x).pending = s.pending := rfl
@[simp] theorem setPool_now (s : State) (p : Nat) (x : Pool) : (setPool s p x).now = s.now := rfl
@[simp] theorem setPool_free (s : State) (p : Nat) (x : Pool) : (setPool s p x).free = s.free := rfl
@[simp] theorem setPool_out (s : State) (p : Nat) (x : Pool) : (setPool s p x).out = s.out := rfl
@[simp] theorem setPool_glb (s : State) (p : Nat) (x : Pool) : (setPool s p x).glb = s.glb := rfl
@[simp] theorem setPool_qe (s : State) (p : Nat) (x : Pool) : (setPool s p x).qe = s.qe := rfl
@[simp] theorem setPool_cx (s : State) (p : Nat) (x : Pool) : (setPool s p x).cx = s.cx := rfl
@[simp] theorem setPool_tg (s : State) (p : Nat) (x : Pool) : (setPool s p x).tg = s.tg := rfl
@[simp] theorem setPool_fm (s : State) (p : Nat) (x : Pool) : (setPool s p x).fm = s.fm := rfl
@[simp] theorem setPool_rc (s : State) (p : Nat) (x : Pool) : (setPool s p x).rc = s.rc := rfl
@[simp] theorem setPool_sv (s : State) (p : Nat) (x : Pool) : (setPool s p x).sv = s.sv := rfl
@[simp] theorem setPool_rcl (s : State) (p : Nat) (x : Pool) : (setPool s p x).rcl = s.rcl := rfl
@[simp] theorem setPool_ce (s : State) (p : Nat) (x : Pool) : (setPool s p x).ce = s.ce := rfl
@[simp] theorem setPool_ps (s : State) (p : Nat) (x : Pool) : (setPool s p x).ps = s.ps := rfl
@[simp] theorem setPool_nw (s : State) (p : Nat) (x : Pool) : (setPool s p x).nw = s.nw := rfl
@[simp] theorem setPool_media (s : State) (p : Nat) (x : Pool) : (setPool s p x).media = s.media := rfl
@[simp] theorem setPool_od (s : State) (p : Nat) (x : Pool) : (setPool s p x).od = s.od := rfl
@[simp] theorem setPool_flash (s : State) (p : Nat) (x : Pool) : (setPool s p x).flash = s.flash := rfl
@[simp] theorem setPool_mt (s : State) (p : Nat) (x : Pool) : (setPool s p x).mt = s.mt := rfl
@[simp] theorem setPool_fi (s : State) (p : Nat) (x : Pool) : (setPool s p x).fi = s.fi := rfl
@[simp] theorem setPool_pl (s : State) (p : Nat) (x : Pool) : (setPool s p x).pl = s.pl := rfl
@[simp] theorem setPool_ls (s : State) (p : Nat) (x : Pool) : (setPool s p x).ls = s.ls := rfl
@[simp] theorem setPool_fw (s : State) (p : Nat) (x : Pool) : (setPool s p x).fw = s.fw := rfl
@[simp] theorem setPool_health (s : State) (p : Nat) (x : Pool) : (setPool s p x).health = s.health := rfl
@[simp] theorem setPool_bpm_mem (s : State) (p : Nat) (x : Pool) : (setPool s p x).bpm.mem = s.bpm.mem := rfl
@[simp] theorem setPool_bpm_poison (s : State) (p : Nat) (x : Pool) : (setPool s p x).bpm.poison = s.bpm.poison := rfl
@[simp] theorem setPool_bpm_granted (s : State) (p : Nat) (x : Pool) : (setPool s p x).bpm.granted = s.bpm.granted := rfl
@[simp] theorem setPool_bpm_rejects (s : State) (p : Nat) (x : Pool) : (setPool s p x).bpm.rejects = s.bpm.rejects := rfl
@[simp] theorem setPool_bpm_rejPool (s : State) (p : Nat) (x : Pool) : (setPool s p x).bpm.rejPool = s.bpm.rejPool := rfl
@[simp] theorem setPool_bpm_rejUnit (s : State) (p : Nat) (x : Pool) : (setPool s p x).bpm.rejUnit = s.bpm.rejUnit := rfl
@[simp] theorem setPool_bpm_rejHolders (s : State) (p : Nat) (x : Pool) : (setPool s p x).bpm.rejHolders = s.bpm.rejHolders := rfl
@[simp] theorem setPool_bpm_rejFree (s : State) (p : Nat) (x : Pool) : (setPool s p x).bpm.rejFree = s.bpm.rejFree := rfl
@[simp] theorem setPool_bpm_rejIdx (s : State) (p : Nat) (x : Pool) : (setPool s p x).bpm.rejIdx = s.bpm.rejIdx := rfl
@[simp] theorem setPool_bpm_eccCor (s : State) (p : Nat) (x : Pool) : (setPool s p x).bpm.eccCor = s.bpm.eccCor := rfl
@[simp] theorem setPool_bpm_eccUnc (s : State) (p : Nat) (x : Pool) : (setPool s p x).bpm.eccUnc = s.bpm.eccUnc := rfl
@[simp] theorem setPool_bpm_eccAddr (s : State) (p : Nat) (x : Pool) : (setPool s p x).bpm.eccAddr = s.bpm.eccAddr := rfl
@[simp] theorem setPool_bpm_scrub (s : State) (p : Nat) (x : Pool) : (setPool s p x).bpm.scrub = s.bpm.scrub := rfl
@[simp] theorem setPool_bpm_corTotal (s : State) (p : Nat) (x : Pool) : (setPool s p x).bpm.corTotal = s.bpm.corTotal := rfl
@[simp] theorem setPool_bpm_uncTotal (s : State) (p : Nat) (x : Pool) : (setPool s p x).bpm.uncTotal = s.bpm.uncTotal := rfl

/-! ## clearPoison -/

@[simp] theorem clearPoison_pending (s : State) (a n : Nat) : (clearPoison s a n).pending = s.pending := rfl
@[simp] theorem clearPoison_now (s : State) (a n : Nat) : (clearPoison s a n).now = s.now := rfl
@[simp] theorem clearPoison_free (s : State) (a n : Nat) : (clearPoison s a n).free = s.free := rfl
@[simp] theorem clearPoison_out (s : State) (a n : Nat) : (clearPoison s a n).out = s.out := rfl
@[simp] theorem clearPoison_glb (s : State) (a n : Nat) : (clearPoison s a n).glb = s.glb := rfl
@[simp] theorem clearPoison_qe (s : State) (a n : Nat) : (clearPoison s a n).qe = s.qe := rfl
@[simp] theorem clearPoison_cx (s : State) (a n : Nat) : (clearPoison s a n).cx = s.cx := rfl
@[simp] theorem clearPoison_tg (s : State) (a n : Nat) : (clearPoison s a n).tg = s.tg := rfl
@[simp] theorem clearPoison_fm (s : State) (a n : Nat) : (clearPoison s a n).fm = s.fm := rfl
@[simp] theorem clearPoison_rc (s : State) (a n : Nat) : (clearPoison s a n).rc = s.rc := rfl
@[simp] theorem clearPoison_sv (s : State) (a n : Nat) : (clearPoison s a n).sv = s.sv := rfl
@[simp] theorem clearPoison_rcl (s : State) (a n : Nat) : (clearPoison s a n).rcl = s.rcl := rfl
@[simp] theorem clearPoison_ce (s : State) (a n : Nat) : (clearPoison s a n).ce = s.ce := rfl
@[simp] theorem clearPoison_ps (s : State) (a n : Nat) : (clearPoison s a n).ps = s.ps := rfl
@[simp] theorem clearPoison_nw (s : State) (a n : Nat) : (clearPoison s a n).nw = s.nw := rfl
@[simp] theorem clearPoison_media (s : State) (a n : Nat) : (clearPoison s a n).media = s.media := rfl
@[simp] theorem clearPoison_od (s : State) (a n : Nat) : (clearPoison s a n).od = s.od := rfl
@[simp] theorem clearPoison_flash (s : State) (a n : Nat) : (clearPoison s a n).flash = s.flash := rfl
@[simp] theorem clearPoison_mt (s : State) (a n : Nat) : (clearPoison s a n).mt = s.mt := rfl
@[simp] theorem clearPoison_fi (s : State) (a n : Nat) : (clearPoison s a n).fi = s.fi := rfl
@[simp] theorem clearPoison_pl (s : State) (a n : Nat) : (clearPoison s a n).pl = s.pl := rfl
@[simp] theorem clearPoison_ls (s : State) (a n : Nat) : (clearPoison s a n).ls = s.ls := rfl
@[simp] theorem clearPoison_fw (s : State) (a n : Nat) : (clearPoison s a n).fw = s.fw := rfl
@[simp] theorem clearPoison_health (s : State) (a n : Nat) : (clearPoison s a n).health = s.health := rfl
@[simp] theorem clearPoison_bpm_pools (s : State) (a n : Nat) : (clearPoison s a n).bpm.pools = s.bpm.pools := rfl
@[simp] theorem clearPoison_bpm_mem (s : State) (a n : Nat) : (clearPoison s a n).bpm.mem = s.bpm.mem := rfl
@[simp] theorem clearPoison_bpm_granted (s : State) (a n : Nat) : (clearPoison s a n).bpm.granted = s.bpm.granted := rfl
@[simp] theorem clearPoison_bpm_rejects (s : State) (a n : Nat) : (clearPoison s a n).bpm.rejects = s.bpm.rejects := rfl
@[simp] theorem clearPoison_bpm_rejPool (s : State) (a n : Nat) : (clearPoison s a n).bpm.rejPool = s.bpm.rejPool := rfl
@[simp] theorem clearPoison_bpm_rejUnit (s : State) (a n : Nat) : (clearPoison s a n).bpm.rejUnit = s.bpm.rejUnit := rfl
@[simp] theorem clearPoison_bpm_rejHolders (s : State) (a n : Nat) : (clearPoison s a n).bpm.rejHolders = s.bpm.rejHolders := rfl
@[simp] theorem clearPoison_bpm_rejFree (s : State) (a n : Nat) : (clearPoison s a n).bpm.rejFree = s.bpm.rejFree := rfl
@[simp] theorem clearPoison_bpm_rejIdx (s : State) (a n : Nat) : (clearPoison s a n).bpm.rejIdx = s.bpm.rejIdx := rfl
@[simp] theorem clearPoison_bpm_eccCor (s : State) (a n : Nat) : (clearPoison s a n).bpm.eccCor = s.bpm.eccCor := rfl
@[simp] theorem clearPoison_bpm_eccUnc (s : State) (a n : Nat) : (clearPoison s a n).bpm.eccUnc = s.bpm.eccUnc := rfl
@[simp] theorem clearPoison_bpm_eccAddr (s : State) (a n : Nat) : (clearPoison s a n).bpm.eccAddr = s.bpm.eccAddr := rfl
@[simp] theorem clearPoison_bpm_scrub (s : State) (a n : Nat) : (clearPoison s a n).bpm.scrub = s.bpm.scrub := rfl
@[simp] theorem clearPoison_bpm_corTotal (s : State) (a n : Nat) : (clearPoison s a n).bpm.corTotal = s.bpm.corTotal := rfl
@[simp] theorem clearPoison_bpm_uncTotal (s : State) (a n : Nat) : (clearPoison s a n).bpm.uncTotal = s.bpm.uncTotal := rfl

/-! ## setPart -/

@[simp] theorem setPart_pending (s : State) (x : Part) : (setPart s x).pending = s.pending := rfl
@[simp] theorem setPart_now (s : State) (x : Part) : (setPart s x).now = s.now := rfl
@[simp] theorem setPart_free (s : State) (x : Part) : (setPart s x).free = s.free := rfl
@[simp] theorem setPart_out (s : State) (x : Part) : (setPart s x).out = s.out := rfl
@[simp] theorem setPart_glb (s : State) (x : Part) : (setPart s x).glb = s.glb := rfl
@[simp] theorem setPart_qe (s : State) (x : Part) : (setPart s x).qe = s.qe := rfl
@[simp] theorem setPart_bpm (s : State) (x : Part) : (setPart s x).bpm = s.bpm := rfl
@[simp] theorem setPart_cx (s : State) (x : Part) : (setPart s x).cx = s.cx := rfl
@[simp] theorem setPart_tg (s : State) (x : Part) : (setPart s x).tg = s.tg := rfl
@[simp] theorem setPart_rc (s : State) (x : Part) : (setPart s x).rc = s.rc := rfl
@[simp] theorem setPart_sv (s : State) (x : Part) : (setPart s x).sv = s.sv := rfl
@[simp] theorem setPart_rcl (s : State) (x : Part) : (setPart s x).rcl = s.rcl := rfl
@[simp] theorem setPart_ce (s : State) (x : Part) : (setPart s x).ce = s.ce := rfl
@[simp] theorem setPart_ps (s : State) (x : Part) : (setPart s x).ps = s.ps := rfl
@[simp] theorem setPart_nw (s : State) (x : Part) : (setPart s x).nw = s.nw := rfl
@[simp] theorem setPart_media (s : State) (x : Part) : (setPart s x).media = s.media := rfl
@[simp] theorem setPart_od (s : State) (x : Part) : (setPart s x).od = s.od := rfl
@[simp] theorem setPart_flash (s : State) (x : Part) : (setPart s x).flash = s.flash := rfl
@[simp] theorem setPart_mt (s : State) (x : Part) : (setPart s x).mt = s.mt := rfl
@[simp] theorem setPart_fi (s : State) (x : Part) : (setPart s x).fi = s.fi := rfl
@[simp] theorem setPart_pl (s : State) (x : Part) : (setPart s x).pl = s.pl := rfl
@[simp] theorem setPart_ls (s : State) (x : Part) : (setPart s x).ls = s.ls := rfl
@[simp] theorem setPart_fw (s : State) (x : Part) : (setPart s x).fw = s.fw := rfl
@[simp] theorem setPart_health (s : State) (x : Part) : (setPart s x).health = s.health := rfl
@[simp] theorem setPart_fm_recs (s : State) (x : Part) : (setPart s x).fm.recs = s.fm.recs := rfl
@[simp] theorem setPart_fm_nextRec (s : State) (x : Part) : (setPart s x).fm.nextRec = s.fm.nextRec := rfl
@[simp] theorem setPart_fm_nextReady (s : State) (x : Part) : (setPart s x).fm.nextReady = s.fm.nextReady := rfl
@[simp] theorem setPart_fm_sealed (s : State) (x : Part) : (setPart s x).fm.sealed = s.fm.sealed := rfl
@[simp] theorem setPart_fm_wstate (s : State) (x : Part) : (setPart s x).fm.wstate = s.fm.wstate := rfl
@[simp] theorem setPart_fm_speed (s : State) (x : Part) : (setPart s x).fm.speed = s.fm.speed := rfl
@[simp] theorem setPart_fm_wrap (s : State) (x : Part) : (setPart s x).fm.wrap = s.fm.wrap := rfl
@[simp] theorem setPart_fm_wpart (s : State) (x : Part) : (setPart s x).fm.wpart = s.fm.wpart := rfl
@[simp] theorem setPart_fm_current (s : State) (x : Part) : (setPart s x).fm.current = s.fm.current := rfl
@[simp] theorem setPart_fm_gate (s : State) (x : Part) : (setPart s x).fm.gate = s.fm.gate := rfl
@[simp] theorem setPart_fm_startTries (s : State) (x : Part) : (setPart s x).fm.startTries = s.fm.startTries := rfl
@[simp] theorem setPart_fm_closing (s : State) (x : Part) : (setPart s x).fm.closing = s.fm.closing := rfl
@[simp] theorem setPart_fm_closeStep (s : State) (x : Part) : (setPart s x).fm.closeStep = s.fm.closeStep := rfl
@[simp] theorem setPart_fm_members (s : State) (x : Part) : (setPart s x).fm.members = s.fm.members := rfl
@[simp] theorem setPart_fm_mag (s : State) (x : Part) : (setPart s x).fm.mag = s.fm.mag := rfl
@[simp] theorem setPart_fm_late (s : State) (x : Part) : (setPart s x).fm.late = s.fm.late := rfl
@[simp] theorem setPart_fm_retired (s : State) (x : Part) : (setPart s x).fm.retired = s.fm.retired := rfl
@[simp] theorem setPart_fm_tb (s : State) (x : Part) : (setPart s x).fm.tb = s.fm.tb := rfl
@[simp] theorem setPart_fm_pb (s : State) (x : Part) : (setPart s x).fm.pb = s.fm.pb := rfl
@[simp] theorem setPart_fm_consec (s : State) (x : Part) : (setPart s x).fm.consec = s.fm.consec := rfl
@[simp] theorem setPart_fm_segsT (s : State) (x : Part) : (setPart s x).fm.segsT = s.fm.segsT := rfl
@[simp] theorem setPart_fm_segsP (s : State) (x : Part) : (setPart s x).fm.segsP = s.fm.segsP := rfl
@[simp] theorem setPart_fm_drvFault (s : State) (x : Part) : (setPart s x).fm.drvFault = s.fm.drvFault := rfl
@[simp] theorem setPart_fm_wcur (s : State) (x : Part) : (setPart s x).fm.wcur = s.fm.wcur := rfl
@[simp] theorem setPart_fm_wset (s : State) (x : Part) : (setPart s x).fm.wset = s.fm.wset := rfl
@[simp] theorem setPart_fm_wnext (s : State) (x : Part) : (setPart s x).fm.wnext = s.fm.wnext := rfl
@[simp] theorem setPart_fm_curveBad (s : State) (x : Part) : (setPart s x).fm.curveBad = s.fm.curveBad := rfl
@[simp] theorem setPart_fm_trw (s : State) (x : Part) : (setPart s x).fm.trw = s.fm.trw := rfl
@[simp] theorem setPart_fm_whole (s : State) (x : Part) : (setPart s x).fm.whole = s.fm.whole := rfl
@[simp] theorem setPart_fm_abandonedCnt (s : State) (x : Part) : (setPart s x).fm.abandonedCnt = s.fm.abandonedCnt := rfl
@[simp] theorem setPart_fm_inhibits (s : State) (x : Part) : (setPart s x).fm.inhibits = s.fm.inhibits := rfl
@[simp] theorem setPart_fm_backhitch (s : State) (x : Part) : (setPart s x).fm.backhitch = s.fm.backhitch := rfl
@[simp] theorem setPart_fm_rate (s : State) (x : Part) : (setPart s x).fm.rate = s.fm.rate := rfl
@[simp] theorem setPart_fm_rateAt (s : State) (x : Part) : (setPart s x).fm.rateAt = s.fm.rateAt := rfl
@[simp] theorem setPart_fm_lowSince (s : State) (x : Part) : (setPart s x).fm.lowSince = s.fm.lowSince := rfl
@[simp] theorem setPart_fm_downSince (s : State) (x : Part) : (setPart s x).fm.downSince = s.fm.downSince := rfl
@[simp] theorem setPart_fm_reallocs (s : State) (x : Part) : (setPart s x).fm.reallocs = s.fm.reallocs := rfl
@[simp] theorem setPart_fm_reallocDone (s : State) (x : Part) : (setPart s x).fm.reallocDone = s.fm.reallocDone := rfl
@[simp] theorem setPart_fm_reallocDropped (s : State) (x : Part) : (setPart s x).fm.reallocDropped = s.fm.reallocDropped := rfl
@[simp] theorem setPart_fm_mirror (s : State) (x : Part) : (setPart s x).fm.mirror = s.fm.mirror := rfl
@[simp] theorem setPart_fm_almanac (s : State) (x : Part) : (setPart s x).fm.almanac = s.fm.almanac := rfl
@[simp] theorem setPart_fm_posMap (s : State) (x : Part) : (setPart s x).fm.posMap = s.fm.posMap := rfl
@[simp] theorem setPart_fm_servoTry (s : State) (x : Part) : (setPart s x).fm.servoTry = s.fm.servoTry := rfl
@[simp] theorem setPart_fm_again (s : State) (x : Part) : (setPart s x).fm.again = s.fm.again := rfl

/-! ## modPart -/

@[simp] theorem modPart_pending (s : State) (p : Nat) (f : Part → Part) : (modPart s p f).pending = s.pending := rfl
@[simp] theorem modPart_now (s : State) (p : Nat) (f : Part → Part) : (modPart s p f).now = s.now := rfl
@[simp] theorem modPart_free (s : State) (p : Nat) (f : Part → Part) : (modPart s p f).free = s.free := rfl
@[simp] theorem modPart_out (s : State) (p : Nat) (f : Part → Part) : (modPart s p f).out = s.out := rfl
@[simp] theorem modPart_glb (s : State) (p : Nat) (f : Part → Part) : (modPart s p f).glb = s.glb := rfl
@[simp] theorem modPart_qe (s : State) (p : Nat) (f : Part → Part) : (modPart s p f).qe = s.qe := rfl
@[simp] theorem modPart_bpm (s : State) (p : Nat) (f : Part → Part) : (modPart s p f).bpm = s.bpm := rfl
@[simp] theorem modPart_cx (s : State) (p : Nat) (f : Part → Part) : (modPart s p f).cx = s.cx := rfl
@[simp] theorem modPart_tg (s : State) (p : Nat) (f : Part → Part) : (modPart s p f).tg = s.tg := rfl
@[simp] theorem modPart_rc (s : State) (p : Nat) (f : Part → Part) : (modPart s p f).rc = s.rc := rfl
@[simp] theorem modPart_sv (s : State) (p : Nat) (f : Part → Part) : (modPart s p f).sv = s.sv := rfl
@[simp] theorem modPart_rcl (s : State) (p : Nat) (f : Part → Part) : (modPart s p f).rcl = s.rcl := rfl
@[simp] theorem modPart_ce (s : State) (p : Nat) (f : Part → Part) : (modPart s p f).ce = s.ce := rfl
@[simp] theorem modPart_ps (s : State) (p : Nat) (f : Part → Part) : (modPart s p f).ps = s.ps := rfl
@[simp] theorem modPart_nw (s : State) (p : Nat) (f : Part → Part) : (modPart s p f).nw = s.nw := rfl
@[simp] theorem modPart_media (s : State) (p : Nat) (f : Part → Part) : (modPart s p f).media = s.media := rfl
@[simp] theorem modPart_od (s : State) (p : Nat) (f : Part → Part) : (modPart s p f).od = s.od := rfl
@[simp] theorem modPart_flash (s : State) (p : Nat) (f : Part → Part) : (modPart s p f).flash = s.flash := rfl
@[simp] theorem modPart_mt (s : State) (p : Nat) (f : Part → Part) : (modPart s p f).mt = s.mt := rfl
@[simp] theorem modPart_fi (s : State) (p : Nat) (f : Part → Part) : (modPart s p f).fi = s.fi := rfl
@[simp] theorem modPart_pl (s : State) (p : Nat) (f : Part → Part) : (modPart s p f).pl = s.pl := rfl
@[simp] theorem modPart_ls (s : State) (p : Nat) (f : Part → Part) : (modPart s p f).ls = s.ls := rfl
@[simp] theorem modPart_fw (s : State) (p : Nat) (f : Part → Part) : (modPart s p f).fw = s.fw := rfl
@[simp] theorem modPart_health (s : State) (p : Nat) (f : Part → Part) : (modPart s p f).health = s.health := rfl
@[simp] theorem modPart_fm_recs (s : State) (p : Nat) (f : Part → Part) : (modPart s p f).fm.recs = s.fm.recs := rfl
@[simp] theorem modPart_fm_nextRec (s : State) (p : Nat) (f : Part → Part) : (modPart s p f).fm.nextRec = s.fm.nextRec := rfl
@[simp] theorem modPart_fm_nextReady (s : State) (p : Nat) (f : Part → Part) : (modPart s p f).fm.nextReady = s.fm.nextReady := rfl
@[simp] theorem modPart_fm_sealed (s : State) (p : Nat) (f : Part → Part) : (modPart s p f).fm.sealed = s.fm.sealed := rfl
@[simp] theorem modPart_fm_wstate (s : State) (p : Nat) (f : Part → Part) : (modPart s p f).fm.wstate = s.fm.wstate := rfl
@[simp] theorem modPart_fm_speed (s : State) (p : Nat) (f : Part → Part) : (modPart s p f).fm.speed = s.fm.speed := rfl
@[simp] theorem modPart_fm_wrap (s : State) (p : Nat) (f : Part → Part) : (modPart s p f).fm.wrap = s.fm.wrap := rfl
@[simp] theorem modPart_fm_wpart (s : State) (p : Nat) (f : Part → Part) : (modPart s p f).fm.wpart = s.fm.wpart := rfl
@[simp] theorem modPart_fm_current (s : State) (p : Nat) (f : Part → Part) : (modPart s p f).fm.current = s.fm.current := rfl
@[simp] theorem modPart_fm_gate (s : State) (p : Nat) (f : Part → Part) : (modPart s p f).fm.gate = s.fm.gate := rfl
@[simp] theorem modPart_fm_startTries (s : State) (p : Nat) (f : Part → Part) : (modPart s p f).fm.startTries = s.fm.startTries := rfl
@[simp] theorem modPart_fm_closing (s : State) (p : Nat) (f : Part → Part) : (modPart s p f).fm.closing = s.fm.closing := rfl
@[simp] theorem modPart_fm_closeStep (s : State) (p : Nat) (f : Part → Part) : (modPart s p f).fm.closeStep = s.fm.closeStep := rfl
@[simp] theorem modPart_fm_members (s : State) (p : Nat) (f : Part → Part) : (modPart s p f).fm.members = s.fm.members := rfl
@[simp] theorem modPart_fm_mag (s : State) (p : Nat) (f : Part → Part) : (modPart s p f).fm.mag = s.fm.mag := rfl
@[simp] theorem modPart_fm_late (s : State) (p : Nat) (f : Part → Part) : (modPart s p f).fm.late = s.fm.late := rfl
@[simp] theorem modPart_fm_retired (s : State) (p : Nat) (f : Part → Part) : (modPart s p f).fm.retired = s.fm.retired := rfl
@[simp] theorem modPart_fm_tb (s : State) (p : Nat) (f : Part → Part) : (modPart s p f).fm.tb = s.fm.tb := rfl
@[simp] theorem modPart_fm_pb (s : State) (p : Nat) (f : Part → Part) : (modPart s p f).fm.pb = s.fm.pb := rfl
@[simp] theorem modPart_fm_consec (s : State) (p : Nat) (f : Part → Part) : (modPart s p f).fm.consec = s.fm.consec := rfl
@[simp] theorem modPart_fm_segsT (s : State) (p : Nat) (f : Part → Part) : (modPart s p f).fm.segsT = s.fm.segsT := rfl
@[simp] theorem modPart_fm_segsP (s : State) (p : Nat) (f : Part → Part) : (modPart s p f).fm.segsP = s.fm.segsP := rfl
@[simp] theorem modPart_fm_drvFault (s : State) (p : Nat) (f : Part → Part) : (modPart s p f).fm.drvFault = s.fm.drvFault := rfl
@[simp] theorem modPart_fm_wcur (s : State) (p : Nat) (f : Part → Part) : (modPart s p f).fm.wcur = s.fm.wcur := rfl
@[simp] theorem modPart_fm_wset (s : State) (p : Nat) (f : Part → Part) : (modPart s p f).fm.wset = s.fm.wset := rfl
@[simp] theorem modPart_fm_wnext (s : State) (p : Nat) (f : Part → Part) : (modPart s p f).fm.wnext = s.fm.wnext := rfl
@[simp] theorem modPart_fm_curveBad (s : State) (p : Nat) (f : Part → Part) : (modPart s p f).fm.curveBad = s.fm.curveBad := rfl
@[simp] theorem modPart_fm_trw (s : State) (p : Nat) (f : Part → Part) : (modPart s p f).fm.trw = s.fm.trw := rfl
@[simp] theorem modPart_fm_whole (s : State) (p : Nat) (f : Part → Part) : (modPart s p f).fm.whole = s.fm.whole := rfl
@[simp] theorem modPart_fm_abandonedCnt (s : State) (p : Nat) (f : Part → Part) : (modPart s p f).fm.abandonedCnt = s.fm.abandonedCnt := rfl
@[simp] theorem modPart_fm_inhibits (s : State) (p : Nat) (f : Part → Part) : (modPart s p f).fm.inhibits = s.fm.inhibits := rfl
@[simp] theorem modPart_fm_backhitch (s : State) (p : Nat) (f : Part → Part) : (modPart s p f).fm.backhitch = s.fm.backhitch := rfl
@[simp] theorem modPart_fm_rate (s : State) (p : Nat) (f : Part → Part) : (modPart s p f).fm.rate = s.fm.rate := rfl
@[simp] theorem modPart_fm_rateAt (s : State) (p : Nat) (f : Part → Part) : (modPart s p f).fm.rateAt = s.fm.rateAt := rfl
@[simp] theorem modPart_fm_lowSince (s : State) (p : Nat) (f : Part → Part) : (modPart s p f).fm.lowSince = s.fm.lowSince := rfl
@[simp] theorem modPart_fm_downSince (s : State) (p : Nat) (f : Part → Part) : (modPart s p f).fm.downSince = s.fm.downSince := rfl
@[simp] theorem modPart_fm_reallocs (s : State) (p : Nat) (f : Part → Part) : (modPart s p f).fm.reallocs = s.fm.reallocs := rfl
@[simp] theorem modPart_fm_reallocDone (s : State) (p : Nat) (f : Part → Part) : (modPart s p f).fm.reallocDone = s.fm.reallocDone := rfl
@[simp] theorem modPart_fm_reallocDropped (s : State) (p : Nat) (f : Part → Part) : (modPart s p f).fm.reallocDropped = s.fm.reallocDropped := rfl
@[simp] theorem modPart_fm_mirror (s : State) (p : Nat) (f : Part → Part) : (modPart s p f).fm.mirror = s.fm.mirror := rfl
@[simp] theorem modPart_fm_almanac (s : State) (p : Nat) (f : Part → Part) : (modPart s p f).fm.almanac = s.fm.almanac := rfl
@[simp] theorem modPart_fm_posMap (s : State) (p : Nat) (f : Part → Part) : (modPart s p f).fm.posMap = s.fm.posMap := rfl
@[simp] theorem modPart_fm_servoTry (s : State) (p : Nat) (f : Part → Part) : (modPart s p f).fm.servoTry = s.fm.servoTry := rfl
@[simp] theorem modPart_fm_again (s : State) (p : Nat) (f : Part → Part) : (modPart s p f).fm.again = s.fm.again := rfl

/-! ## modRec -/

@[simp] theorem modRec_pending (s : State) (id : Nat) (f : RecJob → RecJob) : (modRec s id f).pending = s.pending := rfl
@[simp] theorem modRec_now (s : State) (id : Nat) (f : RecJob → RecJob) : (modRec s id f).now = s.now := rfl
@[simp] theorem modRec_free (s : State) (id : Nat) (f : RecJob → RecJob) : (modRec s id f).free = s.free := rfl
@[simp] theorem modRec_out (s : State) (id : Nat) (f : RecJob → RecJob) : (modRec s id f).out = s.out := rfl
@[simp] theorem modRec_glb (s : State) (id : Nat) (f : RecJob → RecJob) : (modRec s id f).glb = s.glb := rfl
@[simp] theorem modRec_qe (s : State) (id : Nat) (f : RecJob → RecJob) : (modRec s id f).qe = s.qe := rfl
@[simp] theorem modRec_bpm (s : State) (id : Nat) (f : RecJob → RecJob) : (modRec s id f).bpm = s.bpm := rfl
@[simp] theorem modRec_cx (s : State) (id : Nat) (f : RecJob → RecJob) : (modRec s id f).cx = s.cx := rfl
@[simp] theorem modRec_tg (s : State) (id : Nat) (f : RecJob → RecJob) : (modRec s id f).tg = s.tg := rfl
@[simp] theorem modRec_rc (s : State) (id : Nat) (f : RecJob → RecJob) : (modRec s id f).rc = s.rc := rfl
@[simp] theorem modRec_sv (s : State) (id : Nat) (f : RecJob → RecJob) : (modRec s id f).sv = s.sv := rfl
@[simp] theorem modRec_rcl (s : State) (id : Nat) (f : RecJob → RecJob) : (modRec s id f).rcl = s.rcl := rfl
@[simp] theorem modRec_ce (s : State) (id : Nat) (f : RecJob → RecJob) : (modRec s id f).ce = s.ce := rfl
@[simp] theorem modRec_ps (s : State) (id : Nat) (f : RecJob → RecJob) : (modRec s id f).ps = s.ps := rfl
@[simp] theorem modRec_nw (s : State) (id : Nat) (f : RecJob → RecJob) : (modRec s id f).nw = s.nw := rfl
@[simp] theorem modRec_media (s : State) (id : Nat) (f : RecJob → RecJob) : (modRec s id f).media = s.media := rfl
@[simp] theorem modRec_od (s : State) (id : Nat) (f : RecJob → RecJob) : (modRec s id f).od = s.od := rfl
@[simp] theorem modRec_flash (s : State) (id : Nat) (f : RecJob → RecJob) : (modRec s id f).flash = s.flash := rfl
@[simp] theorem modRec_mt (s : State) (id : Nat) (f : RecJob → RecJob) : (modRec s id f).mt = s.mt := rfl
@[simp] theorem modRec_fi (s : State) (id : Nat) (f : RecJob → RecJob) : (modRec s id f).fi = s.fi := rfl
@[simp] theorem modRec_pl (s : State) (id : Nat) (f : RecJob → RecJob) : (modRec s id f).pl = s.pl := rfl
@[simp] theorem modRec_ls (s : State) (id : Nat) (f : RecJob → RecJob) : (modRec s id f).ls = s.ls := rfl
@[simp] theorem modRec_fw (s : State) (id : Nat) (f : RecJob → RecJob) : (modRec s id f).fw = s.fw := rfl
@[simp] theorem modRec_health (s : State) (id : Nat) (f : RecJob → RecJob) : (modRec s id f).health = s.health := rfl
@[simp] theorem modRec_fm_parts (s : State) (id : Nat) (f : RecJob → RecJob) : (modRec s id f).fm.parts = s.fm.parts := rfl
@[simp] theorem modRec_fm_nextRec (s : State) (id : Nat) (f : RecJob → RecJob) : (modRec s id f).fm.nextRec = s.fm.nextRec := rfl
@[simp] theorem modRec_fm_nextReady (s : State) (id : Nat) (f : RecJob → RecJob) : (modRec s id f).fm.nextReady = s.fm.nextReady := rfl
@[simp] theorem modRec_fm_sealed (s : State) (id : Nat) (f : RecJob → RecJob) : (modRec s id f).fm.sealed = s.fm.sealed := rfl
@[simp] theorem modRec_fm_wstate (s : State) (id : Nat) (f : RecJob → RecJob) : (modRec s id f).fm.wstate = s.fm.wstate := rfl
@[simp] theorem modRec_fm_speed (s : State) (id : Nat) (f : RecJob → RecJob) : (modRec s id f).fm.speed = s.fm.speed := rfl
@[simp] theorem modRec_fm_wrap (s : State) (id : Nat) (f : RecJob → RecJob) : (modRec s id f).fm.wrap = s.fm.wrap := rfl
@[simp] theorem modRec_fm_wpart (s : State) (id : Nat) (f : RecJob → RecJob) : (modRec s id f).fm.wpart = s.fm.wpart := rfl
@[simp] theorem modRec_fm_current (s : State) (id : Nat) (f : RecJob → RecJob) : (modRec s id f).fm.current = s.fm.current := rfl
@[simp] theorem modRec_fm_gate (s : State) (id : Nat) (f : RecJob → RecJob) : (modRec s id f).fm.gate = s.fm.gate := rfl
@[simp] theorem modRec_fm_startTries (s : State) (id : Nat) (f : RecJob → RecJob) : (modRec s id f).fm.startTries = s.fm.startTries := rfl
@[simp] theorem modRec_fm_closing (s : State) (id : Nat) (f : RecJob → RecJob) : (modRec s id f).fm.closing = s.fm.closing := rfl
@[simp] theorem modRec_fm_closeStep (s : State) (id : Nat) (f : RecJob → RecJob) : (modRec s id f).fm.closeStep = s.fm.closeStep := rfl
@[simp] theorem modRec_fm_members (s : State) (id : Nat) (f : RecJob → RecJob) : (modRec s id f).fm.members = s.fm.members := rfl
@[simp] theorem modRec_fm_mag (s : State) (id : Nat) (f : RecJob → RecJob) : (modRec s id f).fm.mag = s.fm.mag := rfl
@[simp] theorem modRec_fm_late (s : State) (id : Nat) (f : RecJob → RecJob) : (modRec s id f).fm.late = s.fm.late := rfl
@[simp] theorem modRec_fm_retired (s : State) (id : Nat) (f : RecJob → RecJob) : (modRec s id f).fm.retired = s.fm.retired := rfl
@[simp] theorem modRec_fm_tb (s : State) (id : Nat) (f : RecJob → RecJob) : (modRec s id f).fm.tb = s.fm.tb := rfl
@[simp] theorem modRec_fm_pb (s : State) (id : Nat) (f : RecJob → RecJob) : (modRec s id f).fm.pb = s.fm.pb := rfl
@[simp] theorem modRec_fm_consec (s : State) (id : Nat) (f : RecJob → RecJob) : (modRec s id f).fm.consec = s.fm.consec := rfl
@[simp] theorem modRec_fm_segsT (s : State) (id : Nat) (f : RecJob → RecJob) : (modRec s id f).fm.segsT = s.fm.segsT := rfl
@[simp] theorem modRec_fm_segsP (s : State) (id : Nat) (f : RecJob → RecJob) : (modRec s id f).fm.segsP = s.fm.segsP := rfl
@[simp] theorem modRec_fm_drvFault (s : State) (id : Nat) (f : RecJob → RecJob) : (modRec s id f).fm.drvFault = s.fm.drvFault := rfl
@[simp] theorem modRec_fm_wcur (s : State) (id : Nat) (f : RecJob → RecJob) : (modRec s id f).fm.wcur = s.fm.wcur := rfl
@[simp] theorem modRec_fm_wset (s : State) (id : Nat) (f : RecJob → RecJob) : (modRec s id f).fm.wset = s.fm.wset := rfl
@[simp] theorem modRec_fm_wnext (s : State) (id : Nat) (f : RecJob → RecJob) : (modRec s id f).fm.wnext = s.fm.wnext := rfl
@[simp] theorem modRec_fm_curveBad (s : State) (id : Nat) (f : RecJob → RecJob) : (modRec s id f).fm.curveBad = s.fm.curveBad := rfl
@[simp] theorem modRec_fm_trw (s : State) (id : Nat) (f : RecJob → RecJob) : (modRec s id f).fm.trw = s.fm.trw := rfl
@[simp] theorem modRec_fm_whole (s : State) (id : Nat) (f : RecJob → RecJob) : (modRec s id f).fm.whole = s.fm.whole := rfl
@[simp] theorem modRec_fm_abandonedCnt (s : State) (id : Nat) (f : RecJob → RecJob) : (modRec s id f).fm.abandonedCnt = s.fm.abandonedCnt := rfl
@[simp] theorem modRec_fm_inhibits (s : State) (id : Nat) (f : RecJob → RecJob) : (modRec s id f).fm.inhibits = s.fm.inhibits := rfl
@[simp] theorem modRec_fm_backhitch (s : State) (id : Nat) (f : RecJob → RecJob) : (modRec s id f).fm.backhitch = s.fm.backhitch := rfl
@[simp] theorem modRec_fm_rate (s : State) (id : Nat) (f : RecJob → RecJob) : (modRec s id f).fm.rate = s.fm.rate := rfl
@[simp] theorem modRec_fm_rateAt (s : State) (id : Nat) (f : RecJob → RecJob) : (modRec s id f).fm.rateAt = s.fm.rateAt := rfl
@[simp] theorem modRec_fm_lowSince (s : State) (id : Nat) (f : RecJob → RecJob) : (modRec s id f).fm.lowSince = s.fm.lowSince := rfl
@[simp] theorem modRec_fm_downSince (s : State) (id : Nat) (f : RecJob → RecJob) : (modRec s id f).fm.downSince = s.fm.downSince := rfl
@[simp] theorem modRec_fm_reallocs (s : State) (id : Nat) (f : RecJob → RecJob) : (modRec s id f).fm.reallocs = s.fm.reallocs := rfl
@[simp] theorem modRec_fm_reallocDone (s : State) (id : Nat) (f : RecJob → RecJob) : (modRec s id f).fm.reallocDone = s.fm.reallocDone := rfl
@[simp] theorem modRec_fm_reallocDropped (s : State) (id : Nat) (f : RecJob → RecJob) : (modRec s id f).fm.reallocDropped = s.fm.reallocDropped := rfl
@[simp] theorem modRec_fm_mirror (s : State) (id : Nat) (f : RecJob → RecJob) : (modRec s id f).fm.mirror = s.fm.mirror := rfl
@[simp] theorem modRec_fm_almanac (s : State) (id : Nat) (f : RecJob → RecJob) : (modRec s id f).fm.almanac = s.fm.almanac := rfl
@[simp] theorem modRec_fm_posMap (s : State) (id : Nat) (f : RecJob → RecJob) : (modRec s id f).fm.posMap = s.fm.posMap := rfl
@[simp] theorem modRec_fm_servoTry (s : State) (id : Nat) (f : RecJob → RecJob) : (modRec s id f).fm.servoTry = s.fm.servoTry := rfl
@[simp] theorem modRec_fm_again (s : State) (id : Nat) (f : RecJob → RecJob) : (modRec s id f).fm.again = s.fm.again := rfl

/-! ## putDs -/

@[simp] theorem putDs_pending (s : State) (w : WriteDs) : (putDs s w).pending = s.pending := rfl
@[simp] theorem putDs_now (s : State) (w : WriteDs) : (putDs s w).now = s.now := rfl
@[simp] theorem putDs_free (s : State) (w : WriteDs) : (putDs s w).free = s.free := rfl
@[simp] theorem putDs_out (s : State) (w : WriteDs) : (putDs s w).out = s.out := rfl
@[simp] theorem putDs_glb (s : State) (w : WriteDs) : (putDs s w).glb = s.glb := rfl
@[simp] theorem putDs_qe (s : State) (w : WriteDs) : (putDs s w).qe = s.qe := rfl
@[simp] theorem putDs_bpm (s : State) (w : WriteDs) : (putDs s w).bpm = s.bpm := rfl
@[simp] theorem putDs_cx (s : State) (w : WriteDs) : (putDs s w).cx = s.cx := rfl
@[simp] theorem putDs_tg (s : State) (w : WriteDs) : (putDs s w).tg = s.tg := rfl
@[simp] theorem putDs_rc (s : State) (w : WriteDs) : (putDs s w).rc = s.rc := rfl
@[simp] theorem putDs_sv (s : State) (w : WriteDs) : (putDs s w).sv = s.sv := rfl
@[simp] theorem putDs_rcl (s : State) (w : WriteDs) : (putDs s w).rcl = s.rcl := rfl
@[simp] theorem putDs_ce (s : State) (w : WriteDs) : (putDs s w).ce = s.ce := rfl
@[simp] theorem putDs_ps (s : State) (w : WriteDs) : (putDs s w).ps = s.ps := rfl
@[simp] theorem putDs_nw (s : State) (w : WriteDs) : (putDs s w).nw = s.nw := rfl
@[simp] theorem putDs_media (s : State) (w : WriteDs) : (putDs s w).media = s.media := rfl
@[simp] theorem putDs_od (s : State) (w : WriteDs) : (putDs s w).od = s.od := rfl
@[simp] theorem putDs_flash (s : State) (w : WriteDs) : (putDs s w).flash = s.flash := rfl
@[simp] theorem putDs_mt (s : State) (w : WriteDs) : (putDs s w).mt = s.mt := rfl
@[simp] theorem putDs_fi (s : State) (w : WriteDs) : (putDs s w).fi = s.fi := rfl
@[simp] theorem putDs_pl (s : State) (w : WriteDs) : (putDs s w).pl = s.pl := rfl
@[simp] theorem putDs_ls (s : State) (w : WriteDs) : (putDs s w).ls = s.ls := rfl
@[simp] theorem putDs_fw (s : State) (w : WriteDs) : (putDs s w).fw = s.fw := rfl
@[simp] theorem putDs_health (s : State) (w : WriteDs) : (putDs s w).health = s.health := rfl
@[simp] theorem putDs_fm_parts (s : State) (w : WriteDs) : (putDs s w).fm.parts = s.fm.parts := rfl
@[simp] theorem putDs_fm_recs (s : State) (w : WriteDs) : (putDs s w).fm.recs = s.fm.recs := rfl
@[simp] theorem putDs_fm_nextRec (s : State) (w : WriteDs) : (putDs s w).fm.nextRec = s.fm.nextRec := rfl
@[simp] theorem putDs_fm_nextReady (s : State) (w : WriteDs) : (putDs s w).fm.nextReady = s.fm.nextReady := rfl
@[simp] theorem putDs_fm_wstate (s : State) (w : WriteDs) : (putDs s w).fm.wstate = s.fm.wstate := rfl
@[simp] theorem putDs_fm_speed (s : State) (w : WriteDs) : (putDs s w).fm.speed = s.fm.speed := rfl
@[simp] theorem putDs_fm_wrap (s : State) (w : WriteDs) : (putDs s w).fm.wrap = s.fm.wrap := rfl
@[simp] theorem putDs_fm_wpart (s : State) (w : WriteDs) : (putDs s w).fm.wpart = s.fm.wpart := rfl
@[simp] theorem putDs_fm_current (s : State) (w : WriteDs) : (putDs s w).fm.current = s.fm.current := rfl
@[simp] theorem putDs_fm_gate (s : State) (w : WriteDs) : (putDs s w).fm.gate = s.fm.gate := rfl
@[simp] theorem putDs_fm_startTries (s : State) (w : WriteDs) : (putDs s w).fm.startTries = s.fm.startTries := rfl
@[simp] theorem putDs_fm_closing (s : State) (w : WriteDs) : (putDs s w).fm.closing = s.fm.closing := rfl
@[simp] theorem putDs_fm_closeStep (s : State) (w : WriteDs) : (putDs s w).fm.closeStep = s.fm.closeStep := rfl
@[simp] theorem putDs_fm_members (s : State) (w : WriteDs) : (putDs s w).fm.members = s.fm.members := rfl
@[simp] theorem putDs_fm_mag (s : State) (w : WriteDs) : (putDs s w).fm.mag = s.fm.mag := rfl
@[simp] theorem putDs_fm_late (s : State) (w : WriteDs) : (putDs s w).fm.late = s.fm.late := rfl
@[simp] theorem putDs_fm_retired (s : State) (w : WriteDs) : (putDs s w).fm.retired = s.fm.retired := rfl
@[simp] theorem putDs_fm_tb (s : State) (w : WriteDs) : (putDs s w).fm.tb = s.fm.tb := rfl
@[simp] theorem putDs_fm_pb (s : State) (w : WriteDs) : (putDs s w).fm.pb = s.fm.pb := rfl
@[simp] theorem putDs_fm_consec (s : State) (w : WriteDs) : (putDs s w).fm.consec = s.fm.consec := rfl
@[simp] theorem putDs_fm_segsT (s : State) (w : WriteDs) : (putDs s w).fm.segsT = s.fm.segsT := rfl
@[simp] theorem putDs_fm_segsP (s : State) (w : WriteDs) : (putDs s w).fm.segsP = s.fm.segsP := rfl
@[simp] theorem putDs_fm_drvFault (s : State) (w : WriteDs) : (putDs s w).fm.drvFault = s.fm.drvFault := rfl
@[simp] theorem putDs_fm_wcur (s : State) (w : WriteDs) : (putDs s w).fm.wcur = s.fm.wcur := rfl
@[simp] theorem putDs_fm_wset (s : State) (w : WriteDs) : (putDs s w).fm.wset = s.fm.wset := rfl
@[simp] theorem putDs_fm_wnext (s : State) (w : WriteDs) : (putDs s w).fm.wnext = s.fm.wnext := rfl
@[simp] theorem putDs_fm_curveBad (s : State) (w : WriteDs) : (putDs s w).fm.curveBad = s.fm.curveBad := rfl
@[simp] theorem putDs_fm_trw (s : State) (w : WriteDs) : (putDs s w).fm.trw = s.fm.trw := rfl
@[simp] theorem putDs_fm_whole (s : State) (w : WriteDs) : (putDs s w).fm.whole = s.fm.whole := rfl
@[simp] theorem putDs_fm_abandonedCnt (s : State) (w : WriteDs) : (putDs s w).fm.abandonedCnt = s.fm.abandonedCnt := rfl
@[simp] theorem putDs_fm_inhibits (s : State) (w : WriteDs) : (putDs s w).fm.inhibits = s.fm.inhibits := rfl
@[simp] theorem putDs_fm_backhitch (s : State) (w : WriteDs) : (putDs s w).fm.backhitch = s.fm.backhitch := rfl
@[simp] theorem putDs_fm_rate (s : State) (w : WriteDs) : (putDs s w).fm.rate = s.fm.rate := rfl
@[simp] theorem putDs_fm_rateAt (s : State) (w : WriteDs) : (putDs s w).fm.rateAt = s.fm.rateAt := rfl
@[simp] theorem putDs_fm_lowSince (s : State) (w : WriteDs) : (putDs s w).fm.lowSince = s.fm.lowSince := rfl
@[simp] theorem putDs_fm_downSince (s : State) (w : WriteDs) : (putDs s w).fm.downSince = s.fm.downSince := rfl
@[simp] theorem putDs_fm_reallocs (s : State) (w : WriteDs) : (putDs s w).fm.reallocs = s.fm.reallocs := rfl
@[simp] theorem putDs_fm_reallocDone (s : State) (w : WriteDs) : (putDs s w).fm.reallocDone = s.fm.reallocDone := rfl
@[simp] theorem putDs_fm_reallocDropped (s : State) (w : WriteDs) : (putDs s w).fm.reallocDropped = s.fm.reallocDropped := rfl
@[simp] theorem putDs_fm_mirror (s : State) (w : WriteDs) : (putDs s w).fm.mirror = s.fm.mirror := rfl
@[simp] theorem putDs_fm_almanac (s : State) (w : WriteDs) : (putDs s w).fm.almanac = s.fm.almanac := rfl
@[simp] theorem putDs_fm_posMap (s : State) (w : WriteDs) : (putDs s w).fm.posMap = s.fm.posMap := rfl
@[simp] theorem putDs_fm_servoTry (s : State) (w : WriteDs) : (putDs s w).fm.servoTry = s.fm.servoTry := rfl
@[simp] theorem putDs_fm_again (s : State) (w : WriteDs) : (putDs s w).fm.again = s.fm.again := rfl

/-! ## fillBuf -/

@[simp] theorem fillBuf_pending (s : State) (h : BitVec 32) (off n : Nat) : (fillBuf s h off n).pending = s.pending := by unfold fillBuf; split <;> rfl
@[simp] theorem fillBuf_now (s : State) (h : BitVec 32) (off n : Nat) : (fillBuf s h off n).now = s.now := by unfold fillBuf; split <;> rfl
@[simp] theorem fillBuf_free (s : State) (h : BitVec 32) (off n : Nat) : (fillBuf s h off n).free = s.free := by unfold fillBuf; split <;> rfl
@[simp] theorem fillBuf_out (s : State) (h : BitVec 32) (off n : Nat) : (fillBuf s h off n).out = s.out := by unfold fillBuf; split <;> rfl
@[simp] theorem fillBuf_glb (s : State) (h : BitVec 32) (off n : Nat) : (fillBuf s h off n).glb = s.glb := by unfold fillBuf; split <;> rfl
@[simp] theorem fillBuf_qe (s : State) (h : BitVec 32) (off n : Nat) : (fillBuf s h off n).qe = s.qe := by unfold fillBuf; split <;> rfl
@[simp] theorem fillBuf_cx (s : State) (h : BitVec 32) (off n : Nat) : (fillBuf s h off n).cx = s.cx := by unfold fillBuf; split <;> rfl
@[simp] theorem fillBuf_tg (s : State) (h : BitVec 32) (off n : Nat) : (fillBuf s h off n).tg = s.tg := by unfold fillBuf; split <;> rfl
@[simp] theorem fillBuf_fm (s : State) (h : BitVec 32) (off n : Nat) : (fillBuf s h off n).fm = s.fm := by unfold fillBuf; split <;> rfl
@[simp] theorem fillBuf_rc (s : State) (h : BitVec 32) (off n : Nat) : (fillBuf s h off n).rc = s.rc := by unfold fillBuf; split <;> rfl
@[simp] theorem fillBuf_sv (s : State) (h : BitVec 32) (off n : Nat) : (fillBuf s h off n).sv = s.sv := by unfold fillBuf; split <;> rfl
@[simp] theorem fillBuf_rcl (s : State) (h : BitVec 32) (off n : Nat) : (fillBuf s h off n).rcl = s.rcl := by unfold fillBuf; split <;> rfl
@[simp] theorem fillBuf_ce (s : State) (h : BitVec 32) (off n : Nat) : (fillBuf s h off n).ce = s.ce := by unfold fillBuf; split <;> rfl
@[simp] theorem fillBuf_ps (s : State) (h : BitVec 32) (off n : Nat) : (fillBuf s h off n).ps = s.ps := by unfold fillBuf; split <;> rfl
@[simp] theorem fillBuf_nw (s : State) (h : BitVec 32) (off n : Nat) : (fillBuf s h off n).nw = s.nw := by unfold fillBuf; split <;> rfl
@[simp] theorem fillBuf_media (s : State) (h : BitVec 32) (off n : Nat) : (fillBuf s h off n).media = s.media := by unfold fillBuf; split <;> rfl
@[simp] theorem fillBuf_od (s : State) (h : BitVec 32) (off n : Nat) : (fillBuf s h off n).od = s.od := by unfold fillBuf; split <;> rfl
@[simp] theorem fillBuf_flash (s : State) (h : BitVec 32) (off n : Nat) : (fillBuf s h off n).flash = s.flash := by unfold fillBuf; split <;> rfl
@[simp] theorem fillBuf_mt (s : State) (h : BitVec 32) (off n : Nat) : (fillBuf s h off n).mt = s.mt := by unfold fillBuf; split <;> rfl
@[simp] theorem fillBuf_fi (s : State) (h : BitVec 32) (off n : Nat) : (fillBuf s h off n).fi = s.fi := by unfold fillBuf; split <;> rfl
@[simp] theorem fillBuf_pl (s : State) (h : BitVec 32) (off n : Nat) : (fillBuf s h off n).pl = s.pl := by unfold fillBuf; split <;> rfl
@[simp] theorem fillBuf_ls (s : State) (h : BitVec 32) (off n : Nat) : (fillBuf s h off n).ls = s.ls := by unfold fillBuf; split <;> rfl
@[simp] theorem fillBuf_fw (s : State) (h : BitVec 32) (off n : Nat) : (fillBuf s h off n).fw = s.fw := by unfold fillBuf; split <;> rfl
@[simp] theorem fillBuf_health (s : State) (h : BitVec 32) (off n : Nat) : (fillBuf s h off n).health = s.health := by unfold fillBuf; split <;> rfl
@[simp] theorem fillBuf_bpm_pools (s : State) (h : BitVec 32) (off n : Nat) : (fillBuf s h off n).bpm.pools = s.bpm.pools := by unfold fillBuf; split <;> rfl
@[simp] theorem fillBuf_bpm_mem (s : State) (h : BitVec 32) (off n : Nat) : (fillBuf s h off n).bpm.mem = s.bpm.mem := by unfold fillBuf; split <;> rfl
@[simp] theorem fillBuf_bpm_granted (s : State) (h : BitVec 32) (off n : Nat) : (fillBuf s h off n).bpm.granted = s.bpm.granted := by unfold fillBuf; split <;> rfl
@[simp] theorem fillBuf_bpm_rejects (s : State) (h : BitVec 32) (off n : Nat) : (fillBuf s h off n).bpm.rejects = s.bpm.rejects := by unfold fillBuf; split <;> rfl
@[simp] theorem fillBuf_bpm_rejPool (s : State) (h : BitVec 32) (off n : Nat) : (fillBuf s h off n).bpm.rejPool = s.bpm.rejPool := by unfold fillBuf; split <;> rfl
@[simp] theorem fillBuf_bpm_rejUnit (s : State) (h : BitVec 32) (off n : Nat) : (fillBuf s h off n).bpm.rejUnit = s.bpm.rejUnit := by unfold fillBuf; split <;> rfl
@[simp] theorem fillBuf_bpm_rejHolders (s : State) (h : BitVec 32) (off n : Nat) : (fillBuf s h off n).bpm.rejHolders = s.bpm.rejHolders := by unfold fillBuf; split <;> rfl
@[simp] theorem fillBuf_bpm_rejFree (s : State) (h : BitVec 32) (off n : Nat) : (fillBuf s h off n).bpm.rejFree = s.bpm.rejFree := by unfold fillBuf; split <;> rfl
@[simp] theorem fillBuf_bpm_rejIdx (s : State) (h : BitVec 32) (off n : Nat) : (fillBuf s h off n).bpm.rejIdx = s.bpm.rejIdx := by unfold fillBuf; split <;> rfl
@[simp] theorem fillBuf_bpm_eccCor (s : State) (h : BitVec 32) (off n : Nat) : (fillBuf s h off n).bpm.eccCor = s.bpm.eccCor := by unfold fillBuf; split <;> rfl
@[simp] theorem fillBuf_bpm_eccUnc (s : State) (h : BitVec 32) (off n : Nat) : (fillBuf s h off n).bpm.eccUnc = s.bpm.eccUnc := by unfold fillBuf; split <;> rfl
@[simp] theorem fillBuf_bpm_eccAddr (s : State) (h : BitVec 32) (off n : Nat) : (fillBuf s h off n).bpm.eccAddr = s.bpm.eccAddr := by unfold fillBuf; split <;> rfl
@[simp] theorem fillBuf_bpm_scrub (s : State) (h : BitVec 32) (off n : Nat) : (fillBuf s h off n).bpm.scrub = s.bpm.scrub := by unfold fillBuf; split <;> rfl
@[simp] theorem fillBuf_bpm_corTotal (s : State) (h : BitVec 32) (off n : Nat) : (fillBuf s h off n).bpm.corTotal = s.bpm.corTotal := by unfold fillBuf; split <;> rfl
@[simp] theorem fillBuf_bpm_uncTotal (s : State) (h : BitVec 32) (off n : Nat) : (fillBuf s h off n).bpm.uncTotal = s.bpm.uncTotal := by unfold fillBuf; split <;> rfl

/-! ## setEngine -/

@[simp] theorem setEngine_pending (s : State) (e : Nat) (x : Engine) : (setEngine s e x).pending = s.pending := rfl
@[simp] theorem setEngine_now (s : State) (e : Nat) (x : Engine) : (setEngine s e x).now = s.now := rfl
@[simp] theorem setEngine_free (s : State) (e : Nat) (x : Engine) : (setEngine s e x).free = s.free := rfl
@[simp] theorem setEngine_out (s : State) (e : Nat) (x : Engine) : (setEngine s e x).out = s.out := rfl
@[simp] theorem setEngine_glb (s : State) (e : Nat) (x : Engine) : (setEngine s e x).glb = s.glb := rfl
@[simp] theorem setEngine_qe (s : State) (e : Nat) (x : Engine) : (setEngine s e x).qe = s.qe := rfl
@[simp] theorem setEngine_bpm (s : State) (e : Nat) (x : Engine) : (setEngine s e x).bpm = s.bpm := rfl
@[simp] theorem setEngine_tg (s : State) (e : Nat) (x : Engine) : (setEngine s e x).tg = s.tg := rfl
@[simp] theorem setEngine_fm (s : State) (e : Nat) (x : Engine) : (setEngine s e x).fm = s.fm := rfl
@[simp] theorem setEngine_rc (s : State) (e : Nat) (x : Engine) : (setEngine s e x).rc = s.rc := rfl
@[simp] theorem setEngine_sv (s : State) (e : Nat) (x : Engine) : (setEngine s e x).sv = s.sv := rfl
@[simp] theorem setEngine_rcl (s : State) (e : Nat) (x : Engine) : (setEngine s e x).rcl = s.rcl := rfl
@[simp] theorem setEngine_ce (s : State) (e : Nat) (x : Engine) : (setEngine s e x).ce = s.ce := rfl
@[simp] theorem setEngine_ps (s : State) (e : Nat) (x : Engine) : (setEngine s e x).ps = s.ps := rfl
@[simp] theorem setEngine_nw (s : State) (e : Nat) (x : Engine) : (setEngine s e x).nw = s.nw := rfl
@[simp] theorem setEngine_media (s : State) (e : Nat) (x : Engine) : (setEngine s e x).media = s.media := rfl
@[simp] theorem setEngine_od (s : State) (e : Nat) (x : Engine) : (setEngine s e x).od = s.od := rfl
@[simp] theorem setEngine_flash (s : State) (e : Nat) (x : Engine) : (setEngine s e x).flash = s.flash := rfl
@[simp] theorem setEngine_mt (s : State) (e : Nat) (x : Engine) : (setEngine s e x).mt = s.mt := rfl
@[simp] theorem setEngine_fi (s : State) (e : Nat) (x : Engine) : (setEngine s e x).fi = s.fi := rfl
@[simp] theorem setEngine_pl (s : State) (e : Nat) (x : Engine) : (setEngine s e x).pl = s.pl := rfl
@[simp] theorem setEngine_ls (s : State) (e : Nat) (x : Engine) : (setEngine s e x).ls = s.ls := rfl
@[simp] theorem setEngine_fw (s : State) (e : Nat) (x : Engine) : (setEngine s e x).fw = s.fw := rfl
@[simp] theorem setEngine_health (s : State) (e : Nat) (x : Engine) : (setEngine s e x).health = s.health := rfl
@[simp] theorem setEngine_cx_fallback (s : State) (e : Nat) (x : Engine) : (setEngine s e x).cx.fallback = s.cx.fallback := rfl
@[simp] theorem setEngine_cx_z1mism (s : State) (e : Nat) (x : Engine) : (setEngine s e x).cx.z1mism = s.cx.z1mism := rfl
@[simp] theorem setEngine_cx_fbreak (s : State) (e : Nat) (x : Engine) : (setEngine s e x).cx.fbreak = s.cx.fbreak := rfl
@[simp] theorem setEngine_cx_dfCount (s : State) (e : Nat) (x : Engine) : (setEngine s e x).cx.dfCount = s.cx.dfCount := rfl
@[simp] theorem setEngine_cx_dfCode (s : State) (e : Nat) (x : Engine) : (setEngine s e x).cx.dfCode = s.cx.dfCode := rfl
@[simp] theorem setEngine_cx_dfEngine (s : State) (e : Nat) (x : Engine) : (setEngine s e x).cx.dfEngine = s.cx.dfEngine := rfl
@[simp] theorem setEngine_cx_dfForm (s : State) (e : Nat) (x : Engine) : (setEngine s e x).cx.dfForm = s.cx.dfForm := rfl
@[simp] theorem setEngine_cx_dfOfs (s : State) (e : Nat) (x : Engine) : (setEngine s e x).cx.dfOfs = s.cx.dfOfs := rfl
@[simp] theorem setEngine_cx_chains (s : State) (e : Nat) (x : Engine) : (setEngine s e x).cx.chains = s.cx.chains := rfl
@[simp] theorem setEngine_cx_nextChain (s : State) (e : Nat) (x : Engine) : (setEngine s e x).cx.nextChain = s.cx.nextChain := rfl

/-! ## modRead -/

@[simp] theorem modRead_pending (s : State) (p q : Nat) (f : ReadDs → ReadDs) : (modRead s p q f).pending = s.pending := rfl
@[simp] theorem modRead_now (s : State) (p q : Nat) (f : ReadDs → ReadDs) : (modRead s p q f).now = s.now := rfl
@[simp] theorem modRead_free (s : State) (p q : Nat) (f : ReadDs → ReadDs) : (modRead s p q f).free = s.free := rfl
@[simp] theorem modRead_out (s : State) (p q : Nat) (f : ReadDs → ReadDs) : (modRead s p q f).out = s.out := rfl
@[simp] theorem modRead_glb (s : State) (p q : Nat) (f : ReadDs → ReadDs) : (modRead s p q f).glb = s.glb := rfl
@[simp] theorem modRead_qe (s : State) (p q : Nat) (f : ReadDs → ReadDs) : (modRead s p q f).qe = s.qe := rfl
@[simp] theorem modRead_bpm (s : State) (p q : Nat) (f : ReadDs → ReadDs) : (modRead s p q f).bpm = s.bpm := rfl
@[simp] theorem modRead_cx (s : State) (p q : Nat) (f : ReadDs → ReadDs) : (modRead s p q f).cx = s.cx := rfl
@[simp] theorem modRead_tg (s : State) (p q : Nat) (f : ReadDs → ReadDs) : (modRead s p q f).tg = s.tg := rfl
@[simp] theorem modRead_fm (s : State) (p q : Nat) (f : ReadDs → ReadDs) : (modRead s p q f).fm = s.fm := rfl
@[simp] theorem modRead_sv (s : State) (p q : Nat) (f : ReadDs → ReadDs) : (modRead s p q f).sv = s.sv := rfl
@[simp] theorem modRead_rcl (s : State) (p q : Nat) (f : ReadDs → ReadDs) : (modRead s p q f).rcl = s.rcl := rfl
@[simp] theorem modRead_ce (s : State) (p q : Nat) (f : ReadDs → ReadDs) : (modRead s p q f).ce = s.ce := rfl
@[simp] theorem modRead_ps (s : State) (p q : Nat) (f : ReadDs → ReadDs) : (modRead s p q f).ps = s.ps := rfl
@[simp] theorem modRead_nw (s : State) (p q : Nat) (f : ReadDs → ReadDs) : (modRead s p q f).nw = s.nw := rfl
@[simp] theorem modRead_media (s : State) (p q : Nat) (f : ReadDs → ReadDs) : (modRead s p q f).media = s.media := rfl
@[simp] theorem modRead_od (s : State) (p q : Nat) (f : ReadDs → ReadDs) : (modRead s p q f).od = s.od := rfl
@[simp] theorem modRead_flash (s : State) (p q : Nat) (f : ReadDs → ReadDs) : (modRead s p q f).flash = s.flash := rfl
@[simp] theorem modRead_mt (s : State) (p q : Nat) (f : ReadDs → ReadDs) : (modRead s p q f).mt = s.mt := rfl
@[simp] theorem modRead_fi (s : State) (p q : Nat) (f : ReadDs → ReadDs) : (modRead s p q f).fi = s.fi := rfl
@[simp] theorem modRead_pl (s : State) (p q : Nat) (f : ReadDs → ReadDs) : (modRead s p q f).pl = s.pl := rfl
@[simp] theorem modRead_ls (s : State) (p q : Nat) (f : ReadDs → ReadDs) : (modRead s p q f).ls = s.ls := rfl
@[simp] theorem modRead_fw (s : State) (p q : Nat) (f : ReadDs → ReadDs) : (modRead s p q f).fw = s.fw := rfl
@[simp] theorem modRead_health (s : State) (p q : Nat) (f : ReadDs → ReadDs) : (modRead s p q f).health = s.health := rfl
@[simp] theorem modRead_rc_lanes (s : State) (p q : Nat) (f : ReadDs → ReadDs) : (modRead s p q f).rc.lanes = s.rc.lanes := rfl
@[simp] theorem modRead_rc_fes (s : State) (p q : Nat) (f : ReadDs → ReadDs) : (modRead s p q f).rc.fes = s.rc.fes := rfl
@[simp] theorem modRead_rc_retiredA (s : State) (p q : Nat) (f : ReadDs → ReadDs) : (modRead s p q f).rc.retiredA = s.rc.retiredA := rfl
@[simp] theorem modRead_rc_retiredB (s : State) (p q : Nat) (f : ReadDs → ReadDs) : (modRead s p q f).rc.retiredB = s.rc.retiredB := rfl
@[simp] theorem modRead_rc_wrap (s : State) (p q : Nat) (f : ReadDs → ReadDs) : (modRead s p q f).rc.wrap = s.rc.wrap := rfl
@[simp] theorem modRead_rc_learned (s : State) (p q : Nat) (f : ReadDs → ReadDs) : (modRead s p q f).rc.learned = s.rc.learned := rfl
@[simp] theorem modRead_rc_mmps (s : State) (p q : Nat) (f : ReadDs → ReadDs) : (modRead s p q f).rc.mmps = s.rc.mmps := rfl
@[simp] theorem modRead_rc_passNo (s : State) (p q : Nat) (f : ReadDs → ReadDs) : (modRead s p q f).rc.passNo = s.rc.passNo := rfl
@[simp] theorem modRead_rc_step1 (s : State) (p q : Nat) (f : ReadDs → ReadDs) : (modRead s p q f).rc.step1 = s.rc.step1 := rfl
@[simp] theorem modRead_rc_step2 (s : State) (p q : Nat) (f : ReadDs → ReadDs) : (modRead s p q f).rc.step2 = s.rc.step2 := rfl
@[simp] theorem modRead_rc_step3 (s : State) (p q : Nat) (f : ReadDs → ReadDs) : (modRead s p q f).rc.step3 = s.rc.step3 := rfl
@[simp] theorem modRead_rc_step4 (s : State) (p q : Nat) (f : ReadDs → ReadDs) : (modRead s p q f).rc.step4 = s.rc.step4 := rfl
@[simp] theorem modRead_rc_failed (s : State) (p q : Nat) (f : ReadDs → ReadDs) : (modRead s p q f).rc.failed = s.rc.failed := rfl
@[simp] theorem modRead_rc_rounds (s : State) (p q : Nat) (f : ReadDs → ReadDs) : (modRead s p q f).rc.rounds = s.rc.rounds := rfl
@[simp] theorem modRead_rc_lastStep (s : State) (p q : Nat) (f : ReadDs → ReadDs) : (modRead s p q f).rc.lastStep = s.rc.lastStep := rfl
@[simp] theorem modRead_rc_lastPass (s : State) (p q : Nat) (f : ReadDs → ReadDs) : (modRead s p q f).rc.lastPass = s.rc.lastPass := rfl
@[simp] theorem modRead_rc_lastRows (s : State) (p q : Nat) (f : ReadDs → ReadDs) : (modRead s p q f).rc.lastRows = s.rc.lastRows := rfl
@[simp] theorem modRead_rc_lastSeq (s : State) (p q : Nat) (f : ReadDs → ReadDs) : (modRead s p q f).rc.lastSeq = s.rc.lastSeq := rfl
@[simp] theorem modRead_rc_ladder (s : State) (p q : Nat) (f : ReadDs → ReadDs) : (modRead s p q f).rc.ladder = s.rc.ladder := rfl
@[simp] theorem modRead_rc_span (s : State) (p q : Nat) (f : ReadDs → ReadDs) : (modRead s p q f).rc.span = s.rc.span := rfl
@[simp] theorem modRead_rc_kept (s : State) (p q : Nat) (f : ReadDs → ReadDs) : (modRead s p q f).rc.kept = s.rc.kept := rfl

/-! ## modLane -/

@[simp] theorem modLane_pending (s : State) (l : Nat) (f : Lane → Lane) : (modLane s l f).pending = s.pending := rfl
@[simp] theorem modLane_now (s : State) (l : Nat) (f : Lane → Lane) : (modLane s l f).now = s.now := rfl
@[simp] theorem modLane_free (s : State) (l : Nat) (f : Lane → Lane) : (modLane s l f).free = s.free := rfl
@[simp] theorem modLane_out (s : State) (l : Nat) (f : Lane → Lane) : (modLane s l f).out = s.out := rfl
@[simp] theorem modLane_glb (s : State) (l : Nat) (f : Lane → Lane) : (modLane s l f).glb = s.glb := rfl
@[simp] theorem modLane_qe (s : State) (l : Nat) (f : Lane → Lane) : (modLane s l f).qe = s.qe := rfl
@[simp] theorem modLane_bpm (s : State) (l : Nat) (f : Lane → Lane) : (modLane s l f).bpm = s.bpm := rfl
@[simp] theorem modLane_cx (s : State) (l : Nat) (f : Lane → Lane) : (modLane s l f).cx = s.cx := rfl
@[simp] theorem modLane_tg (s : State) (l : Nat) (f : Lane → Lane) : (modLane s l f).tg = s.tg := rfl
@[simp] theorem modLane_fm (s : State) (l : Nat) (f : Lane → Lane) : (modLane s l f).fm = s.fm := rfl
@[simp] theorem modLane_sv (s : State) (l : Nat) (f : Lane → Lane) : (modLane s l f).sv = s.sv := rfl
@[simp] theorem modLane_rcl (s : State) (l : Nat) (f : Lane → Lane) : (modLane s l f).rcl = s.rcl := rfl
@[simp] theorem modLane_ce (s : State) (l : Nat) (f : Lane → Lane) : (modLane s l f).ce = s.ce := rfl
@[simp] theorem modLane_ps (s : State) (l : Nat) (f : Lane → Lane) : (modLane s l f).ps = s.ps := rfl
@[simp] theorem modLane_nw (s : State) (l : Nat) (f : Lane → Lane) : (modLane s l f).nw = s.nw := rfl
@[simp] theorem modLane_media (s : State) (l : Nat) (f : Lane → Lane) : (modLane s l f).media = s.media := rfl
@[simp] theorem modLane_od (s : State) (l : Nat) (f : Lane → Lane) : (modLane s l f).od = s.od := rfl
@[simp] theorem modLane_flash (s : State) (l : Nat) (f : Lane → Lane) : (modLane s l f).flash = s.flash := rfl
@[simp] theorem modLane_mt (s : State) (l : Nat) (f : Lane → Lane) : (modLane s l f).mt = s.mt := rfl
@[simp] theorem modLane_fi (s : State) (l : Nat) (f : Lane → Lane) : (modLane s l f).fi = s.fi := rfl
@[simp] theorem modLane_pl (s : State) (l : Nat) (f : Lane → Lane) : (modLane s l f).pl = s.pl := rfl
@[simp] theorem modLane_ls (s : State) (l : Nat) (f : Lane → Lane) : (modLane s l f).ls = s.ls := rfl
@[simp] theorem modLane_fw (s : State) (l : Nat) (f : Lane → Lane) : (modLane s l f).fw = s.fw := rfl
@[simp] theorem modLane_health (s : State) (l : Nat) (f : Lane → Lane) : (modLane s l f).health = s.health := rfl
@[simp] theorem modLane_rc_fes (s : State) (l : Nat) (f : Lane → Lane) : (modLane s l f).rc.fes = s.rc.fes := rfl
@[simp] theorem modLane_rc_retiredA (s : State) (l : Nat) (f : Lane → Lane) : (modLane s l f).rc.retiredA = s.rc.retiredA := rfl
@[simp] theorem modLane_rc_retiredB (s : State) (l : Nat) (f : Lane → Lane) : (modLane s l f).rc.retiredB = s.rc.retiredB := rfl
@[simp] theorem modLane_rc_reads (s : State) (l : Nat) (f : Lane → Lane) : (modLane s l f).rc.reads = s.rc.reads := rfl
@[simp] theorem modLane_rc_wrap (s : State) (l : Nat) (f : Lane → Lane) : (modLane s l f).rc.wrap = s.rc.wrap := rfl
@[simp] theorem modLane_rc_learned (s : State) (l : Nat) (f : Lane → Lane) : (modLane s l f).rc.learned = s.rc.learned := rfl
@[simp] theorem modLane_rc_mmps (s : State) (l : Nat) (f : Lane → Lane) : (modLane s l f).rc.mmps = s.rc.mmps := rfl
@[simp] theorem modLane_rc_passNo (s : State) (l : Nat) (f : Lane → Lane) : (modLane s l f).rc.passNo = s.rc.passNo := rfl
@[simp] theorem modLane_rc_step1 (s : State) (l : Nat) (f : Lane → Lane) : (modLane s l f).rc.step1 = s.rc.step1 := rfl
@[simp] theorem modLane_rc_step2 (s : State) (l : Nat) (f : Lane → Lane) : (modLane s l f).rc.step2 = s.rc.step2 := rfl
@[simp] theorem modLane_rc_step3 (s : State) (l : Nat) (f : Lane → Lane) : (modLane s l f).rc.step3 = s.rc.step3 := rfl
@[simp] theorem modLane_rc_step4 (s : State) (l : Nat) (f : Lane → Lane) : (modLane s l f).rc.step4 = s.rc.step4 := rfl
@[simp] theorem modLane_rc_failed (s : State) (l : Nat) (f : Lane → Lane) : (modLane s l f).rc.failed = s.rc.failed := rfl
@[simp] theorem modLane_rc_rounds (s : State) (l : Nat) (f : Lane → Lane) : (modLane s l f).rc.rounds = s.rc.rounds := rfl
@[simp] theorem modLane_rc_lastStep (s : State) (l : Nat) (f : Lane → Lane) : (modLane s l f).rc.lastStep = s.rc.lastStep := rfl
@[simp] theorem modLane_rc_lastPass (s : State) (l : Nat) (f : Lane → Lane) : (modLane s l f).rc.lastPass = s.rc.lastPass := rfl
@[simp] theorem modLane_rc_lastRows (s : State) (l : Nat) (f : Lane → Lane) : (modLane s l f).rc.lastRows = s.rc.lastRows := rfl
@[simp] theorem modLane_rc_lastSeq (s : State) (l : Nat) (f : Lane → Lane) : (modLane s l f).rc.lastSeq = s.rc.lastSeq := rfl
@[simp] theorem modLane_rc_ladder (s : State) (l : Nat) (f : Lane → Lane) : (modLane s l f).rc.ladder = s.rc.ladder := rfl
@[simp] theorem modLane_rc_span (s : State) (l : Nat) (f : Lane → Lane) : (modLane s l f).rc.span = s.rc.span := rfl
@[simp] theorem modLane_rc_kept (s : State) (l : Nat) (f : Lane → Lane) : (modLane s l f).rc.kept = s.rc.kept := rfl

/-! ## modFe -/

@[simp] theorem modFe_pending (s : State) (m l : Nat) (f : FrontEnd → FrontEnd) : (modFe s m l f).pending = s.pending := rfl
@[simp] theorem modFe_now (s : State) (m l : Nat) (f : FrontEnd → FrontEnd) : (modFe s m l f).now = s.now := rfl
@[simp] theorem modFe_free (s : State) (m l : Nat) (f : FrontEnd → FrontEnd) : (modFe s m l f).free = s.free := rfl
@[simp] theorem modFe_out (s : State) (m l : Nat) (f : FrontEnd → FrontEnd) : (modFe s m l f).out = s.out := rfl
@[simp] theorem modFe_glb (s : State) (m l : Nat) (f : FrontEnd → FrontEnd) : (modFe s m l f).glb = s.glb := rfl
@[simp] theorem modFe_qe (s : State) (m l : Nat) (f : FrontEnd → FrontEnd) : (modFe s m l f).qe = s.qe := rfl
@[simp] theorem modFe_bpm (s : State) (m l : Nat) (f : FrontEnd → FrontEnd) : (modFe s m l f).bpm = s.bpm := rfl
@[simp] theorem modFe_cx (s : State) (m l : Nat) (f : FrontEnd → FrontEnd) : (modFe s m l f).cx = s.cx := rfl
@[simp] theorem modFe_tg (s : State) (m l : Nat) (f : FrontEnd → FrontEnd) : (modFe s m l f).tg = s.tg := rfl
@[simp] theorem modFe_fm (s : State) (m l : Nat) (f : FrontEnd → FrontEnd) : (modFe s m l f).fm = s.fm := rfl
@[simp] theorem modFe_sv (s : State) (m l : Nat) (f : FrontEnd → FrontEnd) : (modFe s m l f).sv = s.sv := rfl
@[simp] theorem modFe_rcl (s : State) (m l : Nat) (f : FrontEnd → FrontEnd) : (modFe s m l f).rcl = s.rcl := rfl
@[simp] theorem modFe_ce (s : State) (m l : Nat) (f : FrontEnd → FrontEnd) : (modFe s m l f).ce = s.ce := rfl
@[simp] theorem modFe_ps (s : State) (m l : Nat) (f : FrontEnd → FrontEnd) : (modFe s m l f).ps = s.ps := rfl
@[simp] theorem modFe_nw (s : State) (m l : Nat) (f : FrontEnd → FrontEnd) : (modFe s m l f).nw = s.nw := rfl
@[simp] theorem modFe_media (s : State) (m l : Nat) (f : FrontEnd → FrontEnd) : (modFe s m l f).media = s.media := rfl
@[simp] theorem modFe_od (s : State) (m l : Nat) (f : FrontEnd → FrontEnd) : (modFe s m l f).od = s.od := rfl
@[simp] theorem modFe_flash (s : State) (m l : Nat) (f : FrontEnd → FrontEnd) : (modFe s m l f).flash = s.flash := rfl
@[simp] theorem modFe_mt (s : State) (m l : Nat) (f : FrontEnd → FrontEnd) : (modFe s m l f).mt = s.mt := rfl
@[simp] theorem modFe_fi (s : State) (m l : Nat) (f : FrontEnd → FrontEnd) : (modFe s m l f).fi = s.fi := rfl
@[simp] theorem modFe_pl (s : State) (m l : Nat) (f : FrontEnd → FrontEnd) : (modFe s m l f).pl = s.pl := rfl
@[simp] theorem modFe_ls (s : State) (m l : Nat) (f : FrontEnd → FrontEnd) : (modFe s m l f).ls = s.ls := rfl
@[simp] theorem modFe_fw (s : State) (m l : Nat) (f : FrontEnd → FrontEnd) : (modFe s m l f).fw = s.fw := rfl
@[simp] theorem modFe_health (s : State) (m l : Nat) (f : FrontEnd → FrontEnd) : (modFe s m l f).health = s.health := rfl
@[simp] theorem modFe_rc_lanes (s : State) (m l : Nat) (f : FrontEnd → FrontEnd) : (modFe s m l f).rc.lanes = s.rc.lanes := rfl
@[simp] theorem modFe_rc_retiredA (s : State) (m l : Nat) (f : FrontEnd → FrontEnd) : (modFe s m l f).rc.retiredA = s.rc.retiredA := rfl
@[simp] theorem modFe_rc_retiredB (s : State) (m l : Nat) (f : FrontEnd → FrontEnd) : (modFe s m l f).rc.retiredB = s.rc.retiredB := rfl
@[simp] theorem modFe_rc_reads (s : State) (m l : Nat) (f : FrontEnd → FrontEnd) : (modFe s m l f).rc.reads = s.rc.reads := rfl
@[simp] theorem modFe_rc_wrap (s : State) (m l : Nat) (f : FrontEnd → FrontEnd) : (modFe s m l f).rc.wrap = s.rc.wrap := rfl
@[simp] theorem modFe_rc_learned (s : State) (m l : Nat) (f : FrontEnd → FrontEnd) : (modFe s m l f).rc.learned = s.rc.learned := rfl
@[simp] theorem modFe_rc_mmps (s : State) (m l : Nat) (f : FrontEnd → FrontEnd) : (modFe s m l f).rc.mmps = s.rc.mmps := rfl
@[simp] theorem modFe_rc_passNo (s : State) (m l : Nat) (f : FrontEnd → FrontEnd) : (modFe s m l f).rc.passNo = s.rc.passNo := rfl
@[simp] theorem modFe_rc_step1 (s : State) (m l : Nat) (f : FrontEnd → FrontEnd) : (modFe s m l f).rc.step1 = s.rc.step1 := rfl
@[simp] theorem modFe_rc_step2 (s : State) (m l : Nat) (f : FrontEnd → FrontEnd) : (modFe s m l f).rc.step2 = s.rc.step2 := rfl
@[simp] theorem modFe_rc_step3 (s : State) (m l : Nat) (f : FrontEnd → FrontEnd) : (modFe s m l f).rc.step3 = s.rc.step3 := rfl
@[simp] theorem modFe_rc_step4 (s : State) (m l : Nat) (f : FrontEnd → FrontEnd) : (modFe s m l f).rc.step4 = s.rc.step4 := rfl
@[simp] theorem modFe_rc_failed (s : State) (m l : Nat) (f : FrontEnd → FrontEnd) : (modFe s m l f).rc.failed = s.rc.failed := rfl
@[simp] theorem modFe_rc_rounds (s : State) (m l : Nat) (f : FrontEnd → FrontEnd) : (modFe s m l f).rc.rounds = s.rc.rounds := rfl
@[simp] theorem modFe_rc_lastStep (s : State) (m l : Nat) (f : FrontEnd → FrontEnd) : (modFe s m l f).rc.lastStep = s.rc.lastStep := rfl
@[simp] theorem modFe_rc_lastPass (s : State) (m l : Nat) (f : FrontEnd → FrontEnd) : (modFe s m l f).rc.lastPass = s.rc.lastPass := rfl
@[simp] theorem modFe_rc_lastRows (s : State) (m l : Nat) (f : FrontEnd → FrontEnd) : (modFe s m l f).rc.lastRows = s.rc.lastRows := rfl
@[simp] theorem modFe_rc_lastSeq (s : State) (m l : Nat) (f : FrontEnd → FrontEnd) : (modFe s m l f).rc.lastSeq = s.rc.lastSeq := rfl
@[simp] theorem modFe_rc_ladder (s : State) (m l : Nat) (f : FrontEnd → FrontEnd) : (modFe s m l f).rc.ladder = s.rc.ladder := rfl
@[simp] theorem modFe_rc_span (s : State) (m l : Nat) (f : FrontEnd → FrontEnd) : (modFe s m l f).rc.span = s.rc.span := rfl
@[simp] theorem modFe_rc_kept (s : State) (m l : Nat) (f : FrontEnd → FrontEnd) : (modFe s m l f).rc.kept = s.rc.kept := rfl

end Sys2Proof.Laws
end

