-- ==== Sys2Proof/Tests/Small.lean ====
section
/-! SUPPORT. Small states and queue entries for the tests: a device that runs, with one I/O queue, one partition and a mounted
cartridge, and the two ways a test looks at a command. -/

namespace Sys2Proof.Tests

open Sys2Proof Sys2Proof.Machine

set_option Elab.async false

/-- The next state of a command, looked at by P. -/
def nx (c : Instr) (s : State) (P : State → Bool) : Bool := match exec c s with | .next t => P t | _ => false

/-- What admission makes of an entry that passes, looked at by P. -/
def adm (s : State) (u : Sub) (P : State → Cmd → Bool) : Bool := match admitOne s u with | .run t c => P t c | _ => false

/-- The next state of a command is t. -/
def eqn (c : Instr) (s t : State) : Bool := nx c s fun v => decide (v = t)

/-- Some CQE that went out is as P has it. -/
def posted (s : State) (P : Cqe → Bool) : Bool := s.out.any fun | .cqe _ _ _ e _ _ => P e | _ => false

/-- An admission that `adm` has looked at is one. -/
theorem adm_run {s : State} {u : Sub} {P : State → Cmd → Bool} (h : adm s u P = true) :
    ∃ t c, admitOne s u = .run t c ∧ P t c = true := by
  unfold adm at h
  rcases g : admitOne s u with _ | t | ⟨t, c⟩ <;> rw [g] at h
  · cases h
  · cases h
  · exact ⟨t, c, rfl, h⟩

/-- A next state that `nx` has looked at is one. -/
theorem nx_next {c : Instr} {s : State} {P : State → Bool} (h : nx c s P = true) : ∃ t, exec c s = .next t ∧ P t = true := by
  unfold nx at h
  cases g : exec c s with
  | next t => rw [g] at h; exact ⟨t, rfl, h⟩
  | fault f => rw [g] at h; cases h
  | refused r => rw [g] at h; cases h

/-- An entry with values at byte offsets. -/
def sq (fs : List (Nat × Nat)) : SqeBits := BitVec.ofNat 512 (fs.map fun f => f.2 * 256 ^ f.1).sum

/-- An entry of the admin queue of PF0. -/
def adminSub (fs : List (Nat × Nat)) : Sub := { q := 0, sqe := sq fs }

/-- An entry of I/O queue 256. -/
def ioSub (fs : List (Nat × Nat)) : Sub := { q := 256, sqe := sq fs }

/-- PF0's admin queue. -/
def adminQ : Queue := { g := 0, fn := 0, cls := 2, sqDepth := 16, cqDepth := 16 }

/-- An I/O queue of PF0. -/
def ioQ : Queue := { g := 256, fn := 0, cls := 0, sqDepth := 16, cqDepth := 16 }

/-- PF0, enabled. -/
def pf0 : FnState := { state := 1, pmask := 0xFFFF, kcount := 4096, aEnable := true, aReady := true }

/-- A partition of the first eight wrap pairs, with five versions assigned. -/
def part1 : Part := { num := 1, firstPair := 0, pairs := 8, version := 5, nextSeq := 600 }

/-- A device that runs, with a cartridge mounted read-write. -/
def up : State := { State.reset with
  now := 10 ^ 15
  glb := { vin12 := true, resetInN := true, perstReleased := true, stage := 5, bootAt := some 0, lsUp := true, background := true }
  qe := { fns := [(0, pf0)], queues := [adminQ, ioQ], assigns := [{ g := 256, fn := 0, loc := 256 }] }
  fm := { parts := [part1] }
  nw := { inReset := false, sns := 0b0111 }
  ps := { vmot := 4800 }
  mt := { running := true, sync := 1 }
  media := { mount := 1, cart := some { vols := [{ gen := 1, serial := [] }] } } }

/-- The same with command 7, a READ of partition 1, in flight. -/
def rdCmd : Cmd := { id := 7, fn := 0, q := 256, sqe := sq [(0, 0x41), (6, 1), (24, 100)], version := 5 }

/-- A WRITE of 100 bytes in flight, with its piece. -/
def wrCmd : Cmd := { id := 9, fn := 0, q := 256, sqe := sq [(0, 0x40), (6, 0x21), (24, 100)], version := 6,
                     pieces := [{ idx := 0, len := 100 }] }

/-- A state with commands in flight. -/
def flying (cs : List Cmd) : State := { up with qe.cmds := cs, qe.nextId := 20 }

end Sys2Proof.Tests
end

