-- ==== Sys2Proof/Tests/Host.lean ====
section
/-! SUPPORT. States that meet the hypotheses of the statements about admin commands, I/O commands, registers and transfers, clause by
clause, and what follows there. -/

namespace Sys2Proof.Tests

open Sys2Proof Sys2Proof.Machine

set_option Elab.async false

/-! ## Admin commands -/

/-- The first CQE that went out has this status. -/
def ends (st : Nat) (t : State) : Bool := posted t fun e => decide (e.status = st)

/-- A VF's admin queue, queue 1, of an enabled VF1. -/
def vf1 : State := { up with
  glb.vfEnable := true
  glb.numVfs := 1
  qe.fns := [(0, pf0), (1, { state := 1, aEnable := true, aReady := true })]
  qe.queues := [adminQ, { adminQ with g := 1, fn := 1 }] }

/-- An inline data pointer for n bytes. -/
def ptr (n : Nat) : List (Nat × Nat) := [(32, 4096), (40, n)]

theorem witness_InquiriesAnswer :
    [adm up (adminSub (ptr 4096 ++ [(0, 1), (24, 4096)])) fun _ c => decide (sqeBytes c.sqe 28 1 = 0),
     nx (.identify (adminSub (ptr 4096 ++ [(0, 1), (24, 4096)]))) up (ends 0),
     nx (.identify (adminSub (ptr 4096 ++ [(0, 1), (24, 4096), (28, 1)]))) up (ends 0),
     nx (.identify { adminSub (ptr 4096 ++ [(0, 1), (24, 4096), (28, 1)]) with q := 1 }) vf1 (ends stAccessDenied),
     adm up (adminSub (ptr 64 ++ [(0, 4), (24, 64), (28, 1)])) fun t c =>
       (logPage t c.fn (sqeBytes c.sqe 28 1)).any fun bs => decide (64 ≤ bs.length),
     nx (.getLog (adminSub (ptr 64 ++ [(0, 4), (24, 64), (28, 1)]))) up (ends 0),
     nx (.odRead (adminSub (ptr 4 ++ [(0, 0x30), (24, 4), (28, 0x2124), (30, 1)]))) up (ends 0)].all id = true := by decide +kernel

/-- `up` with queue 300 assigned to PF0. -/
def given : State := { up with qe.assigns := [{ g := 256, fn := 0, loc := 256 }, { g := 300, fn := 0, loc := 300 }] }

/-- CREATE_QUEUE of queue 300, and DELETE_QUEUE of queue 256. -/
def create300 : Sub := adminSub [(0, 2), (28, 300), (30, 1), (48, 16), (50, 16), (54, 1)]
def delete256 : Sub := adminSub [(0, 3), (28, 256)]

/-- ASSIGN_QUEUES: n queues from 301 on to VF1 as 1 on, or taken away. -/
def assign (take n : Nat) : Sub := adminSub [(0, 6), (28, 1), (30, take), (48, 301), (50, n), (52, 1)]

theorem witness_QueueNumbers :
    [adm given create300 fun t c => decide (namedQueue t c = some 300 ∧ createBad t c.sqe c.fn 300 = none),
     nx (.createQueue create300) given fun t => decide ((queueOf t 300).map Queue.cls = some 1),
     adm up delete256 fun t c => decide ((namedQueue t c).bind (queueOf t) = some ioQ),
     nx (.deleteQueue delete256) up fun t => decide ((queueOf t 256).map (fun q => q.deleting.isSome) = some true),
     nx (.deleteQueueComplete 256) { up with
         qe.queues := [adminQ, { ioQ with deleting := some 3 }], qe.cmds := [{ id := 3, fn := 0, q := 0, sqe := delete256.sqe }] } fun t =>
       decide (queueOf t 256 = none) && ends 0 t,
     let s := { up with glb.vfEnable := true, glb.numVfs := 1 }
     adm s (assign 0 4) (fun t c => decide (configurable t 1 = true ∧ assignBad t c.sqe = none)) &&
       nx (.assignQueues (assign 0 4)) s fun t => decide (⟨304, 1, 4⟩ ∈ t.qe.assigns ∧ t.qe.assigns.length = 5),
     let s := { up with glb.vfEnable := true, glb.numVfs := 1, qe.assigns := [⟨256, 0, 256⟩, ⟨301, 1, 1⟩] }
     adm s (assign 1 1) (fun t c => decide (assignBad t c.sqe = none)) &&
       nx (.assignQueues (assign 1 1)) s fun t => decide (t.qe.assigns = [⟨256, 0, 256⟩])].all id = true := by decide +kernel

/-- SET_WINDOWS of VF1. -/
def windows (fn pre mask base count : Nat) : Sub :=
  adminSub [(0, 7), (28, fn), (32, pre), (40, mask), (48, 0x8001), (50, base), (52, count)]

theorem witness_WindowsSet :
    [let s := { up with glb.vfEnable := true, glb.numVfs := 1 }
     adm s (windows 1 6 7 4000 96) (fun t _ => configurable t 1) &&
       nx (.setWindows (windows 1 6 7 4000 96)) s fun t =>
         decide ((fnOf t 1).pmask = 0x8001 ∧ (fnOf t 1).kcount = 96 ∧ (fnOf t 1).prefix_ = 6),
     nx (.setWindows (windows 1 6 7 4000 97)) up (ends stInvalidField),
     nx (.setWindows (windows 1 8 7 0 0)) up (ends stInvalidField),
     nx (.setWindows (windows 1 6 7 0 4097)) up (ends stInvalidField),
     adm up (windows 2 6 7 0 1) (fun t _ => !configurable t 2) && nx (.setWindows (windows 2 6 7 0 1)) up (ends stFunctionDisabled)].all
      id = true := by decide +kernel

/-- SET_POWER. -/
def power (p : Nat) : Sub := adminSub [(0, 5), (28, p)]

/-- SET_POWER to STANDBY deferred as command 3. -/
def deferred (since : Nat) : State := { up with
  glb.setPower := some (3, 1)
  qe.cmds := [{ id := 3, fn := 0, q := 0, sqe := (power 1).sqe, since }] }

theorem witness_PowerStates :
    [adm up (power 1) (fun t _ => idleNow t && decide (powerAllowed t 1 = none)) &&
       nx (.setPower (power 1)) up fun t => decide (t.glb.power = 1),
     nx (.setPower (power 0)) { up with glb.power := 1 } fun t => decide (t.glb.power = 0),
     let s := flying [rdCmd]
     adm s (power 1) (fun t _ => !idleNow t && decide (powerAllowed t 1 = none ∧ setN t 0x2140 1 ≠ 0)) &&
       nx (.setPower (power 1)) s fun t => decide (t.glb.setPower = some (20, 1)),
     idleNow (deferred 0) && nx .powerStateEntry (deferred 0) fun t => decide (t.glb.power = 1 ∧ t.glb.setPower = none) && ends 0 t,
     nx .powerEntryLimitExpiry (deferred (up.now - setN up 0x2140 1 * 216000)) fun t =>
       decide (t.glb.power = 0 ∧ t.glb.setPower = none) && ends stPowerEntryAbandoned t].all id = true := by decide +kernel

theorem witness_SecondSetPower :
    [let s := { deferred 0 with qe.nextId := 9 }
     adm s (power 2) fun t c => decide (t.glb = s.glb ∧ t.glb.setPower.isSome = true ∧ c.id = 9),
     nx (.setPower (power 2)) { deferred 0 with qe.nextId := 9 } fun t =>
       decide (t.glb.setPower = some (3, 1)) && ends stInvalidField t].all id = true := by decide +kernel

/-! ## A key that unwraps -/

/-- m steps of unwrapping under the key of 32 zero bytes, from step t down. -/
def unwrapSome : Nat → Nat → Nat × List (List Byte) → Nat × List (List Byte)
  | 0, _, v => v
  | m + 1, t, (a, rs) =>
    let b := aesDec (zeros 32) (be 8 (a ^^^ t) ++ rs.getD ((t - 1) % 4) [])
    unwrapSome m (t - 1) (unbe (b.take 8), rs.set ((t - 1) % 4) (b.drop 8))

theorem kwSteps_some : ∀ (m n : Nat) (v : Nat × List (List Byte)),
    kwSteps (zeros 32) 4 (m + n) v = kwSteps (zeros 32) 4 n (unwrapSome m (m + n) v)
  | 0, n, v => by rw [Nat.zero_add]; rfl
  | m + 1, n, (a, rs) => by
    rw [show m + 1 + n = (m + n) + 1 by omega, kwSteps, kwSteps_some m n]
    rfl

/-- The integrity register and the four blocks. -/
def regs (a b c d e : Nat) : Nat × List (List Byte) := (a, [be 8 b, be 8 c, be 8 d, be 8 e])

/-- The key of zeros, wrapped under itself. -/
def blob0 : List Byte := be 40 0x97317494343807e690fd1e431413963dc0e3deb4907fb89fa36ce65126d0ea1301381fb3a2941e2f

theorem unwrap_1 : unwrapSome 4 24 (regs 0x97317494343807e6 0x90FD1E431413963D 0xC0E3DEB4907FB89F 0xA36CE65126D0EA13 0x1381FB3A2941E2F)
    = regs 0x32cdd34ff1dc0bdb 0x35081779F8DBC1F0 0x54CAA35C684E35D0 0x7D0BA2554738813B 0x7A816273EBAD4B50 := by
  decide +kernel
theorem unwrap_2 : unwrapSome 4 20 (regs 0x32cdd34ff1dc0bdb 0x35081779F8DBC1F0 0x54CAA35C684E35D0 0x7D0BA2554738813B 0x7A816273EBAD4B50)
    = regs 0x6380d894ec2a3fe6 0xD8043A90A3D9CD58 0x50F0EAEC1D3CA19B 0xAE5630EBEBF934B0 0x2EC9F033810ADFF9 := by
  decide +kernel
theorem unwrap_3 : unwrapSome 4 16 (regs 0x6380d894ec2a3fe6 0xD8043A90A3D9CD58 0x50F0EAEC1D3CA19B 0xAE5630EBEBF934B0 0x2EC9F033810ADFF9)
    = regs 0xb069fcd77cea81f9 0xFD186B87E624A597 0xACD816D12E6A4E0F 0x64D9D14D7C8AB096 0xD9692EA85C8892AC := by
  decide +kernel
theorem unwrap_4 : unwrapSome 4 12 (regs 0xb069fcd77cea81f9 0xFD186B87E624A597 0xACD816D12E6A4E0F 0x64D9D14D7C8AB096 0xD9692EA85C8892AC)
    = regs 0xadca8870ea7cb95 0xCA59920658C5BC15 0x67007B61328FAC92 0x8F61A947144C21A8 0x40D03C2A3EE730C3 := by
  decide +kernel
theorem unwrap_5 : unwrapSome 4 8 (regs 0xadca8870ea7cb95 0xCA59920658C5BC15 0x67007B61328FAC92 0x8F61A947144C21A8 0x40D03C2A3EE730C3)
    = regs 0x559180b1f66d04b4 0x92EB02E0606AC24 0x7447DD45B782C943 0xB915C9B3CE2188E8 0x71AB8462BB40C169 := by
  decide +kernel
theorem unwrap_6 : unwrapSome 4 4 (regs 0x559180b1f66d04b4 0x92EB02E0606AC24 0x7447DD45B782C943 0xB915C9B3CE2188E8 0x71AB8462BB40C169)
    = regs 0xa6a6a6a6a6a6a6a6 0 0 0 0 := by
  decide +kernel

theorem unwrap_blob0 : kwUnwrap (zeros 32) blob0 = some (zeros 32) := by
  have e : kwSteps (zeros 32) 4 24 (regs 0x97317494343807e6 0x90FD1E431413963D 0xC0E3DEB4907FB89F 0xA36CE65126D0EA13 0x1381FB3A2941E2F)
      = regs 0xa6a6a6a6a6a6a6a6 0 0 0 0 := by
    rw [kwSteps_some 4 20, unwrap_1, kwSteps_some 4 16, unwrap_2, kwSteps_some 4 12, unwrap_3, kwSteps_some 4 8, unwrap_4,
      kwSteps_some 4 4, unwrap_5, kwSteps_some 4 0, unwrap_6]
    rfl
  have b : (blob0.length / 8 - 1, unbe (blob0.take 8), (List.range 4).map fun i => slice blob0 (8 * (i + 1)) 8) =
      (4, regs 0x97317494343807e6 0x90FD1E431413963D 0xC0E3DEB4907FB89F 0xA36CE65126D0EA13 0x1381FB3A2941E2F) := by decide +kernel
  simp only [Prod.mk.injEq] at b
  rw [kwUnwrap]
  rw [b.1, b.2, e]
  decide +kernel

/-- KEY_LOAD and KEY_CLEAR of slot 4095. -/
def keySub (op : Nat) (data : List Byte) : Sub := { adminSub (ptr 64 ++ [(0, op), (4, 4095)]) with data }

/-- A key-encryption key of zeros at place 15, held under a device key of zeros. -/
def kek15 : State := { up with flash.keks := [(15, blob0)] }

theorem kek15_found : kek15.flash.keks.find? (fun k => k.1 == unle (slice (fit 64 (blob0 ++ le 2 15)) 40 2)) = some (15, blob0) ∧
    slice (fit 64 (blob0 ++ le 2 15)) 0 40 = blob0 ∧ be 32 kek15.flash.deviceKey.toNat = zeros 32 := by decide +kernel

theorem witness_KeysLoadAndClear_loads : storedKek kek15 (unle (slice (fit 64 (blob0 ++ le 2 15)) 40 2)) = some (zeros 32) ∧
    kwUnwrap (zeros 32) (slice (fit 64 (blob0 ++ le 2 15)) 0 40) = some (zeros 32) := by
  rw [storedKek, kek15_found.1, kek15_found.2.1, kek15_found.2.2]
  exact ⟨unwrap_blob0, unwrap_blob0⟩

theorem witness_KeysLoadAndClear :
    [adm kek15 (keySub 0x20 (blob0 ++ le 2 15)) (fun t c => decide (keyOf t (keySlot c.sqe) = none ∧
       t.flash.keks = kek15.flash.keks ∧ t.flash.deviceKey = kek15.flash.deviceKey)),
     adm kek15 (keySub 0x20 (zeros 40 ++ le 2 14)) (fun t _ => decide (storedKek t 14 = none)) &&
       nx (.keyLoad (keySub 0x20 (zeros 40 ++ le 2 14))) kek15 (ends stKeyUnwrapFailed),
     let s := { up with tg.keys := [{ slot := 4095, key := 1 }] }
     nx (.keyClear (adminSub [(0, 0x21), (4, 4095)])) s fun t => decide (keyOf t 4095 = none),
     let s := { up with tg.keys := [{ slot := 4095, key := 1, clearing := some 3 }] }
     decide (slotUsed s 4095 3 = false) && nx (.keyClearComplete 4095) s fun t => decide (t.tg.keys = [])].all id = true := by
  decide +kernel

theorem witness_SettingsWritten :
    [let u := { adminSub (ptr 4 ++ [(0, 0x31), (24, 4), (28, 0x2124), (30, 2)]) with data := [1, 2, 0, 0] }
     adm up u (fun t c => (odFind 0x2124 2).any fun e => decide (e.acc = .rw ∧ e.usb = false ∧ e.sess = false ∧ e.var = false ∧
           e.size = 4 ∧ odInRange e [1, 2, 0, 0] = true ∧ mapObjects.contains 0x2124 = false ∧
           bindsOk (odPutIn (odKey 0x2124 2) [1, 2, 0, 0] e.dflt t.od) 0x2124 = true ∧ cmdOf t c.id = some c ∧
           (odWrite t .pcie 0x2124 2 [1, 2, 0, 0] {}).2 = .ok)) &&
       nx (.odWrite u) up fun t => decide (setN t 0x2124 2 = 0x201) && ends 0 t,
     let s := { up with fw.session := 1, fw.sessionEnd := up.now + 9 }
     decide ((odFind 0x4103 1).map OdEntry.acc = some .lk ∧ sessionOpen s = true ∧ (odWrite s .usb 0x4103 1 (le 2 70) {}).2 = .ok),
     decide (odFind 0x2124 99 = none) &&
       nx (.odWrite { adminSub (ptr 4 ++ [(0, 0x31), (24, 4), (28, 0x2124), (30, 99)]) with data := [1, 2, 0, 0] }) up
         (ends stInvalidField),
     decide ((odWrite up .can 0x2000 0 [1] {}).2 ≠ .ok)].all id = true := by
  decide +kernel

/-- n events queued at PF0. -/
def events (n lost : Nat) (ws : List Nat) : State := { up with
  qe.fns := [(0, { pf0 with
    events := List.replicate n { seq := 1, time := 0, code := 0x8003, scope := 0, part := 0, params := [] }
    evLost := lost
    waits := ws })]
  qe.cmds := ws.map fun i => { id := i, fn := 0, q := 0, sqe := sq [(0, 0x3F)] }
  qe.nextId := 20 }

/-- EVENT_WAIT. -/
def waitSub : Sub := adminSub [(0, 0x3F)]

theorem witness_EventsDelivered :
    [ends 0 (queueFor1 (events 63 0 [5]) 0 0x8004 0 0 []),
     decide ((fnOf (queueFor1 (events 63 0 []) 0 0x8004 0 0 []) 0).events.length = 64),
     decide ((fnOf (queueFor1 (events 64 7 []) 0 0x8004 0 0 []) 0).evLost = 8),
     nx (.eventWait waitSub) (events 0 0 [5, 6, 7]) fun t => decide ((fnOf t 0).waits = [5, 6, 7, 20]),
     nx (.eventWait waitSub) (events 0 0 [5, 6, 7, 8]) (ends stInvalidField),
     nx (.eventWait waitSub) (events 1 0 []) fun t => decide ((fnOf t 0).events = []) && ends 0 t,
     nx (.eventWait waitSub) (events 64 3 []) fun t =>
       decide ((fnOf t 0).evLost = 0 ∧ (fnOf t 0).events.getLast?.map EvRec.code = some evEventsLost) && ends 0 t].all id = true := by
  decide +kernel

theorem witness_PartitionListed :
    [let u := adminSub (ptr 1024 ++ [(0, 0x12)])
     adm up u (fun t c => decide (slice (listEntry t c.fn 1) 1 3 = [0, 8, 0] ∧ slice (listEntry t c.fn 1) 8 8 = le 8 5 ∧
       listEntry t c.fn 15 = zeros 64 ∧ slice (listEntry t c.fn 1) 16 8 = le 8 600)) && nx (.partitionList u) up (ends 0),
     decide (listEntry { up with fm.parts := [{ part1 with shadow := true }] } 0 1 = zeros 64)].all id = true := by decide +kernel

/-! ## I/O commands -/

/-- An I/O entry for 100 bytes of partition 1. -/
def io (op flags : Nat) : Sub := ioSub (ptr 100 ++ [(0, op), (6, flags), (24, 100)])

/-- A cartridge whose partition 1 holds bytes 0 to 99 of stream 0, version 5. -/
def stored : State := { up with
  fm.almanac := [{ part := 1, stream := 0, offset := 0, length := 100, version := 5, seq := 520, index := 0 }] }

theorem witness_IoCommandsStart :
    [adm up (io 0x40 0x21) fun t c => decide (cmdOf t c.id = some c ∧ ioRefused t c.sqe = none ∧
       partOf t (partition c.sqe) = some part1 ∧ almanacFull t = false ∧ tapeFault t = none),
     nx (.write (io 0x40 0x21)) up fun t => decide ((partOf t 1).map Part.version = some 6),
     adm stored (io 0x41 1) fun t c => decide (c.sqe = (io 0x41 1).sqe ∧ ioRefused t c.sqe = none ∧
       rangeWritten (modCmd t c.id fun c => { c with version := pinOf t part1 }) { c with version := pinOf t part1 } = true),
     nx (.read (io 0x41 1)) stored fun t => decide (t.rcl.visits.length = 1 ∨ t.qe.cmds.length = 1),
     nx (.read (io 0x41 1)) up (ends stRangeNotWritten),
     nx (.verify (ioSub [(0, 0x42), (6, 1), (24, 100)])) stored fun t => decide (t.qe.cmds.length = 1),
     nx (.streamStat (ioSub (ptr 96 ++ [(0, 0x44), (6, 1), (24, 100), (28, 96)]))) stored (ends 0),
     nx (.recallHint (ioSub [(0, 0x45), (6, 1), (24, 100)])) stored (ends 0)].all id = true := by decide +kernel

/-- A BARRIER of partition 1. -/
def barrierSub : Sub := ioSub [(0, 0x43), (6, 1)]

/-- A BARRIER in flight. -/
def barrierCmd : Cmd := { id := 12, fn := 0, q := 256, sqe := sq [(0, 0x43)], st := .waiting }

/-- The admin queue has one entry waiting. -/
def oneWaits : State := { up with qe.queues := [{ adminQ with tail := 1 }, ioQ] }

theorem witness_HeldCommandsGoOn :
    [adm up barrierSub (fun t c => decide (ioRefused t c.sqe = none ∧ cmdsOf t c.q = [c] ∧ c.sqe = barrierSub.sqe)) &&
       nx (.barrier barrierSub) up (ends 0),
     let s := flying [rdCmd]
     adm s barrierSub (fun t c => decide (ioRefused t c.sqe = none ∧
         ((cmdsOf t c.q).find? fun d => opcode d.sqe == 0x43) = some c ∧ earlierCmds t c.q c.id ≠ [])) &&
       nx (.barrier barrierSub) s fun t => decide (t.qe.cmds.map Cmd.st = [.running, .waiting] ∧ t.out = []),
     nx (.barrier (ioSub [(0, 0x43), (6, 2)])) up (ends stInvalidField),
     let s := { up with media.mount := 0 }
     adm s barrierSub (fun t _ => notMounted t) && nx (.barrier barrierSub) s (ends stNotMounted),
     nx (.barrierComplete 256) (flying [barrierCmd]) (ends 0),
     nx (.rangeLockWaitEnd 9) (flying [{ wrCmd with st := .lockHeld }]) fun t => decide ((cmdOf t 9).map Cmd.st = some .running),
     decide (arbiter oneWaits = some 0) && nx (.sqeFetch 0 [adminSub (ptr 4096 ++ [(0, 1), (24, 4096)])]) oneWaits fun t =>
       decide ((queueOf t 0).map (fun q => (q.head, q.frozen)) = some (1, false)) && ends 0 t].all id = true := by decide +kernel

/-! ## Registers and transfers -/

theorem witness_RegistersAnswer :
    [nx (.accessError 0 0x1FFFFFF true) up fun t => decide ((fnOf t 0).accCount = 1 ∧ t.glb.istat.getLsbD 4 = true),
     decide (placeOf 0 0x1FFFFFC = none) && nx (.registerReadClear 0 0x1FFFFFC) up fun t => decide ((fnOf t 0).accCount = 1),
     nx (.registerWrite 0 2 0) up fun t => decide ((fnOf t 0).accCount = 1),
     nx (.registerReadClear 0 0x20000) { up with bpm.rejects := 9 } fun t => decide (t.bpm.rejects = 0 ∧ t.out = [.regRead 0 0x20000 9]),
     nx (.registerWrite 0 0x20 5) { up with glb.rstCause := 7 } fun t => decide (t.glb.rstCause = 2),
     nx (.registerWrite 0 0x24 0x40) { up with glb.istat := 0x41 } fun t => decide (t.glb.istat = 1),
     nx (.registerWrite 0 0x14FF0 0xFFFFFF07) up fun t => decide ((fnOf t 255).weight = 7 ∧ (fnOf t 0).weight = 1),
     nx .tgCtrloRead { up with tg.counter := 0x700000005 } fun t => decide (t.tg.ctrHi = 7),
     nx .mtTimeloRead up fun t => decide (t.mt.timeHi = 0),
     nx (.mirTimeloRead 3) up fun t => decide (t.out = [.regRead 3 0x1008 0]),
     nx (.glbIcfgWrite 0x010005) { setFn up 0 { pf0 with msix := [(23, 0)] } with glb.istat := 1 } fun t =>
       decide (t.out = [.msix 0 5] ∧ t.glb.icfgEnable = 1),
     nx .chopperFaultClear { up with fw.session := 1, fw.sessionEnd := up.now + 9, ps.chopF := true } fun t => decide (t.ps.chopF = false),
     nx .chopperFaultClear { up with ps.chopF := true } fun t => decide (t.ps.chopF = true ∧ (fnOf t 0).accCount = 1)].all id = true := by
  decide +kernel

theorem witness_TransfersServed :
    [let s := { up with ls.len := 4, ls.buf := [(0, 0x201)] }
     nx (.mailboxGo 0x1022124 {}) s (fun t => decide (setN t 0x2124 2 = 0x201 ∧ t.ls.done = true ∧ t.ls.status = 0)) &&
       nx (.mailboxGo 0x0022124 {}) s fun t => decide (t.ls.done = true ∧ t.ls.status = 0),
     eqn (.mailboxGo 7 {}) { up with glb.restarting := some 0, glb.lsUp := false } { up with glb.restarting := some 0, glb.lsUp := false },
     nx (.mailboxGo 7 {}) { up with glb.twilight := some 1 } fun t => decide (t.ls.done = true ∧ t.ls.status = stTwilight),
     let s := { up with fi.nmt := 2, fi.sessions := [(1, 0), (2, 0), (3, 0)] }
     usdoPath s .can && nx (.usdoDownload .can 9 0x2124 2 [1, 2, 0, 0] true {}) s (fun t =>
         decide (setN t 0x2124 2 = 0x201 ∧ t.out = [.usdoReply 9 0 []])) &&
       nx (.usdoUpload .can 9 0x2124 2 true) s (fun t => decide (t.out.length = 1)) &&
       nx (.usdoUpload .can 9 0x2124 2 false) s (fun t => decide (t.fi.sessions.length = 4)) &&
       nx (.usdoDownload .usb 0 0x2124 2 [] false {}) s fun t => decide (t.fi.sessions.length = 4),
     nx (.usdoSessionTimeout 9) { up with fi.sessions := [(9, up.now - 216000000)] } fun t => decide (t.fi.sessions = []),
     eqn (.saveParameters 0x65766173) up up,
     nx (.restoreDefaultParameters 3 0x64616F6C) up fun t => decide (t.flash.restore = 4),
     nx (.restoreDefaultParameters 1 0x64616F6C) { up with fw.session := 1, fw.sessionEnd := up.now + 9 } fun t =>
       decide (t.flash.restore = 1)].all id = true := by decide +kernel

end Sys2Proof.Tests
end

