-- ==== Sys2Proof/Tests/Motion.lean ====
section
/-! SUPPORT. States that meet the hypotheses of the statements about Meridian, the field interface, safe stops, drives, servo and
recall, clause by clause, and what follows there. -/

namespace Sys2Proof.Tests

open Sys2Proof Sys2Proof.Machine

set_option Elab.async false

/-! ## Meridian -/

/-- Meridian at a whole second plus ns. -/
def acc (ns : Nat) : BitVec 96 := BitVec.ofNat 96 (ns * 2 ^ 32)

/-- `up` with a setting. -/
def withOd (idx sub n v : Nat) : State := { up with od := [(odKey idx sub, le n v)] }

/-- PPS_IN at ns after second 5. -/
def ppsAt (ns : Nat) (defines : Bool) : State :=
  { up with mt.acc := acc (5000000000 + ns), mt.defines := defines, mt.sync := 2 }

/-- FI in Operational. -/
def fi2 : State := { up with fi.nmt := 2 }

theorem witness_MeridianTime :
    (decide (up.pl.role ≠ 2 ∧ up.mt.running = true ∧ setN up 0x6010 2 = 0) &&
      nx (.setMeridian .pcie 77) up (fun t => decide (meridian t = 77 ∧ t.mt.sync = 1 ∧ t.mt.steps = 1)) &&
      eqn (.setMeridian .can 77) { up with pl.role := 2 } { up with pl.role := 2 } &&
      eqn (.setMeridian .can 77) (withOd 0x6010 2 1 1) (withOd 0x6010 2 1 1) &&
      nx .ppsInEdge (ppsAt 100000001 false) (fun t => decide (t.mt.ppsrej = 1)) &&
      (let early := { ppsAt 7 false with mt.lastPps := some (up.now - 194399999) }
       nx .ppsInEdge early (fun t => decide (t.mt.ppsrej = 1)) &&
         nx .ppsInEdge { early with mt.lastPps := some (up.now - 194400000) } fun t => decide (t.mt.ppsrej = 0 ∧ t.mt.ofs = 7)) &&
      (let s := ppsAt 0 false
       decide ((correct s 100000001).mt.steps = 1 ∧ meridian (correct s (-100000001)) = 4899999999 ∧
         (correct { s with mt.sync := 0 } 5).mt.defines = true ∧ meridian (correct s 5) = 5000000000 ∧ (correct s 5).mt.steps = 0)) &&
      nx .ppsInEdge (ppsAt 100000000 false) (fun t => decide (t.mt.ppsrej = 0 ∧ t.mt.ofs = 100000000)) &&
      nx .ppsInEdge (ppsAt 7 true) (fun t => decide (t.mt.ofs = 7 ∧ t.mt.defines = false)) &&
      (let s := { ppsAt 7 true with od := [(odKey 0x6010 2, [2])], mt.sync := 0 }
       ppsUsed s && nx .ppsInEdge s (fun t => decide (t.mt.sync = 2 ∧ t.mt.lastPps = some s.now)) &&
       nx .ppsHoldover { s with mt.sync := 2, mt.lastPps := some (s.now - 648000000) } (fun t => decide (t.mt.sync = 3))) &&
      nx .ppsOut up (fun t => decide (t.out = [Emit.ppsOut] ∧ t.mt.lastOut = some 0)) &&
      nx .meridianStore (ppsAt 0 true) (fun t => decide (t.flash.meridian = 5000000000)) &&
      nx .syncReceive { ppsAt 0 true with fi.nmt := 1 } (fun t => decide (t.fi.synct = 705032704)) &&
      nx .syncProduce { fi2 with od := [(odKey 0x1005 0, le 4 0x40000080), (odKey 0x1006 0, le 4 1000)] } (fun t =>
        decide (t.out = [Emit.canFrame 0x080 []])) &&
      nx .timeProduce { fi2 with od := [(odKey 0x1012 0, le 4 0x40000100)] } (fun t => decide (t.out.length = 1)) &&
      nx (.timeReceive 1000 14610) { fi2 with od := [(odKey 0x1012 0, le 4 0x80000100), (odKey 0x6010 2, [1])], mt.sync := 0 } fun t =>
        decide (t.mt.sync = 2 ∧ t.mt.ofs = 2147483647)) = true := by decide +kernel

/-! ## The field interface -/

theorem witness_FieldInterface :
    (eqn .nmtStart { up with fi.nmt := 1 } fi2 && eqn .nmtStop fi2 { up with fi.nmt := 3 } &&
      eqn .nmtEnterPreOperational fi2 { up with fi.nmt := 1 } &&
      nx (.nmtResetNode 5) fi2 (fun t => decide (t.fi.nmt = 1 ∧ t.fi.node = 6 ∧ t.out = [Emit.canFrame 0x706 [0]])) &&
      eqn (.nmtResetCommunication 5) fi2 (fiReset fi2 5) &&
      nx .duplicateNodeId { fi2 with fi.bootAt := some (up.now - 215999999) } (fun t => decide (t.fi.nmt = 3 ∧ t.fi.dupid = true)) &&
      eqn .nmtStart { fi2 with fi.dupid := true } { fi2 with fi.dupid := true } &&
      nx (.canHeartbeat 255 0) { fi2 with fi.node := 9 } (fun t => decide (t.out = [Emit.canFrame 0x709 [5]] ∧ t.fi.tec = 255)) &&
      (let m : Emcy := { code := 0x8203, scope := 0, part := 0, time := 7, params := [] }
       nx (.emcySend 0 255) { fi2 with fi.emcy := [m] } (fun t => decide (t.fi.emcy = [] ∧ t.out.length = 1)) &&
       eqn (.emcySend 0 0) { fi2 with fi.emcy := [m], fi.emcyAt := some up.now, od := [(odKey 0x1015 0, le 2 100)] }
         { fi2 with fi.emcy := [m], fi.emcyAt := some up.now, od := [(odKey 0x1015 0, le 2 100)] } &&
       nx (.emcySend 0 0) { up with fi.nmt := 3, fi.emcy := [m] } (fun t => decide (t.fi.emcy = [] ∧ t.fi.suppr = 1 ∧ t.out = [])) &&
       nx .busOffRecovery { fi2 with fi.bus := 2, fi.emcy := [m] } (fun t => decide (t.fi.bus = 0 ∧ t.fi.emcy = []))) &&
      decide (tpdoBytes fi2 4 ≠ []) && nx (.tpdoSend 4 0 0) fi2 (fun t => decide (t.out.length = 1)) &&
      nx (.tpdoSend 1 0 0) fi2 (fun t => decide (t.fi.tpdo = [(1, up.now, tpdoBytes fi2 1)])) &&
      nx .busOffRecovery { fi2 with fi.bus := 2, fi.tec := 256 } fun t => decide (t.fi.bus = 0 ∧ t.fi.tec = 0)) = true := by
  decide +kernel

/-! ## Safe stops, drives, rest -/

/-- BRAKE with cause 1. -/
def braking : State := { up with nw.state := 1, nw.cause := 1 }

theorem witness_SafeStops :
    (decide ((safeStop up 1 true false).nw.state = 1 ∧ (safeStop up 0x11 false false).nw.state = 2 ∧
        (safeStop up 1 true false).nw.cause = 1 ∧ (safeStop up 1 true false).nw.reelS = true ∧
        (safeStop up 1 true false).nw.stops = 1 ∧ (safeStop up 1 true false).ce.safe = true ∧
        (safeStop braking 0x11 false false).nw.state = 2 ∧ (safeStop braking 2 false true).nw = braking.nw) &&
      nx (.plausibilityFault .supply) { up with ce.sup.disagree := 480 } (fun t => decide (t.nw.cause = 1)) &&
      nx (.plausibilityFault .takeup) { up with ce.tkp.disagree := 480 } (fun t => decide (t.nw.cause = 2 ∧ t.nw.reelT = true)) &&
      nx (.tensionLoss false) { up with ce.lossRun := 48 } (fun t => decide (t.nw.cause = 3)) &&
      nx (.tensionLoss true) { up with ce.residRun := 48 } (fun t => decide (t.nw.cause = 4)) &&
      nx .tachQuadratureFault { up with ce.illegal := List.replicate 16 0 } (fun t => decide (t.nw.cause = 6)) &&
      nx (.gateDriverFault .supply) up (fun t => decide (t.nw.cause = 0x13 ∧ t.nw.reelS = true)) &&
      nx (.gateDriverFault .takeup) up (fun t => decide (t.nw.cause = 0x13 ∧ t.nw.reelT = true)) &&
      nx .nightwatchTachMismatch up (fun t => decide (t.nw.cause = 0x14)) &&
      nx .vmotUndervoltage up (fun t => decide (t.nw.cause = 0x15)) &&
      nx .reelTurnsUnderGrant { up with nw.grant := true } fun t => decide (t.nw.cause = 0x22)) = true := by decide +kernel

theorem witness_DriveFaults :
    (nx (.overcurrent .supply) { up with ce.sup.ocRun := 14 } (fun t => decide (t.ps.ocp = 1 ∧ t.ce.sup.ocRun = 15 ∧ t.nw = up.nw)) &&
      hallsUsable up up.ce.sup &&
      nx (.observerLost .supply) { up with ce.sup.obsBad := 3 } (fun t => decide (t.ce.sup.ang = 2 ∧ t.nw = up.nw)) &&
      nx (.observerLost .takeup) { up with ce.tkp.obsBad := 3, ce.tkp.hallBad := true } (fun t =>
        decide (t.nw.state = 1 ∧ t.nw.cause = 0x10)) &&
      nx (.lockedRotor .takeup) { up with ce.tkp.lockRun := 4800, ce.owner := 1, fm.wstate := 2 } (fun t =>
        decide (t.ce.tkp.locked = true ∧ t.nw.cause = 0x20 ∧ t.nw.state = 0 ∧ t.ce.owner = 0)) &&
      chopperBad { up with ps.chopLow := 5 } && chopperBad { up with ps.chopMv := [48501, 48000] } &&
      nx .chopperFault { up with ps.chopLow := 5 } (fun t =>
        decide (t.ps.chopF = true ∧ t.nw.cause = 0x21 ∧ t.nw.state = 0 ∧ t.glb.istat.getLsbD 6 = true)) &&
      nx .decelerationHalving { up with ps.chopF := true, ps.vmot := 5200, ce.vref := 2 ^ 30 } (fun t =>
        decide (t.ps.halvedAt = up.now ∧ (t.ce.aLimit.getD 9999) < 9999 ∧ t.ce.posmode = true)) &&
      eqn .decelerationHalving { up with ps.chopF := true, ps.vmot := 5200 } { up with ps.chopF := true, ps.vmot := 5200 } &&
      (let a := fun x : Int => some [67108864, -67108864, x]
       nx (.shuntOffsetMeasured .supply 67108864 (-67108864) 0) { up with ce.sup.shuntAvg := a 0 } (fun t =>
         decide (t.ce.sup.shunt = [67108864, -67108864, 0] ∧ t.ce.sup.ofsf = false)) &&
       nx (.shuntOffsetMeasured .takeup 67108864 (-67108864) (-67108865)) { up with ce.tkp.shuntAvg := a (-67108865) } fun t =>
         decide (t.ce.tkp.ofsf = true))) = true := by decide +kernel

/-- At rest in HOLD, 100 ms after the stop. -/
def held : State := { up with
  nw.state := 3, nw.cause := 1, nw.causes := [1], nw.atRest := true, nw.restAt := up.now - 21600000,
  nw.clearOkAt := some (up.now - 216000000) }

/-- Stopping, with the tach still for n base periods. -/
def stopping (k n : Nat) : State := { up with nw.state := k, nw.still := n, ce.sup.angleKnown := true }

theorem witness_RestAndInterlock :
    (nx .reelsAtRest { stopping 1 1920 with ce.tkp.angleKnown := true } (fun t => decide (t.nw.atRest = true ∧ t.nw.state = 3)) &&
      nx .reelsAtRest (stopping 2 1920) (fun t => decide (t.nw.state = 4)) &&
      eqn .reelsAtRest (stopping 2 1919) (stopping 2 1919) && eqn .reelsAtRest
        { stopping 1 1920 with ce.tkp.iQ := 2 ^ 31 / 160 + 1 } { stopping 1 1920 with ce.tkp.iQ := 2 ^ 31 / 160 + 1 } &&
      nx .holdSlip held (fun t => decide (t.nw.state = 4 ∧ t.nw.atRest = false)) &&
      clearAccepted held (held.glb.stage == 5) &&
      nx .nightwatchClear { held with fm.wstate := 6 } (fun t => decide (t.nw.state = 0 ∧ t.fm.wstate = 0 ∧ t.ce.safe = false)) &&
      clearAccepted (realignReels held) false && mayAskClear held &&
      nx .autoClear held (fun t => decide (t.nw.state = 0 ∧ t.nw.clears = [up.now])) &&
      nx .threaderStall up (fun t => t.ps.thrStall) && nx .loaderTimeout
        { withOd 0x4205 3 2 10 with ps.ldrAt := some (up.now - 2160000) } (fun t =>
        decide (t.out = [Emit.motion 1] ∧ t.ps.ldrAt = none)) &&
      tapeSafe { up with nw.req := true, nw.sns := 0b1111, nw.atRest := true } &&
      nx .gripReqRise { up with nw.sns := 0b1111, nw.atRest := true } (fun t => decide (t.nw.grant = true ∧ t.nw.grants = 1)) &&
      (match step { up with nw.req := true, nw.sns := 0b1111, nw.atRest := true } with
        | .next t => t.nw.grant && decide (t.now = up.now + 1)
        | _ => false) &&
      (match step { up with nw.req := true } with
        | .next t => !t.nw.grant
        | _ => false) &&
      nx .gripReqRise { up with nw.window := true } (fun t => decide (t.nw.grant = true ∧ t.nw.window = false)) &&
      eqn .gripReqRise up { up with nw.req := true } && eqn (.motionPermitRequest false) { up with ps.vmot := 1999 }
        { up with ps.vmot := 1999, nw.waitSince := some up.now } &&
      nx .gripReqFall { up with nw.req := true, nw.grant := true } (fun t => decide (t.nw.grant = false ∧ t.nw.req = false)) &&
      nx (.motionPermitRequest false) { up with ps.vmot := 2000 } (fun t => decide (t.nw.permit = true)) &&
      nx (.motionPermitRequest true) { up with nw.grant := true } fun t =>
        decide (t.nw.permit = false ∧ t.nw.waitSince = some up.now)) = true := by decide +kernel

theorem witness_BasePeriodCounts :
    (nx (.basePeriod { late := true }) up (fun t => decide (t.ce.period = 1 ∧ t.ce.ovr = 1)) &&
      nx (.basePeriod { vmotMv := 60000 }) up (fun t => decide (t.ce.ovr = 0 ∧ t.nw.state = 0)) &&
      nx (.basePeriod { vmotMv := 60001 }) braking fun t => decide (t.nw.state = 2)) = true := by decide +kernel

/-! ## Servo and recall -/

/-- A frame of two good channels 1 nm above the target, and two without a stripe. -/
def goodFrame : Instr := .servoFrame { mStripes := 2, tF := 100000, tVU := 25060 } { mStripes := 2, tF := 100000, tVU := 25060 } {} {}

/-- SV in HELD or COAST. -/
def servoIn (n : Nat) : State := { up with sv.state := n, sv.lpos := 100, sv.lposOk := true, sv.bandOk := true, fm.gate := true }

/-- SV in LOST since u. -/
def lostSince (u : Nat) : State := { up with sv.state := 4, sv.lostAt := some u, ce.owner := 2, ce.posmode := true }

theorem witness_ServoPosition :
    (nx .servoCoastExpiry { up with sv.state := 3, sv.coast := setN up 0x212C 2 } (fun t =>
        decide (t.sv.state = 1 ∧ t.sv.loss = 1 ∧ t.sv.lostAt = some up.now)) &&
      nx (.bandChangeDone 3) { up with sv.moving := true, sv.bandOk := true } (fun t =>
        decide (t.sv.band = 3 ∧ t.sv.bandOk = false ∧ t.sv.state = 1)) &&
      nx .actuatorFault { up with sv.state := 2 } (fun t => decide (t.sv.state = 4 ∧ t.ps.auxF = true)) &&
      nx .servoReacquireTimeout (lostSince (up.now - 43200000)) (fun t => decide (t.sv.lostAt = none ∧ t.ce.posmode = false)) &&
      (let s := { lostSince 0 with rcl.run := [(1, 600)], ce.vref := 1 }
       nx .servoReacquireTimeout s fun t => decide (t.rcl.servoTries = 1 ∧ t.rcl.again = true ∧ t.ce.owner = 2)) &&
      (let s := { lostSince 0 with ce.owner := 1, ce.vref := 1, fm.wstate := 1 }
       nx .servoReacquireTimeout s (fun t => decide (t.fm.servoTry = true ∧ t.fm.wstate = 1)) &&
         nx .servoReacquireTimeout { s with fm.wstate := 2 } fun t => decide (t.fm.wstate = 6)) &&
      nx (.servoFrame {} {} {} {}) (lostSince up.now) (fun t =>
        decide (t.sv.state = 1 ∧ t.fm.gate = false ∧ t.sv.ch.length = 4)) &&
      nx goodFrame (servoIn 2) (fun t => decide (t.sv.state = 2 ∧ t.sv.pes = 1 ∧ t.sv.pesN = 2 ∧ t.sv.lpos = 101 ∧ t.fm.gate = true)) &&
      nx goodFrame { servoIn 3 with sv.coast := 4 } (fun t => decide (t.sv.state = 2 ∧ t.sv.coast = 0)) &&
      nx (.servoFrame {} {} {} {}) (servoIn 2) (fun t => decide (t.sv.state = 3 ∧ t.sv.coast = 1 ∧ t.fm.gate = false)) &&
      nx (.servoFrame {} {} {} {}) { servoIn 3 with sv.coast := 4 } fun t => decide (t.sv.coast = 5 ∧ t.sv.lpos = 100)) = true := by
  decide +kernel

/-- A visit of dataset 600 for command 7. -/
def visit7 (since : Nat) : Visit := { part := 1, seq := 600, wrap := 2, lpos := 80000, cmds := [7], since }

/-- A hint since u. -/
def hint3 (u : Nat) : Hint := { id := 3, fn := 0, part := 1, seq := 600, stream := 0, first := 0, last := 9, prio := 2, since := u }

theorem witness_RecallScheduled :
    (nx (.recallAgeLimitExpiry 1 600) { up with od := [(odKey 0x212B 1, le 4 1)], rcl.visits := [visit7 (up.now - 216000)] } (fun t =>
        t.rcl.visits.any Visit.aged) &&
      (let s := { up with fm.wstate := 4, od := [(odKey 0x212B 8, le 4 1)], rcl.visits := [visit7 (up.now - 216000)] }
       nx .writePreemptionAgeExpiry s fun t => t.rcl.preempt) &&
      nx .recallBatchTimeExpiry { up with od := [(odKey 0x212B 9, le 4 1)], rcl.batch := some (up.now - 216000), ce.owner := 2 } (fun t =>
        decide (t.rcl.batch = none ∧ t.ce.owner = 0)) &&
      nx (.hintExpiry 3) { up with od := [(odKey 0x212B 11, le 4 1)], rcl.hints := [hint3 (up.now - 216000)] } (fun t =>
        decide (t.rcl.hints = [])) &&
      (let s := { flying [{ rdCmd with sqe := sq [(0, 0x41), (6, 1), (48, 600)] }] with
         rcl.visits := [visit7 up.now], media.threaded := true }
       let bad := { s with ps.auxF := true }
       recallMay (trimAll s) && !batchOver (trimAll s) &&
       decide ((trimAll s).rcl.visits = [visit7 up.now] ∧ tapeFault (trimAll s) = none ∧
         selectRun (trimAll s) = some [visit7 up.now] ∧ tapeFault (trimAll bad) = some stServoLost ∧ recallMay (trimAll bad) = true) &&
       nx .recallRunSelect bad (fun t => posted t fun e => decide (e.status = stServoLost)) &&
       nx .recallRunSelect s fun t => decide (t.rcl.batch = some up.now ∧ t.ce.owner = 2 ∧ t.rcl.run = [(1, 600)] ∧ t.rc.wrap = 2))) =
      true := by decide +kernel

end Sys2Proof.Tests
end

