-- ==== Sys2Proof/Tests/Peer.lean ====
section
/-! SUPPORT. States that meet the hypotheses of the statements about cartridges, partitions, the pair, firmware and the service
session, clause by clause, and what follows there. -/

namespace Sys2Proof.Tests

open Sys2Proof Sys2Proof.Machine

set_option Elab.async false

/-- Some CQE that went out has this status. -/
def closes (st : Nat) (t : State) : Bool := posted t fun e => decide (e.status = st)

/-! ## The cartridge -/

/-- `up` with nothing mounted and the cartridge in its slot. -/
def slotted : State := { up with
  media := { cart := some { vols := [{ gen := 1, serial := [] }] } }
  fm := {}
  ps := { vmot := 2000 } }

/-- MOUNT, read-only or not. -/
def mountSub (ro : Nat) : Sub := adminSub [(0, 0x18), (28, ro)]

/-- The first checkpoint of partition 1, on tape. -/
def ckpt512 : TapeDs :=
  { ds := { part := 1, seq := 512, kind := .checkpoint, ckpt := some { prev := none, base := 512, delta := false, eod := 512 } },
    wrap := 0, lpos := 80000 }

/-- `slotted` with partition 1 on its tape. -/
def kept : State := { slotted with media.cart := some {
  vols := [{ gen := 1, serial := [], entries := [{ num := 1, firstPair := 0, pairs := 8, st := 1 }] }], tape := [ckpt512] } }

theorem witness_CartridgeMounts :
    [adm kept (mountSub 0) (fun t _ => decide (mountRefused t {} = none) &&
       let m := mountSteps (wake t) {}
       decide (m.2 = none ∧ (mountTape m.1 false {}).1.fm.parts.map Part.faultWp = [false])) &&
       nx (.mount (mountSub 0) {}) kept fun t => decide (t.media.op.isSome = true ∧ t.media.mount = 0),
     nx (.mount (mountSub 0) {}) { slotted with nw.sns := 0 } (closes stCartridgeAbsent),
     adm slotted (mountSub 1) (fun t _ => decide (mountRefused t {} = none ∧ (mountSteps (wake t) {}).2 = none)) &&
       nx (.mount (mountSub 1) {}) slotted fun t => decide (t.media.mount = 2) && closes 0 t,
     nx (.mount (mountSub 0) {}) slotted fun t => decide (t.media.mount = 1) && closes 0 t,
     decide ((mountSteps (wake slotted) { servoHeld := false }).2 = some stServoLost) &&
       nx (.mount (mountSub 0) { servoHeld := false }) slotted fun t => decide (t.media.mount = 0 ∧ t.fm.parts = []) && closes stServoLost t,
     nx (.libraryMountReadWrite 32767 {}) slotted fun t => decide (t.media.mount = 1 ∧ t.fi.resSeq = 32767 ∧ t.fi.resState = 2),
     nx (.libraryMountReadOnly 1 {}) slotted fun t => decide (t.media.mount = 2 ∧ t.fi.resSeq = 1 ∧ t.fi.resStatus = stOk),
     decide (motionStop up = false ∧ up.fm.sealed = [] ∧ up.fm.wstate = 0 ∧ ∀ x ∈ up.fm.parts, x.ckptWant = false ∧ x.ckptCur = none),
     eqn (.libraryMountReadWrite 0 {}) slotted slotted].all id = true := by decide +kernel

/-- UNMOUNT with EJECT. -/
def unmountSub : Sub := adminSub [(0, 0x19), (28, 1)]

/-- A dataset of partition 1 on tape. -/
def onTape : TapeDs := { ds := { part := 1, seq := 640, kind := .checkpoint }, wrap := 2, lpos := 90000 }

theorem witness_CartridgeUnloads :
    [nx (.unmount unmountSub {}) slotted (closes stNotMounted),
     nx (.unmount unmountSub {}) up fun t => decide (t.media.op = some (.unmount (some 0) none true {} 0)),
     nx (.libraryUnmount 7 {}) up fun t => decide (t.media.op = some (.unmount none (some 7) false {} 0) ∧ t.fi.resState = 1),
     nx (.libraryUnmountEject 7 {}) up fun t => decide (t.media.op = some (.unmount none (some 7) true {} 0)),
     nx (.rewindAndUnload 7 {}) up fun t => decide (t.fi.libCode = 5),
     nx (.rewindAndUnload 7 {}) { up with glb.twilight := some 1 } fun t =>
       decide (t.media.mount = 0 ∧ t.fi.resStatus = stOk ∧ Emit.motion 2 ∈ t.out),
     writerDone up && decide (advanceUnmount up none none false {} 2 =
         { up with media.op := some (.unmount none none false {} 3), ce.media := true } ∧
       (advanceUnmount up none none false {} 3).media.mount = 0),
     nx .gripWaitLimitExpiry { up with
         nw.waitSince := some (up.now - setN up 0x6020 1 * 216000), media.op := some (.unmount none (some 7) true {} 0) } fun t =>
       decide (t.media.op = none ∧ t.fi.resStatus = stMediaBusy),
     nx (.mountRecordUpdate 1) { up with
         fm.parts := [{ part1 with lastCkpt := some 640 }], media.cart := some { vols := [{ gen := 1, serial := [] }], tape := [onTape] } } fun t =>
       decide (t.flash.mounts.map MountRec.seq = [640]),
     nx (.snsChange 7) { slotted with media.cart := none, nw.sns := 6 } fun t => decide (t.nw.sns = 7 ∧ t.media.cart.isSome = true),
     nx (.snsChange 6) slotted fun t => decide (t.media.cart = none ∧ t.nw.absentSince = true)].all id = true := by decide +kernel

/-- A unit of a pair. -/
def paired (role : Nat) : State := { up with
  pl := { role, present := true, lanes := 3, hbAt := some (up.now - 216000), credits := 4 }
  flash.roleEpoch := 5
  od := [(odKey 0x6001 1, [1])] }

/-- PARTITION_CREATE of partition 15 on the last wrap pair, PARTITION_DELETE and CHECKPOINT of partition 1. -/
def createSub : Sub := adminSub [(0, 0x10), (6, 15), (28, 191), (29, 1)]
def deleteSub : Sub := adminSub [(0, 0x11), (6, 1)]
def ckptSub : Sub := adminSub [(0, 0x1A), (6, 1)]

theorem witness_PartitionsComeAndGo :
    [adm up createSub fun t c => decide (secondary t = false ∧ mirroring t = false ∧ partition c.sqe = 15 ∧
       createRefused t c.sqe = none),
     nx (.partitionCreate createSub) up fun t =>
       decide (t.media.op.isSome = true ∧ (partOf t 15).map (fun x => (x.firstPair, x.pairs, x.shadow)) = some (191, 1, true) ∧
         t.fm.sealed.length = 256),
     adm up deleteSub fun t c => decide (deleteRefused t c.sqe = none ∧ t.fm.reallocs = []),
     nx (.partitionDelete deleteSub) up fun t =>
       decide (t.media.op = some (.delete (some 0) 1 none 2 none) ∧ (partOf t 1).map Part.deleting = some true),
     adm up ckptSub fun t _ => decide (mediaCheck t 1 = none ∧ writeProtected t part1 = false ∧ retiredCount t = 0 ∧
       tapeFault t = none),
     nx (.checkpoint ckptSub) up fun t => decide ((cmdOf t 0).map Cmd.st = some .waiting),
     adm (paired 2) createSub (fun t _ => secondary t) && nx (.partitionCreate createSub) (paired 2) (closes stRoleStale) &&
       nx (.partitionDelete deleteSub) (paired 2) (closes stRoleStale) &&
       nx (.checkpoint ckptSub) (paired 2) (closes stRoleStale)].all id = true := by decide +kernel

/-! ## The pair -/

/-- A record of a WRITE of partition 1, ready to be sent. -/
def toPeer : RecJob :=
  { id := 5, cmd := some 9, part := 1, piece := 0, rel := 0, stage := .ready, r := { olen := 4, version := 6, payload := [1, 2, 3, 4] } }

theorem witness_PairLinkFlits :
    [nx (.linkTraining true true) up fun t => decide (t.pl.lanes = 3 ∧ t.pl.present = true),
     linkUp (paired 1) && nx (.flitError 4095) { paired 1 with pl.rxSeq := 4095 } fun t => decide (t.out.length = 1),
     nx (.nak 4095) { paired 1 with pl.unacked := [(4094, .ppsOut), (4095, .ppsOut), (0, .ppsOut)] } fun t =>
       decide (t.pl.replay = 2 ∧ t.out.length = 2),
     decide ((paired 1).pl.hbSentAt = none ∧ (paired 1).pl.unacked = [] ∧ (paired 2).pl.lost = false ∧ (paired 2).mt.running = true),
     let s := { paired 1 with pl.waiting := [(1, [7])] }
     linkUp s && decide ((pumpLink s).pl.waiting = [] ∧ (pumpLink s).pl.txSeq = 1 ∧ (pumpLink s).out.length = 1),
     nx (.idleFlit 4095) { paired 1 with pl.unacked := [(4095, .ppsOut), (0, .ppsOut)] } fun t =>
       decide (t.pl.unacked = [(0, .ppsOut)] ∧ t.pl.ackSeq = 4095),
     nx (.imageTransfer { epoch := 4, flit := 3 } [1] true) { paired 1 with fw.peerBuf := [7] } fun t => decide (t.fw.peerBuf = [] ∧ t.pl.rxSeq = 3),
     nx (.imageTransfer { epoch := 5 } [1] true) { paired 1 with fw.peerBuf := [7] } fun t => decide (t.fw.peerBuf = [7, 1] ∧ t.fw.peerDone = true),
     let s := { paired 1 with fm.recs := [toPeer] }
     mirroring s && decide (creditOf s toPeer.r ≤ 4 ∧ s.pl.catchQ = [] ∧ recOf s 5 = some toPeer ∧ toPeer.dead = false)].all id = true := by decide +kernel

theorem witness_PairRoles :
    [linkUp (paired 0) && decide (setN (paired 0) 0x6001 1 = 1 ∧ (paired 0).glb.lsUp = true ∧ (paired 0).pl.role = 0),
     nx (.roleStale { role := 1, epoch := 5 } 1 5 9) (paired 2) fun t => decide (t.pl.role = 2 ∧ t.pl.staleRcvd = 1),
     nx (.roleStale { role := 2, epoch := 6 } 2 6 9) (paired 2) fun t => decide (t.pl.role = 1 ∧ t.flash.roleEpoch = 6),
     nx (.roleStale { role := 0, epoch := 6 } 0 6 9) (paired 2) fun t => decide (t.pl.role = 0),
     linkUp (paired 1) && decide ((paired 1).flash.roleEpoch = 5 ∧ (paired 1).glb.twilight = none),
     linkUp (paired 2) && decide ((paired 2).flash.roleEpoch = 5 ∧ (paired 2).glb.twilight = none),
     nx (.credit { role := 2, epoch := 6 } 9) (paired 2) fun t => decide (t.pl.role = 1 ∧ t.flash.roleEpoch = 6 ∧ t.pl.credits = 9),
     nx .peerSuspect (paired 2) fun t => decide (t.pl.suspect = true),
     nx .peerRestartTimeout { paired 1 with pl.lsDownAt := some (up.now - 216000000) } fun t => decide (t.pl.suspect = true),
     let s := { paired 1 with pl.suspect := true, pl.suspectAt := some (up.now - setN (paired 1) 0x6001 6 * 216000) }
     nx .peerLost s (fun t => decide (t.pl.lost = true ∧ t.pl.credits = 0)) &&
       nx .peerLost { s with pl.role := 2 } fun t => decide (t.pl.lost = true ∧ t.pl.role = 2),
     nx .pairPresentFall (paired 1) fun t => decide (t.pl.lost = true ∧ t.pl.present = false),
     nx .pairPresentFall (paired 0) fun t => decide (t.pl.lanes = 0),
     nx .takeover { paired 2 with pl.lost := true } fun t => decide (t.pl.role = 1 ∧ t.flash.roleEpoch = 6 ∧ Emit.pairRstOut ∈ t.out),
     nx .pairRstIn (paired 1) fun t => decide (t.pl.role = 0 ∧ t.pl.present = true),
     nx (.withdrawDivergentPieces .pcie) { paired 2 with
         fm.parts := [{ part1 with diverged := true, watermark := some 5 }]
         fm.almanac := [⟨1, 0, 0, 9, 5, 600, 0⟩, ⟨1, 0, 9, 9, 6, 601, 0⟩] } fun t => decide (t.fm.almanac.map Extent.version = [5])].all id =
      true := by decide +kernel

theorem witness_PairMessages :
    [nx (.heartbeat { role := 1, epoch := 5 } { lodestarUp := true, twilight := false, mount := 1 }) (paired 2) fun t =>
       decide (t.pl.hbAt = some up.now ∧ t.pl.suspect = false),
     nx (.credit { role := 2, epoch := 5 } 9) (paired 1) fun t => decide (t.pl.credits = 9),
     secondary (paired 2) && nx (.record { role := 1, epoch := 5 } 1 toPeer.r) (paired 2) fun t =>
       decide (t.fm.recs.length = 1 ∧ (mirrorOf t 1 0 6 0).map MirrorPiece.received = some 1),
     let s := { paired 2 with fm.mirror := [{ part := 1, stream := 0, version := 6, piece := 0, received := 2 }] }
     nx (.pieceCommit { role := 1, epoch := 5 } 1 0 6 0 2) s (fun t => decide ((mirrorOf t 1 0 6 0).map MirrorPiece.commit = some (some 2))) &&
       nx (.pieceFail { role := 1, epoch := 5 } 1 0 6 0) s fun t => decide ((mirrorOf t 1 0 6 0).map MirrorPiece.st = some .failed),
     nx (.pieceVerified { role := 2, epoch := 5 } 1 0 6 0) (paired 1) (fun t => decide (t.pl.verified = [])) &&
       nx (.pieceVerified { role := 2, epoch := 5 } 1 0 6 0) { paired 1 with glb.restarting := some 0 } fun t =>
         decide (t.pl.verified = [(1, 0, 6, 0)]),
     decide (createRefused (paired 2) createSub.sqe = none) &&
       nx (.partitionOp { role := 1, epoch := 5, seq := 77 } createSub.sqe) (paired 2) fun t =>
         decide (t.media.op.isSome = true ∧ (partOf t 15).map Part.shadow = some true),
     decide (deleteRefused (paired 2) deleteSub.sqe = none) &&
       nx (.partitionOp { role := 1, epoch := 5, seq := 77 } deleteSub.sqe) (paired 2) fun t => decide (t.media.op.isSome = true),
     decide (goOnCatch { paired 1 with pl.catchup := true } = paired 1),
     nx (.opDone { role := 2, epoch := 5 } 3 0) (paired 1) fun t => decide (t.pl.forwardOp = some (3, 0)),
     decide ((paired 2).pl.timeSet = false ∧ (paired 2).mt.running = true) &&
       nx (.timeExch { role := 1, epoch := 5 } 1 9 9 0) (paired 2) fun t => decide (t.pl.timeSet = true ∧ t.mt.sync = 2)].all id =
      true := by decide +kernel

/-! ## Firmware and the session -/

/-- In a service session, an image staged in the slot not running. -/
def session (slot : Nat) : State := { up with
  fw := { session := 1, sessionEnd := up.now + 216000000, slot, source := 1, image := [1] }
  flash.slotB := { version := 2, valid := true } }

/-- An activation armed for now, its hold begun at h. -/
def armedAt (h : Option Nat) : State := { session 2 with
  fw.holdAt := h
  mt.acc := BitVec.ofNat 96 (1000 * 2 ^ 32)
  od := [(odKey 0x5013 1, le 8 1000), (odKey 0x5013 3, le 4 9)] }

theorem witness_FirmwareStaged :
    [nx (.imageDownload .usb [1, 2]) (session 0) fun t => decide (t.fw.usbBuf = [1, 2] ∧ t.fw.usbDone = true),
     nx (.imageVerified 1) { session 0 with fw.usbDone := true } fun t => decide (t.fw.usbDone = false ∧ t.out.length = 1),
     nx (.imageVerified 2) { session 0 with fw.peerDone := true } fun t => decide (t.fw.peerDone = false),
     decide ((claimSlot up 2 [1]).2 = .ok ∧ (claimSlot up 2 [1]).1.fw.source = 2 ∧ (claimSlot (session 2) 2 [1]).2 = .refused),
     nx .imageFlashWritten (session 1) fun t => decide (t.fw.slot = 2 ∧ t.flash.slotA = up.flash.slotA),
     nx (.propagateToPeer {}) (session 2) (fun t => decide (t.fw.prop = 6)) &&
       nx (.propagateToPeer { result := 5 }) { session 2 with pl.lanes := 1 } fun t => decide (t.fw.prop = 5 ∧ t.fw.slot = 2),
     nx .cancelStagedImage (session 2) fun t => decide (t.fw.slot = 0 ∧ t.flash.slotB.valid = false ∧ setN t 0x5013 1 = 2 ^ 64 - 1),
     nx (.activationTime .usb 7) (session 2) fun t => decide (setN t 0x5013 1 = 7),
     armed (armedAt none) && nx .activationArmedInstant (armedAt none) fun t => decide (t.fw.holdAt = some up.now),
     let s := { armedAt (some up.now) with nw.atRest := true }
     quiescent s && nx .quiescentPoint s fun t =>
       decide (t.fw.slot = 3 ∧ t.flash.trial = some true ∧ t.glb.restarting = some up.now),
     let s := armedAt (some (up.now - 9 * 216000))
     nx .graceWindowExpiry s (fun t => decide (t.fw.holdAt = none ∧ (setN t 0x5013 1 = 2 ^ 64 - 1 ∨ t.fw.lenient = true))) &&
       nx .graceWindowExpiry { s with od := (odKey 0x5013 2, [1]) :: s.od } fun t => decide (t.fw.lenient = true)].all id = true := by
  decide +kernel

/-- After n failures. -/
def failed (n : Nat) : State := { up with flash.failures := n, flash.nextLock := 57600, flash.password := some ([], [1]) }

theorem witness_ServiceSession :
    [nx .challenge up fun t => decide (t.fw.challenges = 1 ∧ t.out.length = 1),
     decide (lsServes up = true ∧ lockedOut up = false), nx (.response .usb 60 []) { up with fw.challenge := some ([], up.now) } fun t =>
       decide (t.fw.challenge = none),
     decide ((openSession up 1 60).fw.sessionEnd = up.now + 60 * 216000000 ∧ (unlockFails (failed 3)).flash.lockUntil = none ∧
       (unlockFails (failed 4)).flash.lockUntil = some (up.now + 57600 * 216000000) ∧ (unlockFails (failed 4)).flash.nextLock = 86400),
     nx (.setServicePassword .usb []) { session 0 with flash.password := some ([], []) } fun t => decide (t.flash.password = none),
     nx (.lock .pcie) (session 0) fun t => decide (t.fw.session = 0),
     nx .lockoutExpiry { up with flash.lockUntil := some up.now } fun t => decide (t.flash.lockUntil = none),
     nx .sessionExpiry { session 0 with fw.sessionEnd := up.now } fun t => decide (t.fw.session = 0),
     nx .vbusFall { session 0 with fw.vbus := true } fun t => decide (t.fw.session = 0 ∧ t.fw.vbus = false),
     nx (.kekImport .usb 15 (zeros 104)) (session 0) fun t => decide (t.flash.keks = []),
     nx (.kekRemove .pcie 15) { session 0 with flash.keks := [(15, [1])] } fun t => decide (t.flash.keks = []),
     nx (.clearRetiredLanes .pcie 1) { session 0 with flash.lanes := 3, fm.retired := 3 } fun t => decide (t.flash.lanes = 2 ∧ t.fm.retired = 2),
     nx (.clearRetiredFrontEnds .pcie 0 1) { session 0 with flash.feA := 3, rc.retiredA := 3, rc.retiredB := 3 } fun t =>
       decide (t.flash.feA = 2 ∧ t.rc.retiredA = 2 ∧ t.rc.retiredB = 3),
     nx (.clearRetiredFrontEnds .pcie 1 1) { session 0 with rc.retiredA := 3, rc.retiredB := 3 } fun t => decide (t.rc.retiredB = 2),
     nx (.clearRetiredServoChannels .pcie 8) { session 0 with sv.retired := 15, flash.servo := 15 } fun t =>
       decide (t.sv.retired = 7 ∧ t.flash.servo = 7)].all id = true := by decide +kernel

theorem witness_LockoutHolds :
    [let s := { up with flash.lockUntil := some (up.now + 1) }
     decide ((responseOp s .usb 60 []).2 = .refused ∧ (passwordOp s .usb (zeros 8)).2 = .refused),
     nx .resetInNAssert (failed 4) fun t => decide (t.flash.failures = 4 ∧ t.flash.nextLock = 57600)].all id = true := by decide +kernel

end Sys2Proof.Tests
end

