-- ==== Sys2Proof/Tests/Queues.lean ====
section
/-! SUPPORT. States that meet the hypotheses of the statements about queues, functions, resets, the buffer pool and Lodestar, clause
by clause, and what follows there. -/

namespace Sys2Proof.Tests

open Sys2Proof Sys2Proof.Machine

set_option Elab.async false

/-! ## Completions and admission -/

/-- A GET_LOG of page 0. -/
def getLogSub : Sub := adminSub [(0, 4), (2, 3), (24, 64), (32, 4096), (40, 64)]

theorem witness_CommandFrame : (nx (.bufferAllocate 5 9 none) up fun t =>
    decide (t.pending = up.pending ∧ t.now = up.now ∧ t.bpm.mem = up.bpm.mem)) = true := by decide +kernel

theorem witness_CompletionsPosted :
    (decide (queueOf (flying [rdCmd]) rdCmd.q = some ioQ ∧ (fnOf (flying [rdCmd]) ioQ.fn).d3hot = false) &&
      posted (finish (flying [rdCmd]) rdCmd { status := 0x0302 }) fun e =>
        decide (e.status = 0x0302 ∧ e.frozen = true ∧ e.phase = true ∧ (cqeBytes e).length = 32 ∧
          slice (cqeBytes e) 8 2 = [2, 3])) = true := by decide +kernel

/-- A CQE as the queue has it. -/
def mkCqe (q : Queue) : Cqe :=
  { cid := 1, sqid := 0, sqHead := q.head, epoch := 0, phase := q.phase, frozen := false, status := 0 }

theorem witness_PhaseBit :
    (let s := { up with qe.queues := [{ adminQ with cqTail := 15, phase := false }] }
     decide (((queueOf (postCqe s 0 mkCqe false) 0).map fun q => (q.cqTail, q.phase)) = some (0, true)) &&
     adm up (adminSub [(0, 2), (28, 300), (48, 16), (50, 16), (54, 1)]) fun t c =>
       decide (namedQueue { t with qe.assigns := [{ g := 300, fn := 0, loc := 300 }] } c = some 300 ∧
         createBad t c.sqe c.fn 300 = none)) = true := by decide +kernel

/-- In Twilight. -/
def twi : State := { up with glb.twilight := some 1 }

theorem witness_AdmissionRuns :
    (decide (queueOf up 0 = some adminQ ∧ mayAdmit up adminQ = true ∧ (∀ d ∈ up.qe.cmds, d.id ≠ up.qe.nextId) ∧
      adminBusy up adminQ.g = false ∧ up.fw.holdAt = none) &&
      (adm up getLogSub fun t c => decide (cmdOf t c.id = some c)) && mayAdmit twi adminQ && !adminBusy twi adminQ.g &&
      (match admitOne twi getLogSub with
       | .over t => posted t fun e => decide (e.status = stTwilight)
       | _ => false)) = true := by decide +kernel

theorem witness_WrongOpcodes :
    (decide (mayAdmit up ioQ = true ∧ up.glb.twilight = none) &&
      (match admitOne up (ioSub [(0, 0x3E)]) with | .over t => posted t fun e => decide (e.status = stInvalidOpcode) | _ => false) &&
      (match admitOne up (ioSub [(0, 0x04)]) with | .over t => posted t fun e => decide (e.status = stInvalidOpcode) | _ => false) &&
      (match admitOne up (adminSub [(0, 0x41)]) with
       | .over t => posted t fun e => decide (e.status = stInvalidOpcode) | _ => false) &&
      adm { up with qe.queues := adminQ :: List.replicate 256 { ioQ with g := 301, cls := 1 } }
        (adminSub [(0, 2), (28, 300), (30, 1), (48, 16), (50, 16), (54, 1)]) fun t c =>
          decide (sqeBytes c.sqe 30 1 = 1 ∧ 256 ≤ t.qe.queues.countP fun q => q.cls == 1)) = true := by decide +kernel

/-! ## Doorbells and resets of queues -/

/-- A frozen I/O queue, two CQEs posted. -/
def frozenQ : Queue := { ioQ with frozen := true, cqTail := 2, posted := 2, unsignalled := 2, oldest := 0 }

/-- `up` with that queue. -/
def frozenUp : State := { up with qe.queues := [adminQ, frozenQ] }

theorem witness_Doorbells :
    (decide (((bellQueue frozenUp 0 256).map fun x => (x.frozen, x.resetBusy, x.posted)) = some (true, false, 2)) &&
      eqn (.sqTail 0 256 15) frozenUp (setQueue frozenUp { frozenQ with tail := 15 }) &&
      eqn (.cqHead 0 256 2) frozenUp (setQueue frozenUp { frozenQ with cqHead := 2, posted := 0 }) &&
      eqn (.resume 0 256) frozenUp (setQueue frozenUp { frozenQ with frozen := false }) &&
      nx (.cqTimeLimitExpiry 256) (setFn frozenUp 0 { pf0 with msix := [(3, 0)] }) (fun t => decide (t.out = [Emit.msix 0 0])) &&
      vectorMasked (fnOf frozenUp 0) 0 && nx (.cqTimeLimitExpiry 256) frozenUp fun t =>
        decide (t.out = [] ∧ (fnOf t 0).pendingVecs = [0])) = true := by decide +kernel

theorem witness_DoorbellDropped :
    (let drops := fun (t : State) => decide ((fnOf t 0).drops = 1)
     decide ((globalOf up 0 400).bind (queueOf up) = none ∧ ioQ.posted < ringDist ioQ.cqDepth ioQ.cqHead 5) &&
      nx (.sqTail 0 400 1) up drops && nx (.queueReset 0 400) up drops && nx (.sqTail 0 256 16) up drops &&
      nx (.cqHead 0 256 5) up drops && nx (.cqHead 0 256 16) up drops &&
      nx (.sqTail 0 256 1) { up with qe.queues := [adminQ, { ioQ with resetBusy := true }] } drops &&
      nx (.resume 3 1) { up with glb.vfEnable := true, glb.numVfs := 3 } fun t => decide ((fnOf t 3).drops = 1)) = true := by
  decide +kernel

theorem witness_QueueResets :
    (let s := { up with qe.queues := [adminQ, { ioQ with resetBusy := true, epoch := 255 }] }
     decide (cmdsOf up 256 = [] ∧ (resetQueue up 0 256).map Queue.g = some 256) && nx (.queueReset 0 256) up (fun t =>
        decide ((queueOf t 256).map (fun x => (x.resetBusy, x.epoch)) = some (true, 1))) &&
      nx (.resetMarkerPost 256) s fun t => posted t fun e =>
        decide (e.cid = 0xFFFF ∧ e.status = stQueueReset ∧ e.epoch = 255 ∧ e.frozen = true)) = true := by decide +kernel

/-! ## Functions -/

/-- PF0 before its admin queue is enabled. -/
def downFn : State := { up with qe := { fns := [(0, { pmask := 0xFFFF, kcount := 4096, aSqDepth := 16, aCqDepth := 16 })] } }

theorem witness_AdminQueues :
    (decide ((fnOf downFn 0).aEnable = false ∧ (fnOf downFn 0).aReady = false ∧ (fnOf downFn 0).state = 0) &&
      adminOk (setFn downFn 0 { fnOf downFn 0 with aCqCount := 1 }) 0 &&
      nx (.adminQueueEnable 0 0x101) downFn (fun t => decide ((fnOf t 0).state = 1 ∧ (queueOf t 0).isSome = true)) &&
      nx (.adminQueueDisable 0 0x100) up (fun t => decide ((fnOf t 0).state = 2 ∧ (fnOf t 0).aEnable = false)) &&
      nx (.functionDrainEnd 0) (setFn up 0 { pf0 with state := 2 }) fun t =>
        decide ((fnOf t 0).state = 0 ∧ (fnOf t 0).aReady = false ∧ t.qe.queues = [])) = true := by decide +kernel

/-- Three VFs, with a queue assigned to VF3. -/
def vfs : State := { up with
  glb.vfEnable := true
  glb.numVfs := 3
  qe.assigns := [{ g := 256, fn := 0, loc := 256 }, { g := 400, fn := 3, loc := 1 }, { g := 401, fn := 1, loc := 1 }] }

theorem witness_FunctionResets :
    (eqn (.vfEnableSet 5) up { up with glb.vfEnable := true, glb.numVfs := 5 } &&
      nx .vfEnableClear vfs (fun t => decide (t.glb.vfEnable = false ∧ ∀ a ∈ t.qe.assigns, a.fn = 0)) &&
      nx (.numvfsReduce 1) vfs (fun t => decide (t.glb.numVfs = 1 ∧ ∀ a ∈ t.qe.assigns, a.fn ≤ 1)) && covered vfs 3 &&
      nx (.flrVf 3) vfs (fun t => decide ((fnOf t 3).aCqCount = 1 ∧ (⟨400, 3, 1⟩ : Assign) ∈ t.qe.assigns)) &&
      nx .flrPf0 vfs (fun t => decide (t.qe.assigns = [] ∧ t.glb.rstCause.getLsbD 4 = true)) &&
      nx .perstAssert vfs (fun t => decide (t.qe.assigns = [] ∧ t.glb.perstReleased = false)) &&
      nx .perstRelease { up with glb.perstReleased := false } (fun t => decide (t.glb.perstReleased = true ∧ t.glb.subDue = false)) &&
      nx .perstRelease { up with glb.perstReleased := false, glb.stage := 3 } (fun t => decide (t.glb.subDue = true)) &&
      decide (configRead up 0 .totalVfs = .served (some 255)) &&
      ([{ vfs with glb.stage := 4 }, { vfs with glb.perstReleased := false }].all fun s =>
        decide (configRead s 0 .vendorId = .retry) && eqn (.flrVf 3) s s && eqn .flrPf0 s s && eqn (.d3hotEntry 0) s s)) = true := by
  decide +kernel

theorem witness_D3hotHolds :
    (let s := setFn (flying [rdCmd]) 0 { pf0 with d3hot := true }
     nx (.d3hotEntry 0) up (fun t => decide ((fnOf t 0).d3hot = true ∧ mayAdmit t adminQ = false ∧ (emitFn t 0 .ppsOut).out = [])) &&
      covered up 0 &&
      (let w := setFn (flying [wrCmd]) 0 { pf0 with d3hot := true }
       decide (cmdOf w 9 = some wrCmd) && eqn (.writeDataArrival 9 [1]) w w) &&
      decide ((finish s rdCmd { status := 0 }).out = [] ∧ (finish s rdCmd { status := 0 }).qe.held.length = 1) &&
      nx (.d3hotExit 0) (finish s rdCmd { status := 0 }) fun t =>
        decide (t.out.length = 1 ∧ t.qe.held = [] ∧ (fnOf t 0).d3hot = false)) = true := by decide +kernel

/-! ## Resets, start-up, hardware events -/

theorem witness_ModuleResets :
    (nx .resetInNAssert up (fun t => decide (t.qe = {} ∧ t.bpm = {} ∧ t.glb.resetInN = false)) &&
      nx .vin12Loss up (fun t => decide (t.glb.vin12 = false ∧ t.media.mount = 0)) &&
      nx .testEnAssert up (fun t => decide (t.glb.testEn = true ∧ t.fm = {})) &&
      nx (.thermalTrip 1350 0) up (fun t => decide (t.glb.tripped = true)) &&
      nx .resetInNAssert { up with nw.atRest := false } fun t => decide (t.nw.state = 1 ∧ t.nw.cause = 0x23)) = true := by
  decide +kernel

/-- Before start-up: supply and RESET_IN_N as given. -/
def off (vin rst trip : Bool) : State := { State.reset with glb.vin12 := vin, glb.resetInN := rst, glb.tripped := trip }

theorem witness_StartUp :
    (nx (.resetInNRelease 5) (off true false false) (fun t => decide (t.glb.bootAt = some 0 ∧ t.fi.nodePins = 5)) &&
      nx .vin12Valid (off false true false) (fun t => decide (t.glb.bootAt = some 0)) &&
      nx (.thermalTripEnd 1099 1099) (off true true true) (fun t => decide (t.glb.bootAt = some 0 ∧ t.glb.tripped = false)) &&
      nx (.startupStageDone {}) { off true true false with glb.bootAt := some 0 } (fun t => decide (t.glb.stage = 1 ∧ t.nw.state = 4)) &&
      nx (.startupStageDone { turning := true }) { off true true false with glb.bootAt := some 0 } (fun t =>
        decide (t.nw.state = 1 ∧ t.nw.cause = 0x23)) &&
      nx (.startupStageDone { training := false }) { off true true false with glb.bootAt := some 0, glb.stage := 2 } (fun t =>
        decide (t.glb.twilight = some 3)) &&
      nx (.startupStageDone {}) { off true true false with glb.bootAt := some 0, glb.stage := 4 } fun t =>
        decide (t.glb.stage = 5 ∧ t.bpm.pools = defaultPools)) = true := by decide +kernel

theorem witness_ThermalAndScrub :
    (nx (.logicThermalCap 1200) up (fun t => t.glb.thermalCap) &&
      nx (.logicThermalCap 1200) { up with rcl.run := [(0, 600)], rc.mmps := 8000, fm.speed := 20 } (fun t =>
        t.glb.thermalCap && decide (t.fm.speed ≤ 12 ∧ t.rc.mmps ≤ 4000)) && nx (.logicThermalCap 1099) up (fun t => !t.glb.thermalCap) &&
      nx (.logicThermalCap 1150) { up with glb.thermalCap := true } (fun t => t.glb.thermalCap) &&
      nx (.powerStageThermalLimit 1300) up (fun t => t.ps.hotLimit) &&
      nx (.powerStageThermalLimit 1149) { up with ps.hotLimit := true } (fun t => !t.ps.hotLimit) &&
      nx (.powerStageThermalLimit 1150) { up with ps.hotLimit := true } (fun t => t.ps.hotLimit) &&
      nx .backgroundWriteDone { up with glb.background := false } (fun t => t.glb.background) &&
      nx (.scrub {}) { up with bpm.scrub := 503316479 } (fun t => decide (t.bpm.scrub = 0 ∧ t.bpm.eccCor = 0)) &&
      nx (.scrub { flips := [522] }) up (fun t => decide (t.bpm.eccCor = 1)) &&
      nx (.scrub { flips := [0] }) up (fun t => decide (t.bpm.eccCor = 1 ∧ t.bpm.scrub = 1)) &&
      decide (checkLine [0, 1] 0 = .uncorrectable ∧ checkLine [] 1 = .uncorrectable) &&
      nx (.scrub { moved := 1 }) { up with bpm.scrub := 0x8000000 } (fun t =>
        decide (t.bpm.eccUnc = 1 ∧ t.bpm.eccAddr = 0x8000000 ∧ t.bpm.poison = [])) &&
      (let s := { up with bpm.pools := [], bpm.scrub := 0xA000000 }
       decide (bufferAt s (64 * 0xA000000) = none) && nx (.scrub { flips := [0, 1] }) s fun t =>
         decide (t.bpm.eccUnc = 1 ∧ t.bpm.poison = [0xA000000]))) = true := by decide +kernel

/-! ## The buffer pool and staging -/

/-- Pool 5 with buffer 0 held by class 3. -/
def held5 : State := setPool up 5 { poolOf up 5 with bufs := [{ idx := 0, count := 1, holders := 8 }], ring := [(1, 9)] }

theorem witness_BuffersServed :
    (let tight := setPool up 5 { poolOf up 5 with alm := 10 ^ 9 }
     let waits := setPool (flying [wrCmd, rdCmd]) 0 { poolOf up 0 with parked := [{ cls := clsQeIn, cmd := some 9, since := 0 },
       { cls := clsQeOut, cmd := some 7, since := 0 }] }
     decide (up.bpm.pools.length = 16 ∧ (allocRank 3).isSome = true ∧ parkedAhead (poolOf up 5) 0 = false) &&
      (poolOf up 5).floorOk 3 && nx (.bufferAllocate 5 3 none) up (fun t => decide (t.bpm.granted.length = 1)) &&
      !(poolOf tight 5).floorOk 3 && nx (.bufferAllocate 5 3 none) tight (fun t => decide ((poolOf t 5).parked.length = 1)) &&
      nx (.parkedRequestServed 5) (setPool up 5 { poolOf up 5 with parked := [{ cls := 3, cmd := none, since := 0 }] }) (fun t =>
        decide (t.bpm.granted.length = 1 ∧ (poolOf t 5).parked = [])) &&
      validHandle held5 (handleOf 5 0) && nx (.bufferAcquire (handleOf 5 0) 4) held5 (fun t =>
        decide (((poolOf t 5).buf 0).map Buf.count = some 2)) &&
      nx (.bufferRelease (handleOf 5 0) 3) held5 (fun t => decide ((poolOf t 5).buf 0 = none)) &&
      nx (.bufferRelease (handleOf 5 0) 3) { held5 with qe.cmds := [{ rdCmd with pinWait := true }] } (fun t =>
        decide ((poolOf t 5).buf 0 = none)) &&
      nx (.bufferRelease (handleOf 5 0) 4) held5 (fun t => decide (t.bpm.rejects = 1 ∧ t.bpm.rejIdx = 0)) &&
      nx (.bufferWaitLimitExpiry 0 9) waits (fun t => posted t fun e => decide (e.status = stBufferExhausted)) &&
      nx (.bufferWaitLimitExpiry 0 7) waits fun t => posted t fun e => decide (e.status = stBufferExhausted)) = true := by
  decide +kernel

theorem witness_StagingReadsBack :
    (let s := stageWrite up 0x77FFFFFFE [7, 0]
     stagingCanonical up && stagingCanonical s && decide (stReadBytes s.bpm.mem 0x77FFFFFFE 2 = [7, 0])) = true := by decide +kernel

/-! ## Lodestar and Twilight -/

theorem witness_LodestarAndTwilight :
    (decide ((recentRestarts up).length < 2) &&
      nx (.lockstepMismatch 1) up (fun t => decide (t.glb.restarting = some up.now ∧ t.health.lateFaults.length = 1)) &&
      nx (.watchdogExpiry 1) up (fun t => decide (t.glb.restarting = some up.now)) &&
      nx .restartTimeout { up with glb.restarting := some 0 } (fun t => decide (t.glb.restarting = some up.now)) &&
      nx (.lodestarRestartComplete {}) { up with glb.restarting := some 0, glb.lsUp := false } (fun t =>
        decide (t.glb.restarting = none ∧ t.glb.lsUp = true ∧ t.glb.istat.getLsbD 3 = true)) &&
      (let s := { up with glb.restarts := [up.now - 1, up.now - 2] }
       decide (2 ≤ (recentRestarts s).length) && nx (.lockstepMismatch 0) s fun t => decide (t.glb.twilight = some 1)) &&
      nx (.flashWriteFailed 0) up (fun t => decide (t.glb.twilight = some 5 ∧ t.glb.lsUp = false)) &&
      eqn (.flashWriteFailed 0) { up with glb.twilight := some 1 } { up with glb.twilight := some 1 }) = true := by decide +kernel

end Sys2Proof.Tests
end

