-- ==== Sys2Proof/Tests/Reading.lean ====
section
/-! SUPPORT. States that meet the hypotheses of the statements about the read channel and read recovery, clause by clause, and what
follows there. -/

namespace Sys2Proof.Tests

open Sys2Proof Sys2Proof.Machine

set_option Elab.async false

/-- A run that reads dataset 600, lanes as given. -/
def lanes (y : Lane) : State := { up with rcl.run := [(1, 600)], rc.lanes := (List.range 64).map fun l => (l, y) }

/-- The head of a user area of partition 1, dataset 600, with no records. -/
def user600 : List Byte := le 4 0x3253445A ++ le 2 2 ++ [0, 1] ++ le 8 600 ++ zeros 112

/-- Dataset 600 as it is being read. -/
def read600 : ReadDs := { part := 1, seq := 600 }

/-- A device that reads dataset 600. -/
def reads (r : ReadDs) : State := { up with rc.reads := [r], media.threaded := true }

/-- Dataset 600 on the ladder. -/
def onLadder (pass : Nat) : State :=
  { reads { read600 with step := 3, step3At := up.now, pass } with rc.ladder := some (1, 600), ce.owner := 3 }

/-- The clause about a segment that is found needs a whole segment's soft bits: it is met by every segment that is read without errors, whose
evaluation is too long for the kernel; its effect is stated of `segmentAccepted` as well, without that hypothesis. -/
theorem witness_SegmentsAndDatasets :
    [laneReads (lanes { state := 2 }) 63 && decide ((laneOf (lanes { state := 2 }) 63).state = 2),
     decide ((tryAll (lanes { state := 2 }) 5 0 none 0 0 none []).1.isNone = true),
     let s := decideSegment (lanes { state := 2 }) 5 {} (some 0)
     decide ((laneOf s 5).state = 3 ∧ (laneOf s 5).coastn = 1 ∧ (laneOf s 5).budget = 1),
     let s := lanes { state := 1 }
     let found := (tryAll s 5 0 none 0 0 none []).1
     decide (candidates s 5 (some 1) [] = [] ∧ found.isNone = true ∧ (laneOf s 5).store.length < 3),
     let s := noSegment (lanes { state := 2 }) 63 {} none false
     decide ((laneOf s 63).state = 3 ∧ (laneOf s 63).coastn = 1 ∧ (laneOf s 63).none_ = 1),
     let s := segmentAccepted (lanes { state := 3, coastn := 4 }) 63 {} 17 [] 0 true false false {}
       { seq := 600, wrap := 0, type := 0, attempt := 0, sub := 0, rewrite := 0, row := 63 } []
     decide ((laneOf s 63).state = 2 ∧ (laneOf s 63).coastn = 0 ∧ (laneOf s 63).fly = 17),
     nx (.coastLimitExpiry 63) (lanes { state := 3, coastn := setN up 0x2127 3 }) fun t => decide ((laneOf t 63).state = 1),
     eqn (.decoderBudgetExhausted { lane := 63, tries := 2 }) (onLadder 0) (onLadder 0),
     let s := reads { read600 with user := some user600 }
     decide (endOfDataset s 1 600 = s ∧ memberAt s 1 600 = none) &&
     (match parseDataset user600 with | some ds => decide (ds.part = 1 ∧ ds.seq = 600) && headersOk s 1 600 ds | none => false) &&
       nx (.datasetDecoded 1 600) s fun t => decide (t.rc.reads.all (fun r => r.decoded) = true)].all id = true := by decide +kernel

/-- A span of one dataset, 600, that is read with both parity members there. -/
def spanned : State :=
  { onLadder 1 with rc.span := some { part := 1, seq := 600, first := 600, count := 1, done := [30, 31] } }

theorem witness_ReadRecovery :
    [decide (endOfDataset (reads read600) 1 600 = reads read600 ∧ openRead (reads read600) 1 600 = reads read600 ∧
         memberAt (reads read600) 1 600 = none ∧ (reads read600).rcl.run.head? = none),
     let s := { spanned with rc.reads := { read600 with seq := 601, user := some [1] } :: spanned.rc.reads,
                             rc.span := spanned.rc.span.map fun sp => { sp with count := 2 } }
     decide (memberAt s 1 601 = some 1) &&
       nx (.recoveryEntry 1 601) s fun t => decide (t.rc.span.map SpanRead.done = some [30, 31, 1]),
     decide (readOf (reads read600) 1 600 = some read600 ∧ read600.whole = false ∧ read600.step = 0 ∧ read600.decoded = false),
     decide ((recovered (reads read600) 1 600 4 [] true).rc.step4 = 1),
     nx (.recoveryTimeLimitExpiry 1 600)
         { up with rc.reads := [{ read600 with step := 3, step3At := up.now - setN up 0x212A 3 * 216000 - 1 }] } fun t =>
       t.rc.reads.all ReadDs.limited].all id = true := by decide +kernel

/-- The ladder with passes left. -/
theorem witness_ReadRecovery_pass :
    nx (.ladderPassDone 1 600 true true) (onLadder 0) (fun t => decide (t.ce.owner = 3 ∧ t.rc.ladder = some (1, 600))) = true := by
  decide +kernel

/-- The ladder after its last pass. -/
theorem witness_ReadRecovery_last :
    nx (.ladderPassDone 1 600 true true) (onLadder (setN up 0x212A 1 - 1)) (fun t => decide (t.rc.ladder = none)) = true := by
  decide +kernel

/-- A span read that can rebuild dataset 600. -/
theorem witness_ReadRecovery_span :
    (let v := (spanPositions 1).foldl takeMember (modRead spanned 1 600 fun r => { r with spanReads := r.spanReads + 1 })
     match v.rc.span with
     | some sp => decide (sp.rebuild [0] = some [(0, [])] ∧ sp.done = [30, 31] ∧ sp.count = 1) && (readOf v 1 600).isSome
     | none => false) = true := by decide +kernel

/-- A span read with more than two members missing, to be read once more. -/
theorem witness_ReadRecovery_again :
    (let s := { spanned with rc.span := some { part := 1, seq := 600, first := 600, count := 1 } }
     nx (.spanReadDone 1 600 true) s fun t => decide (t.rc.passNo = 2 ∧ t.rc.ladder = some (1, 600))) = true := by decide +kernel

/-! ## A ladder pass that succeeds -/

/-- Every row of a dataset, all zero. -/
def allRows : List Row := (List.range 16).flatMap fun b => (List.range 128).map fun i => { sub := b, row := i, bytes := [] }

theorem allRows_bytes (x : Row) (h : x ∈ allRows) : x.bytes = [] := by
  simp only [allRows, List.mem_flatMap, List.mem_map] at h
  obtain ⟨b, -, i, -, rfl⟩ := h
  rfl

theorem allRows_find (b i : Nat) (hb : b < 16) (hi : i < 128) :
    (allRows.find? fun x => x.sub == b && x.row == i).map Row.bytes = some [] := by
  cases h : allRows.find? fun x => x.sub == b && x.row == i with
  | some x => simp [allRows_bytes x (List.mem_of_find?_eq_some h)]
  | none =>
    have m : ({ sub := b, row := i, bytes := [] } : Row) ∈ allRows := by
      simp only [allRows, List.mem_flatMap, List.mem_map, List.mem_range]
      exact ⟨b, hb, i, hi, rfl⟩
    simpa using List.find?_eq_none.mp h _ m

theorem zeros_decode (c : Nat) : (c2Column ((List.range 128).map fun _ => some []) [] c).isSome = true := by
  have e : c2Column ((List.range 128).map fun _ => some []) [] c = rsDecode 128 16 (List.replicate 128 0) [] := by
    have g : ∀ r ∈ List.range 128, ((List.range 128).map fun _ => (some [] : Option (List Byte))).getD r none = some [] := by
      intro r h
      rw [List.getD_eq_getElem?_getD, List.getElem?_map, List.getElem?_range (List.mem_range.mp h)]
      rfl
    have g1 : ((List.range 128).map fun r => (((((List.range 128).map fun _ => (some [] : Option (List Byte))).getD r none).getD []).getD c 0).toNat)
        = List.replicate 128 0 := by
      rw [List.map_congr_left (g := fun _ => 0)]
      · exact List.map_const' ..
      · intro r h; rw [g r h]; simp
    have g2 : (List.range 128).filter (fun r => ((((List.range 128).map fun _ => (some [] : Option (List Byte))).getD r none).isNone) ||
        ([] : List Nat).contains r) = [] := by
      rw [List.filter_eq_nil_iff]; intro r h; rw [g r h]; simp
    rw [c2Column, g1, g2]
  rw [e]
  decide +kernel

theorem mapM_some {α β : Type} (f : α → Option β) : ∀ l : List α, (∀ a ∈ l, (f a).isSome = true) → (l.mapM f).isSome = true := by
  intro l
  induction l with
  | nil => intro _; rfl
  | cons a r ih =>
    intro h
    have ha := h a List.mem_cons_self
    have hr := ih fun b hb => h b (List.mem_cons_of_mem a hb)
    rw [List.mapM_cons]
    cases h1 : f a with
    | none => rw [h1] at ha; cases ha
    | some y =>
      cases h2 : r.mapM f with
      | none => rw [h2] at hr; cases hr
      | some z => rfl

theorem zeros_recover (r : ReadDs) (h : r.rows = allRows) : r.recover.isSome = true := by
  unfold ReadDs.recover
  rw [Option.isSome_map]
  refine mapM_some _ _ fun b hb => ?_
  rw [List.mem_range] at hb
  rw [ReadDs.subData, Option.isSome_map]
  refine mapM_some _ _ fun c _ => ?_
  have e : r.subRows b = (List.range 128).map fun _ => some [] := by
    rw [ReadDs.subRows, h]
    exact List.map_congr_left fun i hi => allRows_find b i hb (List.mem_range.mp hi)
  have z := zeros_decode c
  rw [ReadDs.column, e]
  cases g : c2Column ((List.range 128).map fun _ => some []) [] c with
  | none => rw [g] at z; cases z
  | some x => rfl

theorem runSteps_recover (s : State) (p q : Nat) (r : ReadDs) (h : readOf s p q = some r) (g : r.recover.isSome = true) :
    (runSteps s p q).2.1.isSome = true := by
  obtain ⟨u, e⟩ := Option.isSome_iff_exists.mp g
  have k : ∀ limit, (steps12 s limit r).2.2 = some u := by
    intro limit
    rw [steps12, if_pos g, e]
  rw [runSteps, h]
  dsimp only
  rw [k]
  rfl

/-- Dataset 600 on the ladder with these rows. -/
def laddered (rows : List Row) : State :=
  { onLadder 0 with rc.reads := [{ read600 with step := 3, step3At := up.now, rows }] }

/-- The state in which steps 1 and 2 run at the end of a pass. -/
def passEnd (rows : List Row) : State :=
  endPass (modRead (laddered rows) 1 600 fun r => { r with pass := r.pass + 1, heldServo := r.heldServo || (true && true) })

theorem passEnd_read (rows : List Row) : ∃ r, readOf (passEnd rows) 1 600 = some r ∧ r.rows = rows := ⟨_, rfl, rfl⟩

/-- The hypotheses of the ladder's success are met: every row is there after the pass. -/
theorem witness_LadderSuccess :
    (laddered allRows).rc.ladder = some (1, 600) ∧ (laddered allRows).rc.span = none ∧ (laddered allRows).glb.restarting = none ∧
      (runSteps (passEnd allRows) 1 600).2.1.isSome = true := by
  obtain ⟨r, h, g⟩ := passEnd_read allRows
  exact ⟨rfl, rfl, rfl, runSteps_recover _ 1 600 r h (zeros_recover r g)⟩

end Sys2Proof.Tests
end

