-- ==== Sys2Proof/Tests/Slice0.lean ====
section
/-! SUPPORT. Small tests: each check of WellFormed refuses an ill-formed command, no word spells a command, and the spec's worked
values come out. -/

namespace Sys2Proof.Tests

open Sys2Proof Sys2Proof.Machine

set_option Elab.async false

/-! ## Well-formedness: the first number out of range is refused, the last in range is not -/

theorem test_wf_queue : (Instr.barrierComplete 32768).wf = false ∧ (Instr.barrierComplete 32767).wf = true := by decide
theorem test_wf_entry : (Instr.identify { q := 32768, sqe := 0 }).wf = false ∧ (Instr.identify { q := 0, sqe := 0 }).wf = true := by
  decide
theorem test_wf_fn : (Instr.resume 256 0).wf = false ∧ (Instr.functionDrainEnd 256).wf = false ∧ (Instr.resume 255 0).wf = true := by
  decide
theorem test_wf_bell : (Instr.sqTail 0 32768 0).wf = false ∧ (Instr.sqTail 1 4096 0).wf = false ∧ (Instr.sqTail 0 4096 0).wf = true := by
  decide
theorem test_wf_offset : (Instr.registerWrite 0 (2 ^ 25) 0).wf = false ∧ (Instr.registerWrite 1 (2 ^ 18) 0).wf = false ∧
    (Instr.registerWrite 0 (2 ^ 18) 0).wf = true := by decide
theorem test_wf_slot : (Instr.keyClearComplete 4096).wf = false ∧ (Instr.keyClearComplete 4095).wf = true := by decide
theorem test_wf_fetch : (Instr.sqeFetch 256 (List.replicate 5 { q := 256, sqe := 0 })).wf = false ∧
    (Instr.sqeFetch 256 (List.replicate 4 { q := 256, sqe := 0 })).wf = true ∧
    (Instr.sqeFetch 256 [{ q := 32768, sqe := 0 }]).wf = false := by decide
theorem test_wf_vfs : (Instr.vfEnableSet 256).wf = false ∧ (Instr.numvfsReduce 256).wf = false ∧ (Instr.flrVf 0).wf = false ∧
    (Instr.flrVf 1).wf = true := by decide
theorem test_wf_pool : (Instr.bufferAllocate 16 0 none).wf = false ∧ (Instr.bufferAllocate 0 16 none).wf = false ∧
    (Instr.bufferAcquire 0 16).wf = false ∧ (Instr.bufferAllocate 15 15 none).wf = true := by decide
theorem test_wf_part : (Instr.recordCut 16).wf = false ∧ (Instr.recordCut 15).wf = true := by decide
theorem test_wf_engine : (Instr.compressorJobStart 8).wf = false ∧ (Instr.decompressionJobStart 7).wf = false ∧
    (Instr.decompressionJobStart 16).wf = false ∧ (Instr.decompressionJobStart 8).wf = true ∧ (Instr.tagJobDone 16 true true).wf = false := by
  decide
theorem test_wf_segment : (Instr.segmentVerdict 0 0 38 0 []).wf = false ∧ (Instr.segmentVerdict 0 0 37 64 []).wf = false ∧
    (Instr.segmentVerdict 0 0 37 63 []).wf = true := by decide
theorem test_wf_lane : (Instr.permanentLeak 64).wf = false ∧ (Instr.biasFault 0 2).wf = false ∧ (Instr.biasFault 63 1).wf = true := by
  decide
theorem test_wf_band : (Instr.bandChangeDone 4).wf = false ∧ (Instr.bandChangeDone 3).wf = true := by decide
theorem test_wf_time : (Instr.timeReceive 86400000 0).wf = false ∧ (Instr.timeReceive 0 65536).wf = false ∧
    (Instr.timeReceive 86399999 65535).wf = true := by decide
theorem test_wf_can : (Instr.canHeartbeat 256 0).wf = false ∧ (Instr.tpdoSend 0 0 0).wf = false ∧ (Instr.tpdoSend 5 0 0).wf = false ∧
    (Instr.tpdoSend 4 255 255).wf = true := by decide
theorem test_wf_usdo : (Instr.usdoDownload .can 128 0 0 [] true {}).wf = false ∧ (Instr.usdoUpload .can 0 65536 0 true).wf = false ∧
    (Instr.usdoUpload .can 0 0 256 true).wf = false ∧ (Instr.usdoSessionTimeout 128).wf = false ∧
    (Instr.usdoUpload .can 127 65535 255 true).wf = true := by decide
theorem test_wf_library : (Instr.libraryUnmount 65536 {}).wf = false ∧ (Instr.restoreDefaultParameters 0 0).wf = false ∧
    (Instr.restoreDefaultParameters 4 0).wf = false ∧ (Instr.restoreDefaultParameters 3 0).wf = true := by decide
theorem test_wf_pair : (Instr.credit { role := 3, epoch := 0, seq := 0 } 0).wf = false ∧ (Instr.nak 4096).wf = false ∧
    (Instr.flitError 4096).wf = false ∧ (Instr.idleFlit 4096).wf = false ∧ (Instr.pairFormation { pref := 3 }).wf = false ∧
    (Instr.roleStale { role := 0, epoch := 0, seq := 0 } 3 0 0).wf = false ∧ (Instr.nak 4095).wf = true := by decide
theorem test_wf_lodestar : (Instr.lockstepMismatch 2).wf = false ∧ (Instr.watchdogExpiry 2).wf = false ∧
    (Instr.flashWriteFailed 3).wf = false ∧ (Instr.imageVerified 0).wf = false ∧ (Instr.imageVerified 3).wf = false ∧
    (Instr.kekImport .usb 16 []).wf = false ∧ (Instr.kekRemove .usb 15).wf = true := by decide

/-- No row of the table gives bits, so no word spells a command, and the queue stays as it is. -/
theorem test_no_words : decodeTableWord 32 0 = none ∧ decodeTableWord 512 7 = none := by decide

/-! ## Values the spec works out -/

/-- File 04: the pool setting 0x002C_0008 gives 11 GiB of 1 MiB buffers. -/
theorem test_pool_default : poolCount 8 0x2C00 = 11264 := by decide

/-- File 04: pool 3, index 1,473. -/
theorem test_handle : handleOf 3 1473 = 0x300005C1 ∧ poolNo 0x300005C1 = 3 := by decide

/-- File 05, Table 5.5: footprints of untagged stored records. -/
theorem test_footprints : worstCase 262144 2 false = 262240 ∧ worstCase 37664 2 false = 37760 ∧ worstCase 38048 2 false = 38144 := by
  decide

/-- File 06: a ZSC2 payload of 19 bytes gives "ZWINAIND-ZWINAIND-ZWINAINDAIND!" (Table 6.2). -/
theorem test_zsc2 : (decodePayload 0 [] [0x08, 0x5A, 0x57, 0x49, 0x4E, 0x41, 0x49, 0x4E, 0x44, 0x2D, 0x8D, 0x08, 0x00, 0xFD, 0x40, 0x0C, 0x00,
      0x21, 0xFE] 31 31).toOption = some
      [0x5A, 0x57, 0x49, 0x4E, 0x41, 0x49, 0x4E, 0x44, 0x2D, 0x5A, 0x57, 0x49, 0x4E, 0x41, 0x49, 0x4E, 0x44, 0x2D,
      0x5A, 0x57, 0x49, 0x4E, 0x41, 0x49, 0x4E, 0x44, 0x41, 0x49, 0x4E, 0x44, 0x21] := by decide +kernel

/-- File 06: the ZSC1 coding of "ZWINAIND-ZWINAIND". -/
theorem test_zsc1 : (decodePayload 1 [] [0x08, 0x5A, 0x57, 0x49, 0x4E, 0x41, 0x49, 0x4E, 0x44, 0x2D, 0x85, 0x08, 0x00, 0xFF] 17 17).toOption =
    some [0x5A, 0x57, 0x49, 0x4E, 0x41, 0x49, 0x4E, 0x44, 0x2D, 0x5A, 0x57, 0x49, 0x4E, 0x41, 0x49, 0x4E, 0x44] := by decide +kernel

/-- R251: HCRC of the nine bytes "123456789". -/
theorem test_hcrc : hcrc [0x31, 0x32, 0x33, 0x34, 0x35, 0x36, 0x37, 0x38, 0x39] = 0x29B1 := by decide +kernel

/-- File 08: rows 36 and 100 of sub-dataset 13 fall on lane 37, slots 26 and 27. -/
theorem test_row_places : rowPlace 13 36 = (37, 26) ∧ rowPlace 13 100 = (37, 27) ∧ placeRow 37 26 = (13, 36) ∧ placeRow 37 27 = (13, 100) := by
  decide

/-- File 20, Table 20.15: GLB.STATUS of a primary mounted read-write with two lanes retired, after the restart. -/
theorem test_glb_status : glbStatus { up with pl.role := 1, nw.state := 0, fm.retired := 3 } = 0x02022801 := by decide +kernel

end Sys2Proof.Tests
end

