-- ==== Sys2Proof/Tests/Writing.lean ====
section
/-! SUPPORT. States that meet the hypotheses of the statements about the write pipeline and the writer, clause by clause, and what
follows there. -/

namespace Sys2Proof.Tests

open Sys2Proof Sys2Proof.Machine

set_option Elab.async false

/-! ## The write pipeline -/

/-- `wrCmd` with its data in pool 0; k bytes of them cut. -/
def wrHere (k : Nat) : Cmd := { wrCmd with pieces := [{ idx := 0, len := 100, arrived := 100, cut := k }] }

/-- Commands in flight and an open dataset with some room. -/
def openWith (cs : List Cmd) (o : OpenDs) : State := { flying cs with fm.parts := [{ part1 with openDs := some o }] }

/-- Record 5 of the WRITE, 100 bytes. -/
def rec5 (tagged : Bool) (cform : Nat) (stage : RecStage) : RecJob :=
  { id := 5, cmd := some 9, part := 1, piece := 0, rel := 0, cform, footprint := 200, stage,
    r := { tagged, olen := 100, version := 6, payload := List.replicate 100 7 } }

/-- Records in the pipeline. -/
def piped (j : RecJob) : State := { openWith [wrHere 100] { room := 1000, outstanding := 1 } with fm.recs := [j], fm.nextRec := 6 }

theorem witness_DataBecomesRecords :
    [decide (cmdOf (flying [wrCmd]) 9 = some wrCmd ∧ opcode wrCmd.sqe = 0x40 ∧ wrCmd.arrived + 100 ≤ rangeLen wrCmd.sqe),
     (growBufs 2 (flying [wrCmd]) 9 100).1,
     nx (.writeDataArrival 9 (List.replicate 100 7)) (flying [wrCmd]) fun t =>
       decide ((cmdOf t 9).map Cmd.arrived = some 100 ∧ t.bpm.mem.length = 100),
     let s := openWith [wrHere 0] { room := 200 }
     decide (nextToCut s 1 = some (wrHere 0) ∧ worstCase 100 2 false = 200 ∧ s.tg.limit + 2 ^ 20 < 2 ^ 64) &&
       (partOf s 1).any (fun x => !sealBarred x && roomForData s x),
     nx (.recordCut 1) (openWith [wrHere 0] { room := 200 }) fun t =>
       decide (t.fm.recs.map (fun j => (j.id, j.r.olen, j.footprint)) = [(0, 100, 200)] ∧ t.fm.nextRec = 1)].all id = true := by
  decide +kernel

theorem witness_NoncesAndTags :
    [nx .nonceReservation up fun t => decide (t.tg.reserving = some (2 ^ 20)),
     nx .nonceLimitRaise { up with tg.reserving := some 77 } fun t => decide (t.tg.limit = 77 ∧ t.flash.nonceLimit = 77),
     let s := piped (rec5 true 2 .compressed)
     tagReady s 5 && decide (freeCtx s (tagPrio s 5) = some 0) &&
       decide ((holdInput s 5).map Prod.fst = some []) &&
       nx (.tagJobStart 5) s fun t => decide (t.tg.jobs = [{ ctx := 0, recId := 5, prio := 3 }]),
     let s := fun urgent => { openWith [wrHere 100] { room := 0, stop := true, urgent } with
       fm.recs := [rec5 true 2 .compressed], tg.jobs := [{ ctx := 0, recId := 8, prio := 3 }] }
     decide (tagPrio (s true) 5 = 0 ∧ freeCtx (s true) 0 = some 1 ∧ tagPrio (s true) 8 = 3) &&
       nx (.tagJobStart 5) (s true) (fun t =>
         decide (t.tg.susp = 1 ∧ t.tg.jobs.map (fun j => (j.recId, j.suspended)) = [(8, true), (5, false)])) &&
       nx (.tagJobStart 5) (s false) fun t =>
         decide (t.tg.susp = 0 ∧ t.tg.jobs.map (fun j => (j.recId, j.suspended)) = [(8, false), (5, true)]),
     let s := { up with tg.jobs := [{ ctx := 3, recId := checkId 1 600 2, prio := 3 }] }
     decide (checkOf (checkId 1 600 2) = some (1, 600, 2)) && nx (.tagJobDone 3 true true) s fun t => decide (t.tg.jobs = []),
     let s := { piped (rec5 true 2 .tagging) with tg.keys := [{ slot := 0, key := 1 }] }
     decide ((recOf s 5).map (fun j => j.r.keySlot) = some 0 ∧ (keyOf s 0).map KeySlot.key = some 1),
     let s := { piped (rec5 true 2 .tagging) with tg.jobs := [{ ctx := 3, recId := 5, prio := 3 }] }
     nx (.tagJobDone 3 true false) s (fun t => decide (t.tg.jobs = [])) &&
       nx (.tagJobDone 3 false false) s fun t => decide (t.tg.retired = true ∧ t.tg.jobs = [])].all id = true := by
  decide +kernel

/-- A chain job of a stored record of dataset 600. -/
def chain1 : ChainJob := { id := 1, part := 1, seq := 600, recs := [0], cmds := [7] }

/-- The dataset that holds it, read. -/
def ds600 : Dataset :=
  { part := 1, seq := 600, kind := .data,
    recs := [{ olen := 4, payload := [1, 2, 3, 4], crc := crc64 [1, 2, 3, 4], version := 5 }] }

/-- It as the read channel has it. -/
def rd600 : ReadDs := { part := 1, seq := 600, decoded := true, content := some ds600 }

/-- The state of a chain that waits. -/
def chained : State := { flying [rdCmd] with cx.chains := [chain1], rc.reads := [rd600] }

theorem witness_CompressionJobs :
    [let s := piped (rec5 false 0 .cut)
     decide ((nextCompress s).map RecJob.id = some 5) &&
       (unitAllocN s 4 2 ((100 + 144 + 65535) / 65536) []).1.isSome && !noCompressor s &&
       nx (.compressorJobStart 7) s fun t => decide ((engineOf t 7).job = some 5),
     let s := fun cf => setEngine (piped (rec5 false cf .compressing)) 7 { job := some 5 }
     nx (.compressorJobDone 7 []) (s 2) (fun t =>
         decide ((engineOf t 7).job = none ∧ t.fm.recs.map (fun j => (j.r.form, j.stage)) = [(2, .ready)])) &&
       nx (.compressorJobDone 7 (List.replicate 165 0)) (s 0) (fun t => decide (t.cx.fallback = 1)) &&
       nx (.compressorJobDone 7 []) (s 1) fun t => decide (t.cx.z1mism = 1),
     decide (nextChainJob chained = some chain1) && (unitAllocN chained 3 clsCxd (chainBuffers chained rd600 ds600 chain1) []).1.isSome &&
       nx (.decompressionJobStart 15) chained (fun t => decide ((engineOf t 15).job = some 1)) &&
       nx (.decompressionJobStart 8) chained fun t => decide ((engineOf t 8).job = some 1),
     nx (.decompressionJobDone 8) (setEngine chained 8 { job := some 1 }) fun t =>
       decide (t.cx.chains = [] ∧ (engineOf t 8).jobs = 1)].all id = true := by decide +kernel

theorem witness_DatasetsFilled :
    [nx (.recordPlace 5) (piped (rec5 false 2 .ready)) fun t =>
       decide (((partOf t 1).bind Part.openDs).map (fun d => (d.recs.length, d.room, d.outstanding)) = some (1, 1000, 0)),
     let s := openWith [wrHere 100] { recs := [{ version := 6 }], lastRes := up.now - 10 ^ 14 }
     (s.fm.parts.all fun x => x.openDs.any (dsAwaited s 1)) && nx (.sealDelayExpiry 1) s fun t => decide (t.fm.sealed.length = 1),
     nx (.datasetSeal 1) up fun t => decide (t.fm.sealed = []),
     nx (.datasetSeal 1) (openWith [] { recs := [{}], full := true }) fun t => decide (t.fm.sealed.length = 1),
     let s := { openWith [] { recs := [{}] } with fm.wstate := 2 }
     writerMoves s && nx (.datasetSeal 1) s (fun t => decide (t.fm.sealed.length = 1)) &&
       eqn (.datasetSeal 1) { s with fm.wstate := 0 } { s with fm.wstate := 0 },
     let s := { up with fm.parts := [{ part1 with dataSince := setN up 0x2123 1 }] }
     mayCheckpoint s 1 && nx (.checkpointInterval 1) s fun t => decide (t.fm.sealed.length = 1 ∨ (partOf t 1).any Part.ckptWant = true),
     let s := { up with fm.parts := [{ part1 with dataSince := 1, ckptAt := up.now - 1000 * setN up 0x2123 2 * 216000 }] }
     nx (.checkpointTimeExpiry 1) s fun t => decide (t.fm.sealed.length = 1 ∨ (partOf t 1).any Part.ckptWant = true)].all id = true := by
  decide +kernel

/-! ## The writer -/

/-- A tape that may move, with a WRITE in flight. -/
def ready (since : Nat) : State := { flying [{ wrHere 0 with since }] with media.threaded := true, fm.parts := [{ part1 with wrap := 4 }] }

/-- A sealed dataset of partition 1, and one of its rows due. -/
def wds (begun : Bool) : WriteDs := { ds := { ds600 with seq := 601 }, begun, due := [{ slot := 5, lane := 63, sub := 2, row := 3 }] }

theorem witness_WriterRuns :
    [let s := { ready up.now with fm.sealed := [wds false], od := [(odKey 0x2124 1, [0])] }
     decide (tapeFault s = none ∧ mayStart s = true ∧ startPart s = some 1 ∧ startNow s = true) &&
       nx .writerStart s fun t => decide (t.fm.wstate = 1 ∧ t.ce.owner = 1 ∧ t.fm.wrap = 4 ∧ t.fm.backhitch = 1),
     let s := ready (up.now - setN up 0x2124 2 * 216000)
     decide (mayStart s = true ∧ startPart s = some 1) && nx .startAgeExpiry s fun t => decide (t.fm.wstate = 1 ∧ t.ce.owner = 1),
     nx (.appendPointReached true) { up with fm.wstate := 1, sv.state := 2 } fun t => decide (t.fm.wstate = 2 ∧ t.fm.gate = true),
     nx (.appendPointReached false) { up with fm.wstate := 1, fm.startTries := 2, fm.wpart := 1 } fun t =>
       decide (t.fm.startTries = 3 ∧ t.ce.posmode = true),
     nx (.appendPointReached false) { up with fm.wstate := 1, fm.startTries := 3 } fun t => decide (t.fm.wstate = 6),
     nx .stopTimeExpiry { up with fm.wstate := 2, fm.lowSince := some (up.now - setN up 0x2124 4 * 216000) } fun t =>
       decide (t.fm.wstate ≠ 2),
     decide (demandIdx { up with fm.wstate := 2, fm.speed := 2 } = 0) &&
       nx .speedDownDelayExpiry { up with fm.wstate := 2, fm.speed := 2, fm.downSince := some (up.now - setN up 0x2124 5 * 216000) } fun t =>
       decide (t.fm.speed = 1),
     decide ((enterTurn up part1).fm.wstate = 3 ∧ (partOf (enterTurn up part1) 1).map Part.wrap = some 1),
     let s := fun w => { up with
       fm.wstate := 3, fm.wpart := 1, fm.wrap := w, fm.parts := [{ part1 with wrap := 2, pos := 7 * frameLen }],
       sv.lpos := 8, sv.lposOk := true }
     decide ((turnHead (s 1)).fm.wrap = 2 ∧ (turnHead (s 1)).fm.wstate = 3 ∧ posNow (s 2) = 8) &&
       eqn .turnComplete (s 2) { s 2 with fm.wstate := 2 },
     let s := { ready up.now with fm.wstate := 4, fm.sealed := [wds false], od := [(odKey 0x2124 1, [0])] }
     startNow s && eqn .writerStart s { s with fm.wstate := 2 },
     let s := { ready (up.now - setN up 0x2124 2 * 216000) with fm.wstate := 4 }
     agedWrite s && nx .startAgeExpiry s fun t => decide (t.fm.wstate = 2),
     nx (.writeCurrentUpdate (some 300) none) up fun t =>
       decide (get t.fm.wcur 63 0 ≤ 255 ∧ t.glb.temps.getD 2 0 = 300 ∧ t.fm.wnext = none),
     nx (.writeCurrentUpdate none (some 300)) { up with fm.current := some (601, 4) } fun t =>
       decide (t.fm.wcur = up.fm.wcur ∧ t.fm.wnext.isSome = true)].all id = true := by decide +kernel

/-- A good read of the row that lies on lane 63 in slot 5. -/
def heard63 : VerdictObs :=
  { header := segHeadBytes { seq := 601, wrap := 0, type := 0, attempt := 0, sub := (placeRow 63 5).1, rewrite := 0, row := (placeRow 63 5).2 } }

theorem witness_SlotsAndVerdicts :
    [let s := { up with fm.wstate := 2, fm.wpart := 1, fm.current := some (601, 31), fm.sealed := [wds true], sv.state := 2 }
     nx (.slotBoundary (setN up 0x4103 1)) s (fun t => decide (t.fm.current = some (601, 32) ∧ t.fm.gate = true)) &&
       nx (.slotBoundary (-(setN up 0x4103 1) - 1)) s fun t => decide (t.fm.gate = false),
     let s := { up with fm.wstate := 2, fm.wpart := 1, fm.current := some (601, 10), fm.sealed := [wds true] }
     let g : Seg := { slot := 5, lane := 63, sub := 2, row := 3 }
     decide (awaited s 601 0 5 63 = some (0, g)) &&
       decide (awaited { up with fm.late := [(601, 0, 3, g)] } 601 0 5 63 = some (3, g)) &&
       verdictPasses 0 g heard63 && !verdictPasses 0 g { heard63 with differ := 97 } &&
       !verdictPasses 0 g { heard63 with iterations := some 7 } && !verdictPasses 0 g { heard63 with sync := some 9 } &&
       !verdictPasses 1 g heard63 &&
       ((verdictS s 601 0 5 63 heard63).fm.sealed.all fun w => w.due.isEmpty && w.fails.isEmpty) &&
       ((verdictS s 601 0 5 63 {}).fm.sealed.all fun w => decide (w.due = [] ∧ w.failCount = 1 ∧ w.fails.map FailRow.lanes = [[63]])),
     decide ((wds true).wrap = 0)].all id = true := by decide +kernel

theorem witness_UnitsRetired :
    [nx (.writeDriverFault 63) { up with fm.retired := 7 } fun t =>
       decide (t.fm.retired = 0x8000000000000007 ∧ t.flash.lanes.getLsbD 63 = true ∧ t.fm.closing = false),
     nx (.transientLeak 3) { up with fm.tb := [(3, 1)], fm.segsT := [(3, setN up 0x2126 2)] } fun t => decide (t.fm.tb = [] ∧ t.fm.segsT = []),
     nx (.permanentLeak 3) { up with fm.pb := [(3, 2)], fm.segsP := [(3, 2 ^ setN up 0x2126 4)] } fun t =>
       decide (t.fm.pb = [(3, 1)] ∧ t.fm.segsP = []),
     nx (.biasFault 63 0) up fun t => feRetired t 0 63 && t.flash.feA.getLsbD 63 && !feRetired t 1 63,
     decide (writingModule 1 = 1) && nx (.biasFault 0 1) { up with fm.wrap := 1 } fun t => feRetired t 1 0 && t.flash.feB.getLsbD 0,
     let s := { up with fm.wrap := 0, fm.wstate := 2, fm.pb := [(0, 3)], od := [(odKey 0x2126 3, [8])] }
     decide (writingModule 0 ≠ 1 ∧ get s.fm.pb 0 0 + 4 < setN s 0x2126 3) && nx (.biasFault 0 1) s fun t =>
       feRetired t 1 0 && decide (get t.fm.pb 0 0 = 7 ∧ t.fm.retired = 0),
     nx (.frontEndStuckRetire 5 1) { up with rc.fes := [(69, { stuckRun := 16 })] } fun t =>
       feRetired t 1 5 && t.flash.feB.getLsbD 5].all id = true := by decide +kernel

end Sys2Proof.Tests
end

section
/-! O50, registers: the vector of GLB.ICFG while PF0 drains. -/

namespace Sys2Proof.Proofs

open Sys2Proof Sys2Proof.Machine Sys2Proof.Laws

/-- While a function drains no vector of it goes out (R88): the vector becomes pending. -/
theorem sendVector_out_of_draining {s : State} {n : Nat} (h : (fnOf s n).state = 2) (v : Nat) :
    (sendVector s n v).out = s.out := by
  have hpend : (vectorMasked (fnOf s n) v || (fnOf s n).state == 2) = true := by simp [h]
  rw [sendVector, if_pos hpend, modFn_out]

/-- A write of GLB.ICFG puts nothing out while PF0 drains, whatever it enables. -/
theorem icfgS_out_of_draining {s : State} (h : (fnOf s 0).state = 2) (v : Nat) : (icfgS s v).out = s.out := by
  dsimp only [icfgS]
  split
  · apply sendVector_out_of_draining
    exact h
  · rfl

/-- PF0 unmasks vector 0, leaves an access error in ISTAT, enables its admin queue, and disables it again: register accesses alone,
from reset on. FUNCTION_DRAIN_END is still to come. -/
def drainTrace : List Instr :=
  [.registerWrite 0 0x90000C 0, .registerWrite 0 2 0, .registerWrite 0 0x50 0x00100010, .adminQueueEnable 0 0x100,
   .adminQueueDisable 0 0x100]

/-- The state those accesses lead to meets every hypothesis of the clause on GLB_ICFG_WRITE (a bit is set, enabled by nothing yet,
the vector is unmasked, PF0 is in D0), while PF0 drains. -/
theorem drainTrace_reaches_draining :
    ∃ s : State, core.run drainTrace.length { State.reset with pending := drainTrace } = .next s ∧
      (fnOf s 0).state = 2 ∧ (fnOf s 0).d3hot = false ∧ vectorMasked (fnOf s 0) 0 = false ∧
      s.glb.istat = 0x10 ∧ s.glb.icfgEnable = 0 := by
  refine ⟨_, rfl, ?_⟩
  decide +kernel

/-- Refutes O50: the clause on ICFG leaves out that PF0 may drain, during which its vector is not sent but becomes pending
(R88). In the state that `drainTrace` leads to, ISTAT.ACCERR is set, and the write of ICFG that enables it puts nothing out. -/
theorem not_registersAnswer : ¬ Obligations.RegistersAnswer := by
  unfold Obligations.RegistersAnswer
  rintro ⟨-, -, -, -, -, -, -, icfg, -⟩
  obtain ⟨s, -, hdrain, hd0, hmask, histat, hen⟩ := drainTrace_reaches_draining
  obtain ⟨t, hexec, -, hsent⟩ := icfg s 0x00100000
  obtain rfl : icfgS s 0x00100000 = t := Host.Outcome.next.inj hexec
  have hout := hsent (by rw [histat, hen]; decide) hd0 hmask
  rw [icfgS_out_of_draining hdrain] at hout
  exact List.cons_ne_self _ _ hout.symm

end Sys2Proof.Proofs
end

section
/-! O5, the state after reset: functions, power, outputs, staging. -/

namespace Sys2Proof.Proofs

open Sys2Proof Sys2Proof.Machine Sys2Proof.Laws

/-- PF0 at reset: its windows cover everything (R39). -/
theorem fnOf_reset_pf0 : fnOf State.reset 0 = { pmask := 0xFFFF, kcount := 4096 } := rfl

/-- Every other function is at its defaults at reset: QE lists PF0 alone. -/
theorem fnOf_reset_vf {n : Nat} (h : n ≠ 0) : fnOf State.reset n = {} := by
  have hlisted : fnOf State.reset n = get [(0, { pmask := 0xFFFF, kcount := 4096 })] n {} := rfl
  rw [hlisted, get_cons, if_neg (Ne.symm h), get_nil]

/-- No function is ENABLED or DRAINING at reset (R52). -/
theorem fnOf_reset_state (n : Nat) : (fnOf State.reset n).state = 0 := by
  by_cases h : n = 0
  · rw [h, fnOf_reset_pf0]
  · rw [fnOf_reset_vf h]

/-- Start-up has not reached stage 5 at reset, which alone keeps FAULT_OUT_N low (R520). -/
theorem faultOut_of_startup {s : State} (h : s.glb.stage < 5) : faultOut s = true := by simp [faultOut, h]

/-- TAPE_SAFE stays low while RESET_IN_N is (R485, R488). -/
theorem tapeSafe_of_resetIn {s : State} (h : s.glb.resetInN = false) : tapeSafe s = false := by simp [tapeSafe, h]

/-- Settles O5: QE lists PF0 alone, and what the outputs show follows from the stage of start-up and from RESET_IN_N. Which
levels the pins have at reset, and that no cartridge is there, are the model's choices (log 6, log 9). -/
theorem resetState : Obligations.ResetState := by
  unfold Obligations.ResetState
  rw [fnOf_reset_pf0]
  refine ⟨rfl, rfl, rfl, rfl, rfl, fun n hn => ?_, fnOf_reset_state, rfl, rfl, rfl, faultOut_of_startup (by decide),
    tapeSafe_of_resetIn rfl, reset_memory_wf, rfl⟩
  rw [fnOf_reset_vf hn]
  exact ⟨rfl, rfl⟩

end Sys2Proof.Proofs
end

section
/-! O48, I/O commands: what admission, the version or pin, the range lock and the start each do to a command in flight. -/

namespace Sys2Proof.Proofs

open Sys2Proof Sys2Proof.Machine Sys2Proof.Laws

/-! ## Admission -/

/-- The command in flight carries the entry it was admitted from. -/
theorem admitOne_run_sqe {s t : State} {u : Sub} {c : Cmd} (h : admitOne s u = .run t c) : c.sqe = u.sqe := by
  unfold admitOne at h
  dsimp only at h
  split at h
  · cases h
  · split at h
    · cases h
    · split at h
      · cases h
      · cases h
        rfl

/-- A command that is admitted goes on as its opcode says. -/
theorem next_runCmd_of_run {s s₁ t : State} {u : Sub} {c : Cmd} {op : Nat} {k : State → Cmd → State}
    (h : admitOne s u = .run s₁ c) (ho : opcode u.sqe = op) (hk : k s₁ c = t) :
    (Host.Outcome.next (runCmd s op u k) : Out) = .next t := by
  simp [runCmd, ho, h, hk]

/-! ## A command and its partition after a change -/

/-- The command that was changed, read back. -/
theorem cmdOf_modCmd_self {s : State} {id : Nat} {c : Cmd} (h : cmdOf s id = some c) (f : Cmd → Cmd)
    (hf : ∀ d : Cmd, d.id = id → (f d).id = id) : cmdOf (modCmd s id f) id = some (f c) := by
  simp [cmdOf_modCmd s id id f hf, h]

/-- The command that was held or started, read back. -/
theorem cmdOf_modCmd_st {s : State} {id : Nat} {c : Cmd} (h : cmdOf s id = some c) (st : CmdState) :
    cmdOf (modCmd s id fun d => { d with st }) id = some { c with st } :=
  cmdOf_modCmd_self h (fun d => { d with st }) fun _ h => h

/-- The partition that was changed, read back. -/
theorem partOf_modPart_self {s : State} {p : Nat} {x : Part} (h : partOf s p = some x) (f : Part → Part)
    (hf : ∀ y : Part, y.num = p → (f y).num = p) : partOf (modPart s p f) p = some (f x) := by
  have hfind : partOf (modPart s p f) p = (partOf s p).map fun y => if p = p then f y else y :=
    find_map_key Part.num p p f hf s.fm.parts
  simp [hfind, h]

/-- Which BARRIER a command stands behind depends on queues, entries and ids in flight alone, not on versions, pins or states. -/
theorem behindBarrier_modCmd (s : State) (id : Nat) (f : Cmd → Cmd) (c : Cmd)
    (hf : ∀ d, (f d).q = d.q ∧ (f d).dropped = d.dropped ∧ (f d).sqe = d.sqe ∧ (f d).id = d.id) :
    behindBarrier (modCmd s id f) c = behindBarrier s c := by
  have hone : ∀ d : Cmd, let e := if d.id = id then f d else d
      ((e.q == c.q && !e.dropped) && (opcode e.sqe == 0x43 && decide (e.id < c.id))) =
        ((d.q == c.q && !d.dropped) && (opcode d.sqe == 0x43 && decide (d.id < c.id))) := by
    intro d
    obtain ⟨hq, hdropped, hsqe, hid⟩ := hf d
    by_cases h : d.id = id
    · simp only [h, if_true, hq, hdropped, hsqe, hid]
    · simp only [h, if_false]
  simp only [behindBarrier, cmdsOf, modCmd, List.any_filter, List.any_map]
  exact congrArg (List.any s.qe.cmds) (funext hone)

/-! ## Version and pin (R22, R23) -/

/-- A partition whose versions are not used up stays writable. -/
theorem checkExhausted_of_room {s : State} {p : Nat} {x : Part} (hx : partOf s p = some x) (h : x.version < topVersion) :
    checkExhausted s p = s := by
  have hroom : ¬ (x.version ≥ topVersion ∧ (!x.exhausted) = true) := fun ⟨hfull, _⟩ => Nat.not_le.mpr h hfull
  simp only [checkExhausted, hx, if_neg hroom]

/-- A WRITE takes the next version of its partition, while the Almanac has room and a version is left. -/
theorem assignVersion_write {s : State} {c : Cmd} {x : Part} (ho : opcode c.sqe = 0x40)
    (hx : partOf s (partition c.sqe) = some x) (hroom : almanacFull s = false) (hver : x.version + 1 < topVersion) :
    assignVersion s c = modCmd (modPart s (partition c.sqe) fun y => { y with version := y.version + 1 }) c.id fun d =>
      { d with version := x.version + 1, pieces := cutPieces (rangeLen d.sqe) } := by
  have hnext := partOf_modPart_self hx (fun y => { y with version := y.version + 1 }) fun _ h => h
  simp only [assignVersion, ho, hx, hroom, Bool.false_and, Bool.false_eq_true, if_false]
  exact checkExhausted_of_room (s := modCmd (modPart s (partition c.sqe) _) c.id _) hnext hver

/-- READ, VERIFY and STREAM_STAT are pinned. -/
theorem assignVersion_reader {s : State} {c : Cmd} {x : Part}
    (ho : opcode c.sqe = 0x41 ∨ opcode c.sqe = 0x42 ∨ opcode c.sqe = 0x44) (hx : partOf s (partition c.sqe) = some x) :
    assignVersion s c = modCmd s c.id fun d => { d with version := pinOf s x } := by
  rcases ho with ho | ho | ho <;> simp only [assignVersion, ho, hx]

/-- RECALL_HINT keeps the version up to which it looks for datasets. -/
theorem assignVersion_hint {s : State} {c : Cmd} {x : Part} (ho : opcode c.sqe = 0x45)
    (hx : partOf s (partition c.sqe) = some x) :
    assignVersion s c = modCmd s c.id fun d => { d with scan := x.version } := by
  simp only [assignVersion, ho, hx]

/-! ## The range lock (R77) -/

/-- Taking a range lock touches the range-lock table and its counter alone. -/
theorem takeLock_eq (s : State) (c : Cmd) :
    takeLock s c = { s with qe.locks := (takeLock s c).qe.locks, qe.lockFull := (takeLock s c).qe.lockFull } := by
  unfold takeLock
  split
  · split
    · dsimp only
      split <;> rfl
    · rfl
  · rfl

theorem cmdOf_takeLock (s : State) (c : Cmd) (id : Nat) : cmdOf (takeLock s c) id = cmdOf s id := by
  rw [takeLock_eq]
  rfl

theorem partOf_takeLock (s : State) (c : Cmd) (p : Nat) : partOf (takeLock s c) p = partOf s p := by
  rw [takeLock_eq]
  rfl

/-- RECALL_HINT takes no range lock. -/
theorem takeLock_hint {c : Cmd} (ho : opcode c.sqe = 0x45) (s : State) : takeLock s c = s := by
  unfold takeLock
  split
  · simp [ho]
  · rfl

/-! ## The start (R77, R79) -/

/-- A command behind no BARRIER and no range lock starts. -/
theorem holdOrStart_of_free {s : State} {id : Nat} {c : Cmd} (hc : cmdOf s id = some c) (hb : behindBarrier s c = false)
    (hl : lockedOutBy s id = false) : holdOrStart s id = startIo s id := by
  simp only [holdOrStart, hc, hb, hl, Bool.false_eq_true, if_false]

/-- A WRITE that starts is running, and no more: its data and records come later. -/
theorem startIo_write {s : State} {id : Nat} {c : Cmd} (hc : cmdOf s id = some c) (ho : opcode c.sqe = 0x40) :
    startIo s id = modCmd s id fun d => { d with st := .running } := by
  simp only [startIo, hc, ho]

/-- Held or started, a WRITE changes its place in the order of its SQ alone. -/
theorem holdOrStart_write {s : State} {id : Nat} {c : Cmd} (hc : cmdOf s id = some c) (ho : opcode c.sqe = 0x40) :
    ∃ st, holdOrStart s id = modCmd s id fun d => { d with st } := by
  simp only [holdOrStart, hc]
  split
  · exact ⟨.barrierHeld, rfl⟩
  · split
    · exact ⟨.lockHeld, rfl⟩
    · exact ⟨.running, startIo_write hc ho⟩

theorem startIo_streamStat {s : State} {id : Nat} {c : Cmd} (hc : cmdOf s id = some c) (ho : opcode c.sqe = 0x44) :
    startIo s id = streamStatRun (modCmd s id fun d => { d with st := .running }) c := by
  simp only [startIo, hc, ho]

theorem startIo_recallHint {s : State} {id : Nat} {c : Cmd} (hc : cmdOf s id = some c) (ho : opcode c.sqe = 0x45) :
    startIo s id = recallHintRun (modCmd s id fun d => { d with st := .running }) c := by
  simp only [startIo, hc, ho]

/-! ## From the checks to the start (R127) -/

/-- An ACTIVE device has nothing to wake from. -/
theorem wake_of_active {s : State} (h : s.glb.power = 0) : wake s = s := if_pos h

/-- Only READ and VERIFY need a range that has been written (R29). -/
theorem rangeWritten_of_opcode {s : State} {c : Cmd} (h1 : opcode c.sqe ≠ 0x41) (h2 : opcode c.sqe ≠ 0x42) :
    rangeWritten s c = true := by
  simp [rangeWritten, h1, h2]

/-- A command that passes the archive's checks takes its version or pin and its lock, and is held or starts. -/
theorem ioStart_passes {s v : State} {c d : Cmd} (href : ioRefused s c.sqe = none) (hv : assignVersion s c = v)
    (hd : cmdOf v c.id = some d) (hw : rangeWritten v d = true) (hp : v.glb.power = 0) (ht : tapeRefused v d = none) :
    ioStart s c = holdOrStart (takeLock v d) c.id := by
  simp only [ioStart, href, hv, hd, hw, Bool.not_true, Bool.false_eq_true, if_false, wake_of_active hp, ite_self, ht, cmdOf_id hd]

/-- A reader whose range holds a byte without a write at its pin ends there. -/
theorem ioStart_rangeNotWritten {s v : State} {c d : Cmd} (href : ioRefused s c.sqe = none) (hv : assignVersion s c = v)
    (hd : cmdOf v c.id = some d) (hw : rangeWritten v d = false) :
    ioStart s c = finish v d { status := stRangeNotWritten } := by
  simp only [ioStart, href, hv, hd, hw, Bool.not_false, if_true]

/-- A fault of the transport refuses WRITEs alone at their admission. -/
theorem tapeRefused_of_not_write {c : Cmd} (h : opcode c.sqe ≠ 0x40) (s : State) : tapeRefused s c = none := if_neg h

/-- A WRITE past its checks: its partition is at the next version and its command carries it, cut into pieces; only its range
lock and its place in the order of its SQ are still to be settled. -/
theorem ioStart_write {s : State} {c : Cmd} {x : Part} (ho : opcode c.sqe = 0x40) (hc : cmdOf s c.id = some c)
    (href : ioRefused s c.sqe = none) (hx : partOf s (partition c.sqe) = some x) (hroom : almanacFull s = false)
    (hver : x.version + 1 < topVersion) (hp : s.glb.power = 0) (hfault : tapeFault s = none) :
    let v := modCmd (modPart s (partition c.sqe) fun y => { y with version := y.version + 1 }) c.id fun d =>
      { d with version := x.version + 1, pieces := cutPieces (rangeLen d.sqe) }
    let d := { c with version := x.version + 1, pieces := cutPieces (rangeLen c.sqe) }
    cmdOf v c.id = some d ∧ ∃ st, ioStart s c = modCmd (takeLock v d) c.id fun e => { e with st } := by
  intro v d
  have hv : assignVersion s c = v := assignVersion_write ho hx hroom hver
  have hod : opcode d.sqe = 0x40 := ho
  have hd : cmdOf v c.id = some d := cmdOf_modCmd_self (s := modPart s _ _) hc _ fun _ h => h
  have hw : rangeWritten v d = true := rangeWritten_of_opcode (by rw [hod]; decide) (by rw [hod]; decide)
  have ht : tapeRefused v d = none := (if_pos hod).trans hfault
  rw [ioStart_passes href hv hd hw hp ht]
  exact ⟨hd, holdOrStart_write (by rw [cmdOf_takeLock]; exact hd) hod⟩

/-- A READ, VERIFY or STREAM_STAT past its checks is pinned; it is held or starts if its range is written, and ends with
RANGE_NOT_WRITTEN if not. -/
theorem ioStart_reader {s : State} {c : Cmd} {x : Part} (ho : opcode c.sqe = 0x41 ∨ opcode c.sqe = 0x42 ∨ opcode c.sqe = 0x44)
    (hc : cmdOf s c.id = some c) (href : ioRefused s c.sqe = none) (hx : partOf s (partition c.sqe) = some x)
    (hp : s.glb.power = 0) :
    let v := modCmd s c.id fun d => { d with version := pinOf s x }
    let d := { c with version := pinOf s x }
    (rangeWritten v d = true → ioStart s c = holdOrStart (takeLock v d) c.id) ∧
      (rangeWritten v d = false → ioStart s c = finish v d { status := stRangeNotWritten }) := by
  intro v d
  have hv : assignVersion s c = v := assignVersion_reader ho hx
  have hd : cmdOf v c.id = some d := cmdOf_modCmd_self hc _ fun _ h => h
  have hnw : opcode d.sqe ≠ 0x40 := by
    change opcode c.sqe ≠ 0x40
    omega
  exact ⟨fun hw => ioStart_passes href hv hd hw hp (tapeRefused_of_not_write hnw v), ioStart_rangeNotWritten href hv hd⟩

/-- A STREAM_STAT past its checks that stands behind nothing is answered at its pin (R130). -/
theorem ioStart_streamStat {s : State} {c : Cmd} {x : Part} (ho : opcode c.sqe = 0x44) (hc : cmdOf s c.id = some c)
    (href : ioRefused s c.sqe = none) (hx : partOf s (partition c.sqe) = some x) (hp : s.glb.power = 0) :
    let v := modCmd s c.id fun d => { d with version := pinOf s x }
    let d := { c with version := pinOf s x }
    behindBarrier (takeLock v d) d = false → lockedOutBy (takeLock v d) c.id = false →
      ioStart s c = streamStatRun (modCmd (takeLock v d) c.id fun e => { e with st := .running }) d := by
  intro v d hb hl
  obtain ⟨hstart, -⟩ := ioStart_reader (.inr (.inr ho)) hc href hx hp
  have hd : cmdOf (takeLock v d) c.id = some d := (cmdOf_takeLock v d c.id).trans (cmdOf_modCmd_self hc _ fun _ h => h)
  have hod : opcode d.sqe = 0x44 := ho
  have hw : rangeWritten v d = true := rangeWritten_of_opcode (by rw [hod]; decide) (by rw [hod]; decide)
  exact (hstart hw).trans ((holdOrStart_of_free hd hb hl).trans (startIo_streamStat hd hod))

/-- A RECALL_HINT past its checks that stands behind nothing is answered (R131). -/
theorem ioStart_recallHint {s : State} {c : Cmd} {x : Part} (ho : opcode c.sqe = 0x45) (hc : cmdOf s c.id = some c)
    (href : ioRefused s c.sqe = none) (hx : partOf s (partition c.sqe) = some x) (hp : s.glb.power = 0)
    (hb : behindBarrier s c = false) (hl : lockedOutBy s c.id = false) :
    ioStart s c = recallHintRun
      (modCmd (modCmd s c.id fun d => { d with scan := x.version }) c.id fun d => { d with st := .running })
      { c with scan := x.version } := by
  let v := modCmd s c.id fun d => { d with scan := x.version }
  let d := { c with scan := x.version }
  have hv : assignVersion s c = v := assignVersion_hint ho hx
  have hod : opcode d.sqe = 0x45 := ho
  have hd : cmdOf v c.id = some d := cmdOf_modCmd_self hc _ fun _ h => h
  have hw : rangeWritten v d = true := rangeWritten_of_opcode (by rw [hod]; decide) (by rw [hod]; decide)
  have ht : tapeRefused v d = none := tapeRefused_of_not_write (by rw [hod]; decide) v
  have hbv : behindBarrier v d = false := by
    rw [behindBarrier_modCmd s c.id (fun e => { e with scan := x.version }) d fun _ => ⟨rfl, rfl, rfl, rfl⟩]
    exact hb
  rw [ioStart_passes href hv hd hw hp ht, takeLock_hint hod, holdOrStart_of_free hd hbv hl, startIo_recallHint hd hod]

/-! ## The statement -/

/-- Settles O48: each command takes its version, its pin or its scan, then its range lock, and is held or starts. That a
RECALL_HINT is not pinned (R23) shows in its clause: it keeps the version up to which it looks, and no pin. -/
theorem ioCommandsStart : Obligations.IoCommandsStart := by
  unfold Obligations.IoCommandsStart
  constructor
  · intro s s₁ u c x hadm hop hc href hx hroom hver hp hfault
    have ho : opcode c.sqe = 0x40 := by rw [admitOne_run_sqe hadm]; exact hop
    obtain ⟨hd, st, hstart⟩ := ioStart_write ho hc href hx hroom hver hp hfault
    refine ⟨_, next_runCmd_of_run hadm hop hstart, ?_, ?_, ?_, ?_, ?_⟩
    · change (partOf (takeLock _ _) _).map Part.version = _
      rw [partOf_takeLock]
      exact congrArg (Option.map Part.version)
        (partOf_modPart_self hx (fun y => { y with version := y.version + 1 }) fun _ h => h)
    · rw [cmdOf_modCmd_st ((cmdOf_takeLock _ _ _).trans hd)]
      rfl
    all_goals
      rw [takeLock_eq]
      rfl
  · intro s s₁ u c x hadm hc hsqe href hx hp v d
    have ho {op : Nat} (hop : opcode u.sqe = op) : opcode c.sqe = op := by rw [hsqe]; exact hop
    refine ⟨fun hop hw => ?_, fun hop hw => ?_, fun hop hw => ?_, fun hop hb hl => ?_, fun hop hb hl => ?_⟩
    · obtain ⟨hstart, -⟩ := ioStart_reader (.inl (ho hop)) hc href hx hp
      exact next_runCmd_of_run hadm hop (hstart hw)
    · obtain ⟨-, hend⟩ := ioStart_reader (.inl (ho hop)) hc href hx hp
      exact next_runCmd_of_run hadm hop (hend hw)
    · obtain ⟨hstart, -⟩ := ioStart_reader (.inr (.inl (ho hop))) hc href hx hp
      exact next_runCmd_of_run hadm hop (hstart hw)
    · exact next_runCmd_of_run hadm hop (ioStart_streamStat (ho hop) hc href hx hp hb hl)
    · exact next_runCmd_of_run hadm hop (ioStart_recallHint (ho hop) hc href hx hp hb hl)

end Sys2Proof.Proofs
end

section
/-! Completions: what posting touches, and what it posts (R65, R66, R80). The statements of the queue interface rest on these. -/

namespace Sys2Proof.Proofs

open Sys2Proof Sys2Proof.Machine Sys2Proof.Laws

/-! ## What posting touches -/

/-- From s to t, at most what posting on queue g changes: the outputs and the queue engine; of its functions the error log and
the pending vectors, of the functions fns alone; of its queues g alone. -/
structure Posts (g : Nat) (fns : Nat → Prop) (s t : State) : Prop where
  rest : t = { s with qe := t.qe, out := t.out }
  qe : t.qe = { s.qe with fns := t.qe.fns, queues := t.qe.queues, held := t.qe.held }
  fn : ∀ n, fnOf t n =
    { fnOf s n with errSeq := (fnOf t n).errSeq, errLog := (fnOf t n).errLog, pendingVecs := (fnOf t n).pendingVecs }
  other : ∀ n, ¬ fns n → fnOf t n = fnOf s n
  queue : ∀ j, j ≠ g → queueOf t j = queueOf s j

theorem Posts.refl (g : Nat) (fns : Nat → Prop) (s : State) : Posts g fns s s :=
  ⟨rfl, rfl, fun _ => rfl, fun _ _ => rfl, fun _ _ => rfl⟩

theorem Posts.trans {g : Nat} {fns : Nat → Prop} {s t u : State} (h : Posts g fns s t) (k : Posts g fns t u) :
    Posts g fns s u where
  rest := by rw [k.rest, h.rest]
  qe := by rw [k.qe, h.qe]
  fn n := by rw [k.fn n, h.fn n]
  other n hn := (k.other n hn).trans (h.other n hn)
  queue j hj := (k.queue j hj).trans (h.queue j hj)

theorem Posts.of_modQueue (s : State) (g : Nat) (fns : Nat → Prop) (f : Queue → Queue)
    (hf : ∀ x : Queue, x.g = g → (f x).g = g) : Posts g fns s (modQueue s g f) where
  rest := rfl
  qe := rfl
  fn _ := rfl
  other _ _ := rfl
  queue j hj := by rw [queueOf_modQueue s g j f hf]; simp [hj]

theorem Posts.of_setQueue (s : State) (fns : Nat → Prop) (q : Queue) : Posts q.g fns s (setQueue s q) where
  rest := rfl
  qe := rfl
  fn _ := rfl
  other _ _ := rfl
  queue j hj := by rw [queueOf_setQueue]; simp [hj]

theorem Posts.of_modFn (s : State) {n : Nat} (g : Nat) {fns : Nat → Prop} (hn : fns n) (f : FnState → FnState)
    (hf : ∀ x, f x = { x with errSeq := (f x).errSeq, errLog := (f x).errLog, pendingVecs := (f x).pendingVecs }) :
    Posts g fns s (modFn s n f) where
  rest := rfl
  qe := rfl
  fn m := by
    by_cases h : m = n
    · rw [h, fnOf_modFn]
      exact hf _
    · rw [fnOf_modFn_ne h]
  other m hm := fnOf_modFn_ne (by rintro rfl; exact hm hn) s f
  queue _ _ := rfl

theorem Posts.of_emitFn (s : State) (g : Nat) (fns : Nat → Prop) (n : Nat) (e : Emit) : Posts g fns s (emitFn s n e) := by
  unfold emitFn emitFor
  split
  · exact ⟨rfl, rfl, fun _ => rfl, fun _ _ => rfl, fun _ _ => rfl⟩
  · exact ⟨rfl, rfl, fun _ => rfl, fun _ _ => rfl, fun _ _ => rfl⟩

theorem Posts.of_sendVector (s : State) (g : Nat) {fns : Nat → Prop} {n : Nat} (hn : fns n) (v : Nat) :
    Posts g fns s (sendVector s n v) := by
  unfold sendVector
  split
  · exact .of_modFn s g hn _ fun _ => rfl
  · exact .of_emitFn s g fns n _

theorem Posts.of_logError (s : State) (g : Nat) {fns : Nat → Prop} {n : Nat} (hn : fns n) (mk : Nat → ErrEntry) :
    Posts g fns s (logError s n mk) := .of_modFn s g hn _ fun _ => rfl

theorem Posts.of_freeze (s : State) (g : Nat) (fns : Nat → Prop) : Posts g fns s (freeze s g) :=
  .of_modQueue s g fns (fun q => { q with frozen := true }) fun _ hx => hx

/-! ## One CQE -/

/-- Queue q after one CQE is posted: the tail stands behind it, the phase inverts where the tail wraps (R66), and one CQE more
waits to be released and, unless the vector is sent, to be signalled. -/
def afterCqe (now : Nat) (q : Queue) (send : Bool) : Queue :=
  { q with
    cqTail := if q.cqTail + 1 ≥ q.cqDepth then 0 else q.cqTail + 1
    phase := if q.cqTail + 1 ≥ q.cqDepth then !q.phase else q.phase
    posted := q.posted + 1
    unsignalled := if send then 0 else q.unsignalled + 1
    oldest := if q.unsignalled = 0 then now else q.oldest }

/-- The CQE e as it leaves for the tail of q's ring. -/
abbrev cqeEmit (q : Queue) (g : Nat) (e : Cqe) : Emit := .cqe q.fn g q.cqTail e (cqeAddr q q.cqTail) (cqeBytes e)

/-- A posting moves the tail of its queue and writes the CQE; the vector follows it or does not. -/
theorem postCqe_cases {s : State} {g : Nat} {q : Queue} (h : queueOf s g = some q) (mk : Queue → Cqe) (b : Bool) :
    ∃ send, let t := emitFn (setQueue s (afterCqe s.now q send)) q.fn (cqeEmit q g (mk q))
      postCqe s g mk b = t ∨ postCqe s g mk b = sendVector t q.fn q.vector := by
  refine ⟨b || decide (q.unsignalled + 1 ≥ q.cqCount), ?_⟩
  simp only [postCqe, h, decide_eq_true_eq]
  cases b || decide (q.unsignalled + 1 ≥ q.cqCount)
  · exact .inl rfl
  · exact .inr rfl

theorem Posts.of_postCqe {s : State} {g : Nat} {q : Queue} (h : queueOf s g = some q) {fns : Nat → Prop} (hfn : fns q.fn)
    (mk : Queue → Cqe) (b : Bool) : Posts g fns s (postCqe s g mk b) := by
  obtain ⟨send, hpost⟩ := postCqe_cases h mk b
  have hset : Posts g fns s (setQueue s (afterCqe s.now q send)) := queueOf_g h ▸ .of_setQueue s fns (afterCqe s.now q send)
  have hemit := hset.trans (.of_emitFn _ g fns q.fn (cqeEmit q g (mk q)))
  rcases hpost with hpost | hpost
  · rw [hpost]
    exact hemit
  · rw [hpost]
    exact hemit.trans (.of_sendVector _ g hfn q.vector)

/-- Neither an output nor a message sent changes a queue. -/
theorem queueOf_emitFn (s : State) (n : Nat) (e : Emit) (g : Nat) : queueOf (emitFn s n e) g = queueOf s g := by
  unfold emitFn emitFor
  split <;> rfl

theorem queueOf_sendVector (s : State) (n v g : Nat) : queueOf (sendVector s n v) g = queueOf s g := by
  unfold sendVector
  split
  · rfl
  · exact queueOf_emitFn s n _ g

theorem queueOf_postCqe {s : State} {g : Nat} {q : Queue} (h : queueOf s g = some q) (mk : Queue → Cqe) (b : Bool) :
    ∃ send, queueOf (postCqe s g mk b) g = some (afterCqe s.now q send) := by
  obtain ⟨send, hpost⟩ := postCqe_cases h mk b
  have hset : queueOf (setQueue s (afterCqe s.now q send)) g = some (afterCqe s.now q send) := by
    rw [queueOf_setQueue, h]
    simp [afterCqe, queueOf_g h]
  refine ⟨send, ?_⟩
  rcases hpost with hpost | hpost
  · rw [hpost, queueOf_emitFn, hset]
  · rw [hpost, queueOf_sendVector, queueOf_emitFn, hset]

/-! ## Outputs in D0 and in D3hot (R94) -/

theorem emitFn_d0 {s : State} {n : Nat} (h : (fnOf s n).d3hot = false) (e : Emit) : emitFn s n e = emit s e := by
  simp [emitFn, emitFor, h]

theorem emitFn_d3hot {s : State} {n : Nat} (h : (fnOf s n).d3hot = true) (e : Emit) :
    emitFn s n e = { s with qe.held := s.qe.held ++ [(n, none, e)] } := by
  simp [emitFn, emitFor, h]

/-- While its function is in D3hot no message goes out; what is held stays held. -/
theorem sendVector_d3hot {s : State} {n : Nat} (h : (fnOf s n).d3hot = true) (v : Nat) :
    (sendVector s n v).out = s.out ∧ ∀ x ∈ s.qe.held, x ∈ (sendVector s n v).qe.held := by
  unfold sendVector
  split
  · exact ⟨rfl, fun _ hx => hx⟩
  · rw [emitFn_d3hot h]
    exact ⟨rfl, fun _ hx => List.mem_append_left _ hx⟩

/-- In D0 the CQE goes out. -/
theorem postCqe_d0 {s : State} {g : Nat} {q : Queue} (h : queueOf s g = some q) (hd : (fnOf s q.fn).d3hot = false)
    (mk : Queue → Cqe) (b : Bool) : cqeEmit q g (mk q) ∈ (postCqe s g mk b).out := by
  obtain ⟨send, hpost⟩ := postCqe_cases h mk b
  have hset : (fnOf (setQueue s (afterCqe s.now q send)) q.fn).d3hot = false := hd
  rw [emitFn_d0 hset] at hpost
  rcases hpost with hpost | hpost
  · rw [hpost]
    exact List.mem_cons_self
  · obtain ⟨-, -, -, l, hout⟩ := sendVector_quiet (Quiet.refl (emit (setQueue s _) (cqeEmit q g (mk q)))) q.fn q.vector
    rw [hpost, hout]
    exact List.mem_append_right l List.mem_cons_self

/-- In D3hot the CQE is held and nothing goes out. -/
theorem postCqe_d3hot {s : State} {g : Nat} {q : Queue} (h : queueOf s g = some q) (hd : (fnOf s q.fn).d3hot = true)
    (mk : Queue → Cqe) (b : Bool) :
    (postCqe s g mk b).out = s.out ∧ (q.fn, none, cqeEmit q g (mk q)) ∈ (postCqe s g mk b).qe.held := by
  obtain ⟨send, hpost⟩ := postCqe_cases h mk b
  have hset : (fnOf (setQueue s (afterCqe s.now q send)) q.fn).d3hot = true := hd
  let t : State := { setQueue s (afterCqe s.now q send) with qe.held := s.qe.held ++ [(q.fn, none, cqeEmit q g (mk q))] }
  have hheld : (q.fn, none, cqeEmit q g (mk q)) ∈ t.qe.held := List.mem_append_right _ List.mem_cons_self
  rcases hpost with hpost | hpost
  · rw [hpost, emitFn_d3hot hset]
    exact ⟨rfl, hheld⟩
  · obtain ⟨hout, hkept⟩ := sendVector_d3hot (s := t) hd q.vector
    rw [hpost, emitFn_d3hot hset]
    exact ⟨hout, hkept _ hheld⟩

/-! ## A command completes -/

/-- e completes command c with outcome r, as queue x stands (Table 2.12). -/
structure Completes (s : State) (c : Cmd) (r : Res) (x : Queue) (e : Cqe) : Prop where
  cid : e.cid = BitVec.ofNat 16 (cid c.sqe)
  sqid : e.sqid = sqidOf s x
  sqHead : e.sqHead = x.head
  phase : e.phase = x.phase
  frozen : e.frozen = x.frozen
  status : e.status = r.status
  info : e.info = r.info

/-- The queue a status leaves behind: frozen by one that is not of class 0 (R80, R132). -/
def afterStatus (q : Queue) (st : Nat) : Queue := { q with frozen := q.frozen || !isOk st }

/-- A completion freezes and logs as its status asks, posts its CQE, and takes the command out of flight. -/
theorem finish_cases {s : State} {c : Cmd} {q : Queue} (h : queueOf s c.q = some q) {fns : Nat → Prop} (hfn : fns c.fn)
    (r : Res) :
    ∃ t mk, finish s c r = removeCmd (postCqe t c.q mk (!isOk r.status)) c.id ∧ Posts c.q fns s t ∧ t.out = s.out ∧
      queueOf t c.q = some (afterStatus q r.status) ∧ ∀ x, Completes s c r x (mk x) := by
  simp only [finish, h]
  by_cases hb : isOk r.status
  · simp only [hb, Bool.not_true, Bool.false_eq_true, if_false]
    refine ⟨s, _, rfl, .refl c.q fns s, rfl, ?_, fun x => ⟨rfl, rfl, rfl, rfl, rfl, rfl, rfl⟩⟩
    simp [h, afterStatus, hb]
  · simp only [hb, Bool.not_false, if_true]
    refine ⟨_, _, rfl, .trans (.of_freeze s c.q fns) (.of_logError _ c.q hfn _), rfl, ?_,
      fun x => ⟨rfl, rfl, rfl, rfl, rfl, rfl, rfl⟩⟩
    have hfrozen : queueOf (freeze s c.q) c.q = some { q with frozen := true } := by simp [freeze, queueOf_modQueue, h]
    refine Eq.trans (by rfl) (hfrozen.trans ?_)
    simp [afterStatus, hb]

/-- The functions a completion may touch: that of the command and that of its queue. -/
def Concerns (s : State) (c : Cmd) (n : Nat) : Prop := n = c.fn ∨ ∃ q, queueOf s c.q = some q ∧ q.fn = n

/-- A completion posts on the command's queue, and takes the command out of flight. -/
theorem finish_posts (s : State) (c : Cmd) (r : Res) : ∃ t, Posts c.q (Concerns s c) s t ∧ finish s c r = removeCmd t c.id := by
  cases h : queueOf s c.q with
  | none => exact ⟨s, .refl _ _ s, by simp only [finish, h]⟩
  | some q =>
    obtain ⟨t, mk, hfin, hst, -, ht, -⟩ := finish_cases h (fns := Concerns s c) (.inl rfl) r
    exact ⟨_, hst.trans (.of_postCqe ht (.inr ⟨q, h, rfl⟩) mk _), hfin⟩

/-- A completion touches the queue engine and the outputs alone. -/
theorem finish_eq (s : State) (c : Cmd) (r : Res) :
    finish s c r = { s with qe := (finish s c r).qe, out := (finish s c r).out } := by
  obtain ⟨t, ht, hfin⟩ := finish_posts s c r
  rw [hfin, ht.rest]
  rfl

@[simp] theorem finish_glb (s : State) (c : Cmd) (r : Res) : (finish s c r).glb = s.glb := by rw [finish_eq]

/-- Of the queue engine it leaves assignments and what arbitration stands at as they are. -/
theorem finish_qe (s : State) (c : Cmd) (r : Res) : ∃ fns queues held, (finish s c r).qe = { s.qe with
    fns, queues, held
    cmds := s.qe.cmds.filter fun d => d.id != c.id
    locks := s.qe.locks.filter fun l => l.cmd != c.id } := by
  obtain ⟨t, ht, hfin⟩ := finish_posts s c r
  rw [hfin, removeCmd, ht.qe]
  exact ⟨_, _, _, rfl⟩

@[simp] theorem finish_nextId (s : State) (c : Cmd) (r : Res) : (finish s c r).qe.nextId = s.qe.nextId := by
  obtain ⟨_, _, _, h⟩ := finish_qe s c r
  rw [h]

@[simp] theorem finish_assigns (s : State) (c : Cmd) (r : Res) : (finish s c r).qe.assigns = s.qe.assigns := by
  obtain ⟨_, _, _, h⟩ := finish_qe s c r
  rw [h]

/-- The command, and no other, is no longer in flight. -/
@[simp] theorem finish_cmds (s : State) (c : Cmd) (r : Res) :
    (finish s c r).qe.cmds = s.qe.cmds.filter fun d => d.id != c.id := by
  obtain ⟨_, _, _, h⟩ := finish_qe s c r
  rw [h]

@[simp] theorem cmdOf_finish (s : State) (c : Cmd) (r : Res) : cmdOf (finish s c r) c.id = none := by
  obtain ⟨t, -, hfin⟩ := finish_posts s c r
  rw [hfin, cmdOf_removeCmd]

/-- Of a function a completion changes the error log and the pending vectors. -/
theorem fnOf_finish (s : State) (c : Cmd) (r : Res) (n : Nat) : ∃ errSeq errLog pendingVecs,
    fnOf (finish s c r) n = { fnOf s n with errSeq, errLog, pendingVecs } := by
  obtain ⟨t, ht, hfin⟩ := finish_posts s c r
  rw [hfin]
  exact ⟨_, _, _, ht.fn n⟩

/-- A function that neither gave the command nor has its queue stays as it is. -/
theorem fnOf_finish_ne {s : State} {c : Cmd} {n : Nat} (hn : n ≠ c.fn) (hq : ∀ q, queueOf s c.q = some q → q.fn ≠ n)
    (r : Res) : fnOf (finish s c r) n = fnOf s n := by
  obtain ⟨t, ht, hfin⟩ := finish_posts s c r
  rw [hfin]
  exact ht.other n fun h => h.elim hn fun ⟨q, hs, hfn⟩ => hq q hs hfn

theorem queueOf_finish_ne {s : State} {c : Cmd} {g : Nat} (h : g ≠ c.q) (r : Res) : queueOf (finish s c r) g = queueOf s g := by
  obtain ⟨t, ht, hfin⟩ := finish_posts s c r
  rw [hfin]
  exact ht.queue g h

/-- The queue of a command that has completed: one CQE further, and frozen as the status asks. -/
theorem queueOf_finish {s : State} {c : Cmd} {q : Queue} (h : queueOf s c.q = some q) (r : Res) :
    ∃ now send, queueOf (finish s c r) c.q = some (afterCqe now (afterStatus q r.status) send) := by
  obtain ⟨t, mk, hfin, -, -, ht, -⟩ := finish_cases h (fns := fun _ => True) trivial r
  obtain ⟨send, hpost⟩ := queueOf_postCqe ht mk (!isOk r.status)
  rw [hfin]
  exact ⟨t.now, send, hpost⟩

/-- In D0 the CQE of a completion goes out. -/
theorem finish_d0 {s : State} {c : Cmd} {q : Queue} (h : queueOf s c.q = some q) (hd : (fnOf s q.fn).d3hot = false)
    (r : Res) :
    ∃ e, Completes s c r (afterStatus q r.status) e ∧ cqeEmit q q.g e ∈ (finish s c r).out := by
  obtain ⟨t, mk, hfin, hst, -, ht, hmk⟩ := finish_cases h (fns := fun _ => True) trivial r
  have hdt : (fnOf t q.fn).d3hot = false := by rw [hst.fn]; exact hd
  rw [hfin, queueOf_g h]
  exact ⟨_, hmk _, postCqe_d0 ht hdt mk _⟩

/-- In D3hot it is held, and nothing goes out (R94). -/
theorem finish_d3hot {s : State} {c : Cmd} {q : Queue} (h : queueOf s c.q = some q) (hd : (fnOf s q.fn).d3hot = true)
    (r : Res) :
    (finish s c r).out = s.out ∧
      ∃ e, Completes s c r (afterStatus q r.status) e ∧ (q.fn, none, cqeEmit q q.g e) ∈ (finish s c r).qe.held := by
  obtain ⟨t, mk, hfin, hst, hout, ht, hmk⟩ := finish_cases h (fns := fun _ => True) trivial r
  have hdt : (fnOf t q.fn).d3hot = true := by rw [hst.fn]; exact hd
  obtain ⟨hkept, hheld⟩ := postCqe_d3hot ht hdt mk (!isOk r.status)
  rw [hfin, queueOf_g h]
  exact ⟨hkept.trans hout, _, hmk _, hheld⟩

end Sys2Proof.Proofs
end

section
/-! O6, completions: the CQE, its bytes, and the frame of a completion. -/

namespace Sys2Proof.Proofs

open Sys2Proof Sys2Proof.Machine Sys2Proof.Laws

/-! ## Bytes (R6) -/

/-- A number written in n bytes and read back is cut to 8n bits. -/
theorem unle_le (n v : Nat) : unle (le n v) = v % 256 ^ n := by
  induction n generalizing v with
  | zero => simp [le, unle, Nat.mod_one]
  | succ n ih =>
    have hpow : 256 ^ (n + 1) = 256 * 256 ^ n := Nat.pow_succ'
    rw [le, unle, ih, BitVec.toNat_ofNat, hpow, Nat.mod_mul (a := 256)]

/-- A CQE has 32 bytes; bytes 0 and 1 hold the CID, bytes 8 and 9 the status (Table 2.12). -/
theorem length_cqeBytes (e : Cqe) : (cqeBytes e).length = 32 := rfl

theorem slice_cqeBytes_cid (e : Cqe) : slice (cqeBytes e) 0 2 = le 2 e.cid.toNat := rfl

theorem slice_cqeBytes_status (e : Cqe) : slice (cqeBytes e) 8 2 = le 2 e.status := rfl

/-- A CID has 16 bits. -/
theorem cid_lt (w : SqeBits) : cid w < 65536 := Nat.mod_lt _ (by decide)

/-- FROZEN is set with any status that is not of class 0 (R132). -/
theorem afterStatus_frozen (q : Queue) (st : Nat) : (afterStatus q st).frozen = (q.frozen || decide (st / 256 ≠ 0)) := by
  rw [decide_not]
  rfl

/-! ## The statement -/

/-- Settles O6: the CQE is the one `finish_d0` names, and what a completion leaves as it was is what `finish_posts` leaves. -/
theorem completionsPosted : Obligations.CompletionsPosted := by
  unfold Obligations.CompletionsPosted
  constructor
  · intro s c r q h hd
    obtain ⟨e, he, hout⟩ := finish_d0 h hd r
    obtain ⟨now, send, hq⟩ := queueOf_finish h r
    have hcid : e.cid.toNat = cid c.sqe := by
      rw [he.cid, BitVec.toNat_ofNat]
      exact Nat.mod_eq_of_lt (cid_lt c.sqe)
    refine ⟨e, hout, he.status, he.info, he.phase, he.sqHead, he.frozen.trans (afterStatus_frozen q r.status), he.sqid, he.cid,
      ?_, cmdOf_finish s c r, length_cqeBytes e, ?_, ?_⟩
    · rw [hq, ← afterStatus_frozen]
      rfl
    · rw [slice_cqeBytes_cid, unle_le, hcid]
      exact Nat.mod_eq_of_lt (cid_lt c.sqe)
    · rw [slice_cqeBytes_status, unle_le, he.status]
      rfl
  · intro s c r
    refine ⟨finish_eq s c r, fun n => ?_, fun g hg => queueOf_finish_ne hg r, finish_assigns s c r⟩
    obtain ⟨_, _, _, hfn⟩ := fnOf_finish s c r n
    exact ⟨by rw [hfn], by rw [hfn], fun hn hq => fnOf_finish_ne hn hq r⟩

end Sys2Proof.Proofs
end

section
/-! O8, O9 and O43, admission: an entry that passes its checks runs, one that does not ends (R70, R74, R75, R93, R127, R504). -/

namespace Sys2Proof.Proofs

open Sys2Proof Sys2Proof.Machine Sys2Proof.Laws

/-! ## What holds an entry back (R75, R93) -/

/-- No admin command that runs and no firmware activation holds the entry u of queue q back. -/
def Unheld (s : State) (q : Queue) (u : Sub) : Prop :=
  (isAdminOp (opcode u.sqe) && opcode u.sqe != 0x3F && !(opcode u.sqe == 0x05 && s.glb.setPower.isSome) &&
    adminBlocked s q.g) = false

/-- Nothing is held while no admin command of the queue runs and no activation is under way. -/
theorem unheld_of_idle {s : State} {q : Queue} {u : Sub}
    (h : isAdminOp (opcode u.sqe) = true → opcode u.sqe ≠ 0x3F → adminBusy s q.g = false ∧ s.fw.holdAt = none) :
    Unheld s q u := by
  unfold Unheld
  by_cases hadm : isAdminOp (opcode u.sqe) = true
  · by_cases hev : opcode u.sqe = 0x3F
    · simp [hev]
    · obtain ⟨hbusy, hact⟩ := h hadm hev
      simp [adminBlocked, hbusy, hact]
  · simp [hadm]

/-- A second SET_POWER is not held back (R93). -/
theorem unheld_of_secondSetPower {s : State} {q : Queue} {u : Sub} (hop : opcode u.sqe = 0x05)
    (hset : s.glb.setPower.isSome = true) : Unheld s q u := by
  simp [Unheld, hop, hset]

/-! ## The scatter list (R103) -/

/-- A list that QE tried to read and could not. -/
theorem listReadFailed_eq_true {w : SqeBits} {l : Option (List DescBits)} (h : listReadFailed w l = true) :
    movesData (opcode w) = true ∧ dlist w = true ∧ listAddr w % 16 = 0 ∧
      ¬ (listCount w = 0 ∨ listCount w > 65536) ∧ l = none := by
  simp only [listReadFailed, listRead, Bool.and_eq_true, beq_iff_eq, decide_eq_true_eq, Option.isNone_iff_eq_none] at h
  obtain ⟨⟨⟨⟨hmoves, hlist⟩, halign⟩, hmin, hmax⟩, hnone⟩ := h
  exact ⟨hmoves, hlist, halign, by omega, hnone⟩

/-- The list of an entry whose fields pass was read: a failed read fails the entry at its data pointer. -/
theorem listReadFailed_of_fieldCheck {w : SqeBits} {l : Option (List DescBits)} {ds : List DescBits}
    (h : fieldCheck w l = .ok ds) : listReadFailed w l = false := by
  rw [← Bool.not_eq_true]
  intro hfail
  obtain ⟨hmoves, hlist, halign, hcount, rfl⟩ := listReadFailed_eq_true hfail
  have hdesc : descriptors w none (transferLen w) = .error 32 := by
    simp only [descriptors, hlist, halign, hcount, if_true, if_false, ne_eq, not_true_eq_false]
  simp only [fieldCheck, hdesc, hmoves, if_true] at h
  repeat' split at h
  all_goals cases h

theorem listReadFailed_of_entryCheck {s : State} {q : Queue} {u : Sub} {ds : List DescBits} (h : entryCheck s q u = .ok ds) :
    listReadFailed u.sqe u.list = false := by
  simp only [entryCheck] at h
  split_ifs at h
  all_goals
    split at h
    · cases h
    · next hfields => exact listReadFailed_of_fieldCheck hfields

/-! ## From the entry to the command -/

/-- The entry u of queue q has become a command, the newest one in flight. -/
def taken (s : State) (q : Queue) (u : Sub) : State :=
  { s with qe.nextId := s.qe.nextId + 1, qe.cmds := s.qe.cmds ++ [newCmd s q u] }

/-- A failed read of a scatter list is reported (R103). -/
def reported (s : State) (q : Queue) (u : Sub) : State :=
  if listReadFailed u.sqe u.list = true then emit s (.aerReport q.fn) else s

theorem newCmd_reported (s : State) (q : Queue) (u : Sub) : newCmd (reported s q u) q u = newCmd s q u := by
  unfold reported
  split <;> rfl

/-- The checks of an entry look at windows and Twilight, which neither the report nor the new command changes. -/
theorem entryCheck_taken_reported (s : State) (q : Queue) (u : Sub) :
    entryCheck (taken (reported s q u) q u) q u = entryCheck s q u := by
  unfold reported
  split <;> rfl

theorem queueOf_taken_reported (s : State) (q : Queue) (u : Sub) (g : Nat) :
    queueOf (taken (reported s q u) q u) g = queueOf s g := by
  unfold reported
  split <;> rfl

theorem fnOf_taken_reported (s : State) (q : Queue) (u : Sub) (n : Nat) : fnOf (taken (reported s q u) q u) n = fnOf s n := by
  unfold reported
  split <;> rfl

/-- The command just taken is the one of its number. -/
theorem setCmd_taken {s : State} {q : Queue} {u : Sub} (hnew : ∀ d ∈ s.qe.cmds, d.id ≠ s.qe.nextId) (ds : List DescBits) :
    setCmd (taken s q u) { newCmd s q u with descs := ds } =
      { s with qe.nextId := s.qe.nextId + 1, qe.cmds := s.qe.cmds ++ [{ newCmd s q u with descs := ds }] } := by
  have hold : (s.qe.cmds.map fun d => if d.id = (newCmd s q u).id then { newCmd s q u with descs := ds } else d) = s.qe.cmds :=
    (List.map_congr_left fun d hd => if_neg (hnew d hd)).trans (List.map_id' _)
  simp only [setCmd, taken, List.map_append, hold, List.map_cons, List.map_nil, if_true]

/-- An entry that fails a check ends with the status of that check. -/
theorem admitOne_over {s : State} {u : Sub} {q : Queue} {e : Nat × Nat} (hq : queueOf s u.q = some q) (hmay : mayAdmit s q = true)
    (hfree : Unheld s q u) (hcheck : entryCheck s q u = .error e) :
    admitOne s u = .over (finish (taken (reported s q u) q u) (newCmd s q u) { status := e.1, d1 := e.2 }) := by
  rw [← entryCheck_taken_reported] at hcheck
  unfold Unheld at hfree
  simp only [admitOne, hq, hmay, hfree, Bool.not_true, Bool.or_false, Bool.false_eq_true, if_false]
  rw [← newCmd_reported s q u]
  simp only [taken, reported] at hcheck ⊢
  rw [hcheck]

/-- An entry that passes every check is in flight. -/
theorem admitOne_run {s : State} {u : Sub} {q : Queue} {ds : List DescBits} (hq : queueOf s u.q = some q)
    (hmay : mayAdmit s q = true) (hfree : Unheld s q u) (hnew : ∀ d ∈ s.qe.cmds, d.id ≠ s.qe.nextId)
    (hcheck : entryCheck s q u = .ok ds) :
    admitOne s u = .run { s with qe.nextId := s.qe.nextId + 1, qe.cmds := s.qe.cmds ++ [{ newCmd s q u with descs := ds }] }
      { newCmd s q u with descs := ds } := by
  have hread := listReadFailed_of_entryCheck hcheck
  have htaken : entryCheck (taken s q u) q u = .ok ds := hcheck
  unfold Unheld at hfree
  rw [← setCmd_taken hnew]
  simp only [admitOne, hq, hmay, hfree, hread, Bool.not_true, Bool.or_false, Bool.false_eq_true, if_false]
  rw [taken] at htaken ⊢
  rw [htaken]

/-! ## The statements -/

/-- Settles O8: an entry whose fields pass had its scatter list read, so that nothing is reported before it is admitted
(`admitOne_run`); in Twilight the first check fails (R504). -/
theorem admissionRuns : Obligations.AdmissionRuns := by
  unfold Obligations.AdmissionRuns
  constructor
  · intro s u q ds hq hmay hnew hidle hcheck
    exact admitOne_run hq hmay (unheld_of_idle hidle) hnew hcheck
  · intro s u q hq hmay htwi hbusy hact
    have hcheck : entryCheck s q u = .error (stTwilight, 0) := by simp only [entryCheck, htwi, if_true]
    refine ⟨_, admitOne_over hq hmay (unheld_of_idle fun _ _ => ⟨hbusy, hact⟩) hcheck, fun hd => ?_⟩
    have hqt : queueOf (taken (reported s q u) q u) (newCmd s q u).q = some q := by
      rw [queueOf_taken_reported, newCmd, queueOf_g hq, hq]
    obtain ⟨e, he, hout⟩ := finish_d0 hqt (by rw [fnOf_taken_reported]; exact hd) { status := stTwilight }
    exact ⟨e, hout, he.status, he.frozen.trans ((afterStatus_frozen q stTwilight).trans (Bool.or_true _))⟩

/-- A CREATE_QUEUE of class Strict fails a check while 256 Strict queues are there (R74). -/
theorem createBad_of_strictFull {s : State} {w : SqeBits} (hcls : sqeBytes w 30 1 = 1)
    (hfull : 256 ≤ s.qe.queues.countP fun q => q.cls == 1) (fn g : Nat) : ∃ b, createBad s w fn g = some b := by
  rw [← Option.isSome_iff_exists]
  have hstrict : sqeBytes w 30 1 = 1 ∧ (s.qe.queues.countP fun q => q.cls == 1) ≥ 256 := ⟨hcls, hfull⟩
  simp only [createBad, hstrict, and_self, if_true, apply_ite Option.isSome, Option.isSome_some, ite_self]

/-- Settles O9: the opcode is the second check of an entry, after Twilight; the number of Strict queues is one of the checks of
CREATE_QUEUE. -/
theorem wrongOpcodes : Obligations.WrongOpcodes := by
  unfold Obligations.WrongOpcodes
  constructor
  · intro s u q hq hmay htwi hidle hwrong
    have hcheck : entryCheck s q u = .error (stInvalidOpcode, 0) := by
      have hop : (if q.cls = 2 then !isAdminOp (opcode u.sqe) else !isIoOp (opcode u.sqe)) = true := by
        split_ifs at hwrong ⊢
        · rw [hwrong, Bool.not_false]
        · rw [hwrong, Bool.not_false]
      simp only [entryCheck, htwi, hop, Option.isSome_none, Bool.false_eq_true, if_false, if_true]
    refine (admitOne_over hq hmay (unheld_of_idle hidle) hcheck).trans ?_
    unfold reported
    split <;> rfl
  · intro s s₁ u c hadm hop hcls hfull
    have hend : ∃ d, createQueueS s₁ c = finish s₁ c { status := stInvalidField, d1 := d } := by
      unfold createQueueS
      cases namedQueue s₁ c with
      | none => exact ⟨28, rfl⟩
      | some g =>
        obtain ⟨b, hb⟩ := createBad_of_strictFull hcls hfull c.fn g
        exact ⟨b, by simp only [hb]; rfl⟩
    obtain ⟨d, hd⟩ := hend
    exact ⟨d, next_runCmd_of_run hadm hop hd⟩

/-- Settles O43: a SET_POWER is not held behind the deferred one, and the first thing it looks at is whether one is deferred. -/
theorem secondSetPower : Obligations.SecondSetPower := by
  unfold Obligations.SecondSetPower
  constructor
  · intro s u q ds hq hmay hnew hop hset hcheck
    exact ⟨_, admitOne_run hq hmay (unheld_of_secondSetPower hop hset) hnew hcheck, rfl⟩
  · intro s s₁ u c hadm hop hset
    have hend : setPowerS s₁ c = finish s₁ c { status := stInvalidField, d1 := 28 } := by
      simp only [setPowerS, hset, or_true, if_true, finishField]
    exact ⟨_, next_runCmd_of_run hadm hop hend, rfl, by rw [finish_glb], by rw [finish_glb]⟩

end Sys2Proof.Proofs
end

section
/-! O10 and O11, the doorbell slot: what a write of SQ_TAIL, CQ_HEAD or QCTL moves, when it is dropped, and the interrupt by time
(R59 to R61, R68, R82, R96). -/

namespace Sys2Proof.Proofs

open Sys2Proof Sys2Proof.Machine Sys2Proof.Laws

/-! ## A doorbell of a queue the function owns -/

/-- TAIL and HEAD are the low 14 bits of what is written (R59). -/
theorem bits_doorbell (v : Nat) : bits v 0 14 = v % 16384 := rfl

theorem sqTailS_of_queue {s : State} {fn q : Nat} {x : Queue} (h : bellQueue s fn q = some x) (v : Nat) :
    sqTailS s fn q v =
      if v % 16384 < x.sqDepth ∧ x.resetBusy = false then setQueue s { x with tail := v % 16384 } else dropBell s fn := by
  simp only [sqTailS, h, bits_doorbell, Bool.not_eq_true']

theorem cqHeadS_of_queue {s : State} {fn q : Nat} {x : Queue} (h : bellQueue s fn q = some x) (v : Nat) :
    cqHeadS s fn q v =
      if v % 16384 < x.cqDepth ∧ ringDist x.cqDepth x.cqHead (v % 16384) ≤ x.posted then
        setQueue s { x with cqHead := v % 16384, posted := x.posted - ringDist x.cqDepth x.cqHead (v % 16384) }
      else dropBell s fn := by
  simp only [cqHeadS, h]
  rfl

theorem resumeS_of_queue {s : State} {fn q : Nat} {x : Queue} (h : bellQueue s fn q = some x) :
    resumeS s fn q = if x.frozen = true then setQueue s { x with frozen := false } else s := by
  simp only [resumeS, h]

/-! ## A doorbell of no such queue (R60, R61) -/

/-- The number names no created queue of the function, or the function is not ENABLED. -/
theorem bellQueue_eq_none {s : State} {fn q : Nat}
    (h : (fnOf s fn).state ≠ 1 ∨ ∀ x, (globalOf s fn q).bind (queueOf s) = some x → x.fn ≠ fn) :
    bellQueue s fn q = none := by
  unfold bellQueue
  split
  · rfl
  · next hen =>
    have hown := h.resolve_left hen
    simpa [Option.filter_eq_none_iff] using hown

/-- QCTL.RESET by another function than an ENABLED PF0 reaches what a doorbell reaches; by PF0, any created queue (R61). -/
theorem resetQueue_eq_none {s : State} {fn q : Nat} (hbell : bellQueue s fn q = none)
    (h : fn ≠ 0 ∨ (fnOf s fn).state ≠ 1 ∨ (globalOf s fn q).bind (queueOf s) = none) : resetQueue s fn q = none := by
  unfold resetQueue
  split
  · next hpf =>
    obtain ⟨rfl, hen⟩ := hpf
    exact (h.resolve_left (· rfl)).resolve_left (· hen)
  · exact hbell

/-! ## The statements -/

/-- Settles O11: a doorbell that reaches no queue is dropped, and one that reaches a queue is dropped unless its value fits
(`sqTailS_of_queue`, `cqHeadS_of_queue`). -/
theorem doorbellDropped : Obligations.DoorbellDropped := by
  unfold Obligations.DoorbellDropped
  intro s fn q v t
  have hdrop : dropBell s fn = t := rfl
  constructor
  · intro hno
    have hbell := bellQueue_eq_none hno
    refine ⟨?_, ?_, ?_, fun hreset => ?_⟩
    · exact congrArg Host.Outcome.next (by simp only [sqTailS, hbell, hdrop])
    · exact congrArg Host.Outcome.next (by simp only [cqHeadS, hbell, hdrop])
    · exact congrArg Host.Outcome.next (by simp only [resumeS, hbell, hdrop])
    · exact congrArg Host.Outcome.next (by simp only [queueResetS, resetQueue_eq_none hbell hreset, hdrop])
  · intro x hx
    have htail : ¬ (v.toNat % 16384 < x.sqDepth ∧ x.resetBusy = false) → exec (.sqTail fn q v) s = .next t := fun hbad =>
      congrArg Host.Outcome.next ((sqTailS_of_queue hx v.toNat).trans (if_neg hbad))
    have hhead : ¬ (v.toNat % 16384 < x.cqDepth ∧ ringDist x.cqDepth x.cqHead (v.toNat % 16384) ≤ x.posted) →
        exec (.cqHead fn q v) s = .next t := fun hbad =>
      congrArg Host.Outcome.next ((cqHeadS_of_queue hx v.toNat).trans (if_neg hbad))
    refine ⟨fun hfar => htail ?_, fun hbusy => htail ?_, fun hfar => hhead ?_, fun hmany => hhead ?_⟩
    · exact fun ⟨hfits, _⟩ => Nat.not_lt.mpr hfar hfits
    · simp [hbusy]
    · exact fun ⟨hfits, _⟩ => Nat.not_lt.mpr hfar hfits
    · exact fun ⟨_, hposted⟩ => Nat.not_lt.mpr hposted hmany

/-! ## Interrupts by time (R96) -/

/-- A vector that is not masked is sent, while its function is ENABLED and in D0. -/
theorem sendVector_open {s : State} {n v : Nat} (hmask : vectorMasked (fnOf s n) v = false) (hen : (fnOf s n).state = 1)
    (hd : (fnOf s n).d3hot = false) : sendVector s n v = emit s (.msix n v) := by
  have hsend : ¬ (vectorMasked (fnOf s n) v || (fnOf s n).state == 2) = true := by simp [hmask, hen]
  rw [sendVector, if_neg hsend, emitFn_d0 hd]

/-- A vector that is masked becomes pending instead. -/
theorem sendVector_masked {s : State} {n v : Nat} (hmask : vectorMasked (fnOf s n) v = true) :
    ∃ f, sendVector s n v = modFn s n f ∧ v ∈ (f (fnOf s n)).pendingVecs := by
  have hpend : (vectorMasked (fnOf s n) v || (fnOf s n).state == 2) = true := by rw [hmask, Bool.true_or]
  refine ⟨_, by rw [sendVector, if_pos hpend], ?_⟩
  dsimp only
  split
  · next hin => exact List.contains_iff_mem.mp hin
  · exact List.mem_append_right _ List.mem_cons_self

/-- The time limit of a CQ whose function is ENABLED sends the vector. -/
theorem cqTimeLimitExpiry_sends {s : State} {g : Nat} {x : Queue} (hx : queueOf s g = some x) (hcount : x.unsignalled ≠ 0)
    (htime : s.now ≥ x.oldest + 21600 * x.cqTime) (hen : (fnOf s x.fn).state = 1) :
    exec (.cqTimeLimitExpiry g) s = .next (sendVector (setQueue s { x with unsignalled := 0 }) x.fn x.vector) := by
  refine congrArg Host.Outcome.next ?_
  simp only [hx, hcount, htime, hen, ne_eq, not_false_eq_true, and_self, if_true]

/-- Settles O10: each write fits its queue, and the vector goes out or becomes pending by its mask. That the
value CQ_HEAD already has releases no CQE is the model's choice (log 50). -/
theorem doorbells : Obligations.Doorbells := by
  unfold Obligations.Doorbells
  constructor
  · intro s fn q v x hx
    refine ⟨fun hfits hidle => ?_, fun hfits hposted => ?_, fun hfrozen => ?_⟩
    · exact congrArg Host.Outcome.next ((sqTailS_of_queue hx v.toNat).trans (if_pos ⟨hfits, hidle⟩))
    · exact congrArg Host.Outcome.next ((cqHeadS_of_queue hx v.toNat).trans (if_pos ⟨hfits, hposted⟩))
    · exact congrArg Host.Outcome.next ((resumeS_of_queue hx).trans (if_pos hfrozen))
  · intro s g x hx hcount htime hen
    rw [cqTimeLimitExpiry_sends hx hcount htime hen]
    constructor
    · intro hopen hd
      exact congrArg Host.Outcome.next (sendVector_open (s := setQueue s _) hopen hen hd)
    · intro hmask
      obtain ⟨f, hsend, hpend⟩ := sendVector_masked (s := setQueue s { x with unsignalled := 0 }) hmask
      rw [hsend]
      exact ⟨_, rfl, rfl, by rw [fnOf_modFn]; exact hpend, rfl⟩

end Sys2Proof.Proofs
end

section
/-! O15, D3hot: what is held for a function until it returns to D0 (R94). -/

namespace Sys2Proof.Proofs

open Sys2Proof Sys2Proof.Machine Sys2Proof.Laws

/-- Configuration requests are served from stage 5 on, while PERST# is released (R518). -/
theorem configRequest_served {s : State} (hstage : 5 ≤ s.glb.stage) (hperst : s.glb.perstReleased = true) (f : State → State) :
    configRequest s f = f s := by
  have hserved : configServed s = true := by simp [configServed, hstage, hperst]
  exact if_pos hserved

/-- A queue of a function in D3hot gives up no entry. -/
theorem mayAdmit_d3hot {s : State} {q : Queue} (h : (fnOf s q.fn).d3hot = true) : mayAdmit s q = false := by
  simp [mayAdmit, h]

/-- Outputs put out one after another stand newest first. -/
theorem foldl_emit (l : List Emit) (s : State) : l.foldl emit s = { s with out := l.reverse ++ s.out } := by
  induction l generalizing s with
  | nil => rfl
  | cons e l ih => simp [ih, emit]

theorem fnOf_foldl_emit (l : List Emit) (s : State) (n : Nat) : fnOf (l.foldl emit s) n = fnOf s n := by
  rw [foldl_emit]
  rfl

/-- Settles O15: an output of a function in D3hot is held (`emitFn_d3hot`), that of a completion too (`finish_d3hot`). -/
theorem d3hotHolds : Obligations.D3hotHolds := by
  unfold Obligations.D3hotHolds
  refine ⟨?_, ?_, ?_, ?_, fun _ => rfl⟩
  · intro s fn e hstage hperst hcov
    let t := modFn s fn fun f => { f with d3hot := true }
    have hfn : fnOf t fn = { fnOf s fn with d3hot := true } := fnOf_modFn s fn _
    have hd : (fnOf t fn).d3hot = true := by rw [hfn]
    refine ⟨t, ?_, hfn, rfl, emitFn_d3hot hd e, fun q hq => mayAdmit_d3hot (by rw [hq]; exact hd)⟩
    exact congrArg Host.Outcome.next ((configRequest_served hstage hperst _).trans (if_pos hcov))
  · intro s c r q hq hd
    obtain ⟨hout, e, he, hheld⟩ := finish_d3hot hq hd r
    exact ⟨hout, cmdOf_finish s c r, e, hheld, he.status⟩
  · intro s id bs c hc hd
    refine congrArg Host.Outcome.next ?_
    simp only [writeDataArrivalS, hc, hd, or_true, if_true]
  · intro s fn hstage hperst
    refine ⟨_, congrArg Host.Outcome.next (configRequest_served hstage hperst _), ?_, ?_, ?_, ?_⟩
    · rw [fnOf_foldl_emit]
      exact fnOf_modFn s fn fun f => { f with d3hot := false }
    all_goals
      rw [foldl_emit]
      rfl

end Sys2Proof.Proofs
end

section
/-! O46, events: an event is delivered, waits, or is counted as lost (R98, R99). -/

namespace Sys2Proof.Proofs

open Sys2Proof Sys2Proof.Machine Sys2Proof.Laws

/-! ## One event (R98, R99) -/

section
variable {s : State} {n : Nat} (code scope part : Nat) (ps : List Byte)

/-- With 64 events waiting a new one is counted. -/
theorem queueFor1_full (hfull : 64 ≤ (fnOf s n).events.length) : queueFor1 s n code scope part ps =
    setFn s n { fnOf s n with evLost := min (2 ^ 32 - 1) ((fnOf s n).evLost + 1) } := if_pos hfull

/-- The oldest EVENT_WAIT takes a new event: it leaves the list of those that wait, and ends with code and sequence. -/
theorem queueFor1_delivered {w : Nat} {r : List Nat} (hroom : (fnOf s n).events.length < 64) (hw : (fnOf s n).waits = w :: r) :
    ∃ g : FnState, queueFor1 s n code scope part ps =
        finishId (setFn s n g) w { status := stOk, info := code + 65536 * (((fnOf s n).evSeq + 1) % 2 ^ 32) } ∧
      g.waits = r ∧ g.events = (fnOf s n).events := by
  unfold queueFor1
  rw [if_neg (Nat.not_le.mpr hroom)]
  simp only [hw]
  exact ⟨_, rfl, rfl, rfl⟩

/-- With no EVENT_WAIT outstanding a new event waits behind the others. -/
theorem queueFor1_queued (hroom : (fnOf s n).events.length < 64) (hw : (fnOf s n).waits = []) :
    ∃ (g : FnState) (e : EvRec), queueFor1 s n code scope part ps = setFn s n g ∧ g.events = (fnOf s n).events ++ [e] ∧
      g.evLost = (fnOf s n).evLost ∧ e.code = code ∧ e.seq = (fnOf s n).evSeq + 1 ∧ e.params = ps := by
  unfold queueFor1
  rw [if_neg (Nat.not_le.mpr hroom)]
  simp only [hw]
  exact ⟨_, _, rfl, rfl, rfl, rfl, rfl, rfl⟩

end

theorem finishId_of_cmd {s : State} {id : Nat} {c : Cmd} (h : cmdOf s id = some c) (r : Res) : finishId s id r = finish s c r := by
  simp only [finishId, h]

/-! ## Events that were lost (R99) -/

/-- With none lost nothing follows. -/
theorem flushLost_of_none {s : State} {n : Nat} (h : (fnOf s n).evLost = 0) : flushLost s n = s := by
  simp [flushLost, h]

/-- With space again, and no EVENT_WAIT that would take it, one EVENTS_LOST waits with their number. -/
theorem flushLost_of_lost {s : State} {n : Nat} (hlost : 0 < (fnOf s n).evLost) (hroom : (fnOf s n).events.length < 64)
    (hw : (fnOf s n).waits = []) :
    ∃ l : EvRec, (fnOf (flushLost s n) n).evLost = 0 ∧ (fnOf (flushLost s n) n).events = (fnOf s n).events ++ [l] ∧
      l.code = evEventsLost ∧ l.params = evParams [(20, le 4 (fnOf s n).evLost)] := by
  let t := setFn s n { fnOf s n with evLost := 0 }
  have hfn : fnOf t n = { fnOf s n with evLost := 0 } := fnOf_setFn s n _
  obtain ⟨g, l, hq, hevents, hcount, hcode, -, hps⟩ := queueFor1_queued (s := t) (n := n) evEventsLost 2 0
    (evParams [(20, le 4 (fnOf s n).evLost)]) (by rw [hfn]; exact hroom) (by rw [hfn]; exact hw)
  have hflush : flushLost s n = setFn t n g := (if_pos ⟨hlost, hroom⟩).trans hq
  rw [hfn] at hevents hcount
  rw [hflush, fnOf_setFn]
  exact ⟨l, hcount, hevents, hcode, hps⟩

/-! ## EVENT_WAIT -/

/-- A completion leaves the events of a function as they are. -/
theorem finish_keeps_events (s : State) (c : Cmd) (r : Res) (n : Nat) :
    (fnOf (finish s c r) n).events = (fnOf s n).events ∧ (fnOf (finish s c r) n).evLost = (fnOf s n).evLost ∧
      (fnOf (finish s c r) n).waits = (fnOf s n).waits := by
  obtain ⟨_, _, _, h⟩ := fnOf_finish s c r n
  rw [h]
  exact ⟨rfl, rfl, rfl⟩

/-- EVENT_WAIT with an event waiting takes the oldest. -/
theorem eventWaitS_delivers {s : State} {c : Cmd} {e : EvRec} {r : List EvRec} (h : (fnOf s c.fn).events = e :: r) :
    eventWaitS s c = flushLost (finish (setFn s c.fn { fnOf s c.fn with events := r }) c
      { status := stOk, info := e.code + 65536 * (e.seq % 2 ^ 32) }) c.fn := by
  simp only [eventWaitS, h]

/-- With none waiting it waits itself, unless four do already. -/
theorem eventWaitS_of_none {s : State} {c : Cmd} (h : (fnOf s c.fn).events = []) : eventWaitS s c =
    if (fnOf s c.fn).waits.length ≥ 4 then finish s c { status := stInvalidField }
    else modCmd (setFn s c.fn { fnOf s c.fn with waits := (fnOf s c.fn).waits ++ [c.id] }) c.id
      fun c => { c with st := .waiting } := by
  unfold eventWaitS
  dsimp only
  split
  · next hsome => cases h.symm.trans hsome
  · rfl

/-- Settles O46: what becomes of an event depends on the events and the EVENT_WAITs that wait. That an EVENT_WAIT beyond the limit
fails with byte 0 is the model's choice (log 36). -/
theorem eventsDelivered : Obligations.EventsDelivered := by
  unfold Obligations.EventsDelivered
  constructor
  · intro s n code scope part ps f
    refine ⟨fun hroom => ⟨fun w r c hw hc => ?_, fun hw => ?_⟩, queueFor1_full code scope part ps⟩
    · obtain ⟨g, hq, hwaits, hevents⟩ := queueFor1_delivered code scope part ps hroom hw
      refine ⟨setFn s n g, ?_, by rw [fnOf_setFn]; exact hwaits, by rw [fnOf_setFn]; exact hevents, rfl⟩
      exact hq.trans (finishId_of_cmd (s := setFn s n g) hc _)
    · obtain ⟨g, e, hq, hevents, -, hcode, hseq, hps⟩ := queueFor1_queued code scope part ps hroom hw
      exact ⟨e, by rw [hq, fnOf_setFn]; exact hevents, hcode, hseq, hps⟩
  · intro s s₁ u c hadm hop f
    refine ⟨fun hnone hfew => ?_, fun hnone hmany => ?_, fun e r hevents => ?_⟩
    · exact next_runCmd_of_run hadm hop ((eventWaitS_of_none hnone).trans (if_neg (Nat.not_le.mpr hfew)))
    · exact next_runCmd_of_run hadm hop ((eventWaitS_of_none hnone).trans (if_pos hmany))
    · intro v
      have hexec : exec (.eventWait u) s = .next (flushLost v c.fn) := next_runCmd_of_run hadm hop (eventWaitS_delivers hevents)
      obtain ⟨hleft, hlost, hwaits⟩ : (fnOf v c.fn).events = r ∧ (fnOf v c.fn).evLost = f.evLost ∧
          (fnOf v c.fn).waits = f.waits := by
        have hkept := finish_keeps_events (setFn s₁ c.fn { f with events := r }) c
          { status := stOk, info := e.code + 65536 * (e.seq % 2 ^ 32) } c.fn
        rwa [fnOf_setFn] at hkept
      refine ⟨fun hzero => ?_, fun hpos hwait hroom => ?_⟩
      · rw [hexec, flushLost_of_none (hlost.trans hzero)]
      · obtain ⟨l, hnow, hq, hcode, hps⟩ := flushLost_of_lost (s := v) (n := c.fn) (by rw [hlost]; exact hpos)
          (by rw [hleft]; exact hroom) (hwaits.trans hwait)
        exact ⟨_, l, hexec, hnow, by rw [hq, hleft], hcode, by rw [hps, hlost]⟩

end Sys2Proof.Proofs
end

section
/-! O49, BARRIER and the fetch: what waits at a BARRIER or a range lock goes on, and one read of a queue runs its entry (R70, R71,
R77, R79, R81). -/

namespace Sys2Proof.Proofs

open Sys2Proof Sys2Proof.Machine Sys2Proof.Laws

/-! ## Commands of a queue after one of them changes its place or ends -/

/-- To be held or set aside takes no command out of its queue, and changes neither its entry nor its number. -/
theorem cmdsOf_modCmd_st (s : State) (id : Nat) (st : CmdState) (g : Nat) :
    cmdsOf (modCmd s id fun d => { d with st }) g = (cmdsOf s g).map fun d => if d.id = id then { d with st } else d := by
  have hkept : (fun d : Cmd => d.q == g && !d.dropped) ∘ (fun d : Cmd => if d.id = id then { d with st } else d) =
      fun d => d.q == g && !d.dropped := by
    funext d
    dsimp only [Function.comp]
    split <;> rfl
  simp only [cmdsOf, modCmd, List.filter_map, hkept]

/-- A completion brings no command into a queue. -/
theorem mem_cmdsOf_finish {s : State} {c d : Cmd} {r : Res} {g : Nat} (h : d ∈ cmdsOf (finish s c r) g) : d ∈ cmdsOf s g := by
  rw [cmdsOf, finish_cmds, List.mem_filter, List.mem_filter] at h
  obtain ⟨⟨hd, -⟩, hg⟩ := h
  exact List.mem_filter.mpr ⟨hd, hg⟩

/-! ## BARRIER (R79, R127) -/

/-- The oldest BARRIER of queue g. -/
abbrev firstBarrier (s : State) (g : Nat) : Option Cmd := (cmdsOf s g).find? fun c => opcode c.sqe == 0x43

theorem ioRefused_of_notMounted {s : State} (h : notMounted s = true) (w : SqeBits) : ioRefused s w = some (stNotMounted, 0) := by
  simp only [ioRefused, mediaCheck, h, if_true]

theorem barrierStart_refused {s : State} {c : Cmd} {e : Nat × Nat} (h : ioRefused s c.sqe = some e) :
    barrierStart s c = finish s c { status := e.1, d1 := e.2 } := by
  simp only [barrierStart, h]

theorem barrierStart_passes {s : State} {c : Cmd} (h : ioRefused s c.sqe = none) :
    barrierStart s c = barrierDone (modCmd s c.id fun c => { c with st := .waiting }) c.q := by
  simp only [barrierStart, h]

/-- A BARRIER with something earlier in flight goes on waiting. -/
theorem barrierDone_waits {s : State} {g : Nat} {b : Cmd} (hb : firstBarrier s g = some b) (he : earlierCmds s g b.id ≠ []) :
    barrierDone s g = s := by
  have hearlier : (!(earlierCmds s g b.id).isEmpty) = true := by simp [he]
  simp only [barrierDone, hb, hearlier, if_true]

/-- With nothing earlier it completes; that is all while it held nothing. -/
theorem barrierDone_completes {s : State} {g : Nat} {b : Cmd} (hb : firstBarrier s g = some b) (he : earlierCmds s g b.id = [])
    (hheld : ∀ d ∈ cmdsOf s g, d.st ≠ .barrierHeld) : barrierDone s g = finish s b { status := stOk } := by
  have hnone : ((cmdsOf (finish s b { status := stOk }) g).filter fun c => c.st == .barrierHeld) = [] :=
    List.filter_eq_nil_iff.mpr fun d hd => by simpa using hheld d (mem_cmdsOf_finish hd)
  simp only [barrierDone, hb, he, List.isEmpty_nil, Bool.not_true, Bool.false_eq_true, if_false, finishSt, hnone, List.foldl_nil]

/-- The oldest BARRIER once it is set aside: the same, now waiting. -/
theorem firstBarrier_waiting {s : State} {c : Cmd} (h : firstBarrier s c.q = some c) :
    firstBarrier (modCmd s c.id fun c => { c with st := .waiting }) c.q = some { c with st := .waiting } := by
  have hsqe : (fun d : Cmd => opcode d.sqe == 0x43) ∘ (fun d : Cmd => if d.id = c.id then { d with st := .waiting } else d) =
      fun d => opcode d.sqe == 0x43 := by
    funext d
    dsimp only [Function.comp]
    split <;> rfl
  unfold firstBarrier at h ⊢
  rw [cmdsOf_modCmd_st, List.find?_map, hsqe, h, Option.map_some, if_pos rfl]

/-- A BARRIER alone in its SQ completes as soon as it is set aside. -/
theorem barrierDone_alone {s : State} {c : Cmd} (hop : opcode c.sqe = 0x43) (halone : cmdsOf s c.q = [c]) :
    barrierDone (modCmd s c.id fun c => { c with st := .waiting }) c.q =
      finish (modCmd s c.id fun c => { c with st := .waiting }) { c with st := .waiting } { status := stOk } := by
  have hfirst : firstBarrier s c.q = some c := by simp [firstBarrier, halone, hop]
  have hcmds : cmdsOf (modCmd s c.id fun c => { c with st := .waiting }) c.q = [{ c with st := .waiting }] := by
    rw [cmdsOf_modCmd_st, halone, List.map_singleton, if_pos rfl]
  refine barrierDone_completes (firstBarrier_waiting hfirst) ?_ fun d hd => ?_
  · simp [earlierCmds, hcmds]
  · rw [hcmds, List.mem_singleton] at hd
    simp [hd]

/-- A BARRIER behind something is set aside. -/
theorem barrierDone_behind {s : State} {c : Cmd} (hfirst : firstBarrier s c.q = some c) (he : earlierCmds s c.q c.id ≠ []) :
    barrierDone (modCmd s c.id fun c => { c with st := .waiting }) c.q = modCmd s c.id fun c => { c with st := .waiting } := by
  refine barrierDone_waits (firstBarrier_waiting hfirst) ?_
  obtain ⟨d, hd⟩ := List.exists_mem_of_ne_nil _ he
  obtain ⟨hin, hlt⟩ := List.mem_filter.mp hd
  have hne : d.id ≠ c.id := Nat.ne_of_lt (of_decide_eq_true hlt)
  refine List.ne_nil_of_mem (a := d) (List.mem_filter.mpr ⟨?_, hlt⟩)
  rw [cmdsOf_modCmd_st]
  exact List.mem_map.mpr ⟨d, hin, if_neg hne⟩

/-! ## Range locks (R77) -/

theorem rangeLockWaitEnd_starts {s : State} {id : Nat} {c : Cmd} (hc : cmdOf s id = some c) (hst : c.st = .lockHeld)
    (hfree : lockedOutBy s id = false) : exec (.rangeLockWaitEnd id) s = .next (startIo s id) := by
  refine congrArg Host.Outcome.next ?_
  simp only [hc, hst, hfree, Bool.not_false, and_self, if_true]

/-! ## One read of an admin queue (R69 to R71, R81) -/

/-- An admitted command takes the next number. -/
theorem admitOne_run_nextId {s t : State} {u : Sub} {c : Cmd} (h : admitOne s u = .run t c) : t.qe.nextId = s.qe.nextId + 1 := by
  unfold admitOne at h
  dsimp only at h
  split at h
  · cases h
  · split at h
    · cases h
    · split at h
      · cases h
      · cases h
        dsimp only [setCmd]
        split <;> rfl

theorem emitFor_nextId (s : State) (n : Nat) (c : Option Nat) (e : Emit) : (emitFor s n c e).qe.nextId = s.qe.nextId := by
  unfold emitFor
  split <;> rfl

theorem toHost_nextId (s : State) (c : Cmd) (bs : List Byte) : (toHost s c bs).qe.nextId = s.qe.nextId := by
  unfold toHost dmaOut
  induction scatter c.descs bs generalizing s with
  | nil => rfl
  | cons w ws ih => exact (ih _).trans (emitFor_nextId s c.fn (some c.id) _)

/-- A read of one entry that becomes a command or ends runs it, with SQ_HEAD behind it, whether or not it freezes the SQ. -/
theorem runSubs_single {s : State} {g base : Nat} {u : Sub}
    (h : (runSub (headAt s g base 1) { u with q := g }).qe.nextId ≠ s.qe.nextId) :
    runSubs g base 1 0 [u] s = runSub (headAt s g base 1) { u with q := g } := by
  unfold runSubs
  dsimp only
  rw [if_neg h]
  split <;> rfl

/-- A read of an admin queue that has entries brings at least one (R69). -/
theorem one_le_readSize {s : State} {q : Queue} (hcls : q.cls = 2) (hwait : 1 ≤ waitingIn q) : 1 ≤ readSize s q := by
  rw [readSize, if_pos hcls]
  omega

/-- State s as the read of one entry of admin queue g leaves it for the entry: SQ_HEAD stands behind the entry. -/
def readOne (s : State) (g : Nat) (q : Queue) : State :=
  headAt (modQueue { s with qe.lastAdmin := g } g fun q => { q with adminWait := false }) g q.head 1

theorem sqeFetch_single {s : State} {g : Nat} {q : Queue} {u : Sub} (harb : arbiter s = some g) (hq : queueOf s g = some q)
    (hcls : q.cls = 2) (hwait : 1 ≤ waitingIn q)
    (hrun : (runSub (readOne s g q) { u with q := g }).qe.nextId ≠ s.qe.nextId) :
    exec (.sqeFetch g [u]) s = .next (runSub (readOne s g q) { u with q := g }) := by
  have htake : [u].take (readSize s q) = [u] := List.take_of_length_le (one_le_readSize hcls hwait)
  have hpass : ¬ arbiter s ≠ some g := fun h => h harb
  refine congrArg Host.Outcome.next ?_
  simp only [sqeFetchS, hq, hpass, hcls, htake, if_true, if_false, List.length_singleton]
  exact runSubs_single hrun

/-- An IDENTIFY of page 0 runs to its end: the data go to the host and the command completes (R108). -/
theorem runSub_identify {s s₁ : State} {u : Sub} {c : Cmd} (hadm : admitOne s u = .run s₁ c) (hop : opcode u.sqe = 0x01)
    (hpage : sqeBytes c.sqe 28 1 = 0) :
    runSub s u = finish (toHost s₁ c (identifyFn s₁ c.fn)) c { status := stOk } := by
  have hend : identifyS s₁ c = finish (toHost s₁ c (identifyFn s₁ c.fn)) c { status := stOk } := by
    simp only [identifyS, hpage, finishSt]
  have hexec : execIdentify u s = .next (identifyS s₁ c) := next_runCmd_of_run hadm hop rfl
  simp only [runSub, hop, hexec, outState, hend]

/-! ## The statement -/

/-- Settles O49: a BARRIER that is set aside ends or waits by what stands before it in its SQ, and a read of one entry runs it
(`sqeFetch_single`). -/
theorem heldCommandsGoOn : Obligations.HeldCommandsGoOn := by
  unfold Obligations.HeldCommandsGoOn
  refine ⟨⟨?_, ?_, ?_⟩, ?_⟩
  · intro s s₁ u c hadm hop hsqe
    refine ⟨fun href halone => ?_, fun href hfirst he => ?_, fun e href => ?_, fun hmount => ?_⟩
    · exact next_runCmd_of_run hadm hop ((barrierStart_passes href).trans (barrierDone_alone (by rw [hsqe]; exact hop) halone))
    · exact next_runCmd_of_run hadm hop ((barrierStart_passes href).trans (barrierDone_behind hfirst he))
    · exact next_runCmd_of_run hadm hop (barrierStart_refused href)
    · exact next_runCmd_of_run hadm hop (barrierStart_refused (e := (stNotMounted, 0)) (ioRefused_of_notMounted hmount c.sqe))
  · intro s g b hb he hheld
    exact congrArg Host.Outcome.next (barrierDone_completes hb he fun d hd => hheld d (List.mem_of_mem_filter hd))
  · intro s id c hc hst hfree
    exact ⟨rangeLockWaitEnd_starts hc hst hfree, startIo_write hc⟩
  · intro s u g q harb hq hcls hwait v t
    refine ⟨fun hrun _ => sqeFetch_single harb hq hcls hwait hrun, fun s₁ c hadm hop hpage => ?_⟩
    have ht : t = finish (toHost s₁ c (identifyFn s₁ c.fn)) c { status := stOk } := runSub_identify hadm hop hpage
    have hnext : t.qe.nextId = s.qe.nextId + 1 := by
      rw [ht, finish_nextId, toHost_nextId, admitOne_run_nextId hadm]
      rfl
    rw [← ht]
    exact sqeFetch_single harb hq hcls hwait (hnext ▸ Nat.succ_ne_self _)

end Sys2Proof.Proofs
end

section
/-! The cartridge and the media lock: completions, events, buffers, sealing and the pair leave both as they are. -/

namespace Sys2Proof.Proofs

open Sys2Proof Sys2Proof.Machine Sys2Proof.Laws

/-- Steps that leave the cartridge leave it one after another. -/
theorem foldl_media {α : Type} {f : State → α → State} (hf : ∀ t x, (f t x).media = t.media) (l : List α) (s : State) :
    (l.foldl f s).media = s.media := by
  induction l generalizing s with
  | nil => rfl
  | cons x l ih => exact (ih (f s x)).trans (hf s x)

/-! ## Completions and events -/

/-- A flag of ISTAT touches GLB, and the queue engine and the outputs through its vector. -/
theorem setIstat_eq (s : State) (b : Nat) : setIstat s b =
    { s with glb := (setIstat s b).glb, qe := (setIstat s b).qe, out := (setIstat s b).out } := by
  unfold setIstat
  split
  · rfl
  · dsimp only
    split
    · rw [(Posts.of_sendVector _ 0 (fns := fun _ => True) trivial _).rest]
    · rfl

@[simp] theorem finish_media (s : State) (c : Cmd) (r : Res) : (finish s c r).media = s.media := by rw [finish_eq]

/-- A command that completes by its number touches the queue engine and the outputs alone. -/
theorem finishId_eq (s : State) (id : Nat) (r : Res) :
    finishId s id r = { s with qe := (finishId s id r).qe, out := (finishId s id r).out } := by
  unfold finishId
  split
  · exact finish_eq s _ r
  · rfl

@[simp] theorem finishId_media (s : State) (id : Nat) (r : Res) : (finishId s id r).media = s.media := by rw [finishId_eq]

/-- The end of a media operation touches, beside its command, the result of the library's request alone. -/
theorem mediaDone_eq (s : State) (cmd lib : Option Nat) (st info : Nat) : mediaDone s cmd lib st info = { s with
    qe := (mediaDone s cmd lib st info).qe
    fi := (mediaDone s cmd lib st info).fi
    out := (mediaDone s cmd lib st info).out } := by
  cases cmd with
  | none => cases lib <;> rfl
  | some id =>
    unfold mediaDone
    dsimp only
    rw [finishId_eq]
    cases lib <;> rfl

@[simp] theorem mediaDone_media (s : State) (cmd lib : Option Nat) (st info : Nat) :
    (mediaDone s cmd lib st info).media = s.media := by rw [mediaDone_eq]

@[simp] theorem mediaDone_nw (s : State) (cmd lib : Option Nat) (st info : Nat) :
    (mediaDone s cmd lib st info).nw = s.nw := by rw [mediaDone_eq]

@[simp] theorem mediaDone_fm (s : State) (cmd lib : Option Nat) (st info : Nat) :
    (mediaDone s cmd lib st info).fm = s.fm := by rw [mediaDone_eq]

@[simp] theorem mediaDone_ce (s : State) (cmd lib : Option Nat) (st info : Nat) :
    (mediaDone s cmd lib st info).ce = s.ce := by rw [mediaDone_eq]

@[simp] theorem queueFor1_media (s : State) (n code scope part : Nat) (ps : List Byte) :
    (queueFor1 s n code scope part ps).media = s.media := by
  unfold queueFor1
  dsimp only
  split
  · rfl
  · split
    · exact finishId_media _ _ _
    · rfl

@[simp] theorem queueEmcy_media (s : State) (m : Emcy) : (queueEmcy s m).media = s.media := by
  unfold queueEmcy
  split
  · rfl
  · split <;> rfl

@[simp] theorem queueNow_media (s : State) (code scope p : Nat) (ps : List Byte) :
    (queueNow s code scope p ps).media = s.media := by
  have hqueued := foldl_media (fun t n => queueFor1_media t n code scope (if scope = 1 then p else 0) ps) (evTargets s scope p) s
  unfold queueNow
  dsimp only
  split
  · exact hqueued
  · exact (queueEmcy_media _ _).trans hqueued

@[simp] theorem queueEvent_media (s : State) (code scope p : Nat) (ps : List Byte) :
    (queueEvent s code scope p ps).media = s.media := by
  unfold queueEvent
  split
  · exact queueNow_media s code scope p ps
  · split
    · rfl
    · split
      · rfl
      · exact queueNow_media s code scope p ps

@[simp] theorem faultRec_media (s : State) (code : Nat) (permanent : Bool) (unit p1 p2 : Nat) :
    (faultRec s code permanent unit p1 p2).media = s.media := by
  unfold faultRec
  dsimp only
  split <;> rfl

/-! ## Buffers -/

@[simp] theorem rejectRelease_media (s : State) (h : BitVec 32) (cls : Nat) (holders : BitVec 16) (wasFree : Bool) :
    (rejectRelease s h cls holders wasFree).media = s.media := by
  unfold rejectRelease
  dsimp only
  repeat' split
  all_goals simp

@[simp] theorem release_media (s : State) (h : BitVec 32) (cls : Nat) : (release s h cls).media = s.media := by
  unfold release
  dsimp only
  repeat' split
  all_goals simp

@[simp] theorem releaseAll_media (s : State) (hs : List (BitVec 32)) (cls : Nat) : (releaseAll s hs cls).media = s.media :=
  foldl_media (fun t h => release_media t h cls) hs s

theorem allocNow_media {s t : State} {p cls : Nat} {h : BitVec 32} (ha : allocNow s p cls = some (h, t)) : t.media = s.media := by
  unfold allocNow at ha
  dsimp only at ha
  repeat' split at ha
  all_goals cases ha
  rfl

@[simp] theorem allocate_media (s : State) (p cls : Nat) (cmd : Option Nat) : (allocate s p cls cmd).2.media = s.media := by
  unfold allocate
  split
  · rfl
  · dsimp only
    split
    · rfl
    · split
      · rfl
      · split
        · next ha => exact allocNow_media ha
        · rfl

@[simp] theorem unitAlloc_media (s : State) (p cls : Nat) : (unitAlloc s p cls).2.media = s.media := by
  unfold unitAlloc
  split
  · rfl
  · split
    · rfl
    · exact allocate_media s p cls none

@[simp] theorem dropBuf_media (s : State) (h : BitVec 32) : (dropBuf s h).media = s.media := by
  unfold dropBuf
  dsimp only
  repeat' split
  all_goals simp

/-! ## WRITEs that settle -/

@[simp] theorem releasePiece_media (s : State) (id : Nat) (k : Piece) : (releasePiece s id k).media = s.media := by
  unfold releasePiece
  split
  · rfl
  · exact foldl_media (fun t i => dropBuf_media t _) _ s

@[simp] theorem sweepCmd_media (s : State) (c : Cmd) : (sweepCmd s c).media = s.media := by
  have hgone := foldl_media (fun t k => releasePiece_media t c.id k) (c.pieces.filter fun k => k.settled && !chainBusy s c k) s
  unfold sweepCmd
  dsimp only
  split
  · split
    · exact hgone
    · exact hgone
  · exact hgone

@[simp] theorem sweep_media (s : State) : (sweep s).media = s.media := foldl_media sweepCmd_media (writesOf s) s

@[simp] theorem finishWrite_media (s : State) (c : Cmd) (st d1 d2 : Nat) : (finishWrite s c st d1 d2).media = s.media := by
  unfold finishWrite
  simp

@[simp] theorem settleWrite_media (s : State) (id : Nat) : (settleWrite s id).media = s.media := by
  unfold settleWrite
  repeat' split
  all_goals simp

/-! ## Sealing -/

@[simp] theorem queueDs_media (s : State) (w : WriteDs) : (queueDs s w).media = s.media := fillBuf_media _ _ _ _

@[simp] theorem closeSpan_media (s : State) (p : Nat) : (closeSpan s p).media = s.media := by
  unfold closeSpan
  split
  · rfl
  · split
    · rfl
    · simp

@[simp] theorem markPlaced_media (s : State) (p : Nat) (ms : List Marker) : (markPlaced s p ms).media = s.media := by
  refine foldl_media (fun t m => ?_) ms s
  dsimp only
  split <;> rfl

@[simp] theorem joinSpan_media (s : State) (d : Dataset) : (joinSpan s d).media = s.media := by
  unfold joinSpan
  dsimp only
  split
  · rfl
  · split
    · exact closeSpan_media _ _
    · rfl

@[simp] theorem sealOpen_media (s : State) (p : Nat) : (sealOpen s p).media = s.media := by
  unfold sealOpen
  dsimp only
  repeat' split
  all_goals simp

@[simp] theorem sealCheckpoint_media (s : State) (p : Nat) (byUnmount : Bool) : (sealCheckpoint s p byUnmount).media = s.media := by
  unfold sealCheckpoint
  split
  · rfl
  · refine (foldl_media (fun t i => ?_) _ _).trans ?_
    · extract_lets short v
      have hclosed : v.media = t.media := by
        dsimp only [v]
        split <;> simp
      clear_value v
      split
      · exact hclosed
      · exact (joinSpan_media _ _).trans ((queueDs_media _ _).trans ((unitAlloc_media _ _ _).trans
          ((markPlaced_media v p _).trans hclosed)))
    · refine (modPart_media _ _ _).trans ?_
      split <;> simp

@[simp] theorem afterSeal_media (s : State) (p : Nat) : (afterSeal s p).media = s.media := by
  unfold afterSeal
  dsimp only
  repeat' split
  all_goals simp

@[simp] theorem dropOpenDs_media (s : State) (p : Nat) : (dropOpenDs s p).media = s.media := by
  unfold dropOpenDs
  simp

@[simp] theorem tagTurn_media (s : State) : (tagTurn s).media = s.media := by
  unfold tagTurn
  repeat' split
  all_goals rfl

@[simp] theorem sealIfDone_media (s : State) (p : Nat) : (sealIfDone s p).media = s.media := by
  unfold sealIfDone
  repeat' split
  all_goals simp

@[simp] theorem wantCheckpoint_media (s : State) (p : Nat) (byUnmount : Bool) : (wantCheckpoint s p byUnmount).media = s.media := by
  unfold wantCheckpoint stopOpen stopDs
  simp

/-! ## The pair -/

@[simp] theorem pumpFlits_media (n : Nat) (s : State) : (pumpFlits n s).media = s.media := by
  induction n generalizing s with
  | zero => rfl
  | succ n ih =>
    unfold pumpFlits
    split
    · rfl
    · split
      · rfl
      · exact ih _

@[simp] theorem noteAsked_media (s : State) (n : Nat) (m : Msg) : (noteAsked s n m).media = s.media := by
  unfold noteAsked
  split
  · dsimp only
    split <;> rfl
  · rfl

@[simp] theorem pumpLink_media (s : State) : (pumpLink s).media = s.media := by
  unfold pumpLink
  split
  · exact pumpFlits_media _ s
  · rfl

@[simp] theorem plSend_media (s : State) (m : Msg) : (plSend s m).media = s.media :=
  (pumpLink_media _).trans (noteAsked_media _ _ m)

@[simp] theorem pumpCatch_media (n : Nat) (s : State) : (pumpCatch n s).media = s.media := by
  induction n generalizing s with
  | zero => rfl
  | succ n ih =>
    unfold pumpCatch
    dsimp only
    repeat' split
    all_goals simp [ih]

@[simp] theorem catchUp_media (s : State) : (catchUp s).media = s.media :=
  (pumpCatch_media _ _).trans (foldl_media (f := fun t (x : Machine.Part) => catchUpPart t x.num) (fun _ _ => rfl) _ s)

@[simp] theorem breakPair_media (s : State) (reason : Nat) : (breakPair s reason).media = s.media := by
  have hfrozen : (freezeMarks s).media = s.media := foldl_media (fun t j => by
    unfold dropHeld
    split
    · exact releaseAll_media _ _ _
    · rfl) _ _
  exact (foldl_media (fun t (c : Cmd) => settleWrite_media t c.id) _ _).trans hfrozen

@[simp] theorem comparePair_media (s : State) (i : PeerInfo) : (comparePair s i).media = s.media := by
  unfold comparePair
  dsimp only
  repeat' split
  all_goals simp

end Sys2Proof.Proofs
end

section
/-! O39, O41 and O44, admin commands that end at once: what the device tells, the windows of a function, key slots (R108, R111 to
R113, R122 to R124). -/

namespace Sys2Proof.Proofs

open Sys2Proof Sys2Proof.Machine Sys2Proof.Laws

/-! ## IDENTIFY, GET_LOG, OD_READ -/

theorem identifyS_page0 {s : State} {c : Cmd} (h : sqeBytes c.sqe 28 1 = 0) :
    identifyS s c = finish (toHost s c (identifyFn s c.fn)) c { status := stOk } := by
  simp only [identifyS, h, finishSt]

theorem identifyS_page1 {s : State} {c : Cmd} (h : sqeBytes c.sqe 28 1 = 1) :
    identifyS s c = if c.fn = 0 then finish (toHost s c (identifyDev s)) c { status := stOk }
      else finish s c { status := stAccessDenied } := by
  simp only [identifyS, h, finishSt]

/-- A slice within a page that the function may read goes to the host. -/
theorem getLogS_of_within {s : State} {c : Cmd} {bs : List Byte} (hpage : logPage s c.fn (sqeBytes c.sqe 28 1) = some bs)
    (hmay : c.fn = 0 ∨ sqeBytes c.sqe 28 1 < 3) (hfits : sqeBytes c.sqe 48 4 + lengthField c.sqe ≤ bs.length) :
    getLogS s c = finish (toHost s c (slice bs (sqeBytes c.sqe 48 4) (lengthField c.sqe))) c
      { status := stOk, info := lengthField c.sqe } := by
  have hown : ¬ (c.fn ≠ 0 ∧ 3 ≤ sqeBytes c.sqe 28 1) := by omega
  have hin : ¬ sqeBytes c.sqe 48 4 + lengthField c.sqe > bs.length := by omega
  simp only [getLogS, hpage, if_neg hown, if_neg hin]

/-- An entry of fixed size that the function may read, asked for in its own size. -/
theorem odReadS_of_ok {s v : State} {c : Cmd} {e : OdEntry} {bs : List Byte}
    (hfind : odFind (sqeBytes c.sqe 28 2) (sqeBytes c.sqe 30 1) = some e)
    (hmay : c.fn = 0 ∨ vfIndex (sqeBytes c.sqe 28 2) = true) (hacc : e.acc ≠ .wo) (hvar : e.var = false)
    (hlen : lengthField c.sqe = e.size) (hread : odRead s (sqeBytes c.sqe 28 2) (sqeBytes c.sqe 30 1) = (v, .ok bs)) :
    odReadS s c = finish (toHost v c (fit e.size bs)) c { status := stOk, info := bs.length } := by
  have hown : ¬ (c.fn ≠ 0 ∧ (!vfIndex (sqeBytes c.sqe 28 2)) = true) := by
    rintro ⟨hvf, hno⟩
    rw [hmay.resolve_left hvf] at hno
    cases hno
  simp only [odReadS, hfind, if_neg hown, if_neg hacc, hvar, hlen, bne_self_eq_false, Bool.false_eq_true, if_false, hread]

/-- Settles O39: each of the three looks at what it is asked for, and then sends it. That page 1 of IDENTIFY is not for a VF
is the model's choice (log 79). -/
theorem inquiriesAnswer : Obligations.InquiriesAnswer := by
  unfold Obligations.InquiriesAnswer
  intro s s₁ u c hadm
  refine ⟨fun hop => ⟨fun hpage => ?_, fun hpage hfn => ?_, fun hpage hfn => ?_⟩, fun hop bs hpage hmay hfits => ?_,
    fun hop e v bs hfind hmay hacc hvar hlen hread => ?_⟩
  · exact next_runCmd_of_run hadm hop (identifyS_page0 hpage)
  · exact next_runCmd_of_run hadm hop ((identifyS_page1 hpage).trans (if_pos hfn))
  · exact next_runCmd_of_run hadm hop ((identifyS_page1 hpage).trans (if_neg hfn))
  · exact next_runCmd_of_run hadm hop (getLogS_of_within hpage hmay hfits)
  · exact next_runCmd_of_run hadm hop (odReadS_of_ok hfind hmay hacc hvar hlen hread)

/-! ## SET_WINDOWS -/

/-- SET_WINDOWS with good fields looks only at whether the function may be configured. -/
theorem setWindowsS_of_fields {s : State} {c : Cmd} (hfn : sqeBytes c.sqe 28 2 ≤ 255)
    (hkeys : bits (sqeBytes c.sqe 50 2) 0 12 + bits (sqeBytes c.sqe 52 2) 0 13 ≤ 4096)
    (hpre : BitVec.ofNat 48 (sqeBytes c.sqe 32 6) &&& ~~~BitVec.ofNat 48 (sqeBytes c.sqe 40 6) = 0) :
    setWindowsS s c = if configurable s (sqeBytes c.sqe 28 2) = true then
        finish (setFn s (sqeBytes c.sqe 28 2) { fnOf s (sqeBytes c.sqe 28 2) with
          pmask := BitVec.ofNat 16 (sqeBytes c.sqe 48 2), prefix_ := BitVec.ofNat 48 (sqeBytes c.sqe 32 6),
          mask := BitVec.ofNat 48 (sqeBytes c.sqe 40 6), kbase := bits (sqeBytes c.sqe 50 2) 0 12,
          kcount := bits (sqeBytes c.sqe 52 2) 0 13 }) c { status := stOk }
      else finish s c { status := stFunctionDisabled } := by
  have hvf : ¬ sqeBytes c.sqe 28 2 > 255 := by omega
  have hwin : ¬ (bits (sqeBytes c.sqe 52 2) 0 13 > 4096 ∨
      bits (sqeBytes c.sqe 50 2) 0 12 + bits (sqeBytes c.sqe 52 2) 0 13 > 4096) := by omega
  have hin : ¬ BitVec.ofNat 48 (sqeBytes c.sqe 32 6) &&& ~~~BitVec.ofNat 48 (sqeBytes c.sqe 40 6) ≠ 0 := not_not.mpr hpre
  simp only [setWindowsS, if_neg hvf, if_neg hwin, if_neg hin, Bool.not_eq_true', modFn, finishSt]
  cases configurable s (sqeBytes c.sqe 28 2)
  · rfl
  · rfl

/-- A window that does not fit, or a PREFIX outside its MASK, is a bad field, if the function number is not one itself. -/
theorem setWindowsS_of_badWindow {s : State} {c : Cmd}
    (h : 4096 < bits (sqeBytes c.sqe 52 2) 0 13 ∨ 4096 < bits (sqeBytes c.sqe 50 2) 0 12 + bits (sqeBytes c.sqe 52 2) 0 13 ∨
      BitVec.ofNat 48 (sqeBytes c.sqe 32 6) &&& ~~~BitVec.ofNat 48 (sqeBytes c.sqe 40 6) ≠ 0) :
    ∃ d, setWindowsS s c = finish s c { status := stInvalidField, d1 := d } := by
  unfold setWindowsS
  dsimp only
  split
  · exact ⟨28, rfl⟩
  · split
    · exact ⟨52, rfl⟩
    · next hfits =>
      have hpre := (h.resolve_left fun hc => hfits (.inl hc)).resolve_left fun hs => hfits (.inr hs)
      rw [if_pos hpre]
      exact ⟨32, rfl⟩

/-- Settles O41: the fields are looked at first, then the function. That a bad field goes before FUNCTION_DISABLED is
the model's choice (log 79). -/
theorem windowsSet : Obligations.WindowsSet := by
  unfold Obligations.WindowsSet
  intro s s₁ u c hadm hop fn pre mask base count
  refine ⟨fun hfn hkeys hpre hconf => ?_, fun hbad => ?_, fun hfn hkeys hpre hconf => ?_⟩
  · exact next_runCmd_of_run hadm hop ((setWindowsS_of_fields hfn hkeys hpre).trans (if_pos hconf))
  · obtain ⟨d, hd⟩ := setWindowsS_of_badWindow hbad
    exact ⟨d, next_runCmd_of_run hadm hop hd⟩
  · exact next_runCmd_of_run hadm hop ((setWindowsS_of_fields hfn hkeys hpre).trans (if_neg (by rw [hconf]; decide)))

/-! ## KEY_LOAD -/

/-- The key of a blob, unwrapped under the key-encryption key that bytes 40 and 41 name. -/
abbrev blobKey (s : State) (data : List Byte) : Option (List Byte) :=
  (storedKek s (unle (slice (fit 64 data) 40 2))).bind fun kek => kwUnwrap kek (slice (fit 64 data) 0 40)

theorem keyLoadS_unwraps {s : State} {c : Cmd} {data k : List Byte} (hslot : keyOf s (keySlot c.sqe) = none)
    (hkey : blobKey s data = some k) :
    keyLoadS s c data = finish { s with
      tg.keys := s.tg.keys ++ [{ slot := keySlot c.sqe, key := BitVec.ofNat 256 (unbe k) }] } c { status := stOk } := by
  simp only [keyLoadS, hslot, hkey, Option.isSome_none, Bool.false_eq_true, if_false, finishSt]

theorem keyLoadS_fails {s : State} {c : Cmd} {data : List Byte} (hslot : keyOf s (keySlot c.sqe) = none)
    (hkey : blobKey s data = none) : keyLoadS s c data = finish s c { status := stKeyUnwrapFailed } := by
  simp only [keyLoadS, hslot, hkey, Option.isSome_none, Bool.false_eq_true, if_false, finishSt]

/-! ## KEY_CLEAR -/

@[simp] theorem finishId_tg (s : State) (id : Nat) (r : Res) : (finishId s id r).tg = s.tg := by rw [finishId_eq]

/-- Commands that complete one after another leave the keys as they are. -/
theorem foldl_finishId_tg (ids : List Nat) (r : Res) (s : State) : (ids.foldl (fun s id => finishId s id r) s).tg = s.tg := by
  induction ids generalizing s with
  | nil => rfl
  | cons id ids ih => rw [List.foldl_cons, ih, finishId_tg]

theorem keyOf_filter_ne (s : State) (n : Nat) :
    keyOf { s with tg.keys := s.tg.keys.filter fun k => k.slot != n } n = none := by
  simp [keyOf, List.find?_eq_none]

/-- A slot that is being cleared and that nothing uses any more is empty, and every other keeps its key. -/
theorem keyClearDone_of_unused {s : State} {n id : Nat} {k : KeySlot} (hk : keyOf s n = some k) (hid : k.clearing = some id)
    (hfree : slotUsed s n id = false) :
    keyOf (keyClearDone s n) n = none ∧ (keyClearDone s n).tg.keys = s.tg.keys.filter fun k => k.slot != n := by
  have htg : (keyClearDone s n).tg = { s.tg with keys := s.tg.keys.filter fun k => k.slot != n } := by
    simp only [keyClearDone, hk, hid, hfree, Bool.false_eq_true, if_false, foldl_finishId_tg]
  refine ⟨?_, by rw [htg]⟩
  rw [keyOf, htg]
  exact keyOf_filter_ne s n

/-- A slot after the keys of slot n are changed. -/
theorem keyOf_map {s : State} {n : Nat} {k : KeySlot} (hk : keyOf s n = some k) (f : KeySlot → KeySlot)
    (hf : ∀ x : KeySlot, x.slot = n → (f x).slot = n) :
    keyOf { s with tg.keys := s.tg.keys.map fun x => if x.slot = n then f x else x } n = some (f k) := by
  have hfind : keyOf { s with tg.keys := s.tg.keys.map fun x => if x.slot = n then f x else x } n =
      (keyOf s n).map fun x => if n = n then f x else x := find_map_key KeySlot.slot n n f hf s.tg.keys
  simp [hfind, hk]

/-- The slots in use depend on the entries of the commands in flight alone, not on their states. -/
theorem slotUsed_modCmd_st (s : State) (id : Nat) (st : CmdState) (n before : Nat) :
    slotUsed (modCmd s id fun c => { c with st }) n before = slotUsed s n before := by
  simp only [slotUsed, modCmd, List.any_map]
  congr 1
  funext d
  dsimp only [Function.comp]
  split <;> rfl

/-- No command in flight uses the key of the slot (R123). -/
theorem slotUsed_of_none {s : State} {n : Nat}
    (h : ∀ d ∈ s.qe.cmds, d.dropped = false → [0x40, 0x41, 0x42].contains (opcode d.sqe) = true → tagBit d.sqe = true →
      keySlot d.sqe ≠ n) (before : Nat) : slotUsed s n before = false := by
  rw [slotUsed, List.any_eq_false]
  intro d hd hused
  simp only [Bool.and_eq_true, Bool.not_eq_true', decide_eq_true_eq, beq_iff_eq] at hused
  obtain ⟨⟨⟨⟨hin, -⟩, hop⟩, htag⟩, hslot⟩ := hused
  exact h d hd hin hop htag hslot

/-- KEY_CLEAR of a slot that nothing uses empties it at once, also when an earlier KEY_CLEAR of it waits. -/
theorem keyOf_keyClearS {s : State} {c : Cmd} {k : KeySlot} (hk : keyOf s (keySlot c.sqe) = some k)
    (hfree : ∀ before, slotUsed s (keySlot c.sqe) before = false) : keyOf (keyClearS s c) (keySlot c.sqe) = none := by
  obtain ⟨id, hid⟩ : ∃ id, k.clearing.or (some c.id) = some id := by
    cases k.clearing with
    | none => exact ⟨c.id, rfl⟩
    | some id => exact ⟨id, rfl⟩
  let t := modCmd s c.id fun c => { c with st := .waiting }
  have hkt : keyOf t (keySlot c.sqe) = some k := hk
  have hslot := keyOf_map hkt (fun x => { x with clearing := x.clearing.or (some c.id) }) fun _ h => h
  have hunused : slotUsed t (keySlot c.sqe) id = false := (slotUsed_modCmd_st s c.id .waiting _ id).trans (hfree id)
  simp only [keyClearS, hk, Option.isNone_some, Bool.false_eq_true, if_false]
  obtain ⟨hgone, -⟩ := keyClearDone_of_unused hslot hid hunused
  exact hgone

/-- Settles O44: a slot of a KEY_CLEAR is empty as soon as nothing uses it (`keyClearDone_of_unused`). That the bytes of a blob
behind its 42nd are not looked at is the model's choice (log 45). -/
theorem keysLoadAndClear : Obligations.KeysLoadAndClear := by
  unfold Obligations.KeysLoadAndClear
  refine ⟨fun s s₁ u c hadm hop hslot => ⟨fun kek k hkek hkey => ?_, fun hfail => ?_⟩, fun s s₁ u c k hadm hop hk hnone => ?_,
    fun s n id k hk hid hfree => ?_⟩
  · have hblob : blobKey s₁ u.data = some k := by rw [blobKey, hkek, Option.bind_some, hkey]
    exact next_runCmd_of_run hadm hop (keyLoadS_unwraps hslot hblob)
  · have hblob : blobKey s₁ u.data = none := by
      rcases hfail with hkek | ⟨kek, hkek, hkey⟩
      · rw [blobKey, hkek, Option.bind_none]
      · rw [blobKey, hkek, Option.bind_some, hkey]
    exact next_runCmd_of_run hadm hop (keyLoadS_fails hslot hblob)
  · exact ⟨_, next_runCmd_of_run hadm hop rfl, keyOf_keyClearS hk (slotUsed_of_none hnone)⟩
  · obtain ⟨hgone, hkeys⟩ := keyClearDone_of_unused hk hid hfree
    exact ⟨_, rfl, hgone, hkeys⟩

end Sys2Proof.Proofs
end

section
/-! O45, OD_WRITE of settings (R124, R125, R483). -/

namespace Sys2Proof.Proofs

open Sys2Proof Sys2Proof.Machine Sys2Proof.Laws

/-- The indices of entries that hold settings. -/
def SettingIndex (idx : Nat) : Prop := (0x2000 ≤ idx ∧ idx < 0x2200) ∨ (0x4000 ≤ idx ∧ idx < 0x5000)

/-! ## What a setting reads as -/

/-- Of what a setting shows, storing it changes the settings in force alone. -/
theorem odPut_od (s : State) (idx sub : Nat) (e : OdEntry) (v : List Byte) :
    (odPut s idx sub e v).od = odPutIn (odKey idx sub) v e.dflt s.od := by
  unfold odPut setBank
  dsimp only
  split
  · split <;> rfl
  · rfl

theorem cmdOf_odPut (s : State) (idx sub : Nat) (e : OdEntry) (v : List Byte) (id : Nat) :
    cmdOf (odPut s idx sub e v) id = cmdOf s id := by
  unfold odPut setBank
  dsimp only
  split
  · split <;> rfl
  · rfl

/-- A setting reads as it was stored. -/
theorem odVal_odPut_same {idx sub : Nat} {e : OdEntry} (h : odFind idx sub = some e) (s : State) (v : List Byte) :
    odVal (odPut s idx sub e v) idx sub = v := by
  rw [odVal, odPut_od, odPutIn, h]
  exact (get_putD _ _ v e.dflt s.od).trans (if_pos rfl)

/-- Every other setting reads as before. -/
theorem odVal_odPut_ne {idx sub i j : Nat} (h : odKey i j ≠ odKey idx sub) (s : State) (e : OdEntry) (v : List Byte) :
    odVal (odPut s idx sub e v) i j = odVal s i j := by
  rw [odVal, odPut_od, odPutIn]
  unfold putD
  split
  · exact get_del_ne h _ s.od
  · exact get_put_ne h v _ s.od

/-! ## The write -/

/-- A write of a setting stores it, and does nothing else. -/
theorem odEffect_setting {idx : Nat} (h : SettingIndex idx) (s : State) (p : Path) (sub : Nat) (e : OdEntry) (bs : List Byte)
    (w : CmdWorld) : odEffect s p idx sub e bs w = odStore s idx sub e bs := by
  unfold SettingIndex at h
  unfold odEffect
  split
  case h_22 => rfl
  all_goals omega

theorem odStore_ok {s t : State} {idx sub : Nat} {e : OdEntry} {bs : List Byte} (h : odStore s idx sub e bs = (t, .ok)) :
    t = odPut s idx sub e bs := by
  unfold odStore at h
  split at h
  · cases h
    rfl
  · cases h

/-- A value that is turned down is not taken. -/
theorem odValueBad_ne_ok (e : OdEntry) (bs : List Byte) : odValueBad e bs ≠ some .ok := by
  unfold odValueBad
  split_ifs
  all_goals nofun

/-- A write of a setting that succeeds has stored it. -/
theorem odWrite_setting_ok {s t : State} {p : Path} {idx sub : Nat} {bs : List Byte} {w : CmdWorld} (hset : SettingIndex idx)
    (h : odWrite s p idx sub bs w = (t, .ok)) : ∃ e, odFind idx sub = some e ∧ t = odPut s idx sub e bs := by
  unfold odWrite at h
  split at h
  · cases h
  · next e hfind =>
    refine ⟨e, hfind, ?_⟩
    split at h
    · cases h
    · split at h
      · next o hbad =>
        cases h
        exact absurd hbad (odValueBad_ne_ok e bs)
      · split at h
        · cases h
        · rw [odEffect_setting hset] at h
          exact odStore_ok h

/-- A value of the entry's length and range, written where the entry may be written and the rules that bind it allow, is stored. -/
theorem odWrite_setting {s : State} {p : Path} {idx sub : Nat} {e : OdEntry} {bs : List Byte} (w : CmdWorld)
    (hset : SettingIndex idx) (hfind : odFind idx sub = some e) (hmay : odWritable s p e = true) (hval : odValueBad e bs = none)
    (hnow : refusedNow s idx = false) (hbind : bindsOk (odPutIn (odKey idx sub) bs e.dflt s.od) idx = true) :
    odWrite s p idx sub bs w = (odPut s idx sub e bs, .ok) := by
  simp only [odWrite, hfind, hmay, hval, hnow, odEffect_setting hset, odStore, hbind, Bool.not_true, Bool.false_eq_true, if_false,
    if_true]

/-- An entry that is written without a session, or locked with one open, and that belongs to no other path (R13, R547). -/
theorem odWritable_of_acc {s : State} {e : OdEntry} (p : Path) (hacc : e.acc = .rw ∨ (e.acc = .lk ∧ sessionOpen s = true))
    (husb : e.usb = false) (hsess : e.sess = false) : odWritable s p e = true := by
  rcases hacc with hacc | ⟨hacc, hopen⟩
  · simp [odWritable, hacc, husb, hsess]
  · simp [odWritable, hacc, hopen, husb, hsess]

/-- A value of the entry's own length that lies in its range (Table 3.10). -/
theorem odValueBad_of_inRange {e : OdEntry} {bs : List Byte} (hvar : e.var = false) (hlen : bs.length = e.size)
    (hrange : odInRange e bs = true) : odValueBad e bs = none := by
  simp [odValueBad, hvar, hlen, hrange]

/-- Only the mapping objects and the library's requests wait for a state of CANopen (R479, R484). -/
theorem refusedNow_setting {idx : Nat} (hset : SettingIndex idx) (hmap : mapObjects.contains idx = false) (s : State) :
    refusedNow s idx = false := by
  have hlib : (idx == 0x2200) = false := beq_eq_false_iff_ne.mpr (by unfold SettingIndex at hset; omega)
  simp only [refusedNow, hmap, hlib, Bool.false_and, Bool.or_false]

@[simp] theorem length_fit (n : Nat) (bs : List Byte) : (fit n bs).length = n := by
  simp only [fit, zeros, List.length_append, List.length_take, List.length_replicate]
  omega

/-! ## OD_WRITE -/

/-- OD_WRITE ends with the outcome of its write. -/
theorem odWriteS_outcome {s v : State} {c d : Cmd} {o : OdOut} {data : List Byte} {w : CmdWorld}
    (h : odWrite s .pcie (sqeBytes c.sqe 28 2) (sqeBytes c.sqe 30 1) (fit (lengthField c.sqe) data) w = (v, o))
    (hd : cmdOf v c.id = some d) :
    odWriteS s c data w = finish v d { status := o.status, d1 := if o.status = stInvalidField then odField o else 0 } := by
  simp only [odWriteS, h, hd, finishOd]

/-- Settles O45: a setting has one place, which a write that succeeds fills (`odWrite_setting_ok`). That an entry that does not
exist is named by byte 28 is the model's choice (log 35). -/
theorem settingsWritten : Obligations.SettingsWritten := by
  unfold Obligations.SettingsWritten
  constructor
  · intro s s₁ u c hadm hop idx sub bs
    refine ⟨fun e hset hfind hacc husb hsess hvar hlen hrange hmap hbind hc => ?_, fun v o d hw hd => ?_, fun hnone hc => ?_⟩
    · have hval : odValueBad e bs = none := odValueBad_of_inRange hvar ((length_fit _ _).trans hlen) hrange
      have hw := odWrite_setting u.world hset hfind (odWritable_of_acc .pcie hacc husb hsess) hval
        (refusedNow_setting hset hmap s₁) hbind
      exact next_runCmd_of_run hadm hop (odWriteS_outcome hw ((cmdOf_odPut s₁ idx sub e bs c.id).trans hc))
    · exact ⟨_, next_runCmd_of_run hadm hop (odWriteS_outcome hw hd)⟩
    · have hw : odWrite s₁ .pcie idx sub bs u.world = (s₁, .absent) := by simp only [odWrite, hnone]
      exact next_runCmd_of_run hadm hop (odWriteS_outcome hw hc)
  · intro s t p idx sub bs w hset hw
    obtain ⟨e, hfind, rfl⟩ := odWrite_setting_ok hset hw
    exact ⟨odVal_odPut_same hfind s bs, fun i j hij => odVal_odPut_ne hij s e bs⟩

end Sys2Proof.Proofs
end

section
/-! O47, PARTITION_LIST (R16, R118). -/

namespace Sys2Proof.Proofs

open Sys2Proof Sys2Proof.Machine Sys2Proof.Laws

/-- The entry of a partition that exists within the mask of the function (Table 3.9). -/
def listBody (s : State) (x : Part) : List Byte :=
  le 1 (1 + 2 * b2n (writeProtected s x) + 4 * b2n x.hostIndexed + 8 * b2n x.labelWp + 16 * b2n x.exhausted) ++
    le 1 x.firstPair ++ le 2 x.pairs ++ zeros 4 ++ le 8 x.version ++ le 8 (endSeq s x) ++ le 8 x.freePositions ++ fit 16 x.name

theorem listEntry_of_listed {s : State} {fn p : Nat} {x : Part} (hx : partOf s p = some x) (hshadow : x.shadow = false)
    (hmask : (fnOf s fn).pmask.getLsbD p = true) : listEntry s fn p = fit 64 (listBody s x) := by
  simp only [listEntry, hx, hshadow, hmask, Bool.not_true, Bool.or_false, Bool.false_eq_true, if_false]
  rfl

/-- A partition outside the mask, in creation, freed or not there at all is not listed. -/
theorem listEntry_of_unlisted {s : State} {fn p : Nat}
    (h : (fnOf s fn).pmask.getLsbD p = false ∨ ∀ x, partOf s p = some x → x.shadow = true) : listEntry s fn p = zeros 64 := by
  unfold listEntry
  split
  · rfl
  · next x hx =>
    refine if_pos ?_
    rcases h with hmask | hshadow
    · simp [hmask]
    · simp [hshadow x hx]

theorem length_listEntry (s : State) (fn p : Nat) : (listEntry s fn p).length = 64 := by
  unfold listEntry
  split
  · rfl
  · split
    · rfl
    · exact length_fit 64 _

/-- Where the fields of an entry lie. -/
theorem slice_listBody (s : State) (x : Part) :
    slice (fit 64 (listBody s x)) 0 1 =
        le 1 (1 + 2 * b2n (writeProtected s x) + 4 * b2n x.hostIndexed + 8 * b2n x.labelWp + 16 * b2n x.exhausted) ∧
      slice (fit 64 (listBody s x)) 1 3 = le 1 x.firstPair ++ le 2 x.pairs ∧
      slice (fit 64 (listBody s x)) 8 8 = le 8 x.version ∧ slice (fit 64 (listBody s x)) 16 8 = le 8 (endSeq s x) ∧
      slice (fit 64 (listBody s x)) 24 8 = le 8 x.freePositions := ⟨rfl, rfl, rfl, rfl, rfl⟩

/-- Bit 0 of an entry's first byte says that the partition exists. -/
theorem getLsbD_zero_ofNat_odd (n : Nat) : (BitVec.ofNat 8 (1 + 2 * n)).getLsbD 0 = true := by
  simp [BitVec.getLsbD_ofNat, Nat.testBit_zero]

/-- With nothing that waits for its first writing, end of data is the SEQ sealed next. -/
theorem endSeq_of_written {s : State} {x : Part}
    (h : ∀ w ∈ s.fm.sealed, w.ds.part = x.num → w.attempt ≠ 0 ∨ w.ended = true) : endSeq s x = x.nextSeq := by
  have hnone : (s.fm.sealed.filter fun w => w.ds.part == x.num && w.attempt == 0 && !w.ended) = [] := by
    refine List.filter_eq_nil_iff.mpr fun w hw hwaits => ?_
    simp only [Bool.and_eq_true, beq_iff_eq, Bool.not_eq_true'] at hwaits
    obtain ⟨⟨hpart, hfirst⟩, hopen⟩ := hwaits
    rcases h w hw hpart with hlater | hended
    · exact hlater hfirst
    · rw [hopen] at hended
      cases hended
  rw [endSeq, hnone, List.foldl_nil]

theorem partOf_num {s : State} {p : Nat} {x : Part} (h : partOf s p = some x) : x.num = p := by
  simpa using List.find?_some h

/-- Settles O47: what an entry holds depends on its partition and the mask alone. That a dataset whose first writing is not over
bounds the end of data is the model's choice (log 140). -/
theorem partitionListed : Obligations.PartitionListed := by
  unfold Obligations.PartitionListed
  intro s s₁ u c hadm hop
  refine ⟨next_runCmd_of_run hadm hop rfl, fun p => ⟨length_listEntry s₁ c.fn p, listEntry_of_unlisted, fun x hx hshadow hmask => ?_⟩⟩
  obtain ⟨hflags, hplace, hver, hend, hfree⟩ := slice_listBody s₁ x
  rw [listEntry_of_listed hx hshadow hmask]
  refine ⟨?_, hplace, hver, hend, hfree, fun hwritten => endSeq_of_written ?_⟩
  · have hodd := getLsbD_zero_ofNat_odd
      (b2n (writeProtected s₁ x) + 2 * b2n x.hostIndexed + 4 * b2n x.labelWp + 8 * b2n x.exhausted)
    rw [hflags, le, le, List.map_singleton, ← hodd]
    congr 3
    omega
  · rw [partOf_num hx]
    exact hwritten

end Sys2Proof.Proofs
end

section
/-! O52, MOUNT: refused, failed, over, or waiting for what it writes (R49, R119, R182, R480, R523). -/

namespace Sys2Proof.Proofs

open Sys2Proof Sys2Proof.Machine Sys2Proof.Laws

/-! ## The mount state -/

/-- A change of the mount state touches, beside it, at most what a flag of ISTAT touches. -/
theorem setMount_eq (s : State) (m : Nat) : setMount s m = { s with
    glb := (setMount s m).glb, qe := (setMount s m).qe, out := (setMount s m).out, media := { s.media with mount := m } } := by
  unfold setMount
  split
  · next h => rw [← h]
  · rw [setIstat_eq]

@[simp] theorem setMount_media (s : State) (m : Nat) : (setMount s m).media = { s.media with mount := m } := by rw [setMount_eq]

@[simp] theorem setMount_fm (s : State) (m : Nat) : (setMount s m).fm = s.fm := by rw [setMount_eq]

/-- Once the unload steps have begun nothing is mounted, however far they go (R585). -/
theorem unloadSteps_unmounts (s : State) (fails : Option Nat) (eject : Bool) :
    (unloadSteps s fails eject).1.media.mount = 0 ∧ (unloadSteps s fails eject).1.fm.parts = [] := by
  have hgone : (setMount (forgetCart s) 0).media.mount = 0 ∧ (setMount (forgetCart s) 0).fm.parts = [] :=
    ⟨by rw [setMount_media], by rw [setMount_fm]; rfl⟩
  unfold unloadSteps
  dsimp only
  generalize setMount (forgetCart s) 0 = v at hgone ⊢
  repeat' split
  all_goals exact hgone

/-! ## The end of a MOUNT -/

/-- A MOUNT that is over leaves the media lock, and the cartridge mounted. -/
theorem finishMount_media (s : State) (cmd lib : Option Nat) (ro : Bool) (info : Nat) (peer : Option PeerInfo) :
    (finishMount s cmd lib ro info peer).media = { s.media with op := none, mount := if ro then 2 else 1 } := by
  unfold finishMount
  cases peer <;> simp [unlock]

/-- The library reads the result under the sequence of its request. -/
theorem finishMount_result (s : State) (q : Nat) (ro : Bool) (info : Nat) (peer : Option PeerInfo) :
    let t := finishMount s none (some q) ro info peer
    t.fi.resSeq = q ∧ t.fi.resStatus = stOk ∧ t.fi.resState = 2 := ⟨rfl, rfl, rfl⟩

/-- Looked at with nothing left to write and the writer at rest, a MOUNT is over. -/
theorem advanceMount_done {s : State} (hmove : motionStop s = false) (hckpt : ∀ x ∈ s.fm.parts, x.ckptWant = false ∧ x.ckptCur = none)
    (hsealed : s.fm.sealed = []) (hrest : s.fm.wstate = 0) (cmd lib : Option Nat) (info : Nat) (w : UnloadWorld)
    (peer : Option PeerInfo) : advanceMount s cmd lib info w peer = finishMount s cmd lib false info peer := by
  have hall : (s.fm.parts.all fun x => (!x.ckptWant && x.ckptCur.isNone) || x.faultWp) = true := by
    rw [List.all_eq_true]
    intro x hx
    obtain ⟨hwant, hcur⟩ := hckpt x hx
    simp [hwant, hcur]
  simp only [advanceMount, hmove, hall, hsealed, hrest, List.isEmpty_nil, beq_self_eq_true, Bool.true_or, Bool.and_self,
    Bool.false_eq_true, if_false, if_true]

/-! ## What a MOUNT writes (R49, R182) -/

@[simp] theorem afterRoll_media (s : State) (p : Nat) : (afterRoll s p).media = s.media := by
  unfold afterRoll
  split
  · rfl
  · simp

/-- A read-only MOUNT writes nothing. -/
theorem mountWrites_readOnly (s : State) (cmd lib : Option Nat) (info : Nat) (w : MountWorld) :
    mountWrites s cmd lib true info w = finishMount s cmd lib true info w.peer := by
  simp only [mountWrites, Bool.true_or, if_true]

/-- With no partition there is nothing to write. -/
theorem mountWrites_blank {s : State} (h : s.fm.parts = []) (cmd lib : Option Nat) (ro : Bool) (info : Nat) (w : MountWorld) :
    mountWrites s cmd lib ro info w = finishMount s cmd lib ro info w.peer := by
  simp only [mountWrites, h, List.filter_nil, List.isEmpty_nil, Bool.or_true, Bool.true_or, if_true]

/-- Where a partition may be written, a host's read-write MOUNT goes on: it holds the media lock, and the mount state stays. -/
theorem mountWrites_goesOn {s : State} (hpart : ∃ x ∈ s.fm.parts, x.faultWp = false) (hlanes : retiredCount s ≤ 4)
    (cmd : Option Nat) (info : Nat) (w : MountWorld) :
    (mountWrites s cmd none false info w).media =
      { s.media with op := some (.mount cmd none info { fails := w.unloadFails } w.peer) } := by
  obtain ⟨x, hx, hfree⟩ := hpart
  have hsome : (s.fm.parts.filter fun x => !x.faultWp).isEmpty = false :=
    List.isEmpty_eq_false_iff.mpr (List.ne_nil_of_mem (List.mem_filter.mpr ⟨hx, by rw [hfree]; rfl⟩))
  have hfew : decide (retiredCount s > 4) = false := decide_eq_false (by omega)
  simp only [mountWrites, hsome, hfew, Bool.or_self, Bool.false_eq_true, if_false, Option.isSome_none]
  exact foldl_media (fun t (x : Machine.Part) => afterRoll_media t x.num) _ _

/-! ## The steps of a MOUNT -/

theorem mountS_refused {s : State} {w : MountWorld} {st : Nat} (h : mountRefused s w = some st) (cmd lib : Option Nat) (ro : Bool) :
    mountS s cmd lib ro w = mediaDone s cmd lib st 0 := by
  simp only [mountS, h]

/-- A step that fails is followed by the unload steps. -/
theorem mountS_fails {s v : State} {w : MountWorld} {st : Nat} (hmay : mountRefused s w = none)
    (hstep : mountSteps (wake s) w = (v, some st)) (cmd lib : Option Nat) (ro : Bool) :
    let t := mountS s cmd lib ro w
    t.media.mount = 0 ∧ t.nw.permit = false ∧ t.fm.parts = [] := by
  have hend : mountS s cmd lib ro w = mediaDone { (unloadSteps v w.unloadFails false).1 with nw.permit := false } cmd lib st 0 := by
    simp only [mountS, hmay, hstep]
  obtain ⟨hmount, hparts⟩ := unloadSteps_unmounts v w.unloadFails false
  rw [hend]
  exact ⟨by rw [mediaDone_media]; exact hmount, by rw [mediaDone_nw], by rw [mediaDone_fm]; exact hparts⟩

theorem mountS_mounts {s v : State} {w : MountWorld} (hmay : mountRefused s w = none) (hstep : mountSteps (wake s) w = (v, none))
    (cmd lib : Option Nat) (ro : Bool) :
    mountS s cmd lib ro w = mountWrites (mountTape v ro w).1 cmd lib ro (mountTape v ro w).2 w := by
  simp only [mountS, hmay, hstep]

/-! ## The library's requests (R480) -/

/-- A request under the sequence last taken does nothing. -/
theorem libraryS_same (s : State) (code : Nat) (w : LibWorld) : libraryS s code s.fi.libSeq w = s := if_pos rfl

/-- A request to mount that is taken, with no media operation in progress. -/
theorem libraryS_mounts {s : State} {q : Nat} (hnew : q ≠ s.fi.libSeq) (htwi : s.glb.twilight = none) (hidle : s.media.op = none)
    (w : LibWorld) :
    libraryS s 1 q w = mountS { s with fi.libSeq := q, fi.libCode := 1 } none (some q) false w.mount ∧
      libraryS s 2 q w = mountS { s with fi.libSeq := q, fi.libCode := 2 } none (some q) true w.mount := by
  constructor
  · simp [libraryS, libRequest, hnew, htwi, hidle]
  · simp [libraryS, libRequest, hnew, htwi, hidle]

/-! ## The statement -/

/-- Settles O52: past its conditions and steps a MOUNT turns on whether there is something to write, which leaves the cartridge and
the media lock as they are (`mountWrites_goesOn`). That a MOUNT waits for what it writes, and that one with more than 4 lanes retired
writes nothing, are the model's choices (log 72). -/
theorem cartridgeMounts : Obligations.CartridgeMounts := by
  unfold Obligations.CartridgeMounts
  refine ⟨?_, ⟨?_, ?_⟩, ?_, ?_, ?_⟩
  · intro s s₁ u c w hadm hop ro
    refine ⟨fun st href => ?_, fun hmay v st hstep => ?_, ?_⟩
    · exact next_runCmd_of_run hadm hop (mountS_refused href (some c.id) none ro)
    · exact ⟨_, next_runCmd_of_run hadm hop rfl, mountS_fails hmay hstep (some c.id) none ro⟩
    · intro hmay v hstep m
      have hmount : mountS s₁ (some c.id) none ro w = mountWrites m.1 (some c.id) none ro m.2 w :=
        mountS_mounts hmay hstep (some c.id) none ro
      refine ⟨fun hro => ?_, fun hblank => ?_, fun hro hpart hlanes => ?_⟩
      · refine next_runCmd_of_run hadm hop (hmount.trans ?_)
        rw [hro, mountWrites_readOnly]
      · exact next_runCmd_of_run hadm hop (hmount.trans (mountWrites_blank hblank _ _ _ _ _))
      · refine ⟨_, next_runCmd_of_run hadm hop hmount, ?_⟩
        rw [hro, mountWrites_goesOn hpart hlanes]
        exact ⟨rfl, rfl⟩
  · intro s cmd lib ro info peer
    rw [finishMount_media]
    exact ⟨rfl, rfl⟩
  · intro s cmd lib info w peer hmove hckpt hsealed hrest
    exact advanceMount_done hmove hckpt hsealed hrest cmd lib info w peer
  · intro s q w hnew htwi hidle
    obtain ⟨hrw, hro⟩ := libraryS_mounts hnew htwi hidle w
    constructor
    · intro v u hmay hstep
      exact congrArg Host.Outcome.next (hrw.trans (mountS_mounts hmay hstep none (some q) false))
    · intro v u hmay hstep
      exact congrArg Host.Outcome.next (hro.trans ((mountS_mounts hmay hstep none (some q) true).trans
        (mountWrites_readOnly _ _ _ _ _)))
  · intro s q info ro peer
    exact finishMount_result s q ro info peer
  · intro s w
    exact ⟨congrArg Host.Outcome.next (libraryS_same s 1 w), congrArg Host.Outcome.next (libraryS_same s 2 w)⟩

end Sys2Proof.Proofs
end

section
/-! O53, the unload: what the grip wait limit takes back (R487). -/

namespace Sys2Proof.Proofs

open Sys2Proof Sys2Proof.Machine Sys2Proof.Laws

/-- An UNMOUNT that the limit ends gives back CE, which it holds while it moves the tape itself. -/
theorem gripWaitLimitExpiry_unmount {s : State} {t : Nat} {cmd lib : Option Nat} {eject : Bool} {w : UnloadWorld} {ph : Nat}
    (hwait : s.nw.waitSince = some t) (hover : elapsed s t (setN s 0x6020 1) = true)
    (hop : s.media.op = some (.unmount cmd lib eject w ph)) :
    exec .gripWaitLimitExpiry s = .next (mediaDone (unlock { s with nw.waitSince := none }) cmd lib stMediaBusy 0) := by
  refine congrArg Host.Outcome.next ?_
  simp only [hwait, hover, Bool.not_true, Bool.false_eq_true, if_false, gripTimeout, hop]

/-- An UNMOUNT of the library's that moves the tape itself (phase 3, CE held) and has waited for the transport since instant 0, for
the 60 s that the grip wait limit has by default. -/
def unmountWaiting : State := { State.reset with
  now := 216000 * 60000
  nw.waitSince := some 0
  ce.media := true
  media.op := some (.unmount none (some 7) true {} 3) }

/-- Refutes O53: its clause on the grip wait limit leaves CE as it was, but the UNMOUNT that ends gives CE back. In
`unmountWaiting` CE is held before, and not after. -/
theorem not_cartridgeUnloads : ¬ Obligations.CartridgeUnloads := by
  unfold Obligations.CartridgeUnloads
  rintro ⟨-, grip, -⟩
  have hover : elapsed unmountWaiting 0 (setN unmountWaiting 0x6020 1) = true := by decide +kernel
  have hclaim := grip unmountWaiting 0 none (some 7) true {} 3 rfl hover rfl
  have hends := gripWaitLimitExpiry_unmount (s := unmountWaiting) rfl hover rfl
  have hce := congrArg State.ce (Host.Outcome.next.inj (hends.symm.trans hclaim))
  rw [mediaDone_ce, mediaDone_ce] at hce
  exact Bool.false_ne_true (congrArg Ce.media hce)

end Sys2Proof.Proofs
end

section
/-! O54, partitions that come: the label copy that PARTITION_CREATE seals first (R116, R265). -/

namespace Sys2Proof.Proofs

open Sys2Proof Sys2Proof.Machine Sys2Proof.Laws

/-- Label copy 1 begins with SEQ 0 (R265). -/
theorem labelSets_copy1_first (s : State) {l : LabelBody} (h : l.copy = 1) : ∃ d ∈ labelSets s l, d.seq = 0 := by
  have hseq : (if l.copy = 0 then 256 else 0) = 0 := by rw [h]; decide
  refine ⟨_, List.mem_map.mpr ⟨0, List.mem_range.mpr (by decide), rfl⟩, ?_⟩
  exact (Nat.add_zero _).trans hseq

/-- What a PARTITION_CREATE seals first is label copy 1, and the dataset of SEQ 0 is part of it. -/
theorem createS_seals_seq_zero (s : State) (q : SqeBits) (cmd peer : Option Nat) :
    ∃ w ∈ (createS s q cmd peer).fm.sealed, w.ds.seq = 0 := by
  unfold createS startLabels
  obtain ⟨d, hd, hseq⟩ := labelSets_copy1_first _ (l := { labelOfEntry _ _ _ with copy := 1 }) rfl
  exact ⟨{ ds := d }, List.mem_append_right _ (List.mem_map_of_mem hd), hseq⟩

/-- A running device with a blank cartridge mounted read-write. -/
def blankMounted : State := { State.reset with
  qe.fns := [(0, { state := 1, pmask := 0xFFFF })]
  qe.queues := [{ g := 0, fn := 0, cls := 2, sqDepth := 16, cqDepth := 16 }]
  nw.state := 0
  media.mount := 1
  media.cart := some { vols := [{ gen := 1, serial := [] }] } }

/-- PARTITION_CREATE of partition 1 on the first wrap pair, in the admin queue of PF0. -/
def createFirst : Sub := { q := 0, sqe := BitVec.ofNat 512 (0x10 + 256 ^ 6 + 256 ^ 29) }

/-- The device of `blankMounted` admits `createFirst`, and it passes the checks. -/
theorem createFirst_admitted : ∃ s₁ c, admitOne blankMounted createFirst = .run s₁ c ∧
    secondary s₁ = false ∧ createRefused s₁ c.sqe = none ∧ s₁.fm.sealed = [] := by
  have hcheck : entryCheck blankMounted { g := 0, fn := 0, cls := 2, sqDepth := 16, cqDepth := 16 } createFirst = .ok [] := by
    decide +kernel
  have hmay : mayAdmit blankMounted { g := 0, fn := 0, cls := 2, sqDepth := 16, cqDepth := 16 } = true := by decide +kernel
  have hadm := admitOne_run (u := createFirst) rfl hmay (unheld_of_idle fun _ _ => ⟨rfl, rfl⟩) (List.forall_mem_nil _) hcheck
  refine ⟨_, _, hadm, ?_⟩
  decide +kernel

/-- Refutes O54: the label copy that is sealed first is copy 1, which is SEQ 0 to 255 (R265), and not SEQ 256 to 511. Of what
`createFirst` seals on `blankMounted`, the first dataset has SEQ 0. -/
theorem not_partitionsComeAndGo : ¬ Obligations.PartitionsComeAndGo := by
  unfold Obligations.PartitionsComeAndGo
  intro h
  obtain ⟨s₁, c, hadm, hsec, hpass, hempty⟩ := createFirst_admitted
  obtain ⟨hprimary, -⟩ := h _ _ _ _ hadm
  obtain ⟨hcreate, -⟩ := hprimary hsec
  obtain ⟨t, g, l, hexec, -, -, hsealed, -, hseqs⟩ := hcreate (by decide +kernel) hpass
  have hstep : exec (.partitionCreate createFirst) blankMounted =
      .next (createS (forwardOp (wake s₁) c.sqe).1 c.sqe (some c.id) (forwardOp (wake s₁) c.sqe).2) := by
    refine next_runCmd_of_run hadm (by decide +kernel) ?_
    simp only [hsec, hpass, Bool.false_eq_true, if_false]
  obtain rfl := Host.Outcome.next.inj (hstep.symm.trans hexec)
  obtain ⟨w, hw, hzero⟩ := createS_seals_seq_zero (forwardOp (wake s₁) c.sqe).1 c.sqe (some c.id) (forwardOp (wake s₁) c.sqe).2
  rw [hsealed, hempty, List.nil_append] at hw
  obtain ⟨-, hlow, -⟩ := hseqs w hw
  omega

end Sys2Proof.Proofs
end

section
/-! The frame of a command, first part: what a quiet outcome is, and the commands of the write path, the writer, the read channel
and read recovery whose meaning does more than call one operation. -/

namespace Sys2Proof.Proofs

open Sys2Proof Sys2Proof.Machine Sys2Proof.Laws

/-- A choice between two states is quiet when both are. -/
theorem ite_quiet {s₀ a b : State} {c : Prop} {_ : Decidable c} (ha : Quiet s₀ a) (hb : Quiet s₀ b) :
    Quiet s₀ (if c then a else b) := by
  split <;> assumption

/-- The outcome goes on with a state in which the waiting commands, the model's time and staging memory stand as in s, and outputs
are only added. -/
def RunsQuietly (s : State) (o : Out) : Prop := ∃ t, o = .next t ∧ Quiet s t

theorem RunsQuietly.next {s t : State} (h : Quiet s t) : RunsQuietly s (.next t) := ⟨t, rfl, h⟩

/-! ## Records, datasets and checkpoints -/

theorem execRecordCut_quiet (s : State) (p : Nat) : RunsQuietly s (execRecordCut p s) :=
  .next (failUntaggable_quiet (recordCutS_quiet (flushChains_quiet (.refl s) p) p))

theorem execNonceReservation_quiet (s : State) : RunsQuietly s (execNonceReservation s) :=
  .next (ite_quiet (.upd (.refl s) rfl) (.refl s))

theorem execNonceLimitRaise_quiet (s : State) : RunsQuietly s (execNonceLimitRaise s) :=
  .next (match s.tg.reserving with
    | some _ => .upd (.refl s) rfl
    | none => .refl s)

theorem execRecordPlace_quiet (s : State) (r : Nat) : RunsQuietly s (execRecordPlace r s) :=
  .next (match recOf s r with
    | some _ => openForMarkers_quiet (recordPlaceS_quiet (flushChains_quiet (takeMirrors_quiet (.refl s) _) _) _) _
    | none => .refl s)

theorem execSealDelayExpiry_quiet (s : State) (p : Nat) : RunsQuietly s (execSealDelayExpiry p s) :=
  .next (match (partOf s p).bind Part.openDs with
    | some _ => ite_quiet (openForMarkers_quiet (stopDs_quiet (.refl s) p false) p) (.refl s)
    | none => .refl s)

theorem execDatasetSeal_quiet (s : State) (p : Nat) : RunsQuietly s (execDatasetSeal p s) :=
  have hseal : Quiet s (openForMarkers (sealIfDone s p) p) := openForMarkers_quiet (sealIfDone_quiet (.refl s) p) p
  .next (match (partOf s p).bind Part.openDs with
    | none => hseal
    | some _ => ite_quiet hseal (ite_quiet (openForMarkers_quiet (stopOpen_quiet (.refl s) p) p) (.refl s)))

theorem execCheckpointInterval_quiet (s : State) (p : Nat) : RunsQuietly s (execCheckpointInterval p s) :=
  .next (match partOf s p with
    | some _ => ite_quiet (wantCheckpoint_quiet (.refl s) p false) (.refl s)
    | none => .refl s)

theorem execCheckpointTimeExpiry_quiet (s : State) (p : Nat) : RunsQuietly s (execCheckpointTimeExpiry p s) :=
  .next (match partOf s p with
    | some _ => ite_quiet (wantCheckpoint_quiet (.refl s) p false) (.refl s)
    | none => .refl s)

/-! ## The writer -/

theorem execWriteCurrentUpdate_quiet (s : State) (tempA tempB : Option Int) :
    RunsQuietly s (execWriteCurrentUpdate tempA tempB s) :=
  .next (ite_quiet (updateCurrents_quiet (takeCurrents_quiet (.upd (.refl s) rfl) _) _ _) (.upd (.refl s) rfl))

theorem execTransientLeak_quiet (s : State) (lane : Nat) : RunsQuietly s (execTransientLeak lane s) :=
  .next (ite_quiet (.upd (.refl s) rfl) (.refl s))

theorem execPermanentLeak_quiet (s : State) (lane : Nat) : RunsQuietly s (execPermanentLeak lane s) :=
  .next (ite_quiet (.upd (.refl s) rfl) (.refl s))

theorem execWriteDriverFault_quiet (s : State) (lane : Nat) : RunsQuietly s (execWriteDriverFault lane s) :=
  .next (ite_quiet (retireLane_quiet (.upd (.refl s) rfl) lane) (.refl s))

theorem writeOn_quiet {s₀ s : State} (h : Quiet s₀ s) : Quiet s₀ (writeOn s) :=
  ite_quiet (ite_quiet (.upd h rfl) h) (askStart_quiet h)

theorem execWriterStart_quiet (s : State) : RunsQuietly s (execWriterStart s) := .next (ite_quiet (writeOn_quiet (.refl s)) (.refl s))

theorem startAgain_quiet {s₀ s : State} (h : Quiet s₀ s) : Quiet s₀ (startAgain s) := ite_quiet (startWriter_quiet h) h

theorem execSlotBoundary_quiet (s : State) (pesNm : Int) : RunsQuietly s (execSlotBoundary pesNm s) :=
  .next (startAgain_quiet (slotBoundaryS_quiet (.refl s) pesNm))

theorem execSegmentVerdict_quiet (s : State) (seq attempt slot lane : Nat) (codes : List Int) :
    RunsQuietly s (execSegmentVerdict seq attempt slot lane codes s) :=
  .next (startAgain_quiet (segmentVerdictS_quiet (.refl s) seq attempt slot lane codes))

theorem execStartAgeExpiry_quiet (s : State) : RunsQuietly s (execStartAgeExpiry s) :=
  .next (ite_quiet (writeOn_quiet (.refl s)) (.refl s))

theorem execAppendPointReached_quiet (s : State) (locked : Bool) : RunsQuietly s (execAppendPointReached locked s) :=
  .next (ite_quiet (.refl s) (ite_quiet (.upd (.refl s) rfl) (ite_quiet
    (match partOf s s.fm.wpart with
      | some _ => goTo_quiet (.upd (.refl s) rfl) _ _ _ _
      | none => .refl s)
    (interruptWriting_quiet (.refl s) stServoLost))))

theorem execStopTimeExpiry_quiet (s : State) : RunsQuietly s (execStopTimeExpiry s) :=
  .next (match s.fm.lowSince with
    | some _ => ite_quiet (enterDrain_quiet (.refl s)) (.refl s)
    | none => .refl s)

theorem execSpeedDownDelayExpiry_quiet (s : State) : RunsQuietly s (execSpeedDownDelayExpiry s) :=
  .next (match s.fm.downSince with
    | some _ => ite_quiet (.upd (setSpeed_quiet (.refl s) _) rfl) (.refl s)
    | none => .refl s)

theorem execTurnComplete_quiet (s : State) : RunsQuietly s (execTurnComplete s) := .next (ite_quiet (.upd (.refl s) rfl) (.refl s))

/-! ## The read channel and read recovery -/

theorem execCoastLimitExpiry_quiet (s : State) (lane : Nat) : RunsQuietly s (execCoastLimitExpiry lane s) :=
  .next (ite_quiet (modLane_quiet (.refl s) lane _) (.refl s))

theorem execBiasFault_quiet (s : State) (lane module : Nat) : RunsQuietly s (execBiasFault lane module s) :=
  have hfe := modFe_quiet (.refl s) module lane _
  .next (ite_quiet (.refl s) (retireFe_quiet (ite_quiet (addPb_quiet hfe lane 4) hfe) lane module))

theorem execFrontEndStuckRetire_quiet (s : State) (lane module : Nat) : RunsQuietly s (execFrontEndStuckRetire lane module s) :=
  .next (ite_quiet (retireFe_quiet (.refl s) lane module) (.refl s))

theorem execSegmentDecode_quiet (s : State) (lane : Nat) (x : SegSlot) : RunsQuietly s (execSegmentDecode lane x s) :=
  .next (segmentDecodeS_quiet (ite_quiet (boundary_quiet (.refl s)) (.refl s)) lane x none)

theorem execDecoderBudgetExhausted_quiet (s : State) (x : LateSlot) : RunsQuietly s (execDecoderBudgetExhausted x s) :=
  .next (ite_quiet (.refl s) (segmentDecodeS_quiet (.refl s) x.lane x.slot _))

theorem execRecoveryTimeLimitExpiry_quiet (s : State) (p seq : Nat) : RunsQuietly s (execRecoveryTimeLimitExpiry p seq s) :=
  .next (match readOf s p seq with
    | some _ => ite_quiet (modRead_quiet (.refl s) p seq _) (.refl s)
    | none => .refl s)

theorem execRecallAgeLimitExpiry_quiet (s : State) (p seq : Nat) : RunsQuietly s (execRecallAgeLimitExpiry p seq s) :=
  .next (.upd (.refl s) rfl)

theorem execWritePreemptionAgeExpiry_quiet (s : State) : RunsQuietly s (execWritePreemptionAgeExpiry s) :=
  .next (ite_quiet (.upd (.refl s) rfl) (.refl s))

theorem execRecallBatchTimeExpiry_quiet (s : State) : RunsQuietly s (execRecallBatchTimeExpiry s) :=
  .next (match s.rcl.batch with
    | some _ => ite_quiet (endBatch_quiet (.refl s)) (.refl s)
    | none => .refl s)

theorem execHintExpiry_quiet (s : State) (hint : Nat) : RunsQuietly s (execHintExpiry hint s) := by
  refine .next ?_
  split
  · exact ite_quiet (dropHint_quiet (.refl s) hint) (.refl s)
  · exact .refl s

end Sys2Proof.Proofs
end

section
/-! The frame of a command, second part: servo, the drives, Nightwatch, the base period, the cartridge and time. -/

namespace Sys2Proof.Proofs

open Sys2Proof Sys2Proof.Machine Sys2Proof.Laws

/-! ## Servo -/

theorem execServoCoastExpiry_quiet (s : State) : RunsQuietly s (execServoCoastExpiry s) :=
  .next (ite_quiet (.upd (.refl s) rfl) (.refl s))

theorem writerServoLost_quiet {s₀ s : State} (h : Quiet s₀ s) : Quiet s₀ (writerServoLost s) :=
  ite_quiet (repeatLocate_quiet (slowDown_quiet (.upd h rfl))) (interruptWriting_quiet h stServoLost)

theorem execServoReacquireTimeout_quiet (s : State) : RunsQuietly s (execServoReacquireTimeout s) :=
  have hlost : Quiet s { s with sv.lostAt := none } := .upd (.refl s) rfl
  .next (match s.sv.lostAt with
    | some _ => ite_quiet (.refl s) (ite_quiet (writerServoLost_quiet hlost)
        (ite_quiet (runServoLost_quiet hlost) (slowDown_quiet hlost)))
    | none => .refl s)

theorem execBandChangeDone_quiet (s : State) (band : Nat) : RunsQuietly s (execBandChangeDone band s) :=
  .next (ite_quiet (.upd (.refl s) rfl) (.refl s))

/-! ## Drive and transport faults -/

theorem execPlausibilityFault_quiet (s : State) (reel : Reel) : RunsQuietly s (execPlausibilityFault reel s) :=
  .next (ite_quiet
    (match reel with
      | .supply => safeStop_quiet (.refl s) 1 true false
      | .takeup => safeStop_quiet (.refl s) 2 false true)
    (.refl s))

theorem execTensionLoss_quiet (s : State) (residual : Bool) : RunsQuietly s (execTensionLoss residual s) :=
  .next (ite_quiet (safeStop_quiet (.refl s) _ false false) (.refl s))

theorem execTachQuadratureFault_quiet (s : State) : RunsQuietly s (execTachQuadratureFault s) :=
  .next (ite_quiet (safeStop_quiet (.refl s) 6 false false) (.refl s))

theorem execOvercurrent_quiet (s : State) (reel : Reel) : RunsQuietly s (execOvercurrent reel s) :=
  have hoff := modReel_quiet (.upd (.refl s) rfl) reel _
  .next (ite_quiet (.refl s) (ite_quiet (safeStop_quiet hoff 0x12 _ _) hoff))

theorem execObserverLost_quiet (s : State) (reel : Reel) : RunsQuietly s (execObserverLost reel s) :=
  .next (ite_quiet (.refl s) (ite_quiet (modReel_quiet (.refl s) reel _) (safeStop_quiet (modReel_quiet (.refl s) reel _) 0x10 _ _)))

theorem execLockedRotor_quiet (s : State) (reel : Reel) : RunsQuietly s (execLockedRotor reel s) := by
  refine .next (ite_quiet (.refl s) (.upd ?_ rfl))
  have hfault := faultRec_quiet (noteCause_quiet (modReel_quiet (.refl s) reel fun r => { r with locked := true, iref := 0 }) 0x20
    (reelBits reel).1 (reelBits reel).2) 0x0D false noUnit (causeWord 0x20 (reelBits reel).1 (reelBits reel).2) 0
  split
  · exact endWriter_quiet hfault stMotionFault
  · exact endReading_quiet hfault stMotionFault
  · exact endReading_quiet hfault stMotionFault
  · exact hfault

theorem execChopperFault_quiet (s : State) : RunsQuietly s (execChopperFault s) :=
  have hrecorded := setIstat_quiet (faultRec_quiet (noteCause_quiet
    (s := { s with ps.chopF := true, ps.chopEvent := true, ps.chopPeak := 10 * s.ps.vmot }) (.upd (.refl s) rfl) 0x21 false false)
    0x0E true noUnit (causeWord 0x21 false false) 0) 6
  have hended (c : Prop) [Decidable c] : Quiet s (if c then _ else _) :=
    ite_quiet hrecorded (endReading_quiet (endWriter_quiet hrecorded stMotionFault) stMotionFault)
  have hslowed (c d : Prop) [Decidable c] [Decidable d] : Quiet s (if d then _ else _) :=
    ite_quiet (.upd (hended c) rfl) (halveDecel_quiet (hended c))
  have htold (c d e : Prop) [Decidable c] [Decidable d] [Decidable e] : Quiet s (if e then _ else _) :=
    ite_quiet (chopperEvent_quiet (hslowed c d)) (hslowed c d)
  .next (ite_quiet (.refl s) (ite_quiet (htold _ _ _) (.upd (htold _ _ _) rfl)))

theorem execDecelerationHalving_quiet (s : State) : RunsQuietly s (execDecelerationHalving s) :=
  .next (ite_quiet (halveDecel_quiet (.refl s)) (.refl s))

theorem execShuntOffsetMeasured_quiet (s : State) (reel : Reel) (u v w : Int) :
    RunsQuietly s (execShuntOffsetMeasured reel u v w s) :=
  have hshunt := modReel_quiet (.refl s) reel _
  .next (ite_quiet (ite_quiet (faultRec_quiet hshunt 0x0F true noUnit 0 0) hshunt) (.refl s))

theorem execReelTurnsUnderGrant_quiet (s : State) : RunsQuietly s (execReelTurnsUnderGrant s) :=
  .next (ite_quiet (safeStop_quiet (.refl s) 0x22 false false) (.refl s))

theorem execActuatorFault_quiet (s : State) : RunsQuietly s (execActuatorFault s) :=
  have hgate := closeGate_quiet (ite_quiet (.refl s) (faultRec_quiet (.upd (.refl s) rfl) 0x10 true noUnit 0 0))
  .next (ite_quiet hgate (.upd hgate rfl))

theorem execThreaderStall_quiet (s : State) : RunsQuietly s (execThreaderStall s) := .next (.upd (.refl s) rfl)

theorem execLoaderTimeout_quiet (s : State) : RunsQuietly s (execLoaderTimeout s) :=
  .next (match s.ps.ldrAt with
    | some _ => ite_quiet (emit_quiet (.upd (.refl s) rfl) _) (.refl s)
    | none => .refl s)

/-! ## Nightwatch -/

theorem execReelsAtRest_quiet (s : State) : RunsQuietly s (execReelsAtRest s) :=
  .next (ite_quiet (reelsAtRestS_quiet (.refl s)) (.refl s))

theorem execHoldSlip_quiet (s : State) : RunsQuietly s (execHoldSlip s) := .next (ite_quiet (.upd (.refl s) rfl) (.refl s))

theorem execNightwatchClear_quiet (s : State) : RunsQuietly s (execNightwatchClear s) :=
  .next (ite_quiet (askClear_quiet (.refl s) _) (.refl s))

theorem execAutoClear_quiet (s : State) : RunsQuietly s (execAutoClear s) := by
  have haligned (c : Prop) [Decidable c] : Quiet s (if c then s else realignReels s) :=
    ite_quiet (.refl s) (realignReels_quiet (.refl s))
  refine .next (ite_quiet (.upd (haligned _) rfl) ?_)
  split
  · exact .upd (haligned _) rfl
  · exact ite_quiet (.upd (nwClear_quiet (haligned _)) rfl) (haligned _)

/-- A sample of GRIP_REQ changes Nightwatch alone. -/
theorem sampleGrip_quiet {s₀ s : State} (h : Quiet s₀ s) : Quiet s₀ (sampleGrip s) := ite_quiet h (ite_quiet (.upd h rfl) h)

theorem execGripReqRise_quiet (s : State) : RunsQuietly s (execGripReqRise s) := .next (sampleGrip_quiet (.upd (.refl s) rfl))

theorem execGripReqFall_quiet (s : State) : RunsQuietly s (execGripReqFall s) := .next (.upd (.refl s) rfl)

theorem execMotionPermitRequest_quiet (s : State) (gripSampled : Bool) : RunsQuietly s (execMotionPermitRequest gripSampled s) :=
  .next (ite_quiet (.refl s) (ite_quiet (.upd (.refl s) rfl) (ite_quiet (.upd (.refl s) rfl) (.upd (.refl s) rfl))))

/-! ## The base period and the cartridge -/

theorem turnHead_quiet {s₀ s : State} (h : Quiet s₀ s) : Quiet s₀ (turnHead s) := by
  unfold turnHead
  split
  · exact ite_quiet (aimVerifying_quiet (.upd (revCalibrate_quiet h _) rfl) _) h
  · exact h

theorem resumeSpan_quiet {s₀ s : State} (h : Quiet s₀ s) : Quiet s₀ (resumeSpan s) := by
  unfold resumeSpan
  split
  · exact ite_quiet (startSpan_quiet h _ _) h
  · exact h

theorem lookAround_quiet {s₀ s : State} (h : Quiet s₀ s) : Quiet s₀ (lookAround s) :=
  have hturned := turnHead_quiet (repeatLocate_quiet h)
  retryHeld_quiet (recheckHeads_quiet (resumeSpan_quiet (advanceMedia_quiet (ite_quiet (endClosing_quiet hturned) hturned)))) _

theorem execBasePeriod_quiet (s : State) (x : CeSample) : RunsQuietly s (execBasePeriod x s) :=
  .next (lookAround_quiet (basePeriodS_quiet (.refl s) x))

theorem execMountRecordUpdate_quiet (s : State) (p : Nat) : RunsQuietly s (execMountRecordUpdate p s) :=
  .next (ite_quiet (.refl s) (storeRecord_quiet (.refl s) p))

theorem execGripWaitLimitExpiry_quiet (s : State) : RunsQuietly s (execGripWaitLimitExpiry s) :=
  .next (match s.nw.waitSince with
    | none => .refl s
    | some _ => ite_quiet (.refl s) (gripTimeout_quiet (.upd (.refl s) rfl)))

theorem execSnsChange_quiet (s : State) (sns : BitVec 4) : RunsQuietly s (execSnsChange sns s) := by
  have hsensed (c : Prop) [Decidable c] (n m : Nw) : Quiet s (if c then { s with nw := n } else { s with nw := m }) :=
    ite_quiet (.upd (.refl s) rfl) (.upd (.refl s) rfl)
  refine .next (ite_quiet ?_ (ite_quiet (.upd (hsensed _ _ _) rfl) (hsensed _ _ _)))
  split
  · exact hsensed _ _ _
  · exact .upd (hsensed _ _ _) rfl

/-! ## Time -/

theorem execSetMeridian_quiet (s : State) (path : Path) (ns : BitVec 64) : RunsQuietly s (execSetMeridian path ns s) :=
  .next (ite_quiet (.refl s) (setMeridianOp_quiet (.refl s) ns))

theorem execPpsHoldover_quiet (s : State) : RunsQuietly s (execPpsHoldover s) :=
  .next (match s.mt.lastPps with
    | some _ => ite_quiet (.upd (.refl s) rfl) (.refl s)
    | none => .refl s)

theorem execPpsOut_quiet (s : State) : RunsQuietly s (execPpsOut s) :=
  .next (ite_quiet (.refl s) (emit_quiet (.upd (.refl s) rfl) _))

theorem execMeridianStore_quiet (s : State) : RunsQuietly s (execMeridianStore s) :=
  .next (ite_quiet (.upd (.refl s) rfl) (.refl s))

theorem execSyncReceive_quiet (s : State) : RunsQuietly s (execSyncReceive s) := .next (ite_quiet (.upd (.refl s) rfl) (.refl s))

theorem execSyncProduce_quiet (s : State) : RunsQuietly s (execSyncProduce s) :=
  .next (ite_quiet (emit_quiet (.upd (.refl s) rfl) _) (.refl s))

theorem execTimeReceive_quiet (s : State) (ms days : Nat) : RunsQuietly s (execTimeReceive ms days s) :=
  .next (ite_quiet (.refl s) (takeTime_quiet (.refl s) _ _))

theorem execTimeProduce_quiet (s : State) : RunsQuietly s (execTimeProduce s) :=
  .next (ite_quiet (emit_quiet (.upd (.refl s) rfl) _) (.refl s))

end Sys2Proof.Proofs
end

section
/-! The frame of a command, third part: Lodestar, the pair link, firmware, access and CAN. -/

namespace Sys2Proof.Proofs

open Sys2Proof Sys2Proof.Machine Sys2Proof.Laws

/-! ## Lodestar and flash -/

theorem execFlashWriteFailed_quiet (s : State) (target : Nat) : RunsQuietly s (execFlashWriteFailed target s) :=
  .next (ite_quiet (.refl s) (enterTwilight_quiet (faultRec_quiet (.refl s) 0x15 true noUnit 0 0) 5))

theorem execRestartTimeout_quiet (s : State) : RunsQuietly s (execRestartTimeout s) :=
  .next (match s.glb.restarting with
    | some _ => ite_quiet (lodestarFailed_quiet (.refl s) 0) (.refl s)
    | none => .refl s)

/-! ## The pair link -/

theorem execLinkTraining_quiet (s : State) (lane0 lane1 : Bool) : RunsQuietly s (execLinkTraining lane0 lane1 s) :=
  .next (ite_quiet (.refl s) (sendIdle_quiet (pumpLink_quiet (.upd (.refl s) rfl))))

theorem execFlitError_quiet (s : State) (flitSeq : Nat) : RunsQuietly s (execFlitError flitSeq s) :=
  .next (ite_quiet (emit_quiet (.refl s) _) (.refl s))

theorem execNak_quiet (s : State) (replayFrom : Nat) : RunsQuietly s (execNak replayFrom s) :=
  .next (ite_quiet (pumpLink_quiet (.foldl (fun _ ht f => emit_quiet ht f.2) (.upd (acknowledge_quiet (.refl s) _) rfl) _)) (.refl s))

theorem execTakeover_quiet (s : State) : RunsQuietly s (execTakeover s) := .next (ite_quiet (takeOver_quiet (.refl s)) (.refl s))

theorem execPeerSuspect_quiet (s : State) : RunsQuietly s (execPeerSuspect s) :=
  .next (match s.pl.hbAt with
    | some _ => ite_quiet (.upd (.refl s) rfl) (.refl s)
    | none => .refl s)

theorem execPeerRestartTimeout_quiet (s : State) : RunsQuietly s (execPeerRestartTimeout s) :=
  .next (match s.pl.lsDownAt with
    | some _ => ite_quiet (.upd (.refl s) rfl) (.refl s)
    | none => .refl s)

theorem execPeerLost_quiet (s : State) : RunsQuietly s (execPeerLost s) :=
  .next (match s.pl.suspectAt with
    | some _ => ite_quiet (dropLink_quiet (losePeer_quiet (.refl s))) (.refl s)
    | none => .refl s)

theorem execPairPresentFall_quiet (s : State) : RunsQuietly s (execPairPresentFall s) :=
  .next (dropLink_quiet (losePeer_quiet (.upd (.refl s) rfl)))

theorem roleStaleS_quiet {s₀ s : State} (h : Quiet s₀ s) (role epoch rejected : Nat) : Quiet s₀ (roleStaleS s role epoch rejected) :=
  have hended := endRejected_quiet h rejected
  ite_quiet hended (adoptRole_quiet hended _ epoch)

theorem execRoleStale_quiet (s : State) (h : MsgHead) (role epoch rejected : Nat) :
    RunsQuietly s (execRoleStale h role epoch rejected s) :=
  .next (acceptMsg_quiet (ite_quiet (.upd (.refl s) rfl) (.refl s)) h fun _ ht => roleStaleS_quiet ht role epoch rejected)

theorem execHeartbeatSend_quiet (s : State) : RunsQuietly s (execHeartbeatSend s) :=
  .next (ite_quiet (plSend_quiet (.upd (.refl s) rfl) _) (.refl s))

/-- A message of the peer runs quietly when what it asks for does. -/
theorem acceptMsg_runsQuietly (s : State) (h : MsgHead) {k : State → State} (hk : ∀ t, Quiet s t → Quiet s (k t)) :
    RunsQuietly s (.next (acceptMsg s h k)) :=
  .next (acceptMsg_quiet (.refl s) h hk)

theorem execPieceFail_quiet (s : State) (h : MsgHead) (p : Nat) (stream : StreamId) (version piece : Nat) :
    RunsQuietly s (execPieceFail h p stream version piece s) :=
  acceptMsg_runsQuietly s h fun _ ht => ite_quiet
    (openForMarkers_quiet (commitReady_quiet (discardMirror_quiet (mirrorPut_quiet ht p stream version piece id) p stream version piece)
      p) p)
    ht

theorem execPieceVerified_quiet (s : State) (h : MsgHead) (p : Nat) (stream : StreamId) (version piece : Nat) :
    RunsQuietly s (execPieceVerified h p stream version piece s) :=
  acceptMsg_runsQuietly s h fun _ ht =>
    ite_quiet ht (ite_quiet (.upd ht rfl) (peerVerified_quiet ht p stream version piece))

theorem execCredit_quiet (s : State) (h : MsgHead) (buffers : Nat) : RunsQuietly s (execCredit h buffers s) :=
  acceptMsg_runsQuietly s h fun _ ht => ite_quiet (goOnCatch_quiet (.upd ht rfl)) ht

theorem execOpDone_quiet (s : State) (h : MsgHead) (opSeq status : Nat) : RunsQuietly s (execOpDone h opSeq status s) :=
  acceptMsg_runsQuietly s h fun _ ht => advanceMedia_quiet (.upd ht rfl)

theorem execImageTransfer_quiet (s : State) (h : ImageHead) (chunk : List Byte) (last : Bool) :
    RunsQuietly s (execImageTransfer h chunk last s) :=
  have hidle := sendIdle_quiet (received_quiet (.refl s) h.flit h.ack)
  .next (ite_quiet (.refl s) (ite_quiet hidle (ite_quiet (.upd hidle rfl) (.upd hidle rfl))))

theorem execTimeExchSend_quiet (s : State) : RunsQuietly s (execTimeExchSend s) :=
  .next (ite_quiet (plSend_quiet (.upd (.refl s) rfl) _) (.refl s))

/-! ## Firmware images and their activation -/

theorem execImageDownload_quiet (s : State) (path : Path) (bytes : List Byte) : RunsQuietly s (execImageDownload path bytes s) :=
  .next (ite_quiet (imageDownloadOp_quiet (seeVbus_quiet (.refl s) path) path bytes) (.refl s))

theorem execImageVerified_quiet (s : State) (source : Nat) : RunsQuietly s (execImageVerified source s) := by
  refine .next (ite_quiet (.refl s) (ite_quiet (emit_quiet ?_ _) (ite_quiet ?_ (.refl s))))
  · dsimp only
    split
    · exact claimSlot_quiet (.upd (.refl s) rfl) 1 _
    · exact .upd (.refl s) rfl
  · exact ite_quiet (claimSlot_quiet (.upd (.refl s) rfl) 2 _) (.upd (.refl s) rfl)

theorem execImageFlashWritten_quiet (s : State) : RunsQuietly s (execImageFlashWritten s) :=
  .next (ite_quiet (.upd (modBoot_quiet (.refl s) _ _) rfl) (.refl s))

theorem execPropagateToPeer_quiet (s : State) (answer : PropAnswer) : RunsQuietly s (execPropagateToPeer answer s) :=
  .next (ite_quiet (propagateOp_quiet (.refl s) answer) (.refl s))

theorem execCancelStagedImage_quiet (s : State) : RunsQuietly s (execCancelStagedImage s) :=
  .next (ite_quiet (cancelOp_quiet (.refl s)) (.refl s))

theorem execActivationTime_quiet (s : State) (path : Path) (ns : BitVec 64) : RunsQuietly s (execActivationTime path ns s) :=
  .next (ite_quiet (activationTimeOp_quiet (seeVbus_quiet (.refl s) path) ns.toNat) (.refl s))

theorem execActivationArmedInstant_quiet (s : State) : RunsQuietly s (execActivationArmedInstant s) :=
  .next (ite_quiet (.upd (.refl s) rfl) (.refl s))

theorem execQuiescentPoint_quiet (s : State) : RunsQuietly s (execQuiescentPoint s) :=
  .next (ite_quiet (beginRestart_quiet (putTime_quiet (.upd (.refl s) rfl) noTime)) (.refl s))

theorem execGraceWindowExpiry_quiet (s : State) : RunsQuietly s (execGraceWindowExpiry s) :=
  .next (match s.fw.holdAt with
    | some _ => ite_quiet
        (ite_quiet (queueEvent_quiet (putTime_quiet (.upd (.refl s) rfl) noTime) evSkipped 0 0 _)
          (queueEvent_quiet (.upd (.refl s) rfl) evSkipped 0 0 _))
        (.refl s)
    | none => .refl s)

/-! ## Access -/

theorem execChallenge_quiet (s : State) : RunsQuietly s (execChallenge s) :=
  .next (ite_quiet (emit_quiet (challengeOp_quiet (.refl s)) _) (.refl s))

theorem execResponse_quiet (s : State) (path : Path) (seconds : Nat) (sig : List Byte) :
    RunsQuietly s (execResponse path seconds sig s) :=
  .next (ite_quiet (responseOp_quiet (seeVbus_quiet (.refl s) path) path seconds sig) (.refl s))

theorem execServicePassword_quiet (s : State) (path : Path) (chars : List Byte) : RunsQuietly s (execServicePassword path chars s) :=
  .next (ite_quiet (passwordOp_quiet (seeVbus_quiet (.refl s) path) path chars) (.refl s))

theorem execSetServicePassword_quiet (s : State) (path : Path) (chars : List Byte) :
    RunsQuietly s (execSetServicePassword path chars s) :=
  .next (ite_quiet (setPasswordOp_quiet (seeVbus_quiet (.refl s) path) path chars) (.refl s))

theorem execLock_quiet (s : State) (path : Path) : RunsQuietly s (execLock path s) :=
  .next (ite_quiet (endSession_quiet (seeVbus_quiet (.refl s) path)) (.refl s))

theorem execLockoutExpiry_quiet (s : State) : RunsQuietly s (execLockoutExpiry s) :=
  .next (match s.flash.lockUntil with
    | some _ => ite_quiet (.upd (.refl s) rfl) (.refl s)
    | none => .refl s)

theorem execSessionExpiry_quiet (s : State) : RunsQuietly s (execSessionExpiry s) :=
  .next (ite_quiet (endSession_quiet (.refl s)) (.refl s))

theorem execVbusFall_quiet (s : State) : RunsQuietly s (execVbusFall s) := .next (.upd (endSession_quiet (.refl s)) rfl)

theorem execKekImport_quiet (s : State) (path : Path) (n : Nat) (blob : List Byte) : RunsQuietly s (execKekImport path n blob s) :=
  .next (ite_quiet (kekImportOp_quiet (seeVbus_quiet (.refl s) path) path n blob) (.refl s))

theorem execKekRemove_quiet (s : State) (path : Path) (n : Nat) : RunsQuietly s (execKekRemove path n s) :=
  .next (ite_quiet (kekRemoveOp_quiet (seeVbus_quiet (.refl s) path) n) (.refl s))

theorem execClearRetiredLanes_quiet (s : State) (path : Path) (mask : BitVec 64) : RunsQuietly s (execClearRetiredLanes path mask s) :=
  .next (ite_quiet (clearLanesOp_quiet (seeVbus_quiet (.refl s) path) mask) (.refl s))

theorem execClearRetiredFrontEnds_quiet (s : State) (path : Path) (module : Nat) (mask : BitVec 64) :
    RunsQuietly s (execClearRetiredFrontEnds path module mask s) :=
  .next (ite_quiet (clearFrontEndsOp_quiet (seeVbus_quiet (.refl s) path) module mask) (.refl s))

theorem execClearRetiredServoChannels_quiet (s : State) (path : Path) (mask : BitVec 8) :
    RunsQuietly s (execClearRetiredServoChannels path mask s) :=
  .next (ite_quiet (clearServoOp_quiet (seeVbus_quiet (.refl s) path) mask) (.refl s))

theorem execRestoreDefaultParameters_quiet (s : State) (sub : Nat) (v : Word) :
    RunsQuietly s (execRestoreDefaultParameters sub v s) :=
  .next (ite_quiet (restoreOp_quiet (.refl s) sub v.toNat) (.refl s))

/-! ## CAN -/

theorem execNmtResetNode_quiet (s : State) (pins : BitVec 3) : RunsQuietly s (execNmtResetNode pins s) :=
  .next (ite_quiet (fiReset_quiet (.refl s) pins) (.refl s))

theorem execDuplicateNodeId_quiet (s : State) : RunsQuietly s (execDuplicateNodeId s) :=
  .next (match s.fi.bootAt with
    | some _ => ite_quiet (setSubst_quiet (.upd (.refl s) rfl) 3) (.refl s)
    | none => .refl s)

theorem execBusOffRecovery_quiet (s : State) : RunsQuietly s (execBusOffRecovery s) :=
  .next (ite_quiet (.refl s) (emcySendS_quiet (.upd (.refl s) rfl) 0 0))

theorem execUsdoSessionTimeout_quiet (s : State) (client : Nat) : RunsQuietly s (execUsdoSessionTimeout client s) := by
  refine .next ?_
  split
  · exact ite_quiet (emit_quiet (closeSession_quiet (.refl s) client) _) (.refl s)
  · exact .refl s

end Sys2Proof.Proofs
end

section
/-! The frame of a command, fourth part: queues, host commands, functions, the buffer pool and start-up. -/

namespace Sys2Proof.Proofs

open Sys2Proof Sys2Proof.Machine Sys2Proof.Laws

/-! ## Queues and host commands -/

theorem execFunctionDrainEnd_quiet (s : State) (fn : Nat) : RunsQuietly s (execFunctionDrainEnd fn s) :=
  .next (ite_quiet (.upd (modFn_quiet (.refl s) fn _) rfl) (.refl s))

theorem execCqTimeLimitExpiry_quiet (s : State) (q : Nat) : RunsQuietly s (execCqTimeLimitExpiry q s) :=
  .next (match queueOf s q with
    | some _ => ite_quiet (sendVector_quiet (setQueue_quiet (.refl s) _) _ _) (.refl s)
    | none => .refl s)

theorem execDeleteQueueComplete_quiet (s : State) (q : Nat) : RunsQuietly s (execDeleteQueueComplete q s) := by
  refine .next ?_
  split
  · split
    · exact ite_quiet (finishId_quiet (.upd (.refl s) rfl) _ _) (.refl s)
    · exact .refl s
  · exact .refl s

theorem execPowerStateEntry_quiet (s : State) : RunsQuietly s (execPowerStateEntry s) :=
  .next (match s.glb.setPower with
    | some _ => ite_quiet (finishId_quiet (setPowerState_quiet (.upd (.refl s) rfl) _) _ _) (.refl s)
    | none => .refl s)

theorem execPowerEntryLimitExpiry_quiet (s : State) : RunsQuietly s (execPowerEntryLimitExpiry s) := by
  refine .next ?_
  split
  · split
    · exact ite_quiet (finishSt_quiet (.upd (.refl s) rfl) _ _) (.refl s)
    · exact .refl s
  · exact .refl s

theorem execRangeLockWaitEnd_quiet (s : State) (cmd : Nat) : RunsQuietly s (execRangeLockWaitEnd cmd s) :=
  .next (match cmdOf s cmd with
    | some _ => ite_quiet (startIo_quiet (.refl s) cmd) (.refl s)
    | none => .refl s)

/-- A command of the host runs quietly when what follows its admission does. -/
theorem runCmd_runsQuietly (s : State) (op : Nat) (u : Sub) {k : State → Cmd → State}
    (hk : ∀ t, Quiet s t → ∀ c, Quiet s (k t c)) : RunsQuietly s (.next (runCmd s op u k)) :=
  .next (runCmd_quiet (.refl s) op u k hk)

theorem execPartitionCreate_quiet (s : State) (u : Sub) : RunsQuietly s (execPartitionCreate u s) := by
  refine runCmd_runsQuietly s 0x10 u fun t ht c => ite_quiet (finishSt_quiet ht c stRoleStale) ?_
  split
  · exact finish_quiet ht c _
  · exact createS_quiet (forwardOp_quiet (wake_quiet ht) c.sqe) c.sqe _ _

theorem execPartitionDelete_quiet (s : State) (u : Sub) : RunsQuietly s (execPartitionDelete u s) := by
  refine runCmd_runsQuietly s 0x11 u fun t ht c => ite_quiet (finishSt_quiet ht c stRoleStale) ?_
  split
  · exact finish_quiet ht c _
  · exact deleteStart_quiet (forwardOp_quiet (wake_quiet ht) c.sqe) _ _ _

theorem execPartitionList_quiet (s : State) (u : Sub) : RunsQuietly s (execPartitionList u s) :=
  runCmd_runsQuietly s 0x12 u fun _ ht c => finish_quiet (toHost_quiet ht c _) c _

/-- The I/O commands start alike. -/
theorem ioStart_runsQuietly (s : State) (op : Nat) (u : Sub) : RunsQuietly s (.next (runCmd s op u ioStart)) :=
  runCmd_runsQuietly s op u fun _ ht c => ioStart_quiet ht c

theorem execAccessError_quiet (s : State) (fn : Nat) (offset : BitVec 25) (isRead : Bool) :
    RunsQuietly s (execAccessError fn offset isRead s) :=
  have herror := accessErrorS_quiet (.refl s) fn offset
  .next (ite_quiet (readOut_quiet herror fn offset.toNat 0) herror)

/-! ## Functions -/

/-- A configuration request runs quietly when what it asks for does. -/
theorem configRequest_runsQuietly (s : State) {f : State → State} (hf : ∀ t, Quiet s t → Quiet s (f t)) :
    RunsQuietly s (.next (configRequest s f)) :=
  .next (configRequest_quiet (.refl s) f hf)

theorem execVfEnableSet_quiet (s : State) (numVfs : Nat) : RunsQuietly s (execVfEnableSet numVfs s) :=
  configRequest_runsQuietly s fun _ ht => ite_quiet ht (.upd ht rfl)

theorem execNumvfsReduce_quiet (s : State) (numVfs : Nat) : RunsQuietly s (execNumvfsReduce numVfs s) :=
  configRequest_runsQuietly s fun _ ht => ite_quiet ht (.upd (.foldl (fun _ hu n => disableFn_quiet hu n) ht _) rfl)

theorem execFlrVf_quiet (s : State) (fn : Nat) : RunsQuietly s (execFlrVf fn s) :=
  configRequest_runsQuietly s fun _ ht => ite_quiet ht (modFn_quiet (disableFn_quiet ht fn) fn resetFnRegs)

theorem execFlrPf0_quiet (s : State) : RunsQuietly s (execFlrPf0 s) :=
  configRequest_runsQuietly s fun _ ht => .upd (resetPf0_quiet ht) rfl

theorem execPerstAssert_quiet (s : State) : RunsQuietly s (execPerstAssert s) := .next (.upd (resetPf0_quiet (.refl s)) rfl)

theorem execPerstRelease_quiet (s : State) : RunsQuietly s (execPerstRelease s) :=
  have hreleased : Quiet s { s with glb.perstReleased := true, glb.subDue := true } := .upd (.refl s) rfl
  .next (ite_quiet (.refl s) (ite_quiet (readSubsystem_quiet hreleased) hreleased))

theorem execD3hotEntry_quiet (s : State) (fn : Nat) : RunsQuietly s (execD3hotEntry fn s) :=
  configRequest_runsQuietly s fun _ ht => ite_quiet (modFn_quiet ht fn _) ht

theorem execD3hotExit_quiet (s : State) (fn : Nat) : RunsQuietly s (execD3hotExit fn s) :=
  configRequest_runsQuietly s fun _ ht => .foldl (fun _ hu e => emit_quiet hu e) (.upd (modFn_quiet ht fn _) rfl) _

/-! ## The buffer pool -/

theorem execBufferRelease_quiet (s : State) (h : BitVec 32) (cls : Nat) : RunsQuietly s (execBufferRelease h cls s) :=
  have hgranted : Quiet s { release s h cls with bpm.granted := (release s h cls).bpm.granted.erase (h, cls) } :=
    .upd (release_quiet (.refl s) h cls) rfl
  .next (retryHeld_quiet hgranted _)

/-! ## Start-up and temperatures -/

theorem execResetInNRelease_quiet (s : State) (pins : BitVec 3) : RunsQuietly s (execResetInNRelease pins s) :=
  .next (ite_quiet (.refl s) (tryStart_quiet (.upd (.refl s) rfl)))

theorem execVin12Valid_quiet (s : State) : RunsQuietly s (execVin12Valid s) :=
  .next (ite_quiet (.refl s) (tryStart_quiet (.upd (.refl s) rfl)))

theorem execBackgroundWriteDone_quiet (s : State) : RunsQuietly s (execBackgroundWriteDone s) :=
  .next (ite_quiet (.upd (.refl s) rfl) (.refl s))

theorem execLogicThermalCap_quiet (s : State) (deciC : Int) : RunsQuietly s (execLogicThermalCap deciC s) :=
  have hnoted := noteTemp_quiet (.refl s) 0 deciC
  have hcapped := capReading_quiet (s := { noteTemp s 0 deciC with glb.thermalCap := true }) (.upd hnoted rfl)
  .next (ite_quiet (ite_quiet (ite_quiet (setSpeed_quiet hcapped 12) (.upd hcapped rfl)) hcapped)
    (ite_quiet (.upd hnoted rfl) hnoted))

theorem execPowerStageThermalLimit_quiet (s : State) (deciC : Int) : RunsQuietly s (execPowerStageThermalLimit deciC s) :=
  have hnoted := noteTemp_quiet (.refl s) 1 deciC
  .next (ite_quiet (.upd hnoted rfl) (ite_quiet (.upd hnoted rfl) hnoted))

/-- Both temperatures noted, of the logic and of the power stage. -/
theorem noteTemps_quiet (s : State) (logic stage : Int) : Quiet s (noteTemp (noteTemp s 0 logic) 1 stage) :=
  noteTemp_quiet (noteTemp_quiet (.refl s) 0 logic) 1 stage

theorem execThermalTripEnd_quiet (s : State) (logic stage : Int) : RunsQuietly s (execThermalTripEnd logic stage s) :=
  have hnoted := noteTemps_quiet s logic stage
  .next (ite_quiet (tryStart_quiet (.upd hnoted rfl)) hnoted)

end Sys2Proof.Proofs
end

section
/-! O4, the frame of every command, and what follows for staging memory: O3. -/

namespace Sys2Proof.Proofs

open Sys2Proof Sys2Proof.Machine Sys2Proof.Laws

/-- Every command but the arrival of host data and the resets of the module runs quietly. -/
theorem exec_runsQuietly {c : Instr} (hdata : ∀ id bs, c ≠ .writeDataArrival id bs) (htrip : ∀ a b, c ≠ .thermalTrip a b)
    (hreset : c ∉ [Instr.resetInNAssert, .vin12Loss, .d3coldEntry, .testEnAssert]) (s : State) : RunsQuietly s (exec c s) := by
  cases c with
  | identify c => exact runCmd_runsQuietly s 0x01 c fun _ ht k => identifyS_quiet ht k
  | createQueue c => exact runCmd_runsQuietly s 0x02 c fun _ ht k => createQueueS_quiet ht k
  | deleteQueue c => exact runCmd_runsQuietly s 0x03 c fun _ ht k => deleteQueueS_quiet ht k
  | deleteQueueComplete q => exact execDeleteQueueComplete_quiet s q
  | getLog c => exact runCmd_runsQuietly s 0x04 c fun _ ht k => getLogS_quiet ht k
  | setPower c => exact runCmd_runsQuietly s 0x05 c fun _ ht k => setPowerS_quiet ht k
  | powerStateEntry => exact execPowerStateEntry_quiet s
  | powerEntryLimitExpiry => exact execPowerEntryLimitExpiry_quiet s
  | assignQueues c => exact runCmd_runsQuietly s 0x06 c fun _ ht k => assignQueuesS_quiet ht k
  | setWindows c => exact runCmd_runsQuietly s 0x07 c fun _ ht k => setWindowsS_quiet ht k
  | partitionCreate c => exact execPartitionCreate_quiet s c
  | partitionDelete c => exact execPartitionDelete_quiet s c
  | partitionList c => exact execPartitionList_quiet s c
  | mount c w => exact runCmd_runsQuietly s 0x18 c fun _ ht k => mountS_quiet ht (some k.id) none ((sqeBytes k.sqe 28 1) % 2 == 1) w
  | unmount c w => exact runCmd_runsQuietly s 0x19 c fun _ ht k => unmountS_quiet ht (some k.id) none ((sqeBytes k.sqe 28 1) % 2 == 1) w
  | checkpoint c => exact runCmd_runsQuietly s 0x1A c fun _ ht k => checkpointS_quiet ht k
  | keyLoad c => exact runCmd_runsQuietly s 0x20 c fun _ ht k => keyLoadS_quiet ht k c.data
  | keyClear c => exact runCmd_runsQuietly s 0x21 c fun _ ht k => keyClearS_quiet ht k
  | keyClearComplete slot => exact .next (keyClearDone_quiet (.refl s) slot)
  | odRead c => exact runCmd_runsQuietly s 0x30 c fun _ ht k => odReadS_quiet ht k
  | odWrite c => exact runCmd_runsQuietly s 0x31 c fun _ ht k => odWriteS_quiet ht k c.data c.world
  | eventWait c => exact runCmd_runsQuietly s 0x3F c fun _ ht k => eventWaitS_quiet ht k
  | write c => exact ioStart_runsQuietly s 0x40 c
  | read c => exact ioStart_runsQuietly s 0x41 c
  | verify c => exact ioStart_runsQuietly s 0x42 c
  | barrier c => exact runCmd_runsQuietly s 0x43 c fun _ ht k => barrierStart_quiet ht k
  | barrierComplete q => exact .next (barrierDone_quiet (.refl s) q)
  | streamStat c => exact ioStart_runsQuietly s 0x44 c
  | recallHint c => exact ioStart_runsQuietly s 0x45 c
  | rangeLockWaitEnd cmd => exact execRangeLockWaitEnd_quiet s cmd
  | sqeFetch q subs => exact .next (sqeFetchS_quiet (.refl s) q subs)
  | cqTimeLimitExpiry q => exact execCqTimeLimitExpiry_quiet s q
  | sqTail fn q v => exact .next (sqTailS_quiet (.refl s) fn q v.toNat)
  | cqHead fn q v => exact .next (cqHeadS_quiet (.refl s) fn q v.toNat)
  | resume fn q => exact .next (resumeS_quiet (.refl s) fn q)
  | queueReset fn q => exact .next (queueResetS_quiet (.refl s) fn q)
  | resetMarkerPost q => exact .next (resetMarkerPostS_quiet (.refl s) q)
  | adminQueueEnable fn v => exact .next (aqCfgS_quiet (.refl s) fn (v ||| 1).toNat)
  | adminQueueDisable fn v => exact .next (aqCfgS_quiet (.refl s) fn (v &&& 0xFFFFFFFE).toNat)
  | functionDrainEnd fn => exact execFunctionDrainEnd_quiet s fn
  | mailboxGo v w => exact .next (mbReqS_quiet (.refl s) (v ||| 0x02000000).toNat w)
  | glbIcfgWrite v => exact .next (icfgS_quiet (.refl s) v.toNat)
  | chopperFaultClear => exact .next (sessionWrite_quiet (.refl s) 0xA 0x00 0x100)
  | tgCtrloRead => exact .next (readS_quiet (.refl s) 0 0x40010)
  | mtTimeloRead => exact .next (readS_quiet (.refl s) 0 0xD0000)
  | mirTimeloRead fn => exact .next (readS_quiet (.refl s) fn (if fn = 0 then 0x800008 else 0x1008))
  | accessError fn offset isRead => exact execAccessError_quiet s fn offset isRead
  | registerWrite fn offset v => exact .next (writeS_quiet (.refl s) fn offset v.toNat)
  | vfEnableSet numVfs => exact execVfEnableSet_quiet s numVfs
  | vfEnableClear => exact configRequest_runsQuietly s fun _ ht => clearVfs_quiet ht
  | numvfsReduce numVfs => exact execNumvfsReduce_quiet s numVfs
  | flrVf fn => exact execFlrVf_quiet s fn
  | flrPf0 => exact execFlrPf0_quiet s
  | perstAssert => exact execPerstAssert_quiet s
  | perstRelease => exact execPerstRelease_quiet s
  | d3hotEntry fn => exact execD3hotEntry_quiet s fn
  | d3hotExit fn => exact execD3hotExit_quiet s fn
  | d3coldEntry => exact absurd (by simp) hreset
  | bufferAllocate pool cls cmd => exact .next (bufferAllocateS_quiet (.refl s) pool cls cmd)
  | bufferAcquire handle cls => exact .next (acquire_quiet (.refl s) handle cls)
  | bufferRelease handle cls => exact execBufferRelease_quiet s handle cls
  | parkedRequestServed pool => exact .next (parkedServedS_quiet (.refl s) pool)
  | bufferWaitLimitExpiry pool cmd => exact .next (bufferWaitS_quiet (.refl s) pool cmd)
  | scrub seen => exact .next (scrubS_quiet (.refl s) seen)
  | writeDataArrival cmd bytes => exact absurd rfl (hdata cmd bytes)
  | recordCut part => exact execRecordCut_quiet s part
  | compressorJobStart engine => exact .next (compressorJobStartS_quiet (.refl s) engine)
  | compressorJobDone engine attempt => exact .next (compressorJobDoneS_quiet (.refl s) engine attempt)
  | tagJobStart r => exact .next (tagJobStartS_quiet (.refl s) r)
  | tagJobDone ctx agree agreeAgain => exact .next (tagJobDoneS_quiet (.refl s) ctx agree agreeAgain)
  | nonceReservation => exact execNonceReservation_quiet s
  | nonceLimitRaise => exact execNonceLimitRaise_quiet s
  | recordPlace r => exact execRecordPlace_quiet s r
  | sealDelayExpiry part => exact execSealDelayExpiry_quiet s part
  | datasetSeal part => exact execDatasetSeal_quiet s part
  | checkpointInterval part => exact execCheckpointInterval_quiet s part
  | checkpointTimeExpiry part => exact execCheckpointTimeExpiry_quiet s part
  | writerStart => exact execWriterStart_quiet s
  | startAgeExpiry => exact execStartAgeExpiry_quiet s
  | appendPointReached locked => exact execAppendPointReached_quiet s locked
  | slotBoundary pesNm => exact execSlotBoundary_quiet s pesNm
  | segmentVerdict seq attempt slot lane x => exact execSegmentVerdict_quiet s seq attempt slot lane x
  | writeDriverFault lane => exact execWriteDriverFault_quiet s lane
  | transientLeak lane => exact execTransientLeak_quiet s lane
  | permanentLeak lane => exact execPermanentLeak_quiet s lane
  | writeCurrentUpdate tempA tempB => exact execWriteCurrentUpdate_quiet s tempA tempB
  | stopTimeExpiry => exact execStopTimeExpiry_quiet s
  | speedDownDelayExpiry => exact execSpeedDownDelayExpiry_quiet s
  | turnComplete => exact execTurnComplete_quiet s
  | segmentDecode lane x => exact execSegmentDecode_quiet s lane x
  | coastLimitExpiry lane => exact execCoastLimitExpiry_quiet s lane
  | decoderBudgetExhausted lane => exact execDecoderBudgetExhausted_quiet s lane
  | biasFault lane module => exact execBiasFault_quiet s lane module
  | frontEndStuckRetire lane module => exact execFrontEndStuckRetire_quiet s lane module
  | recoveryEntry part seq => exact .next (recoveryEntryS_quiet (.refl s) part seq)
  | ladderPassDone part seq servoHeld located => exact .next (ladderPassDoneS_quiet (.refl s) part seq servoHeld)
  | recoveryTimeLimitExpiry part seq => exact execRecoveryTimeLimitExpiry_quiet s part seq
  | spanReadDone part seq servoHeld => exact .next (spanReadDoneS_quiet (.refl s) part seq servoHeld)
  | datasetDecoded part seq => exact .next (datasetDecodedS_quiet (.refl s) part seq)
  | decompressionJobStart engine => exact .next (decompressionJobStartS_quiet (.refl s) engine)
  | decompressionJobDone engine => exact .next (decompressionJobDoneS_quiet (.refl s) engine)
  | servoFrame ch0 ch1 ch2 ch3 => exact .next (servoFrameS_quiet (.refl s) [ch0, ch1, ch2, ch3])
  | servoCoastExpiry => exact execServoCoastExpiry_quiet s
  | servoReacquireTimeout => exact execServoReacquireTimeout_quiet s
  | bandChangeDone band => exact execBandChangeDone_quiet s band
  | recallRunSelect => exact .next (recallRunSelectS_quiet (.refl s))
  | recallAgeLimitExpiry part seq => exact execRecallAgeLimitExpiry_quiet s part seq
  | writePreemptionAgeExpiry => exact execWritePreemptionAgeExpiry_quiet s
  | recallBatchTimeExpiry => exact execRecallBatchTimeExpiry_quiet s
  | hintExpiry hint => exact execHintExpiry_quiet s hint
  | basePeriod x => exact execBasePeriod_quiet s x
  | overcurrent reel => exact execOvercurrent_quiet s reel
  | plausibilityFault reel => exact execPlausibilityFault_quiet s reel
  | tensionLoss residual => exact execTensionLoss_quiet s residual
  | tachQuadratureFault => exact execTachQuadratureFault_quiet s
  | observerLost reel => exact execObserverLost_quiet s reel
  | lockedRotor reel => exact execLockedRotor_quiet s reel
  | chopperFault => exact execChopperFault_quiet s
  | decelerationHalving => exact execDecelerationHalving_quiet s
  | shuntOffsetMeasured reel u v w => exact execShuntOffsetMeasured_quiet s reel u v w
  | gateDriverFault reel => exact .next (safeStop_quiet (.refl s) 0x13 (reelBits reel).1 (reelBits reel).2)
  | nightwatchTachMismatch => exact .next (safeStop_quiet (.refl s) 0x14 false false)
  | vmotUndervoltage => exact .next (safeStop_quiet (.refl s) 0x15 false false)
  | reelTurnsUnderGrant => exact execReelTurnsUnderGrant_quiet s
  | reelsAtRest => exact execReelsAtRest_quiet s
  | holdSlip => exact execHoldSlip_quiet s
  | nightwatchClear => exact execNightwatchClear_quiet s
  | autoClear => exact execAutoClear_quiet s
  | actuatorFault => exact execActuatorFault_quiet s
  | threaderStall => exact execThreaderStall_quiet s
  | loaderTimeout => exact execLoaderTimeout_quiet s
  | gripReqRise => exact execGripReqRise_quiet s
  | gripReqFall => exact execGripReqFall_quiet s
  | motionPermitRequest gripSampled => exact execMotionPermitRequest_quiet s gripSampled
  | gripWaitLimitExpiry => exact execGripWaitLimitExpiry_quiet s
  | ppsInEdge => exact .next (ppsInEdgeS_quiet (.refl s))
  | ppsHoldover => exact execPpsHoldover_quiet s
  | ppsOut => exact execPpsOut_quiet s
  | meridianStore => exact execMeridianStore_quiet s
  | setMeridian path ns => exact execSetMeridian_quiet s path ns
  | timeExchSend => exact execTimeExchSend_quiet s
  | timeExch h t1 t2 t3 t4 => exact acceptMsg_runsQuietly s h fun _ ht => timeExchS_quiet ht t1 t2 t3
  | nmtStart => exact .next (nmtSet_quiet (.refl s) 2)
  | nmtStop => exact .next (nmtSet_quiet (.refl s) 3)
  | nmtEnterPreOperational => exact .next (nmtSet_quiet (.refl s) 1)
  | nmtResetNode pins => exact execNmtResetNode_quiet s pins
  | nmtResetCommunication pins => exact .next (ite_quiet (fiReset_quiet (.refl s) pins) (.refl s))
  | canHeartbeat tec rcv => exact .next (canHeartbeatS_quiet (.refl s) tec rcv)
  | duplicateNodeId => exact execDuplicateNodeId_quiet s
  | emcySend tec rcv => exact .next (emcySendS_quiet (.refl s) tec rcv)
  | syncReceive => exact execSyncReceive_quiet s
  | syncProduce => exact execSyncProduce_quiet s
  | timeReceive ms days => exact execTimeReceive_quiet s ms days
  | timeProduce => exact execTimeProduce_quiet s
  | tpdoSend n tec rcv => exact .next (tpdoSendS_quiet (.refl s) n tec rcv)
  | usdoDownload path client index sub bytes last w => exact .next (usdoDownloadS_quiet (.refl s) path client index sub bytes last w)
  | usdoUpload path client index sub last => exact .next (usdoUploadS_quiet (.refl s) path client index sub last)
  | usdoSessionTimeout client => exact execUsdoSessionTimeout_quiet s client
  | libraryMountReadWrite seq w => exact .next (libraryS_quiet (.refl s) 1 seq w)
  | libraryMountReadOnly seq w => exact .next (libraryS_quiet (.refl s) 2 seq w)
  | libraryUnmount seq w => exact .next (libraryS_quiet (.refl s) 3 seq w)
  | libraryUnmountEject seq w => exact .next (libraryS_quiet (.refl s) 4 seq w)
  | rewindAndUnload seq w => exact .next (libraryS_quiet (.refl s) 5 seq w)
  | saveParameters v => exact .next (.refl s)
  | restoreDefaultParameters sub v => exact execRestoreDefaultParameters_quiet s sub v
  | takeover => exact execTakeover_quiet s
  | withdrawDivergentPieces path => exact .next (withdrawS_quiet (.refl s) path)
  | linkTraining lane0 lane1 => exact execLinkTraining_quiet s lane0 lane1
  | pairFormation peer => exact .next (pairFormationS_quiet (.refl s) peer)
  | flitError flitSeq => exact execFlitError_quiet s flitSeq
  | nak replayFrom => exact execNak_quiet s replayFrom
  | heartbeatSend => exact execHeartbeatSend_quiet s
  | heartbeat h b => exact acceptMsg_runsQuietly s h fun _ ht => heartbeatS_quiet ht b
  | recordMirror r => exact .next (recordMirrorS_quiet (.refl s) r)
  | record h part r => exact acceptMsg_runsQuietly s h fun _ ht => recordS_quiet ht part r
  | pieceCommit h part stream version piece count =>
    exact acceptMsg_runsQuietly s h fun _ ht => pieceCommitS_quiet ht part stream version piece count
  | pieceFail h part stream version piece => exact execPieceFail_quiet s h part stream version piece
  | pieceVerified h part stream version piece => exact execPieceVerified_quiet s h part stream version piece
  | partitionOp h sqe => exact acceptMsg_runsQuietly s h fun _ ht => partitionOpS_quiet ht h.seq sqe
  | opDone h opSeq status => exact execOpDone_quiet s h opSeq status
  | credit h buffers => exact execCredit_quiet s h buffers
  | roleStale h role epoch rejected => exact execRoleStale_quiet s h role epoch rejected
  | imageTransfer epoch chunk last => exact execImageTransfer_quiet s epoch chunk last
  | peerSuspect => exact execPeerSuspect_quiet s
  | peerLost => exact execPeerLost_quiet s
  | pairPresentFall => exact execPairPresentFall_quiet s
  | pairRstIn => exact .next (pairRstInS_quiet (.refl s))
  | peerRestartTimeout => exact execPeerRestartTimeout_quiet s
  | lockstepMismatch complex => exact .next (lodestarFailed_quiet (.refl s) 0x12)
  | watchdogExpiry complex => exact .next (lodestarFailed_quiet (.refl s) 0x13)
  | lodestarRestartComplete w => exact .next (lodestarRestartCompleteS_quiet (.refl s) w)
  | restartTimeout => exact execRestartTimeout_quiet s
  | flashWriteFailed target => exact execFlashWriteFailed_quiet s target
  | vin12Loss => exact absurd (by simp) hreset
  | vin12Valid => exact execVin12Valid_quiet s
  | resetInNAssert => exact absurd (by simp) hreset
  | resetInNRelease pins => exact execResetInNRelease_quiet s pins
  | testEnAssert => exact absurd (by simp) hreset
  | startupStageDone w => exact .next (startupStageDoneS_quiet (.refl s) w)
  | backgroundWriteDone => exact execBackgroundWriteDone_quiet s
  | logicThermalCap deciC => exact execLogicThermalCap_quiet s deciC
  | powerStageThermalLimit deciC => exact execPowerStageThermalLimit_quiet s deciC
  | thermalTrip logicDeciC stageDeciC => exact absurd rfl (htrip logicDeciC stageDeciC)
  | mountRecordUpdate part => exact execMountRecordUpdate_quiet s part
  | imageDownload path bytes => exact execImageDownload_quiet s path bytes
  | imageVerified source => exact execImageVerified_quiet s source
  | imageFlashWritten => exact execImageFlashWritten_quiet s
  | propagateToPeer answer => exact execPropagateToPeer_quiet s answer
  | cancelStagedImage => exact execCancelStagedImage_quiet s
  | activationTime path ns => exact execActivationTime_quiet s path ns
  | activationArmedInstant => exact execActivationArmedInstant_quiet s
  | quiescentPoint => exact execQuiescentPoint_quiet s
  | graceWindowExpiry => exact execGraceWindowExpiry_quiet s
  | challenge => exact execChallenge_quiet s
  | response path seconds sig => exact execResponse_quiet s path seconds sig
  | servicePassword path chars => exact execServicePassword_quiet s path chars
  | setServicePassword path chars => exact execSetServicePassword_quiet s path chars
  | lock path => exact execLock_quiet s path
  | lockoutExpiry => exact execLockoutExpiry_quiet s
  | sessionExpiry => exact execSessionExpiry_quiet s
  | vbusFall => exact execVbusFall_quiet s
  | kekImport path n blob => exact execKekImport_quiet s path n blob
  | kekRemove path n => exact execKekRemove_quiet s path n
  | clearRetiredLanes path mask => exact execClearRetiredLanes_quiet s path mask
  | clearRetiredFrontEnds path module mask => exact execClearRetiredFrontEnds_quiet s path module mask
  | clearRetiredServoChannels path mask => exact execClearRetiredServoChannels_quiet s path mask
  | snsChange sns => exact execSnsChange_quiet s sns
  | registerReadClear fn offset => exact .next (readS_quiet (.refl s) fn offset)
  | idleFlit ack => exact .next (idleFlitS_quiet (.refl s) ack)
  | busOffRecovery => exact execBusOffRecovery_quiet s
  | thermalTripEnd logicDeciC stageDeciC => exact execThermalTripEnd_quiet s logicDeciC stageDeciC

/-! ## Staging memory under the other commands -/

/-- The outcome goes on with a state that keeps what even an arrival of host data and a reset of the module keep. -/
def RunsKept (s : State) (o : Out) : Prop := ∃ t, o = .next t ∧ Kept s t

theorem RunsKept.next {s t : State} (h : Kept s t) : RunsKept s (.next t) := ⟨t, rfl, h⟩

theorem RunsQuietly.runsKept {s : State} {o : Out} (h : RunsQuietly s o) : RunsKept s o := by
  obtain ⟨t, ht, hquiet⟩ := h
  exact ⟨t, ht, hquiet.kept⟩

/-- Of an arrival of host data only the storing of the bytes touches staging memory. -/
theorem writeDataArrivalS_kept (s : State) (id : Nat) (bytes : List Byte) : Kept s (writeDataArrivalS s id bytes) := by
  unfold writeDataArrivalS
  split
  · exact .refl s
  · dsimp only
    split
    · exact .refl s
    · have hgrown (fuel n : Nat) : Kept s (growBufs fuel s id n).2 := (growBufs_quiet (.refl s) fuel id n).kept
      split
      · exact hgrown _ _
      · split
        · exact hgrown _ _
        · exact ((hgrown _ _).trans (storeBytes_kept _ _ _ _ _)).trans
            (serveAll_quiet (handOff_quiet (modCmd_quiet (.refl _) id _) _ _ _)).kept

/-- A reset of the module, whatever it then records in GLB. -/
theorem resetModule_glb_kept (s : State) (cause : Nat) (powered : Bool) (g : Glb) :
    Kept s { resetModule s cause powered with glb := g } :=
  (resetModule_kept s cause powered).trans (Quiet.upd (.refl _) rfl).kept

theorem losePower_kept (s : State) : Kept s (losePower s) := by
  unfold losePower
  split
  · exact .refl s
  · exact resetModule_glb_kept s 0 _ _

theorem execResetInNAssert_kept (s : State) : RunsKept s (execResetInNAssert s) := by
  refine .next ?_
  split
  · exact .refl s
  · exact resetModule_glb_kept s 1 true _

theorem execThermalTrip_kept (s : State) (logic stage : Int) : RunsKept s (execThermalTrip logic stage s) := by
  have hnoted := (noteTemps_quiet s logic stage).kept
  refine .next ?_
  dsimp only
  split
  · exact hnoted.trans (resetModule_glb_kept _ 1 true _)
  · exact hnoted

/-- Every command goes on, and keeps the waiting commands, the model's time, the outputs so far and the canonical form. -/
theorem exec_runsKept (c : Instr) (s : State) : RunsKept s (exec c s) := by
  by_cases hdata : ∃ id bs, c = .writeDataArrival id bs
  · obtain ⟨id, bs, rfl⟩ := hdata
    exact .next (writeDataArrivalS_kept s id bs)
  by_cases htrip : ∃ a b, c = .thermalTrip a b
  · obtain ⟨a, b, rfl⟩ := htrip
    exact execThermalTrip_kept s a b
  by_cases hreset : c ∈ [Instr.resetInNAssert, .vin12Loss, .d3coldEntry, .testEnAssert]
  · simp only [List.mem_cons, List.not_mem_nil, or_false] at hreset
    obtain rfl | rfl | rfl | rfl := hreset
    · exact execResetInNAssert_kept s
    · exact .next (losePower_kept s)
    · exact .next (losePower_kept s)
    · exact .next (resetModule_glb_kept s 1 true _)
  · exact (exec_runsQuietly (fun id bs h => hdata ⟨id, bs, h⟩) (fun a b h => htrip ⟨a, b, h⟩) hreset s).runsKept

/-! ## The statements -/

/-- Settles O4: every command keeps what `exec_runsKept` says, and all but those that write or clear staging run quietly
(`exec_runsQuietly`). That time passes between commands alone, that outputs are a list and that of the pools the buffers of host
data alone are held as bytes are the model's choices (log 2, log 4, log 58). -/
theorem commandFrame : Obligations.CommandFrame := by
  unfold Obligations.CommandFrame
  intro c s t hexec
  obtain ⟨t', ht', hpending, hnow, -, hout⟩ := exec_runsKept c s
  obtain rfl : t' = t := Host.Outcome.next.inj (ht'.symm.trans hexec)
  refine ⟨hpending, hnow, hout, fun hdata htrip hreset => ?_⟩
  obtain ⟨u, hu, -, -, hmem, -⟩ := exec_runsQuietly hdata htrip hreset s
  obtain rfl : u = t' := Host.Outcome.next.inj (hu.symm.trans hexec)
  exact hmem

/-- Between commands staging memory stays as it is. -/
theorem tick_canonical {s : State} (hs : stagingCanonical s = true) : stagingCanonical (tick s) = true := by
  obtain ⟨-, -, hkeeps, -⟩ := (sampleGrip_quiet (.refl { s with
    now := s.now + 1, mt.acc := if s.mt.running then s.mt.acc + s.mt.inc.setWidth 96 else s.mt.acc })).kept
  exact hkeeps hs

/-- Settles O3: a step is a cycle of the clock, or one of the commands, which keep the canonical form (`exec_runsKept`). -/
theorem stagingCanonicalKept : Obligations.StagingCanonicalKept := by
  unfold Obligations.StagingCanonicalKept
  intro s t hs hstep
  unfold step at hstep
  split at hstep
  · obtain rfl := Host.Outcome.next.inj hstep
    exact tick_canonical hs
  · next c rest _ =>
    obtain ⟨t', ht', -, -, hkeeps, -⟩ := exec_runsKept c { s with pending := rest }
    obtain rfl : t' = t := Host.Outcome.next.inj (ht'.symm.trans hstep)
    exact hkeeps hs

end Sys2Proof.Proofs
end

section
/-! O20: bytes written to staging read back. -/

namespace Sys2Proof.Proofs

open Sys2Proof Sys2Proof.Machine Sys2Proof.Laws

/-- Bytes written inside staging read back. -/
theorem stReadBytes_stWriteBytes (m : List Host.Cell) {a : Nat} {bs : List Byte} (h : a + bs.length ≤ stagingTop) :
    stReadBytes (stWriteBytes m a bs) a bs.length = bs := by
  induction bs generalizing m a with
  | nil => rfl
  | cons b bs ih =>
    rw [List.length_cons] at h
    have hfirst : stRead (stWriteBytes (stWrite m a b) (a + 1) bs) a = b := by
      rw [stRead_stWriteBytes_outside _ _ _ (.inl a.lt_succ_self), stRead_stWrite (by omega), if_pos rfl]
    have hrest := ih (stWrite m a b) (a := a + 1) (by omega)
    exact congrArg₂ List.cons hfirst hrest

/-- Settles O20: what `stWriteBytes` writes reads back, and a byte elsewhere reads as before (`stRead_stWriteBytes_outside`). -/
theorem stagingReadsBack : Obligations.StagingReadsBack := by
  unfold Obligations.StagingReadsBack
  intro s a bs hs ha
  exact ⟨stReadBytes_stWriteBytes s.bpm.mem ha, fun b hb => stRead_stWriteBytes_outside s.bpm.mem a bs hb, stWriteBytes_wf hs a bs⟩

end Sys2Proof.Proofs
end

section
/-! The buffer pool: what a pool reads after an operation, and that events and faults leave the pools alone. -/

namespace Sys2Proof.Proofs

open Sys2Proof Sys2Proof.Machine Sys2Proof.Laws

/-! ## Pools -/

theorem poolOf_setPool (s : State) {p : Nat} (hp : p < s.bpm.pools.length) (x : Pool) : poolOf (setPool s p x) p = x := by
  simp [poolOf, setPool, hp]

theorem poolOf_congr {s t : State} (h : s.bpm.pools = t.bpm.pools) (p : Nat) : poolOf s p = poolOf t p := by
  rw [poolOf, poolOf, h]

theorem poolOf_setPool_ne (s : State) {p j : Nat} (h : j ≠ p) (x : Pool) : poolOf (setPool s p x) j = poolOf s j := by
  simp [poolOf, setPool, List.getElem?_set_ne (Ne.symm h)]

/-- The buffers of every pool stay when a pool is replaced by one with the same buffers. -/
theorem setPool_bufs {s : State} {p : Nat} {x : Pool} (hx : x.bufs = (poolOf s p).bufs) (j : Nat) :
    (poolOf (setPool s p x) j).bufs = (poolOf s j).bufs := by
  by_cases hj : j = p
  · subst hj
    by_cases hp : j < s.bpm.pools.length
    · rw [poolOf_setPool s hp, hx]
    · rw [setPool, List.set_eq_of_length_le (Nat.le_of_not_lt hp)]
  · rw [poolOf_setPool_ne s hj]

theorem buf_of_bufs {x y : Pool} (h : x.bufs = y.bufs) (i : Nat) : x.buf i = y.buf i := by rw [Pool.buf, Pool.buf, h]

theorem idx_of_buf {x : Pool} {i : Nat} {b : Buf} (h : x.buf i = some b) : b.idx = i := by simpa using List.find?_some h

/-- The handle of a freed buffer goes to the cache; the buffers in use stay. -/
@[simp] theorem push_bufs (x : Pool) (i : Nat) : (x.push i).bufs = x.bufs := by
  unfold Pool.push Pool.spill
  split <;> rfl

/-- A buffer that was changed, read back. -/
theorem buf_map_self {x : Pool} {i : Nat} {b : Buf} (hb : x.buf i = some b) (f : Buf → Buf) (hf : ∀ c, (f c).idx = c.idx) :
    ({ x with bufs := x.bufs.map fun c => if c.idx = b.idx then f c else c } : Pool).buf i = some (f b) := by
  have hidx := idx_of_buf hb
  have hfound := find_map_key Buf.idx b.idx i f (fun c hc => (hf c).trans hc) x.bufs
  rw [show x.bufs.find? (fun c => c.idx == i) = some b from hb, Option.map_some, if_pos hidx.symm] at hfound
  exact hfound

/-- A buffer that was taken out is free. -/
theorem buf_filter_self {x : Pool} (i : Nat) : ({ x with bufs := x.bufs.filter fun c => c.idx != i } : Pool).buf i = none := by
  simp [Pool.buf, List.find?_eq_none]

/-! ## What leaves the buffer pool manager alone -/

/-- Steps that keep a part of the state keep it one after another. -/
theorem foldl_keeps {α β : Type} (part : State → β) {f : State → α → State} (hf : ∀ t x, part (f t x) = part t) (l : List α)
    (s : State) : part (l.foldl f s) = part s := by
  induction l generalizing s with
  | nil => rfl
  | cons x l ih => exact (ih (f s x)).trans (hf s x)

@[simp] theorem finishId_bpm (s : State) (id : Nat) (r : Res) : (finishId s id r).bpm = s.bpm := by rw [finishId_eq]

@[simp] theorem queueFor1_bpm (s : State) (n code scope part : Nat) (ps : List Byte) :
    (queueFor1 s n code scope part ps).bpm = s.bpm := by
  unfold queueFor1
  dsimp only
  split
  · rfl
  · split
    · exact finishId_bpm _ _ _
    · rfl

@[simp] theorem queueEmcy_bpm (s : State) (m : Emcy) : (queueEmcy s m).bpm = s.bpm := by
  unfold queueEmcy
  split
  · rfl
  · split <;> rfl

@[simp] theorem queueNow_bpm (s : State) (code scope p : Nat) (ps : List Byte) : (queueNow s code scope p ps).bpm = s.bpm := by
  have hqueued := foldl_keeps State.bpm (fun t n => queueFor1_bpm t n code scope (if scope = 1 then p else 0) ps)
    (evTargets s scope p) s
  unfold queueNow
  dsimp only
  split
  · exact hqueued
  · exact (queueEmcy_bpm _ _).trans hqueued

@[simp] theorem queueEvent_bpm (s : State) (code scope p : Nat) (ps : List Byte) : (queueEvent s code scope p ps).bpm = s.bpm := by
  unfold queueEvent
  split
  · exact queueNow_bpm s code scope p ps
  · split
    · rfl
    · split
      · rfl
      · exact queueNow_bpm s code scope p ps

@[simp] theorem faultRec_bpm (s : State) (code : Nat) (permanent : Bool) (unit p1 p2 : Nat) :
    (faultRec s code permanent unit p1 p2).bpm = s.bpm := by
  unfold faultRec
  dsimp only
  split <;> rfl

end Sys2Proof.Proofs
end

section
/-! O19: allocation, parked requests, references and their release, and the buffer wait limit. -/

namespace Sys2Proof.Proofs

open Sys2Proof Sys2Proof.Machine Sys2Proof.Laws

/-! ## Allocation (R151, R157 to R159) -/

/-- While the floor for a class holds, the next free buffer goes to it. -/
theorem allocNow_of_pop {s : State} {p cls r i : Nat} {x : Pool} (hrank : allocRank cls = some r)
    (hfloor : (poolOf s p).floorOk cls = true) (hpop : (poolOf s p).pop = some (i, x)) :
    allocNow s p cls = some (handleOf p i,
      setPool s p { x with bufs := { idx := i, count := 1, holders := BitVec.ofNat 16 (2 ^ cls) } :: x.bufs }) := by
  simp only [allocNow, hrank, hfloor, hpop, Option.isSome_some, Bool.and_self, if_true]

theorem allocNow_of_floor {s : State} {p cls : Nat} (hfloor : (poolOf s p).floorOk cls = false) : allocNow s p cls = none := by
  simp only [allocNow, hfloor, Bool.and_false, Bool.false_eq_true, if_false]

/-- An allocation touches its pool alone. -/
theorem allocNow_touches_pool {s t : State} {p cls : Nat} {h : BitVec 32} (ha : allocNow s p cls = some (h, t)) :
    ∃ x, t = setPool s p x := by
  unfold allocNow at ha
  dsimp only at ha
  split at ha
  · split at ha
    · cases ha
      exact ⟨_, rfl⟩
    · cases ha
  · cases ha

/-- A request that no parked one precedes: its buffer, or a place among the parked requests. -/
theorem allocate_of_none_ahead {s : State} {p cls r : Nat} (hp : p < 16) (hrank : allocRank cls = some r)
    (hahead : parkedAhead (poolOf s p) r = false) (cmd : Option Nat) :
    allocate s p cls cmd = (allocNow s p cls).getD (nullHandle, setPool s p { poolOf s p with
      parked := (poolOf s p).parked ++ [{ cls, cmd, since := s.now }] }) := by
  simp only [allocate, hrank, hahead, Nat.not_le.mpr hp, if_false, Bool.false_eq_true]
  cases allocNow s p cls <;> rfl

/-- A unit's request once the background writing is done. -/
theorem bufferAllocateS_unit {s : State} {p cls : Nat} (hp : p < 16) (hbg : s.glb.background = true) :
    bufferAllocateS s p cls none =
      if (allocate s p cls none).1 = nullHandle then (allocate s p cls none).2
      else { (allocate s p cls none).2 with
        bpm.granted := (allocate s p cls none).2.bpm.granted ++ [((allocate s p cls none).1, cls)] } := by
  simp only [bufferAllocateS, hbg, Nat.not_le.mpr hp, if_false, Bool.not_true, Bool.false_eq_true]

/-- The parked request whose turn has come, of a unit, gets its buffer. -/
theorem parkedServedS_unit {s t : State} {p i : Nat} {k : Parked} {h : BitVec 32} (hbg : s.glb.background = true)
    (hnext : nextParked (poolOf s p) = some i) (hk : (poolOf s p).parked[i]? = some k) (hunit : k.cmd = none)
    (ha : allocNow s p k.cls = some (h, t)) :
    parkedServedS s p = { setPool t p { poolOf t p with parked := (poolOf s p).parked.eraseIdx i } with
      bpm.granted := s.bpm.granted ++ [(h, k.cls)] } := by
  obtain ⟨x, rfl⟩ := allocNow_touches_pool ha
  simp only [parkedServedS, hbg, hnext, hk, ha, hunit, Bool.not_true, Bool.false_eq_true, if_false]
  rfl

/-! ## References (R151 to R154, R161) -/

/-- A class that holds no reference takes one on an allocated buffer. -/
theorem acquire_of_free {s : State} {h : BitVec 32} {cls : Nat} {b : Buf} (hvalid : validHandle s h = true)
    (hb : (poolOf s (poolNo h)).buf (bufNo h) = some b) (hfree : b.holders.getLsbD cls = false) (hcls : cls < 16)
    (hcount : b.count < 255) :
    acquire s h cls = (h, setPool s (poolNo h) { poolOf s (poolNo h) with
      bufs := (poolOf s (poolNo h)).bufs.map fun c => if c.idx = b.idx then
        { c with count := c.count + 1, holders := c.holders ||| BitVec.ofNat 16 (2 ^ cls) } else c }) := by
  simp only [acquire, hvalid, hb, hfree, if_true, Bool.false_and, Nat.not_le.mpr hcls, Nat.not_le.mpr hcount, decide_false,
    Bool.or_self, Bool.false_eq_true, if_false]

/-- The last reference released frees the buffer. -/
theorem release_of_last {s : State} {h : BitVec 32} {cls : Nat} {b : Buf} (hvalid : validHandle s h = true)
    (hb : (poolOf s (poolNo h)).buf (bufNo h) = some b) (hheld : b.holders.getLsbD cls = true) (hlast : b.count ≤ 1) :
    release s h cls = setPool s (poolNo h) (({ poolOf s (poolNo h) with
      bufs := (poolOf s (poolNo h)).bufs.filter fun c => c.idx != b.idx } : Pool).push b.idx) := by
  simp only [release, hvalid, hb, hheld, hlast, Bool.not_true, Bool.false_eq_true, if_false, if_true]

theorem buf_release_of_last {s : State} {h : BitVec 32} {cls : Nat} {b : Buf} (hp : poolNo h < s.bpm.pools.length)
    (hvalid : validHandle s h = true) (hb : (poolOf s (poolNo h)).buf (bufNo h) = some b) (hheld : b.holders.getLsbD cls = true)
    (hlast : b.count ≤ 1) : (poolOf (release s h cls) (poolNo h)).buf (bufNo h) = none := by
  rw [release_of_last hvalid hb hheld hlast, poolOf_setPool s hp, buf_of_bufs (push_bufs _ _), idx_of_buf hb]
  exact buf_filter_self (bufNo h)

/-- A release by a class that holds no reference is rejected. -/
theorem release_of_not_held {s : State} {h : BitVec 32} {cls : Nat} {b : Buf} (hvalid : validHandle s h = true)
    (hb : (poolOf s (poolNo h)).buf (bufNo h) = some b) (hheld : b.holders.getLsbD cls = false) :
    release s h cls = rejectRelease s h cls b.holders false := by
  simp only [release, hvalid, hb, hheld, Bool.not_true, Bool.not_false, Bool.false_eq_true, if_false, if_true]

/-- Of the buffer pool manager a rejected release changes its own record and, with the event it may bring, the time of the pool's
last event. -/
theorem rejectRelease_bpm (s : State) (h : BitVec 32) (cls : Nat) (holders : BitVec 16) (wasFree : Bool) :
    ∃ u : State, u.bpm = { s.bpm with
        rejects := min (2 ^ 32 - 1) (s.bpm.rejects + 1), rejPool := poolNo h, rejUnit := cls % 16, rejHolders := holders
        rejFree := wasFree, rejIdx := bufNo h } ∧
      ((rejectRelease s h cls holders wasFree).bpm = u.bpm ∨
        ∃ r, (rejectRelease s h cls holders wasFree).bpm =
          (setPool u (poolNo h) { poolOf u (poolNo h) with rejectAt := r }).bpm) := by
  unfold rejectRelease
  dsimp only
  generalize hu : faultRec _ 0x05 false _ _ _ = u
  exact ⟨u, by rw [← hu, faultRec_bpm, satAdd], (ite_eq_or_eq _ _ _).imp (congrArg State.bpm)
    fun htold => ⟨_, (congrArg State.bpm htold).trans (queueEvent_bpm _ _ _ _ _)⟩⟩

/-- A rejected release is counted and recorded (R161). -/
theorem rejectRelease_counts (s : State) (h : BitVec 32) (cls : Nat) (holders : BitVec 16) (wasFree : Bool) :
    (rejectRelease s h cls holders wasFree).bpm.rejects = min (2 ^ 32 - 1) (s.bpm.rejects + 1) ∧
      (rejectRelease s h cls holders wasFree).bpm.rejIdx = bufNo h ∧
      (rejectRelease s h cls holders wasFree).bpm.rejHolders = holders := by
  obtain ⟨u, hu, hquiet | ⟨r, htold⟩⟩ := rejectRelease_bpm s h cls holders wasFree
  · simp only [hquiet, hu, and_self]
  · simp only [htold, setPool_bpm_rejects, setPool_bpm_rejIdx, setPool_bpm_rejHolders, hu, and_self]

/-- A rejected release leaves every buffer as it is (R154). -/
theorem rejectRelease_bufs (s : State) (h : BitVec 32) (cls : Nat) (holders : BitVec 16) (wasFree : Bool) (j : Nat) :
    (poolOf (rejectRelease s h cls holders wasFree) j).bufs = (poolOf s j).bufs := by
  obtain ⟨u, hu, hend⟩ := rejectRelease_bpm s h cls holders wasFree
  have hstood : poolOf u j = poolOf s j := poolOf_congr (by rw [hu]) j
  obtain hquiet | ⟨r, htold⟩ := hend
  · rw [poolOf_congr (congrArg Bpm.pools hquiet), hstood]
  · have hpools := poolOf_congr (congrArg Bpm.pools htold) j
    rw [hpools, setPool_bufs (x := { poolOf u (poolNo h) with rejectAt := r }) rfl j, hstood]

/-! ## READs that wait for a reference (R153) -/

theorem retryHeld_of_none {s : State} (h : ∀ c ∈ s.qe.cmds, c.pinWait = false) (n : Nat) : retryHeld n s = s := by
  have hheld : s.qe.cmds.filter Cmd.pinWait = [] := List.filter_eq_nil_iff.mpr fun c hc => by simp [h c hc]
  cases n with
  | zero => rfl
  | succ n => simp [retryHeld, hheld]

/-! ## The buffer wait limit (R160) -/

theorem parked_unpark (s : State) (id i : Nat) :
    (poolOf (unpark s id) i).parked = (poolOf s i).parked.filter fun k => k.cmd != some id := by
  by_cases hi : i < s.bpm.pools.length
  · simp [poolOf, unpark, hi]
  · simp [poolOf, unpark, hi, Pool.carved]

/-- A command whose requests were withdrawn has none parked in any pool. -/
theorem unpark_parked (s : State) (id i : Nat) : ∀ j ∈ (poolOf (unpark s id) i).parked, j.cmd ≠ some id := by
  intro j hj
  rw [parked_unpark] at hj
  simpa using (List.mem_filter.mp hj).2

/-- A host command whose request has been parked for the limit: its pool counts it, its requests are withdrawn, and it ends. -/
theorem bufferWaitS_of_late {s : State} {p id : Nat} {c : Cmd} {k : Parked} (hc : cmdOf s id = some c)
    (hk : k ∈ (poolOf s p).parked) (hcmd : k.cmd = some id) (hcls : k.cls = clsQeIn ∨ k.cls = clsQeOut)
    (hlate : k.since + setN s 0x2150 1 * 216000 ≤ s.now) {v : State}
    (hv : v = unpark (setPool s p { poolOf s p with exhausted := min 65535 ((poolOf s p).exhausted + 1) }) id) :
    bufferWaitS s p id =
      if opcode c.sqe = 0x40 ∧ c.version ≠ 0 then endWrite v id stBufferExhausted 0 false
      else if opcode c.sqe = 0x41 ∨ opcode c.sqe = 0x42 then finishRead v c stBufferExhausted 0 0
      else finishSt v c stBufferExhausted := by
  have helapsed : elapsed s k.since (setN s 0x2150 1) = true := by
    simpa [elapsed, Nat.mul_comm] using hlate
  have hany : ((poolOf s p).parked.any fun k => k.cmd == some id && (k.cls == clsQeIn || k.cls == clsQeOut) &&
      elapsed s k.since (setN s 0x2150 1)) = true :=
    List.any_eq_true.mpr ⟨k, hk, by simp [hcmd, helapsed, hcls]⟩
  subst hv
  simp only [bufferWaitS, hany, hc, Bool.not_true, Bool.false_eq_true, if_false, satAdd]

/-! ## The statement -/

/-- Settles O19: what a request, a turn, a reference, a release and an expired wait each come to is what the lemmas above say of
the state as it stands. -/
theorem buffersServed : Obligations.BuffersServed := by
  unfold Obligations.BuffersServed
  refine ⟨fun s p cls r _ hp hbg hrank hahead => ?request,
    fun s t p i k h hbg hnext hk hunit ha => congrArg Host.Outcome.next (parkedServedS_unit hbg hnext hk hunit ha),
    fun s h cls b hvalid hb hp => ⟨fun hfree hcls hcount => ⟨_, rfl, ?acquired⟩, ?released⟩,
    fun s p id c k hc hk hcmd hcls hlate => ?waited⟩
  case request =>
    have hallocate := allocate_of_none_ahead hp hrank hahead none
    refine ⟨fun i x hfloor hpop hnull => congrArg Host.Outcome.next ?_, fun hfloor => congrArg Host.Outcome.next ?_⟩
    · rw [bufferAllocateS_unit hp hbg, hallocate, allocNow_of_pop hrank hfloor hpop]
      exact if_neg hnull
    · rw [bufferAllocateS_unit hp hbg, hallocate, allocNow_of_floor hfloor]
      exact if_pos rfl
  case acquired =>
    rw [acquire_of_free hvalid hb hfree hcls hcount]
    refine ⟨?_, rfl⟩
    rw [poolOf_setPool s hp]
    exact buf_map_self hb _ fun _ => rfl
  case released =>
    intro t
    have hpool : poolOf t (poolNo h) = poolOf (release s h cls) (poolNo h) := poolOf_congr rfl _
    refine ⟨rfl, fun hnone => congrArg Host.Outcome.next (retryHeld_of_none hnone _), fun hheld hlast => ⟨?_, ?_⟩, fun hheld => ?_⟩
    · rw [hpool]
      exact buf_release_of_last hp hvalid hb hheld hlast
    · obtain ⟨x, hx⟩ : ∃ x, release s h cls = setPool s (poolNo h) x := ⟨_, release_of_last hvalid hb hheld hlast⟩
      have ht : t = { setPool s (poolNo h) x with bpm.granted := s.bpm.granted.erase (h, cls) } := by simp only [t, hx]; rfl
      rw [ht]
      rfl
    · obtain ⟨hcount, hidx, hholders⟩ := rejectRelease_counts s h cls b.holders false
      have hbufs := rejectRelease_bufs s h cls b.holders false (poolNo h)
      rw [← release_of_not_held hvalid hb hheld] at hcount hidx hholders hbufs
      refine ⟨hcount, hidx, hholders, ?_⟩
      rw [hpool, buf_of_bufs hbufs]
      exact hb
  case waited =>
    intro v
    have hwait := bufferWaitS_of_late hc hk hcmd hcls hlate (v := v) rfl
    refine ⟨unpark_parked _ id, fun hwrite hversion => ?_, fun hread => ?_, fun h40 h41 h42 => ?_⟩
    · exact congrArg Host.Outcome.next (hwait.trans (if_pos ⟨hwrite, hversion⟩))
    · have hnot : ¬ (opcode c.sqe = 0x40 ∧ c.version ≠ 0) := by omega
      exact congrArg Host.Outcome.next (hwait.trans ((if_neg hnot).trans (if_pos hread)))
    · have hnot : ¬ (opcode c.sqe = 0x40 ∧ c.version ≠ 0) := by omega
      have hother : ¬ (opcode c.sqe = 0x41 ∨ opcode c.sqe = 0x42) := by omega
      exact congrArg Host.Outcome.next (hwait.trans ((if_neg hnot).trans (if_neg hother)))

end Sys2Proof.Proofs
end

section
/-! What a unit's buffers touch as it hands them on: the buffer pool manager, and what events and faults touch. -/

namespace Sys2Proof.Proofs

open Sys2Proof Sys2Proof.Machine Sys2Proof.Laws

/-- From s to t at most the buffer pool manager and what an event or a fault brings: the queue engine and the outputs by an
EVENT_WAIT that ends, the EMCY messages, the records of faults and the events that wait. -/
def BuffersMove (s t : State) : Prop :=
  ∃ qe out fi health bpm, t = { s with qe := qe, out := out, fi := fi, health := health, bpm := bpm }

theorem BuffersMove.refl (s : State) : BuffersMove s s := ⟨_, _, _, _, _, rfl⟩

theorem BuffersMove.trans {s t u : State} (hst : BuffersMove s t) (htu : BuffersMove t u) : BuffersMove s u := by
  obtain ⟨_, _, _, _, _, rfl⟩ := hst
  obtain ⟨_, _, _, _, _, rfl⟩ := htu
  exact ⟨_, _, _, _, _, rfl⟩

theorem BuffersMove.foldl {α : Type} {f : State → α → State} (hf : ∀ t x, BuffersMove t (f t x)) (l : List α) (s : State) :
    BuffersMove s (l.foldl f s) := by
  induction l generalizing s with
  | nil => exact .refl s
  | cons x l ih => exact (hf s x).trans (ih (f s x))

theorem BuffersMove.ite {s t u : State} {c : Prop} [Decidable c] (ht : BuffersMove s t) (hu : BuffersMove s u) :
    BuffersMove s (if c then t else u) := by
  split <;> assumption

/-- The datasets being read stay as they are. -/
theorem BuffersMove.readOf {s t : State} (h : BuffersMove s t) (p q : Nat) : readOf t p q = readOf s p q := by
  obtain ⟨_, _, _, _, _, rfl⟩ := h
  rfl

/-! ## Events and faults -/

theorem BuffersMove.of_finishId (s : State) (id : Nat) (r : Res) : BuffersMove s (finishId s id r) :=
  ⟨_, _, _, _, _, finishId_eq s id r⟩

theorem BuffersMove.of_queueFor1 (s : State) (n code scope part : Nat) (ps : List Byte) :
    BuffersMove s (queueFor1 s n code scope part ps) := by
  unfold queueFor1
  dsimp only
  split
  · exact ⟨_, _, _, _, _, rfl⟩
  · split
    · exact .trans ⟨_, _, _, _, _, rfl⟩ (.of_finishId _ _ _)
    · exact ⟨_, _, _, _, _, rfl⟩

theorem BuffersMove.of_queueEmcy (s : State) (m : Emcy) : BuffersMove s (queueEmcy s m) := by
  unfold queueEmcy
  exact .ite ⟨_, _, _, _, _, rfl⟩ (.ite ⟨_, _, _, _, _, rfl⟩ ⟨_, _, _, _, _, rfl⟩)

theorem BuffersMove.of_queueNow (s : State) (code scope p : Nat) (ps : List Byte) :
    BuffersMove s (queueNow s code scope p ps) := by
  have hqueued := BuffersMove.foldl
    (fun t n => .of_queueFor1 t n code scope (if scope = 1 then p else 0) ps) (evTargets s scope p) s
  unfold queueNow
  exact hqueued.ite (hqueued.trans (.of_queueEmcy _ _))

theorem BuffersMove.of_queueEvent (s : State) (code scope p : Nat) (ps : List Byte) :
    BuffersMove s (queueEvent s code scope p ps) := by
  have hnow := BuffersMove.of_queueNow s code scope p ps
  unfold queueEvent
  exact hnow.ite (.ite (.refl s) (.ite ⟨_, _, _, _, _, rfl⟩ hnow))

theorem BuffersMove.of_faultRec (s : State) (code : Nat) (permanent : Bool) (unit p1 p2 : Nat) :
    BuffersMove s (faultRec s code permanent unit p1 p2) := by
  unfold faultRec
  exact .ite ⟨_, _, _, _, _, rfl⟩ ⟨_, _, _, _, _, rfl⟩

/-! ## References -/

theorem BuffersMove.of_setPool (s : State) (p : Nat) (x : Pool) : BuffersMove s (setPool s p x) := ⟨_, _, _, _, _, rfl⟩

theorem BuffersMove.of_acquire (s : State) (h : BitVec 32) (cls : Nat) : BuffersMove s (acquire s h cls).2 := by
  unfold acquire
  dsimp only
  split
  · exact .refl s
  · split
    · exact .refl s
    · exact .of_setPool s _ _

theorem BuffersMove.of_rejectRelease (s : State) (h : BitVec 32) (cls : Nat) (holders : BitVec 16) (wasFree : Bool) :
    BuffersMove s (rejectRelease s h cls holders wasFree) := by
  unfold rejectRelease
  dsimp only
  generalize hu : faultRec _ 0x05 false _ _ _ = u
  have hfault : BuffersMove s u := hu ▸ .trans ⟨_, _, _, _, _, rfl⟩ (.of_faultRec _ _ _ _ _ _)
  exact hfault.ite ((hfault.trans (.of_setPool u _ _)).trans (.of_queueEvent _ _ _ _ _))

theorem BuffersMove.of_release (s : State) (h : BitVec 32) (cls : Nat) : BuffersMove s (release s h cls) := by
  unfold release
  dsimp only
  split
  · exact .of_rejectRelease s h cls _ _
  · split
    · exact .of_rejectRelease s h cls _ _
    · split
      · exact .of_rejectRelease s h cls _ _
      · split <;> exact .of_setPool s _ _

theorem BuffersMove.of_releaseAll (s : State) (hs : List (BitVec 32)) (cls : Nat) : BuffersMove s (releaseAll s hs cls) :=
  .foldl (fun t h => .of_release t h cls) hs s

theorem BuffersMove.of_fillBuf (s : State) (h : BitVec 32) (off n : Nat) : BuffersMove s (fillBuf s h off n) := by
  unfold fillBuf
  exact .ite (.refl s) ⟨_, _, _, _, _, rfl⟩

theorem BuffersMove.of_fillBufs (s : State) (hs : List (BitVec 32)) (n : Nat) : BuffersMove s (fillBufs s hs n) :=
  .foldl (fun t _ => .of_fillBuf t _ _ _) hs.zipIdx s

theorem BuffersMove.of_handOff (s : State) (hs : List (BitVec 32)) (src dst : Nat) : BuffersMove s (handOff s hs src dst) :=
  .foldl (fun t h => .ite (.refl t) ((BuffersMove.of_acquire t h dst).trans (.of_release _ h src))) hs s

end Sys2Proof.Proofs
end

section
/-! O32: the jobs of the compressors and decompressors (R186, R188, R201, R207 to R209). -/

namespace Sys2Proof.Proofs

open Sys2Proof Sys2Proof.Machine Sys2Proof.Laws

/-! ## Engines -/

@[simp] theorem engineOf_setEngine (s : State) (e : Nat) (x : Engine) : engineOf (setEngine s e x) e = x :=
  get_put_same e x {} s.cx.engines

/-- Engine e has ended its work and is idle; n jobs more are counted (R188, R211). -/
def jobEnded (s : State) (e n : Nat) : State :=
  setEngine s e { engineOf s e with job := none, jobs := min 65535 ((engineOf s e).jobs + n) }

/-! ## A compressor's job starts (R208) -/

theorem compressorJobStartS_of_idle {s : State} {e : Nat} {j : RecJob} (hnext : nextCompress s = some j) (he : e < 8)
    (hincl : (engineOf s e).excluded = false) (hidle : (engineOf s e).job = none) :
    compressorJobStartS s e = compressOn e j (unitAllocN s 4 2 ((j.r.olen + 144 + 65535) / 65536) []) := by
  simp [compressorJobStartS, hnext, he, hincl, hidle]

/-- With its buffers a job goes to the engine, while one compressor at least is in service. -/
theorem compressOn_of_buffers {u : State} (hserve : noCompressor u = false) (e : Nat) (j : RecJob) (hs : List (BitVec 32)) :
    compressOn e j (some hs, u) =
      setEngine (modRec u j.id fun k => { k with stage := .compressing, bufs := hs }) e
        { engineOf u e with job := some j.id } :=
  if_neg (ne_true_of_eq_false hserve)

/-! ## A compressor's job ends (R201, R207) -/

section
variable {s : State} {e : Nat} {a : List Byte} {j : RecJob} (hjob : (engineOf s e).job.bind (recOf s) = some j) (he : e < 8)
include hjob he

theorem compressorJobDoneS_of_stored (hform : j.cform = 2) :
    compressorJobDoneS s e a = compressed (jobEnded s e 1) j 2 false (originals s j) := by
  simp only [compressorJobDoneS, jobEnded, satAdd, hjob, Nat.not_le.mpr he, hform, if_true, if_false]

/-- An attempt above the output limit is a fallback. -/
theorem compressorJobDoneS_of_over_limit (hform : j.cform ≠ 2) (hlong : j.r.olen + 64 < a.length) :
    compressorJobDoneS s e a = compressed
      { jobEnded s e 1 with cx.fallback := min (2 ^ 32 - 1) (s.cx.fallback + 1) } j 2 false (originals s j) := by
  simp only [compressorJobDoneS, jobEnded, satAdd, hjob, Nat.not_le.mpr he, hform, gt_iff_lt, hlong, if_true, if_false]

/-- A ZSC1 attempt that decodes to its input is the record's payload. -/
theorem compressorJobDoneS_of_zsc1 (hform : j.cform = 1) (hshort : a.length ≤ j.r.olen + 64)
    (hgood : decodePayload 1 [] a j.r.olen j.r.olen = .ok (originals s j)) :
    compressorJobDoneS s e a = compressed (jobEnded s e 1) j 1 false a := by
  simp [compressorJobDoneS, jobEnded, satAdd, hjob, Nat.not_le.mpr he, hform, Nat.not_lt.mpr hshort, hgood]

/-- A ZSC1 attempt that does not is counted, and the record stored. -/
theorem compressorJobDoneS_of_mismatch (hform : j.cform = 1) (hshort : a.length ≤ j.r.olen + 64)
    (hbad : decodePayload 1 [] a j.r.olen j.r.olen ≠ .ok (originals s j)) :
    compressorJobDoneS s e a = compressed
      { jobEnded s e 1 with cx.z1mism := min 65535 (s.cx.z1mism + 1) } j 2 false (originals s j) := by
  cases hdec : decodePayload 1 [] a j.r.olen j.r.olen with
  | ok bs =>
    have hne : bs ≠ originals s j := fun h => hbad (by rw [hdec, h])
    simp [compressorJobDoneS, jobEnded, satAdd, hjob, Nat.not_le.mpr he, hform, Nat.not_lt.mpr hshort, hdec, hne]
  | error d =>
    simp [compressorJobDoneS, jobEnded, satAdd, hjob, Nat.not_le.mpr he, hform, Nat.not_lt.mpr hshort, hdec]

end

/-! ## A decompressor's job starts (R209) -/

/-- With its buffers the next chain goes to an idle decompressor. -/
theorem decompressionJobStartS_of_buffers {s u : State} {e : Nat} {j : ChainJob} {rd : ReadDs} {ds : Dataset}
    {hs : List (BitVec 32)} (hlow : 8 ≤ e) (hhigh : e ≤ 15) (hincl : (engineOf s e).excluded = false)
    (hidle : (engineOf s e).job = none) (hnext : nextChainJob s = some j) (hrd : readOf s j.part j.seq = some rd)
    (hds : rd.content = some ds) (halloc : unitAllocN s 3 clsCxd (chainBuffers s rd ds j) [] = (some hs, u)) :
    decompressionJobStartS s e =
      setEngine { u with cx.chains := u.cx.chains.map fun k => if k.id = j.id then { k with bufs := hs } else k } e
        { engineOf u e with job := some j.id } := by
  have hready : ¬ (e < 8 ∨ e > 15 ∨ (engineOf s e).excluded = true ∨ (engineOf s e).job.isSome = true) := by
    simp [hincl, hidle, hlow, hhigh]
  simp only [decompressionJobStartS, if_neg hready, hnext, hrd, hds, Option.bind_some, Option.map_some, halloc]
  rfl

/-! ## A decompressor's job ends (R186, R188) -/

/-- What a decompressor makes of a chain: its records but for those decoded before, one after another. -/
def chainResults (rd : ReadDs) (ds : Dataset) (j : ChainJob) : List (Nat × RecResult) :=
  let rest := chainRest rd ds [] j.recs
  decodeChain rest.1 (rest.2.filterMap fun i => (ds.recs[i]?).map fun r => (i, r))

/-- Where every record decodes, the chain leaves the queue, its output is kept, and the commands that wait go on; no fault is
counted. -/
theorem decompressionJobDoneS_of_ok {s : State} {e i : Nat} {j : ChainJob} {rd : ReadDs} {ds : Dataset} (he : 8 ≤ e)
    (hjob : (engineOf s e).job = some i) (hchain : (s.cx.chains.find? fun j => j.id == i) = some j)
    (hrd : readOf s j.part j.seq = some rd) (hds : rd.content = some ds)
    (hok : ∀ x ∈ chainResults rd ds j, ∃ b, x.2 = .ok b) :
    decompressionJobDoneS s e = serveVisit
      (keepOuts (jobEnded { s with cx.chains := s.cx.chains.filter fun k => k.id != j.id } e (chainResults rd ds j).length) j
        (chainResults rd ds j)) j.part j.seq := by
  have hread : readOf { s with cx.chains := s.cx.chains.filter fun k => k.id != j.id } j.part j.seq = some rd := hrd
  simp only [decompressionJobDoneS, Nat.not_lt.mpr he, if_false, hjob, Option.bind_some, hchain, hread, hds, Option.map_some]
  rw [← chainResults]
  cases hlast : (chainResults rd ds j).getLast? with
  | none => rfl
  | some x =>
    obtain ⟨b, hb⟩ := hok x (List.mem_of_getLast? hlast)
    simp only [hb, countFault]
    rfl

/-! ## The output that is kept (R209) -/

/-- A read dataset that was changed, read back. -/
theorem readOf_modRead_same (s : State) (p q : Nat) (f : ReadDs → ReadDs)
    (hf : ∀ r : ReadDs, (f r).part = r.part ∧ (f r).seq = r.seq) :
    readOf (modRead s p q f) p q = (readOf s p q).map f := by
  have hkey : ∀ l : List ReadDs,
      (l.map fun r => if r.part = p ∧ r.seq = q then f r else r).find? (fun r => r.part == p && r.seq == q) =
        (l.find? fun r => r.part == p && r.seq == q).map f := by
    intro l
    induction l with
    | nil => rfl
    | cons r l ih =>
      by_cases h : r.part = p ∧ r.seq = q
      · simp [h, hf r]
      · have hne : (r.part == p && r.seq == q) = false := by simpa using h
        simp only [List.map_cons, if_neg h, List.find?_cons, hne, ih]
  exact hkey s.rc.reads

/-- The output of a record that decoded is kept in its dataset, unless an earlier output of it is. -/
theorem keepOuts_keeps {s : State} {j : ChainJob} {rd : ReadDs} (hrd : readOf s j.part j.seq = some rd)
    {rs : List (Nat × RecResult)} {n : Nat} {b : List Byte} (hmem : (n, RecResult.ok b) ∈ rs) :
    ∃ r, readOf (keepOuts s j rs) j.part j.seq = some r ∧ ∃ b', (n, b') ∈ r.outs := by
  unfold keepOuts
  dsimp only
  rw [readOf_modRead_same (hf := ?fields),
    (((BuffersMove.of_releaseAll s _ _).trans (.of_fillBufs _ _ _)).trans (.of_handOff _ _ _ _)).readOf, hrd]
  case fields => exact fun _ => ⟨rfl, rfl⟩
  refine ⟨_, rfl, ?_⟩
  by_cases hbefore : rd.outs.any fun o => o.1 == n
  · obtain ⟨⟨m, b'⟩, ho, hm⟩ := List.any_eq_true.mp hbefore
    obtain rfl : m = n := eq_of_beq hm
    exact ⟨b', List.mem_append_left _ ho⟩
  · refine ⟨b, List.mem_append_right _ (List.mem_filter.mpr ⟨List.mem_filterMap.mpr ⟨_, hmem, rfl⟩, ?_⟩)⟩
    exact congrArg not (Bool.eq_false_of_not_eq_true hbefore)

/-! ## The statement -/

/-- Settles O32: what the start and the end of a job of either kind of engine come to is what the lemmas above say. -/
theorem compressionJobs : Obligations.CompressionJobs := by
  unfold Obligations.CompressionJobs
  refine ⟨⟨fun s e j hs u hnext he hincl hidle halloc hserve => ?compressStarts,
    fun s e a j hjob he => ⟨fun hform => ?stored, fun hform hlong => ?overLimit, fun hform hshort => ?zsc1⟩⟩,
    fun s u e j rd ds hs hlow hhigh hincl hidle hnext hrd hds halloc => ?decompressStarts,
    fun s e i j rd ds he hjob hchain hrd hds => ?decompressEnds⟩
  case compressStarts =>
    have hstart := compressorJobStartS_of_idle hnext he hincl hidle
    rw [halloc, compressOn_of_buffers hserve] at hstart
    exact ⟨_, congrArg Host.Outcome.next hstart, by rw [engineOf_setEngine], rfl, rfl⟩
  case stored => exact congrArg Host.Outcome.next (compressorJobDoneS_of_stored hjob he hform)
  case overLimit => exact congrArg Host.Outcome.next (compressorJobDoneS_of_over_limit hjob he hform hlong)
  case zsc1 =>
    refine congrArg Host.Outcome.next ?_
    split
    case h_1 bs hdec =>
      split
      case isTrue heq => exact compressorJobDoneS_of_zsc1 hjob he hform hshort (heq ▸ hdec)
      case isFalse hne =>
        exact compressorJobDoneS_of_mismatch hjob he hform hshort fun h => hne (Except.ok.inj (hdec.symm.trans h))
    case h_2 d hdec =>
      exact compressorJobDoneS_of_mismatch hjob he hform hshort fun h => nomatch hdec.symm.trans h
  case decompressStarts =>
    have hstart := decompressionJobStartS_of_buffers hlow hhigh hincl hidle hnext hrd hds halloc
    exact ⟨_, congrArg Host.Outcome.next hstart, by rw [engineOf_setEngine], rfl, rfl⟩
  case decompressEnds =>
    intro rest rs hok v
    have hread : readOf v j.part j.seq = some rd := hrd
    exact ⟨congrArg Host.Outcome.next (decompressionJobDoneS_of_ok he hjob hchain hrd hds hok),
      fun n b hmem => keepOuts_keeps hread hmem⟩

end Sys2Proof.Proofs
end

section
/-! TG under the host's commands: a WRITE that settles and a reader that is served leave the tag engine its jobs, its keys and its
retirement; of TG a reader changes the count of mismatches alone (R233). -/

namespace Sys2Proof.Proofs

open Sys2Proof Sys2Proof.Machine Sys2Proof.Laws

/-- From s to t TG keeps all but its count of mismatches (TG.TFAIL). -/
def TagsKept (s t : State) : Prop := ∃ n, t.tg = { s.tg with tfail := n }

theorem TagsKept.refl (s : State) : TagsKept s s := ⟨_, rfl⟩

section
variable {s₀ s : State}

/-- What leaves TG alone keeps it. -/
theorem TagsKept.of_tg {t : State} (h : TagsKept s₀ s) (htg : t.tg = s.tg := by rfl) : TagsKept s₀ t := by
  obtain ⟨n, h⟩ := h
  exact ⟨n, htg.trans h⟩

theorem TagsKept.jobs (h : TagsKept s₀ s) : s.tg.jobs = s₀.tg.jobs := by
  obtain ⟨_, h⟩ := h
  rw [h]

theorem TagsKept.retired (h : TagsKept s₀ s) : s.tg.retired = s₀.tg.retired := by
  obtain ⟨_, h⟩ := h
  rw [h]

theorem TagsKept.after_foldl {α : Type} {f : State → α → State} (h : TagsKept s₀ s)
    (hf : ∀ t x, TagsKept s₀ t → TagsKept s₀ (f t x)) (l : List α) : TagsKept s₀ (l.foldl f s) :=
  List.foldlRecOn l f h fun t ht x _ => hf t x ht

theorem TagsKept.ite {t : State} {c : Prop} [Decidable c] (hs : TagsKept s₀ s) (ht : TagsKept s₀ t) :
    TagsKept s₀ (if c then s else t) := by
  split <;> assumption

/-- What moves buffers alone leaves TG as it is. -/
theorem TagsKept.after_buffers {t : State} (h : TagsKept s₀ s) (hmove : BuffersMove s t) : TagsKept s₀ t := by
  obtain ⟨_, _, _, _, _, rfl⟩ := hmove
  exact h

theorem TagsKept.after_release (h : TagsKept s₀ s) (b : BitVec 32) (cls : Nat) : TagsKept s₀ (release s b cls) :=
  h.after_buffers (.of_release s b cls)

theorem TagsKept.after_releaseAll (h : TagsKept s₀ s) (hs : List (BitVec 32)) (cls : Nat) :
    TagsKept s₀ (releaseAll s hs cls) := h.after_buffers (.of_releaseAll s hs cls)

theorem TagsKept.after_finish (h : TagsKept s₀ s) (c : Cmd) (r : Res) : TagsKept s₀ (finish s c r) :=
  h.after_buffers ⟨_, _, _, _, _, finish_eq s c r⟩

/-! ## The pair link -/

theorem TagsKept.after_pumpFlits (h : TagsKept s₀ s) (n : Nat) : TagsKept s₀ (pumpFlits n s) := by
  induction n generalizing s with
  | zero => exact h
  | succ n ih =>
    unfold pumpFlits
    split
    · exact h
    · exact h.ite (ih h)

theorem TagsKept.after_pumpLink (h : TagsKept s₀ s) : TagsKept s₀ (pumpLink s) := by
  unfold pumpLink
  exact (h.after_pumpFlits _).ite h

theorem TagsKept.after_noteAsked (h : TagsKept s₀ s) (n : Nat) (m : Msg) : TagsKept s₀ (noteAsked s n m) := by
  unfold noteAsked
  dsimp only
  split
  · exact .ite h h
  · exact h

theorem TagsKept.after_plSend (h : TagsKept s₀ s) (m : Msg) : TagsKept s₀ (plSend s m) :=
  .after_pumpLink (.after_noteAsked (s := emit { s with pl.msgSeq := s.pl.msgSeq + 1 } _) h _ m)

theorem TagsKept.after_mirrorSend (h : TagsKept s₀ s) (m : Msg) : TagsKept s₀ (mirrorSend s m) := by
  unfold mirrorSend
  exact h.ite ((h.after_plSend m).ite h)

/-! ## WRITEs that settle -/

theorem TagsKept.after_dropBuf (h : TagsKept s₀ s) (b : BitVec 32) : TagsKept s₀ (dropBuf s b) := by
  unfold dropBuf
  split
  · exact h
  · split
    · exact h
    · next x _ =>
      have hfm := (h.after_release b clsFm).ite (c := x.holders.getLsbD clsFm = true) h
      exact (hfm.after_release b clsQeIn).ite hfm

theorem TagsKept.after_releasePiece (h : TagsKept s₀ s) (id : Nat) (k : Piece) : TagsKept s₀ (releasePiece s id k) := by
  unfold releasePiece
  split
  · exact h
  · exact h.after_foldl (fun t i ht => ht.after_dropBuf _) _

theorem TagsKept.after_sweepCmd (h : TagsKept s₀ s) (c : Cmd) : TagsKept s₀ (sweepCmd s c) := by
  have hgone := h.after_foldl (fun t k ht => ht.after_releasePiece c.id k)
    (c.pieces.filter fun k => k.settled && !chainBusy s c k)
  unfold sweepCmd
  dsimp only
  split
  · exact .ite hgone hgone
  · exact hgone

theorem TagsKept.after_finishWrite (h : TagsKept s₀ s) (c : Cmd) (st d1 d2 : Nat) : TagsKept s₀ (finishWrite s c st d1 d2) := by
  unfold finishWrite
  exact .after_sweepCmd (.of_tg (h.after_finish c _)) _

theorem TagsKept.after_settleWrite (h : TagsKept s₀ s) (id : Nat) : TagsKept s₀ (settleWrite s id) := by
  unfold settleWrite
  split
  · exact h
  · next c _ =>
    have hswept := h.after_sweepCmd c
    refine hswept.ite ?_
    split
    · exact hswept.ite (h.after_finishWrite c _ _ _)
    · exact hswept.ite ((h.after_finishWrite c _ _ _).ite (h.after_finishWrite c _ _ _))

theorem TagsKept.after_addExtents (h : TagsKept s₀ s) (p : Nat) (es : List Extent) : TagsKept s₀ (addExtents s p es) := by
  unfold addExtents
  split
  · exact h
  · exact h.ite (.ite h h)

theorem TagsKept.after_commitMirror (h : TagsKept s₀ s) (p : Nat) (k : PieceId) : TagsKept s₀ (commitMirror s p k) := by
  unfold commitMirror
  exact .ite (.after_plSend h.of_tg _) h.of_tg

theorem TagsKept.after_commitOwn (h : TagsKept s₀ s) (p : Nat) (c : Cmd) (q : Piece) : TagsKept s₀ (commitOwn s p c q) := by
  unfold commitOwn
  exact .after_settleWrite (.after_mirrorSend (.ite h.of_tg h.of_tg) _) c.id

theorem TagsKept.after_commitPiece (h : TagsKept s₀ s) (p : Nat) (k : PieceId) : TagsKept s₀ (commitPiece s p k) := by
  unfold commitPiece
  split
  · exact h
  · have hext := h.after_addExtents p
    refine .ite ((hext _).after_commitMirror p k) ?_
    split
    · exact hext _
    · split
      · exact (hext _).after_commitOwn p _ _
      · exact hext _

theorem TagsKept.after_commitLoop (h : TagsKept s₀ s) (fuel p : Nat) : TagsKept s₀ (commitLoop fuel s p) := by
  induction fuel generalizing s with
  | zero => exact h
  | succ fuel ih =>
    unfold commitLoop
    split
    · exact h
    · exact ih (h.after_commitPiece p _)

theorem TagsKept.after_cancelRecs (h : TagsKept s₀ s) (p : Nat) (st : StreamId) (v i : Nat) :
    TagsKept s₀ (cancelRecs s p st v i) := by
  unfold cancelRecs
  refine .of_tg (h.after_foldl (f := dropHeld) (fun _ _ ht => ?_) _)
  unfold dropHeld
  exact (ht.after_releaseAll _ _).ite ht

theorem TagsKept.after_failPiece (h : TagsKept s₀ s) (id : Nat) (k : Piece) : TagsKept s₀ (failPiece s id k) := by
  unfold failPiece
  split
  · exact h
  · exact .after_mirrorSend (.after_foldl (.after_cancelRecs h.of_tg _ _ _ _) (fun _ c ht => ht.after_sweepCmd c) _) _

theorem TagsKept.after_failFrom (h : TagsKept s₀ s) (id i : Nat) : TagsKept s₀ (failFrom s id i) := by
  unfold failFrom
  split
  · exact h
  · exact .after_commitLoop (h.after_foldl (fun t k ht => ht.after_failPiece id k) _) _ _

theorem TagsKept.after_failWrite (h : TagsKept s₀ s) (id i st d1 d2 : Nat) (gate : Option Nat) :
    TagsKept s₀ (failWrite s id i st d1 d2 gate) := by
  unfold failWrite
  exact .after_settleWrite (.after_failFrom h.of_tg id i) id

/-! ## Visits and read datasets -/

theorem TagsKept.after_joinRun (h : TagsKept s₀ s) (p seq wrap : Nat) : TagsKept s₀ (joinRun s p seq wrap) := by
  unfold joinRun
  split
  · exact h
  · exact .ite h h

theorem TagsKept.after_needVisit (h : TagsKept s₀ s) (id prio since p seq : Nat) :
    TagsKept s₀ (needVisit s id prio since p seq) := by
  unfold needVisit
  exact .ite h h

theorem TagsKept.after_addVisit (h : TagsKept s₀ s) (id prio since p seq : Nat) :
    TagsKept s₀ (addVisit s id prio since p seq) := by
  have hneed := h.after_needVisit id prio since p seq
  unfold addVisit
  dsimp only
  split
  · exact hneed.ite (hneed.after_joinRun p seq _)
  · exact hneed

theorem TagsKept.after_setVisits (h : TagsKept s₀ s) (vs : List Visit) : TagsKept s₀ (setVisits s vs) := by
  unfold setVisits keepRun
  exact .ite h (.ite h h)

theorem TagsKept.after_leaveSome (h : TagsKept s₀ s) (c : Cmd) (which : Visit → Bool) : TagsKept s₀ (leaveSome s c which) :=
  h.after_setVisits _

theorem TagsKept.after_dropRead (h : TagsKept s₀ s) (p seq : Nat) : TagsKept s₀ (dropRead s p seq) := by
  unfold dropRead
  split
  · exact h
  · next r _ =>
    have hbuf := h.ite (c := r.buf = nullHandle) (h.after_release r.buf clsCd)
    exact ((hbuf.after_releaseAll r.outBufs clsQeOut).after_releaseAll r.pool6 clsRcv).after_releaseAll _ clsCxd

theorem TagsKept.after_closeVisit (h : TagsKept s₀ s) (p seq : Nat) : TagsKept s₀ (closeVisit s p seq) := by
  unfold closeVisit
  refine h.ite ?_
  split
  · exact (h.after_dropRead p seq).ite h
  · exact h

theorem TagsKept.after_makeChains (h : TagsKept s₀ s) (p seq : Nat) : TagsKept s₀ (makeChains s p seq) := by
  unfold makeChains
  split
  · exact h
  · split
    · refine h.ite (h.after_foldl (fun t c ht => ht.after_foldl (fun u i hu => hu.ite ?_) _) _)
      split <;> exact hu
    · exact h

/-! ## Readers -/

theorem TagsKept.after_readerOut (h : TagsKept s₀ s) (c : Cmd) : TagsKept s₀ (readerOut s c) := by
  have hfreed := h.after_foldl (fun _ b ht => ht.after_release b
    (if c.pins.any fun k => k.handle == b then clsPin else clsQeOut)) c.bufs
  unfold readerOut
  have hleft := TagsKept.after_leaveSome (s := unpark _ c.id) hfreed.of_tg c fun _ => true
  exact .after_foldl hleft.of_tg (fun _ _ ht => ht.after_closeVisit _ _) _

theorem TagsKept.after_dmaOut (h : TagsKept s₀ s) (c : Cmd) (ws : List (Nat × Bool × List Byte)) :
    TagsKept s₀ (dmaOut s c ws) := by
  refine h.after_foldl (fun t w ht => ?_) ws
  unfold emitFor
  exact .ite ht ht

theorem TagsKept.after_endRead (h : TagsKept s₀ s) (c : Cmd) (st d1 d2 : Nat) : TagsKept s₀ (endRead s c st d1 d2) := by
  unfold endRead
  exact .after_finish (.after_dmaOut (h.after_readerOut _) _ _) _ _

/-- A mismatch is counted (R233). -/
theorem TagsKept.after_failRecord (h : TagsKept s₀ s) (c : Cmd) (seq st d2 : Nat) : TagsKept s₀ (failRecord s c seq st d2) := by
  obtain ⟨n, h⟩ := h
  unfold failRecord
  refine .after_endRead ⟨satAdd (2 ^ 32 - 1) s.tg.tfail (b2n (st == stTagMismatch)), ?_⟩ c st _ d2
  rw [h]

theorem TagsKept.after_pinAll (h : TagsKept s₀ s) {t : State} {c w : Cmd} {hs : List (BitVec 32)}
    (hpin : pinAll s c w hs = some t) : TagsKept s₀ t := by
  have hall : ∀ t ∈ pinAll s c w hs, TagsKept s₀ t := by
    refine List.foldlRecOn (motive := fun o => ∀ t ∈ o, TagsKept s₀ t) hs _ (fun t ht => Option.some.inj ht ▸ h) ?_
    intro o ho b _ t ht
    dsimp only at ht
    split at ht
    · cases ht
    · next u =>
      have hu := ho u rfl
      split at ht
      · cases ht
      · split at ht
        · exact Option.some.inj ht ▸ hu
        · split at ht
          · cases ht
          · exact Option.some.inj ht ▸ .of_tg (hu.after_buffers (.of_acquire u b clsPin))
  exact hall t hpin

theorem TagsKept.after_pinStaged (h : TagsKept s₀ s) (c : Cmd) : TagsKept s₀ (pinStaged s c) := by
  refine h.after_foldl (fun t r ht => ?_) _
  split
  · split
    · refine ht.after_foldl (fun u b hu => ?_) _
      cases hpin : pinAll u c _ [b] with
      | none => exact hu
      | some v => exact hu.after_pinAll hpin
    · exact ht
  · exact ht

theorem TagsKept.after_needTape (h : TagsKept s₀ s) (c : Cmd) (p seq : Nat) : TagsKept s₀ (needTape s c p seq) := by
  unfold needTape
  have hvisit := (h.after_addVisit c.id c.prio c.since p seq).after_makeChains p seq
  exact .ite (.after_endRead h.of_tg c _ _ _) (.ite (h.after_endRead c _ _ _) hvisit)

theorem TagsKept.after_serveTape (h : TagsKept s₀ s) (c : Cmd) (r : Run) (e : Extent) : TagsKept s₀ (serveTape s c r e).1 := by
  unfold serveTape
  dsimp only
  split
  · exact h.after_endRead c _ _ _
  · split
    · exact h.after_needTape c _ _
    · split
      · exact h.after_needTape c _ _
      · split
        · exact h.after_addVisit _ _ _ _ _
        · split
          · exact h.after_needTape c _ _
          · exact h.after_failRecord c _ _ _
          · exact h

theorem TagsKept.after_serveLoop (h : TagsKept s₀ s) (fuel id : Nat) : TagsKept s₀ (serveLoop fuel id s) := by
  induction fuel generalizing s with
  | zero => exact h
  | succ fuel ih =>
    unfold serveLoop
    split
    · exact h
    · next c _ =>
      refine .ite (h.after_endRead c _ _ _) ?_
      split
      · exact h
      · split
        · exact h.after_endRead c _ _ _
        · split
          · exact h
          · refine h.ite ?_
            split
            · exact h
            · next hpin => exact ih (.of_tg (h.after_pinAll hpin))
        · split
          · exact ih h.of_tg
          · exact .ite (ih (h.after_serveTape c _ _)) (h.after_serveTape c _ _)

theorem TagsKept.after_locatorDeliver (h : TagsKept s₀ s) (st d1 d2 fuel id : Nat) :
    TagsKept s₀ (locatorDeliver st d1 d2 fuel id s) := by
  induction fuel generalizing s with
  | zero => exact h
  | succ fuel ih =>
    unfold locatorDeliver
    split
    · exact h
    · next c _ =>
      refine .ite (h.after_endRead c _ _ _) ?_
      dsimp only
      split
      · exact h.after_endRead c _ _ _
      · exact ih h.of_tg

theorem TagsKept.after_serveLocator (h : TagsKept s₀ s) (id : Nat) : TagsKept s₀ (serveLocator s id) := by
  unfold serveLocator
  split
  · exact h
  · dsimp only
    split
    · exact h.after_locatorDeliver _ _ _ _ id
    · exact .ite (h.after_locatorDeliver _ _ _ _ id) (.after_makeChains (.after_addVisit h.of_tg _ _ _ _ _) _ _)

theorem TagsKept.after_locatorTake (h : TagsKept s₀ s) (id p seq : Nat) : TagsKept s₀ (locatorTake s id p seq) := by
  unfold locatorTake
  split
  · next c _ _ _ =>
    split
    · exact h
    · refine h.ite (.ite h ?_)
      split
      · exact h.after_failRecord c _ _ _
      · exact h
      · exact .after_serveLocator (.after_closeVisit (.after_leaveSome h.of_tg _ _) p seq) id
  · exact h

theorem TagsKept.after_trimVisits (h : TagsKept s₀ s) (id : Nat) : TagsKept s₀ (trimVisits s id) := by
  unfold trimVisits
  split
  · exact h
  · next c _ =>
    exact h.ite (h.ite ((h.after_leaveSome c _).after_foldl (fun _ _ ht => ht.after_closeVisit _ _) _))

theorem TagsKept.after_serveOne (h : TagsKept s₀ s) (id : Nat) : TagsKept s₀ (serveOne s id) := by
  unfold serveOne
  split
  · exact h
  · next c _ =>
    refine h.ite (h.ite (.ite (h.ite ?_) ?_))
    · exact (h.after_serveLocator id).after_locatorTake id _ _
    · exact .after_trimVisits (.after_serveLoop (.after_pinStaged h.of_tg c) _ id) id

theorem TagsKept.after_retryHeld (h : TagsKept s₀ s) (n : Nat) : TagsKept s₀ (retryHeld n s) := by
  induction n generalizing s with
  | zero => exact h
  | succ n ih =>
    have honce := h.after_foldl (fun _ id ht => ht.after_serveOne id) ((s.qe.cmds.filter Cmd.pinWait).map Cmd.id)
    unfold retryHeld
    exact honce.ite (ih honce)

theorem TagsKept.after_serveRead (h : TagsKept s₀ s) (id : Nat) : TagsKept s₀ (serveRead s id) :=
  (h.after_serveOne id).after_retryHeld _

theorem TagsKept.after_serveAll (h : TagsKept s₀ s) : TagsKept s₀ (serveAll s) :=
  h.after_foldl (fun _ id ht => ht.after_serveRead id) _

end

end Sys2Proof.Proofs
end

section
/-! O31: nonce reservations, and the jobs of the tag engine (R217, R226 to R228, R230). -/

namespace Sys2Proof.Proofs

open Sys2Proof Sys2Proof.Machine Sys2Proof.Laws

/-! ## Nonce reservations (R217) -/

/-- Below 2^18 values left a reservation is asked for, unless one is under way, the counter is used up or Lodestar is down. -/
theorem execNonceReservation_of_low {s : State} (hlow : s.tg.limit ≤ s.tg.counter + 2 ^ 18) (hnone : s.tg.reserving = none)
    (hroom : s.tg.limit + 2 ^ 20 < 2 ^ 64) (hup : s.glb.lsUp = true) :
    execNonceReservation s = .next { s with tg.reserving := some (s.tg.limit + 2 ^ 20) } :=
  congrArg Host.Outcome.next (if_pos ⟨hlow, hnone, hroom, hup⟩)

theorem execNonceLimitRaise_of_reserving {s : State} {l : Nat} (h : s.tg.reserving = some l) :
    execNonceLimitRaise s = .next { s with flash.nonceLimit := l, tg.limit := l, tg.reserving := none } := by
  simp only [execNonceLimitRaise, h]

/-! ## Records after a change -/

theorem recOf_modRec (s : State) (id n : Nat) (f : RecJob → RecJob) (hf : ∀ j : RecJob, j.id = id → (f j).id = id) :
    recOf (modRec s id f) n = (recOf s n).map fun j => if n = id then f j else j :=
  find_map_key RecJob.id id n f hf s.fm.recs

/-- The records in the pipeline stay as they are. -/
theorem BuffersMove.recOf_eq {s t : State} (h : BuffersMove s t) (n : Nat) : recOf t n = recOf s n := by
  obtain ⟨_, _, _, _, _, rfl⟩ := h
  rfl

/-! ## Priorities (Table 7.1) -/

theorem BuffersMove.tagPrio_eq {s t : State} (h : BuffersMove s t) (n : Nat) : tagPrio t n = tagPrio s n := by
  obtain ⟨_, _, _, _, _, rfl⟩ := h
  rfl

/-- The stage of a record says nothing on the priority of a job. -/
theorem tagPrio_modRec_stage (s : State) (id n : Nat) (st : RecStage) :
    tagPrio (modRec s id fun j => { j with stage := st }) n = tagPrio s n := by
  unfold tagPrio
  split
  · rfl
  · rw [recOf_modRec (hf := ?keepsId)]
    case keepsId => exact fun _ h => h
    cases recOf s n with
    | none => rfl
    | some j =>
      dsimp only [Option.map_some]
      split <;> rfl

/-! ## The array turns to a job (R227, R228) -/

/-- The same job: whether it waits, and how far it has come, may differ. -/
def SameJob (j k : TagJob) : Prop := ∃ suspended count acc, k = { j with suspended, count, acc }

theorem SameJob.refl (j : TagJob) : SameJob j j := ⟨_, _, _, rfl⟩

/-- From s to t every context keeps its job. -/
def JobsTurned (s t : State) : Prop := ∃ f : TagJob → TagJob, t.tg.jobs = s.tg.jobs.map f ∧ ∀ j, SameJob j (f j)

theorem JobsTurned.refl (s : State) : JobsTurned s s := ⟨id, (List.map_id _).symm, SameJob.refl⟩

theorem JobsTurned.trans {s t u : State} (hst : JobsTurned s t) (htu : JobsTurned t u) : JobsTurned s u := by
  obtain ⟨f, hf, hsame⟩ := hst
  obtain ⟨g, hg, hsame'⟩ := htu
  refine ⟨g ∘ f, by rw [hg, hf, List.map_map], fun j => ?_⟩
  obtain ⟨_, _, _, h⟩ := hsame j
  obtain ⟨_, _, _, h'⟩ := hsame' (f j)
  exact ⟨_, _, _, h'.trans (by rw [h])⟩

/-- A change of the job on context c that keeps it the same job. -/
theorem JobsTurned.of_change {s t : State} {c : Nat} {f : TagJob → TagJob} (hf : ∀ j, SameJob j (f j))
    (h : t.tg.jobs = s.tg.jobs.map fun k => if k.ctx = c then f k else k) : JobsTurned s t := by
  refine ⟨_, h, fun k => ?_⟩
  split
  · exact hf k
  · exact .refl k

theorem JobsTurned.of_runJob (s : State) (j : TagJob) : JobsTurned s (runJob s j) :=
  .of_change (fun _ => ⟨_, _, _, rfl⟩) rfl

theorem JobsTurned.of_pauseJob (s : State) (j : TagJob) : JobsTurned s (pauseJob s j) :=
  .of_change (fun _ => ⟨_, _, _, rfl⟩) rfl

theorem JobsTurned.of_tagTurn (s : State) : JobsTurned s (tagTurn s) := by
  unfold tagTurn
  split
  · exact .refl s
  · next k _ =>
    split
    · exact .of_runJob s k
    · next a _ =>
      split
      · exact (JobsTurned.of_pauseJob s a).trans (.of_runJob _ k)
      · exact .refl s

theorem JobsTurned.length {s t : State} (h : JobsTurned s t) : t.tg.jobs.length = s.tg.jobs.length := by
  obtain ⟨f, hf, -⟩ := h
  rw [hf, List.length_map]

/-- The job that joined last is still among them. -/
theorem JobsTurned.keeps_last {s t : State} (h : JobsTurned s t) {l : List TagJob} {j : TagJob}
    (hjobs : s.tg.jobs = l ++ [j]) : ∃ k ∈ t.tg.jobs, SameJob j k := by
  obtain ⟨f, hf, hsame⟩ := h
  refine ⟨f j, ?_, hsame j⟩
  rw [hf, hjobs]
  exact List.mem_map_of_mem List.mem_concat_self

/-- Of one waiting job the array takes that one. -/
theorem tagTurn_of_one {s : State} {j : TagJob} (hjobs : s.tg.jobs = [j]) (hj : j.suspended = true) :
    tagTurn s = runJob s j := by
  simp [tagTurn, bestTagJob, hjobs, hj]

/-- A waiting job takes the array from the active one where its priority is higher (R228). -/
theorem tagTurn_of_two {s : State} {a j : TagJob} (hjobs : s.tg.jobs = [a, j]) (ha : a.suspended = false)
    (hj : j.suspended = true) :
    tagTurn s = if tagPrio s j.recId < tagPrio s a.recId then runJob (pauseJob s a) j else s := by
  simp [tagTurn, bestTagJob, hjobs, ha, hj]

theorem runJob_jobs_of_one {s : State} {j : TagJob} (hjobs : s.tg.jobs = [j]) :
    (runJob s j).tg.jobs = [{ j with suspended := false }] := by
  simp [runJob, hjobs]

/-- The active job is suspended where it stands, and the other runs. -/
theorem runJob_pauseJob_jobs {s : State} {a j : TagJob} (hjobs : s.tg.jobs = [a, j]) (hne : a.ctx ≠ j.ctx) :
    ∃ count acc, (runJob (pauseJob s a) j).tg.jobs =
      [{ a with suspended := true, count, acc }, { j with suspended := false }] := by
  simp [runJob, pauseJob, freshFree, hjobs, hne, hne.symm]

/-! ## A job starts (R226) -/

/-- The record of a job that has begun is on a context; that of a check stays where it is. -/
def tagBegun (s : State) (n : Nat) : State :=
  if (checkOf n).isSome then s else modRec s n fun j => { j with stage := .tagging }

/-- Context c of the tag engine takes job n, which waits. -/
def withTagJob (s : State) (c n : Nat) (hs : List (BitVec 32)) : State :=
  { s with tg.jobs := s.tg.jobs ++ [newTagJob s c n hs] }

theorem tagJobStartS_of_ready {s u : State} {n c : Nat} {hs : List (BitVec 32)} (hon : s.tg.retired = false)
    (hready : tagReady s n = true) (hctx : freeCtx s (tagPrio s n) = some c) (hhold : holdInput s n = some (hs, u)) :
    tagJobStartS s n = tagTurn (withTagJob (tagBegun u n) c n hs) := by
  have hgo : ¬ (s.tg.retired || !tagReady s n) = true := by simp [hon, hready]
  simp only [tagJobStartS, if_neg hgo, hctx, hhold]
  rfl

/-- The input of a job is held by the buffer pool manager alone. -/
theorem BuffersMove.of_holdInput {s u : State} {n : Nat} {hs : List (BitVec 32)} (h : holdInput s n = some (hs, u)) :
    BuffersMove s u := by
  unfold holdInput at h
  split at h
  · cases h
    exact .refl s
  · split at h
    · cases h
    · dsimp only at h
      split at h
      · cases h
        exact .refl s
      · split at h
        · cases h
        · cases h
          exact .of_acquire s _ clsTg

theorem tagPrio_tagBegun (s : State) (n m : Nat) : tagPrio (tagBegun s n) m = tagPrio s m := by
  unfold tagBegun
  split
  · rfl
  · exact tagPrio_modRec_stage s n m .tagging

@[simp] theorem tagBegun_tg (s : State) (n : Nat) : (tagBegun s n).tg = s.tg := by
  unfold tagBegun
  split <;> rfl

/-- A job is set up to wait, with the priority it has now (Table 7.1). -/
theorem newTagJob_eq (s : State) (c n : Nat) (hs : List (BitVec 32)) : ∃ slot hpow ej0, newTagJob s c n hs =
    { ctx := c, recId := n, prio := tagPrio s n, suspended := true, bufs := hs, slot, hpow, ej0 } := by
  unfold newTagJob
  dsimp only
  split
  · exact ⟨_, _, _, rfl⟩
  · split <;> exact ⟨_, _, _, rfl⟩

/-- A context that is free holds no job. -/
theorem ctx_ne_of_freeCtx {s : State} {p c : Nat} (h : freeCtx s p = some c) {a : TagJob} (ha : a ∈ s.tg.jobs) : a.ctx ≠ c := by
  have hfree := List.find?_some h
  simp only [Bool.not_eq_true', List.any_eq_false, beq_iff_eq] at hfree
  exact hfree a ha

section
variable {s u : State} {n c : Nat} {hs : List (BitVec 32)} (hon : s.tg.retired = false) (hready : tagReady s n = true)
  (hctx : freeCtx s (tagPrio s n) = some c) (hhold : holdInput s n = some (hs, u))
include hon hready hctx hhold

/-- What a job that starts comes to: it joins the jobs of s, no priority changes, and the array turns. -/
theorem tagJobStartS_turns : ∃ v slot hpow ej0, tagJobStartS s n = tagTurn v ∧ (∀ m, tagPrio v m = tagPrio s m) ∧
    v.tg = { s.tg with jobs := s.tg.jobs ++
      [{ ctx := c, recId := n, prio := tagPrio s n, suspended := true, bufs := hs, slot, hpow, ej0 }] } := by
  have hmove := BuffersMove.of_holdInput hhold
  have hprio : ∀ m, tagPrio (tagBegun u n) m = tagPrio s m := fun m => (tagPrio_tagBegun u n m).trans (hmove.tagPrio_eq m)
  have htg : (tagBegun u n).tg = s.tg := by
    obtain ⟨_, _, _, _, _, rfl⟩ := hmove
    exact tagBegun_tg _ n
  obtain ⟨slot, hpow, ej0, hnew⟩ := newTagJob_eq (tagBegun u n) c n hs
  refine ⟨_, slot, hpow, ej0, tagJobStartS_of_ready hon hready hctx hhold, hprio, ?_⟩
  rw [withTagJob, hnew, hprio, htg]

/-- A job that starts takes the free context, with its input held. -/
theorem tagJobStartS_takes_context : (tagJobStartS s n).tg.jobs.length = s.tg.jobs.length + 1 ∧
    ∃ j ∈ (tagJobStartS s n).tg.jobs, j.ctx = c ∧ j.recId = n ∧ j.prio = tagPrio s n ∧ j.bufs = hs := by
  obtain ⟨v, slot, hpow, ej0, hstart, -, htg⟩ := tagJobStartS_turns hon hready hctx hhold
  have hturn := JobsTurned.of_tagTurn v
  obtain ⟨j, hj, _, _, _, rfl⟩ := hturn.keeps_last (congrArg Tg.jobs htg)
  rw [hstart, hturn.length, htg]
  exact ⟨List.length_append, _, hj, rfl, rfl, rfl, rfl⟩

/-- With no other job it is served at once. -/
theorem tagJobStartS_served (hidle : s.tg.jobs = []) :
    ∃ j, (tagJobStartS s n).tg.jobs = [j] ∧ j.ctx = c ∧ j.recId = n ∧ j.suspended = false := by
  obtain ⟨v, slot, hpow, ej0, hstart, -, htg⟩ := tagJobStartS_turns hon hready hctx hhold
  rw [hidle] at htg
  have hjobs := congrArg Tg.jobs htg
  rw [hstart, tagTurn_of_one hjobs rfl, runJob_jobs_of_one hjobs]
  exact ⟨_, rfl, rfl, rfl, rfl⟩

/-- Of two jobs the one of the higher priority is served, the active one where both have the same (R227, R228). -/
theorem tagJobStartS_preempts {a : TagJob} (hone : s.tg.jobs = [a]) (hactive : a.suspended = false) :
    ∃ a' j, (tagJobStartS s n).tg.jobs = [a', j] ∧ a'.recId = a.recId ∧ j.recId = n ∧
      if tagPrio s n < tagPrio s a.recId then
        a'.suspended = true ∧ j.suspended = false ∧ (tagJobStartS s n).tg.susp = min (2 ^ 32 - 1) (s.tg.susp + 1)
      else a' = a ∧ j.suspended = true ∧ (tagJobStartS s n).tg.susp = s.tg.susp := by
  obtain ⟨v, slot, hpow, ej0, hstart, hprio, htg⟩ := tagJobStartS_turns hon hready hctx hhold
  have hne : a.ctx ≠ c := ctx_ne_of_freeCtx hctx (hone ▸ List.mem_cons_self)
  have hsusp : v.tg.susp = s.tg.susp := by rw [htg]
  rw [hone] at htg
  have hjobs := congrArg Tg.jobs htg
  rw [hstart, tagTurn_of_two hjobs hactive rfl, hprio, hprio]
  by_cases hhigher : tagPrio s n < tagPrio s a.recId
  · rw [if_pos hhigher]
    obtain ⟨count, acc, hswap⟩ := runJob_pauseJob_jobs hjobs hne
    exact ⟨_, _, hswap, rfl, rfl, (if_pos hhigher).mpr ⟨rfl, rfl, hsusp ▸ rfl⟩⟩
  · rw [if_neg hhigher]
    exact ⟨_, _, hjobs, rfl, rfl, (if_neg hhigher).mpr ⟨rfl, rfl, hsusp⟩⟩

end

/-! ## A job ends (R230) -/

/-- Context c is free of job j, and the job's input is given back. -/
def ctxFreed (s : State) (c : Nat) (j : TagJob) : State :=
  freeInput { s with tg.jobs := s.tg.jobs.filter fun k => k.ctx != c } j

section
variable {s : State} {c : Nat} {j : TagJob} (hjob : (s.tg.jobs.find? fun j => j.ctx == c && !j.suspended) = some j)
include hjob

/-- Agreement ends the job of a record, whose tag is kept, and the array turns to the next. -/
theorem tagJobDoneS_of_record (hrec : checkOf j.recId = none) (b : Bool) :
    tagJobDoneS s c true b = tagTurn (tagDone (ctxFreed s c j) j.recId) := by
  simp only [tagJobDoneS, hjob, hrec, Bool.true_or, if_true]
  rfl

/-- Agreement ends a check, which is noted of its record, and the array turns to the next. -/
theorem tagJobDoneS_of_check {p q i : Nat} (hcheck : checkOf j.recId = some (p, q, i)) (b : Bool) :
    tagJobDoneS s c true b = tagTurn (checkDone (ctxFreed s c j) p q i) := by
  simp only [tagJobDoneS, hjob, hcheck, Bool.true_or, if_true]
  rfl

/-- Disagreement twice retires TG. -/
theorem tagJobDoneS_of_disagree : tagJobDoneS s c false false = retireTg s := by
  simp only [tagJobDoneS, hjob, Bool.or_self, Bool.false_eq_true, if_false]

end

/-! ## A record leaves stage 4 (R168) -/

/-- PL takes a reference on each buffer of a record that goes to the peer. -/
theorem BuffersMove.of_holdForPeer (s : State) (id : Nat) : BuffersMove s (holdForPeer s id) := by
  unfold holdForPeer
  split
  · exact .ite (.foldl (fun t h => .of_acquire t h clsPl) _ _) (.refl s)
  · exact .refl s

/-- The end of stage 4 moves buffers, once the record has its place in the order. -/
theorem BuffersMove.of_recReady (s : State) (id : Nat) :
    BuffersMove (modRec { s with fm.nextReady := s.fm.nextReady + 1 } id fun j =>
      { j with stage := .ready, readyNo := s.fm.nextReady }) (recReady s id) := by
  unfold recReady
  exact .of_holdForPeer _ id

/-- With its key a record gets its tag as its trailer, at the end of stage 4. -/
theorem recOf_tagDone {s : State} {n : Nat} {j : RecJob} {k : KeySlot} (hj : recOf s n = some j)
    (hk : keyOf s j.r.keySlot = some k) : ∃ readyNo, recOf (tagDone s n) n =
      some { j with stage := .ready, readyNo, r := { j.r with trailer := tagOf k.key j.r } } := by
  simp only [tagDone, hj, hk]
  have hnext : recOf { s with fm.nextReady := s.fm.nextReady + 1 } n = some j := hj
  have hready : recOf (recReady s n) n = some { j with stage := .ready, readyNo := s.fm.nextReady } := by
    rw [(BuffersMove.of_recReady s n).recOf_eq, recOf_modRec (hf := ?keepsId), hnext]
    case keepsId => exact fun _ h => h
    simp
  refine ⟨s.fm.nextReady, ?_⟩
  rw [(BuffersMove.of_handOff _ _ _ _).recOf_eq, recOf_modRec (hf := ?keepsId), hready]
  case keepsId => exact fun _ h => h
  simp

/-! ## TG retires (R230, R231) -/

theorem TagsKept.after_untaggable {s₀ s : State} (h : TagsKept s₀ s) (j : RecJob) : TagsKept s₀ (untaggable s j) := by
  have hready : TagsKept s₀ (recReady s j.id) := .after_buffers h.of_tg (.of_recReady s j.id)
  have hhanded := TagsKept.after_buffers (s := modRec _ j.id fun j => { j with r := { j.r with trailer := zeros 16 } })
    hready.of_tg (.of_handOff _ j.bufs 4 clsFm)
  unfold untaggable
  split
  · exact hhanded.after_failWrite _ _ _ _ _ _
  · exact hhanded

/-- TG retires with no context held (R231). -/
theorem TagsKept.after_retireTg {s : State} (h : s.tg.retired = false) :
    TagsKept { s with tg.retired := true, tg.jobs := [] } (retireTg s) := by
  have hfreed := (TagsKept.refl { s with tg.retired := true, tg.jobs := [] }).after_releaseAll
    (s.tg.jobs.flatMap TagJob.bufs).eraseDups clsTg
  simp only [retireTg, h, Bool.false_eq_true, if_false]
  refine .after_serveAll (.after_foldl ?_ (fun _ j ht => ht.after_untaggable j) _)
  exact .after_buffers (.after_buffers hfreed.of_tg (.of_faultRec _ 0x04 true noUnit 0 0)) (.of_queueEvent _ evTagRetired 0 0 _)

/-! ## The statement -/

/-- Settles O31: the start of a job by what the array turns to, its end by what the buffers it hands on leave
of its record, and by what is left of TG as it retires. -/
theorem noncesAndTags : Obligations.NoncesAndTags := by
  unfold Obligations.NoncesAndTags
  refine ⟨fun s => ⟨execNonceReservation_of_low, fun l => execNonceLimitRaise_of_reserving⟩,
    fun s u n c hs hon hready hctx hhold => ⟨?takesContext, fun hidle => ?served, fun a hone hactive => ?preempts⟩,
    fun s c b j hjob => ⟨fun hrec => ?recordDone, fun p q i hcheck => ?checkDone, fun hon => ?retires⟩,
    fun s n j k hj hk => ?trailer⟩
  case takesContext =>
    obtain ⟨hlen, j, hj, hctx', hrec, hprio, hbufs⟩ := tagJobStartS_takes_context hon hready hctx hhold
    exact ⟨_, j, rfl, hlen, hj, hctx', hrec, hprio, hbufs⟩
  case served =>
    obtain ⟨j, hj⟩ := tagJobStartS_served hon hready hctx hhold hidle
    exact ⟨_, j, rfl, hj⟩
  case preempts =>
    obtain ⟨a', j, hturn⟩ := tagJobStartS_preempts hon hready hctx hhold hone hactive
    exact ⟨_, a', j, rfl, hturn⟩
  case recordDone => exact congrArg Host.Outcome.next (tagJobDoneS_of_record hjob hrec b)
  case checkDone => exact congrArg Host.Outcome.next (tagJobDoneS_of_check hjob hcheck b)
  case retires =>
    have hkept := TagsKept.after_retireTg hon
    exact ⟨_, congrArg Host.Outcome.next (tagJobDoneS_of_disagree hjob), hkept.retired, hkept.jobs⟩
  case trailer =>
    obtain ⟨readyNo, hdone⟩ := recOf_tagDone hj hk
    rw [hdone]
    rfl

end Sys2Proof.Proofs
end

section
/-! O35: a slot boundary inside a dataset, and the verdict on a segment (R255, R274, R276 to R281, R285). -/

namespace Sys2Proof.Proofs

open Sys2Proof Sys2Proof.Machine Sys2Proof.Laws

/-! ## The writer up to the slot that begins (R274, R276, R296) -/

/-- Currents recomputed during the last slot are in force, and none wait (R274). -/
theorem slotCurrents_eq (s : State) : slotCurrents s = { s with fm.wcur := s.fm.wnext.getD s.fm.wcur, fm.wnext := none } := by
  unfold slotCurrents
  cases h : s.fm.wnext with
  | some c => rfl
  | none => simp only [Option.getD_none]; rw [← h]

/-- The head is on track with servo HELD (R276). -/
def onTrack (s : State) (pes : Int) : Bool := decide (pes.natAbs ≤ setN s 0x4103 1) && s.sv.state == 2

theorem gateAt_eq (s : State) (pes : Int) :
    ∃ inhibits, gateAt s pes = { s with fm.gate := onTrack s pes, fm.inhibits := inhibits } := by
  unfold gateAt
  rw [← onTrack]
  cases onTrack s pes with
  | true => exact ⟨s.fm.inhibits, rfl⟩
  | false =>
    by_cases hgate : s.fm.gate = true
    · exact ⟨_, if_pos hgate⟩
    · refine ⟨s.fm.inhibits, (if_neg hgate).trans ?_⟩
      rw [← Bool.eq_false_of_not_eq_true hgate]

theorem setSpeed_eq (s : State) (idx : Nat) : ∃ ce, setSpeed s idx = { s with fm.speed := idx, ce := ce } := by
  unfold setSpeed
  split <;> exact ⟨_, rfl⟩

/-- The demand moves the speed by one index at most at a slot boundary (R296). -/
def speedStep (s : State) : State :=
  if demandIdx s > s.fm.speed then setSpeed s (s.fm.speed + 1)
  else if s.fm.speed > speedCap s then setSpeed s (s.fm.speed - 1) else s

theorem speedStep_eq (s : State) : ∃ speed ce, speedStep s = { s with fm.speed := speed, ce := ce } := by
  unfold speedStep
  split
  · exact ⟨_, setSpeed_eq s _⟩
  split
  · exact ⟨_, setSpeed_eq s _⟩
  · exact ⟨s.fm.speed, s.ce, rfl⟩

/-- All that a slot boundary does before the slot that begins is chosen. -/
def slotStart (s : State) (pes : Int) : State :=
  speedStep (trackLevels (gateAt (slotCurrents (if s.glb.restarting.isSome then { s with fm.wstate := 4 } else s)) pes))

theorem slotBoundaryS_of_writing {s : State} (hw : s.fm.wstate = 2 ∨ s.fm.wstate = 4) (hlanes : retiredCount s < 9) (pes : Int) :
    slotBoundaryS s pes = endClosing (nextSlot (slotStart s pes)) := by
  rw [slotBoundaryS, if_neg (by omega), if_neg (by omega)]
  rfl

/-- A restart of Lodestar only sends the writer to DRAIN. -/
theorem restartDrains_eq {s : State} (hw : s.fm.wstate = 2 ∨ s.fm.wstate = 4) :
    ∃ n, (n = 2 ∨ n = 4) ∧ (if s.glb.restarting.isSome then { s with fm.wstate := 4 } else s) = { s with fm.wstate := n } := by
  split
  · exact ⟨4, .inr rfl, rfl⟩
  · exact ⟨s.fm.wstate, hw, rfl⟩

theorem slotStart_eq {s : State} (hw : s.fm.wstate = 2 ∨ s.fm.wstate = 4) (pes : Int) :
    ∃ wstate inhibits lowSince downSince speed ce, (wstate = 2 ∨ wstate = 4) ∧ slotStart s pes = { s with
      fm := { s.fm with
        wstate, inhibits, lowSince, downSince, speed, gate := onTrack s pes, wcur := s.fm.wnext.getD s.fm.wcur, wnext := none }
      ce := ce } := by
  obtain ⟨wstate, hn, hdrain⟩ := restartDrains_eq hw
  obtain ⟨inhibits, hgate⟩ := gateAt_eq (slotCurrents { s with fm.wstate := wstate }) pes
  obtain ⟨speed, ce, hspeed⟩ := speedStep_eq (trackLevels (gateAt (slotCurrents { s with fm.wstate := wstate }) pes))
  rw [slotStart, hdrain, hspeed, hgate, slotCurrents_eq]
  exact ⟨wstate, inhibits, _, _, speed, ce, hn, rfl⟩

/-! ## The slot that begins (R255) -/

/-- The dataset found for a SEQ has that SEQ. -/
theorem seq_of_found {l : List WriteDs} {p q : Nat} {w : WriteDs}
    (h : (l.find? fun w => w.ds.part == p && w.ds.seq == q) = some w) : w.ds.seq = q := by
  have hw := List.find?_some h
  simp only [Bool.and_eq_true, beq_iff_eq] at hw
  exact hw.2

/-- A segment that goes to tape changes the track, the magnetisation its lane keeps and the segments counted. -/
theorem writeSeg_eq (s : State) (slot lane : Nat) (bytes : List Byte) : ∃ out mag segsT segsP, writeSeg s slot lane bytes =
    { s with out := out, fm := { s.fm with mag, segsT, segsP } } := by
  unfold writeSeg
  exact ⟨_, _, _, _, rfl⟩

theorem foldl_writeSeg_eq {α : Type} (slot : Nat) (lane : α → Nat) (bytes : State → α → List Byte) (gs : List α) (s : State) :
    ∃ out mag segsT segsP, gs.foldl (fun s g => writeSeg s slot (lane g) (bytes s g)) s =
      { s with out := out, fm := { s.fm with mag, segsT, segsP } } := by
  induction gs generalizing s with
  | nil => exact ⟨s.out, s.fm.mag, s.fm.segsT, s.fm.segsP, rfl⟩
  | cons g gs ih =>
    obtain ⟨_, _, _, _, hfirst⟩ := writeSeg_eq s slot (lane g) (bytes s g)
    rw [List.foldl_cons, hfirst]
    exact ih _

/-- Segments that fail leave the dataset itself alone. -/
theorem failAll_ds (w : WriteDs) (gs : List Seg) : (w.failAll gs).ds = w.ds :=
  List.foldlRecOn (motive := fun v : WriteDs => v.ds = w.ds) _ _ rfl fun _ h _ _ => h

theorem dataSlot_eq (s : State) (w : WriteDs) (i : Nat) : ∃ out mag segsT segsP media v, dataSlot s w i =
    putDs { s with out := out, fm := { s.fm with mag, segsT, segsP, current := some (w.ds.seq, i + 1) }, media := media } v := by
  unfold dataSlot
  extract_lets gs written taped w' fm u
  obtain ⟨out, mag, segsT, segsP, hwritten⟩ : ∃ out mag segsT segsP, written =
      { s with out := out, fm := { s.fm with mag, segsT, segsP } } := by
    unfold written
    split
    · exact foldl_writeSeg_eq i Seg.lane (fun s g => rowSegment s w g 0) gs s
    · exact ⟨s.out, s.fm.mag, s.fm.segsT, s.fm.segsP, rfl⟩
  obtain ⟨media, htaped⟩ : ∃ media, taped = { written with media := media } := by
    unfold taped
    split
    · exact ⟨_, rfl⟩
    · exact ⟨written.media, rfl⟩
  have hds : w'.ds = w.ds := by
    unfold w'
    split
    · rfl
    · exact failAll_ds w gs
  refine ⟨out, mag, segsT, segsP, media, noteRewrite u w', ?_⟩
  unfold u fm
  rw [htaped, hwritten, hds]

theorem nextSlot_of_data {s : State} {q n : Nat} {w : WriteDs} (hcur : s.fm.current = some (q, n)) (hn : n < 32)
    (hw : (s.fm.sealed.find? fun w => w.ds.part == s.fm.wpart && w.ds.seq == q) = some w) : nextSlot s = dataSlot s w n := by
  simp only [nextSlot, hcur, hw, if_pos hn]

/-! ## Nothing ends while a dataset is being written (R288, R294) -/

theorem endClosing_of_writing {s : State} (hidle : s.fm.wstate ≠ 0) (hsealed : s.fm.sealed ≠ []) : endClosing s = s := by
  simp [endClosing, closeOn, hidle, hsealed]

theorem startAgain_of_moving {s : State} (h : s.fm.wstate ≠ 5) : startAgain s = s := if_neg fun hs => h hs.1

theorem putDs_sealed_ne_nil {s : State} (h : s.fm.sealed ≠ []) (v : WriteDs) : (putDs s v).fm.sealed ≠ [] := by
  simpa [putDs] using h

/-- A slot boundary inside a dataset (R255, R274, R276). -/
theorem slotBoundary_inside {s : State} {q n : Nat} {w : WriteDs} (hw : s.fm.wstate = 2 ∨ s.fm.wstate = 4)
    (hlanes : retiredCount s < 9) (hcur : s.fm.current = some (q, n)) (hn : n < 32)
    (hfind : (s.fm.sealed.find? fun w => w.ds.part == s.fm.wpart && w.ds.seq == q) = some w) (pes : Int) :
    ∃ t, exec (.slotBoundary pes) s = .next t ∧ t.fm.current = some (q, n + 1) ∧ t.fm.gate = onTrack s pes ∧
      t.fm.wcur = s.fm.wnext.getD s.fm.wcur ∧ t.fm.wnext = none := by
  have hseq : w.ds.seq = q := seq_of_found hfind
  have hsealed : s.fm.sealed ≠ [] := List.ne_nil_of_mem (List.mem_of_find?_eq_some hfind)
  obtain ⟨wstate, inhibits, lowSince, downSince, speed, ce, hmoves, hstart⟩ := slotStart_eq hw pes
  have hnext : nextSlot (slotStart s pes) = dataSlot (slotStart s pes) w n :=
    nextSlot_of_data (by rw [hstart]; exact hcur) hn (by rw [hstart]; exact hfind)
  obtain ⟨out, mag, segsT, segsP, media, v, hslot⟩ := dataSlot_eq (slotStart s pes) w n
  have hbegun := hnext.trans hslot
  rw [hseq] at hbegun
  have hstate : (nextSlot (slotStart s pes)).fm.wstate = wstate := by rw [hbegun, hstart]; rfl
  have hkept : (nextSlot (slotStart s pes)).fm.sealed ≠ [] := by rw [hbegun, hstart]; exact putDs_sealed_ne_nil hsealed v
  have hends : startAgain (slotBoundaryS s pes) = nextSlot (slotStart s pes) := by
    rw [slotBoundaryS_of_writing hw hlanes, endClosing_of_writing (by omega) hkept, startAgain_of_moving (by omega)]
  refine ⟨nextSlot (slotStart s pes), congrArg Host.Outcome.next hends, ?_⟩
  rw [hbegun, hstart]
  exact ⟨rfl, rfl, rfl, rfl⟩

/-! ## The verdict on a segment (R277, R279, R285) -/

theorem segmentVerdictS_of_awaited {s : State} {q a slot lane wrap : Nat} {g : Seg} (h : awaited s q a slot lane = some (wrap, g))
    (codes : List Int) : segmentVerdictS s q a slot lane codes =
      let heard := hear s (bitClock s wrap (speedMmps s.fm.speed)) (1 - writingModule wrap) lane false 0 codes
      let x := verify s wrap g heard
      verdictS (noteVerify s wrap lane heard x.iterations.isSome) q a slot lane x := by
  rw [segmentVerdictS, h]

/-- The four conditions of R277. -/
theorem verdictPasses_iff (wrap : Nat) (g : Seg) (x : VerdictObs) : verdictPasses wrap g x = true ↔
    (∃ n, x.iterations = some n ∧ n ≤ 6) ∧ x.differ ≤ 96 ∧ (∃ d, x.sync = some d ∧ d.natAbs ≤ 8) ∧
      ∃ h, segHeadOf x.header = some h ∧ h.wrap = wrap ∧ possibleAt g h = true := by
  simp only [verdictPasses, Bool.and_eq_true, decide_eq_true_eq, and_assoc]
  refine and_congr ?_ (and_congr_right' (and_congr ?_ ?_))
  · cases x.iterations <;> simp
  · cases x.sync <;> simp
  · cases segHeadOf x.header <;> simp

/-- A verdict that passes ends the lane's run of failed ones (Table 9.2). -/
theorem noteVerdict_pass_consec (s : State) (wrap lane : Nat) : get (noteVerdict s wrap lane true false).fm.consec lane 0 = 0 := by
  change get (putD lane 0 0 s.fm.consec) lane 0 = 0
  rw [get_putD, if_pos rfl]

/-- A row that has a passing copy waits for no rewrite (R279, R281). -/
theorem segPasses_settles {w : WriteDs} {g : Seg} {f : FailRow} (hf : f ∈ (w.segPasses g).fails) (hsub : f.sub = g.sub)
    (hrow : f.row = g.row) : f.passed = true ∧ f.out = false := by
  obtain ⟨f', -, rfl⟩ := List.mem_map.1 hf
  by_cases hsame : f'.sub = g.sub ∧ f'.row = g.row
  · rw [if_pos hsame]; exact ⟨rfl, rfl⟩
  · rw [if_neg hsame] at hsub hrow; exact absurd ⟨hsub, hrow⟩ hsame

/-- A row that fails waits for a rewrite behind those that failed before it (R279). -/
theorem segFails_waits (w : WriteDs) (g : Seg) : ∃ f, (w.segFails g).fails.getLast? = some f ∧ f.sub = g.sub ∧ f.row = g.row ∧
    f.slot = g.slot ∧ f.out = false ∧ g.lane ∈ f.lanes := by
  unfold WriteDs.segFails
  extract_lets same f
  refine ⟨f, List.getLast?_concat, ?_⟩
  unfold f
  cases hfind : w.fails.find? same with
  | none => exact ⟨rfl, rfl, rfl, rfl, List.mem_singleton_self _⟩
  | some f' =>
    have hsame : f'.sub = g.sub ∧ f'.row = g.row := by simpa [same] using List.find?_some hfind
    exact ⟨hsame.1, hsame.2, rfl, rfl, by simp⟩

/-! ## The statement -/

/-- Settles O35. In the first clause the dataset being written is still sealed and the writer in STREAM or DRAIN, so neither closing
nor a new start follows the slot. -/
theorem slotsAndVerdicts : Obligations.SlotsAndVerdicts := by
  unfold Obligations.SlotsAndVerdicts
  refine ⟨fun s pes q n w hw hlanes hcur hn hfind => slotBoundary_inside hw hlanes hcur hn hfind pes,
    fun s q a slot lane wrap g codes h => ?_, fun s q a slot lane x w g hw hg => ?_⟩
  · exact congrArg (fun t => Host.Outcome.next (startAgain t)) (segmentVerdictS_of_awaited h codes)
  · intro pass w' v r
    refine ⟨?_, verdictPasses_iff w.wrap g x, ?_, ?_⟩
    · simp only [verdictS, hw, hg]
      rfl
    · intro hpass
      have hv : v = w'.segPasses g := if_pos hpass
      rw [hv, hpass]
      exact ⟨noteVerdict_pass_consec s w.wrap lane, fun f => segPasses_settles⟩
    · intro hfail
      have hv : v = w'.segFails g := if_neg (by simp [hfail])
      rw [hv]
      exact ⟨rfl, segFails_waits w' g⟩

end Sys2Proof.Proofs
end

section
/-! O34: how the writer starts, reaches its append point, turns, slows and stops, and its write currents (R274, R291 to R294, R296,
R297). -/

namespace Sys2Proof.Proofs

open Sys2Proof Sys2Proof.Machine Sys2Proof.Laws

/-! ## The head on its way to a wrap to be written (R277, R524) -/

/-- From s to t the writer and CE stay as they are. -/
def WriterKept (s t : State) : Prop := t.fm = s.fm ∧ t.ce = s.ce

theorem WriterKept.refl (s : State) : WriterKept s s := ⟨rfl, rfl⟩

theorem WriterKept.trans {s t u : State} (hst : WriterKept s t) (htu : WriterKept t u) : WriterKept s u :=
  ⟨htu.1.trans hst.1, htu.2.trans hst.2⟩

theorem WriterKept.foldl {α : Type} {f : State → α → State} (hf : ∀ t x, WriterKept t (f t x)) (l : List α) (s : State) :
    WriterKept s (l.foldl f s) :=
  List.foldlRecOn l f (WriterKept.refl s) fun t ht x _ => ht.trans (hf t x)

theorem odPut_writerKept (s : State) (idx sub : Nat) (e : OdEntry) (v : List Byte) : WriterKept s (odPut s idx sub e v) := by
  unfold odPut setBank
  dsimp only
  split
  · split <;> exact ⟨rfl, rfl⟩
  · exact ⟨rfl, rfl⟩

theorem calibrate_writerKept (s : State) (dir : Nat) (ls : List (Nat × Nat × Nat × Bool × List Byte)) :
    WriterKept s (calibrate s dir ls) := by
  unfold calibrate
  refine WriterKept.trans ⟨rfl, rfl⟩ (.foldl (fun t x => ?_) ls _)
  obtain ⟨b, m, l, ok, v⟩ := x
  dsimp only
  split
  · split
    · exact .trans ⟨rfl, rfl⟩ (odPut_writerKept _ _ _ _ _)
    · exact ⟨rfl, rfl⟩
  · exact ⟨rfl, rfl⟩

theorem revCalibrate_writerKept (s : State) (wrap : Nat) : WriterKept s (revCalibrate s wrap) := by
  unfold revCalibrate
  dsimp only
  split
  · exact .refl s
  · exact .trans ⟨rfl, rfl⟩ (calibrate_writerKept _ _ _)

theorem loadEphemeris_writerKept (s : State) (wrap : Nat) (modules : List Nat) : WriterKept s (loadEphemeris s wrap modules) := by
  unfold loadEphemeris
  refine .foldl (fun t i => ?_) _ s
  dsimp only
  split
  · exact .refl t
  · split <;> exact ⟨rfl, rfl⟩

theorem aimHead_writerKept (s : State) (wrap : Nat) : WriterKept s (aimHead s wrap) := by
  unfold aimHead
  split <;> exact ⟨rfl, rfl⟩

theorem aimVerifying_writerKept (s : State) (wrap : Nat) : WriterKept s (aimVerifying s wrap) :=
  (loadEphemeris_writerKept s wrap _).trans (aimHead_writerKept _ wrap)

/-! ## The start (R292, R293, R297) -/

theorem setSpeed_fm (s : State) (idx : Nat) : (setSpeed s idx).fm = { s.fm with speed := idx } := by
  obtain ⟨ce, hspeed⟩ := setSpeed_eq s idx
  rw [hspeed]

/-- Who owns the transport does not turn on its speed. -/
theorem setSpeed_owner (s : State) (idx : Nat) : (setSpeed s idx).ce.owner = s.ce.owner := by
  unfold setSpeed
  split <;> rfl

/-- The writer enters START in a partition: one backhitch more, the gate closed, the transport its own. -/
def inStart (s : State) (x : Part) : State :=
  { revCalibrate s x.wrap with
    fm.wstate := 1, fm.wpart := x.num, fm.wrap := x.wrap, fm.startTries := 0, fm.servoTry := false, fm.again := false, fm.gate := false,
    fm.backhitch := satAdd 65535 s.fm.backhitch 1, ce.owner := 1, fm.current := none }

/-- From there the head goes to the wrap, and tape to the run-up before the append point, then on at the speed demanded. -/
theorem startWriter_of_part {s : State} {x : Part} (hpart : (startPart s).bind (partOf s) = some x) :
    let u := inStart s x
    let n := demandIdx u
    startWriter s = setSpeed (goTo (aimVerifying u x.wrap) x.wrap (lposOf x.pos)
      (runUpMm u (speedMmps n) + setN u 0x2124 7) (speedMmps n)) n := by
  rw [startWriter, hpart]
  rfl

theorem inStart_fm (s : State) (x : Part) : (inStart s x).fm = { s.fm with
    wstate := 1, wpart := x.num, wrap := x.wrap, startTries := 0, servoTry := false, again := false, gate := false,
    backhitch := satAdd 65535 s.fm.backhitch 1, current := none } := by
  simp only [inStart, (revCalibrate_writerKept s x.wrap).1]

theorem startWriter_fm {s : State} {x : Part} (hpart : (startPart s).bind (partOf s) = some x) :
    ∃ speed, (startWriter s).fm = { (inStart s x).fm with speed } := by
  rw [startWriter_of_part hpart, ← (aimVerifying_writerKept (inStart s x) x.wrap).1]
  exact ⟨_, setSpeed_fm _ _⟩

theorem startWriter_owner {s : State} {x : Part} (hpart : (startPart s).bind (partOf s) = some x) : (startWriter s).ce.owner = 1 := by
  rw [startWriter_of_part hpart, setSpeed_owner]
  exact congrArg Ce.owner (aimVerifying_writerKept (inStart s x) x.wrap).2

/-- The writer that may start is at rest, on its way there, or HALTED (Table 9.4). -/
theorem wstate_of_mayStart {s : State} (h : mayStart s = true) : s.fm.wstate = 0 ∨ s.fm.wstate = 5 ∨ s.fm.wstate = 6 := by
  simp only [mayStart, haltedElsewhere, Bool.and_eq_true, Bool.or_eq_true, beq_iff_eq] at h
  tauto

/-- The writer that may start, and meets no fault, starts when it is asked to write. -/
theorem writeOn_of_mayStart {s : State} (hfault : tapeFault s = none) (hmay : mayStart s = true) : writeOn s = startWriter s := by
  have hstate := wstate_of_mayStart hmay
  rw [writeOn, if_neg (by omega), askStart, hfault]
  exact if_pos hmay

/-- The writer in DRAIN goes back to STREAM when it is asked to write (R292). -/
theorem writeOn_of_drain {s : State} (hdrain : s.fm.wstate = 4) (hup : s.glb.restarting = none) :
    writeOn s = { s with fm.wstate := 2 } := by
  rw [writeOn, if_pos hdrain, if_pos (by rw [hup]; rfl)]

theorem writerStart_of_startNow {s : State} (h : startNow s = true) : exec .writerStart s = .next (writeOn s) :=
  congrArg Host.Outcome.next (if_pos h)

theorem startAgeExpiry_of_agedWrite {s : State} (h : agedWrite s = true) : exec .startAgeExpiry s = .next (writeOn s) :=
  congrArg Host.Outcome.next (if_pos h)

theorem elapsed_of_le {s : State} {t ms : Nat} (h : t + ms * 216000 ≤ s.now) : elapsed s t ms = true :=
  decide_eq_true (Nat.mul_comm ms msCycles ▸ h)

/-- A WRITE that has waited for the start age with bytes that lie on no tape (R293). -/
theorem agedWrite_of_waiting {s : State} {c : Cmd} {k : Piece} (hc : c ∈ writesOf s) (hkept : c.dropped = false)
    (hage : c.since + setN s 0x2124 2 * 216000 ≤ s.now) (hk : k ∈ c.pieces) (hopen : k.settled = false) (hshort : k.onTape < k.len) :
    agedWrite s = true := by
  have hpiece : (c.pieces.any fun k => !k.settled && decide (k.onTape < k.len)) = true :=
    List.any_eq_true.2 ⟨k, hk, by simp [hopen, hshort]⟩
  have helapsed : elapsed s c.since (setN s 0x2124 2) = true := elapsed_of_le hage
  exact List.any_eq_true.2 ⟨c, hc, by simp [hkept, helapsed, hpiece]⟩

/-! ## The append point (R297) -/

theorem appendPointReached_locked {s : State} (hstart : s.fm.wstate = 1) (hheld : s.sv.state = 2) :
    exec (.appendPointReached true) s = .next { s with fm.wstate := 2, fm.gate := true, fm.startTries := 0 } := by
  refine congrArg Host.Outcome.next ?_
  rw [if_neg (by omega), if_pos (by simp [hheld])]

/-- A start that failed is repeated on the same wrap (R297). -/
theorem appendPointReached_repeats {s : State} {x : Part} (hstart : s.fm.wstate = 1) (htries : s.fm.startTries < 3)
    (hpart : partOf s s.fm.wpart = some x) :
    exec (.appendPointReached false) s = .next (goTo { s with fm.startTries := s.fm.startTries + 1 } x.wrap (lposOf x.pos)
      (runUpMm s (speedMmps s.fm.speed) + setN s 0x2124 7) (speedMmps s.fm.speed)) := by
  refine congrArg Host.Outcome.next ?_
  rw [if_neg (by omega), if_neg (by simp), if_pos htries, hpart]

theorem appendPointReached_interrupts {s : State} (hstart : s.fm.wstate = 1) (htries : 3 ≤ s.fm.startTries) :
    exec (.appendPointReached false) s = .next (interruptWriting s stServoLost) := by
  refine congrArg Host.Outcome.next ?_
  rw [if_neg (by omega), if_neg (by simp), if_neg (by omega)]

/-! ## Times of the writer (R294, R296) -/

theorem stopTimeExpiry_drains {s : State} {u : Nat} (hlow : s.fm.lowSince = some u) (hstream : s.fm.wstate = 2)
    (htime : u + setN s 0x2124 4 * 216000 ≤ s.now) : exec .stopTimeExpiry s = .next (enterDrain s) := by
  have helapsed : elapsed s u (setN s 0x2124 4) = true := elapsed_of_le htime
  refine congrArg Host.Outcome.next ?_
  rw [hlow]
  exact if_pos ⟨hstream, helapsed⟩

theorem speedDownDelayExpiry_slows {s : State} {u : Nat} (hdown : s.fm.downSince = some u)
    (hmoves : s.fm.wstate = 2 ∨ s.fm.wstate = 4) (hdemand : demandIdx s + 2 ≤ s.fm.speed)
    (htime : u + setN s 0x2124 5 * 216000 ≤ s.now) :
    exec .speedDownDelayExpiry s = .next { setSpeed s (s.fm.speed - 1) with fm.downSince := none } := by
  have helapsed : elapsed s u (setN s 0x2124 5) = true := elapsed_of_le htime
  refine congrArg Host.Outcome.next ?_
  rw [hdown]
  exact if_pos ⟨hmoves, hdemand, helapsed⟩

/-! ## The turn (R291) -/

/-- A partition that was replaced, read back. -/
theorem partOf_setPart_self {s : State} {x : Part} (y : Part) (h : partOf s y.num = some x) : partOf (setPart s y) y.num = some y := by
  have hfind : partOf (setPart s y) y.num = (partOf s y.num).map fun z => if y.num = y.num then y else z :=
    find_map_key Part.num y.num y.num (fun _ => y) (fun _ _ => rfl) s.fm.parts
  simp [hfind, h]

/-- The partition's place after the turn: the start of its next wrap. -/
def afterTurn (x : Part) : Part := { x with wrap := x.wrap + 1, pos := wrapStart x.firstPair (x.wrap + 1) }

/-- A turn changes, of the writer, its state, the gate, the dataset in progress, the speed and the partition's place. -/
theorem enterTurn_fm (s : State) (x : Part) : ∃ speed, (enterTurn s x).fm =
    { (setPart s (afterTurn x)).fm with wstate := 3, gate := false, current := none, speed } := ⟨_, rfl⟩

theorem enterTurn_posmode (s : State) (x : Part) : (enterTurn s x).ce.posmode = true := rfl

theorem partOf_enterTurn {s : State} {x : Part} (h : partOf s x.num = some x) : partOf (enterTurn s x) x.num = some (afterTurn x) := by
  obtain ⟨speed, hfm⟩ := enterTurn_fm s x
  have hparts : partOf (enterTurn s x) x.num = partOf (setPart s (afterTurn x)) x.num := by simp only [partOf, hfm]
  exact hparts.trans (partOf_setPart_self (afterTurn x) h)

/-- The head moves to the partition's wrap once tape has reversed; of the writer nothing else changes. -/
theorem turnHead_fm {s : State} {x : Part} (hpart : partOf s s.fm.wpart = some x) (hturn : s.fm.wstate = 3)
    (hreversed : s.ce.posmode = false) (hwrap : s.fm.wrap ≠ x.wrap) : (turnHead s).fm = { s.fm with wrap := x.wrap } := by
  simp only [turnHead, hpart]
  rw [if_pos ⟨hturn, by rw [hreversed]; rfl, hwrap⟩, (aimVerifying_writerKept _ x.wrap).1]
  simp only [(revCalibrate_writerKept s x.wrap).1]

theorem turnComplete_streams {s : State} {x : Part} (hpart : partOf s s.fm.wpart = some x) (hturn : s.fm.wstate = 3)
    (hreversed : s.ce.posmode = false) (hwrap : s.fm.wrap = x.wrap) (hplace : ((posNow s : Int) - lposOf x.pos).natAbs ≤ 1) :
    exec .turnComplete s = .next { s with fm.wstate := 2 } := by
  have hturned : turned s = true := by simp [turned, hpart, hturn, hreversed, hwrap, hplace]
  exact congrArg Host.Outcome.next (if_pos hturned)

/-! ## Write currents (R274) -/

/-- A write current has 8 bits. -/
theorem writeCurrent_le (s : State) (x : Nat × Int) (t : Int) : writeCurrent s x t ≤ 255 := by
  simp only [writeCurrent, clampI]
  omega

/-- An entry of a list that is filled key by key. -/
theorem get_foldl_put {α : Type} {key : Nat → Nat} (hkey : Function.Injective key) (v : Nat → α) (n : Nat) (d : α) (ls : List Nat)
    (w : List (Nat × α)) :
    get (ls.foldl (fun w l => put (key l) (v l) w) w) (key n) d = if n ∈ ls then v n else get w (key n) d := by
  induction ls generalizing w with
  | nil => rfl
  | cons l ls ih =>
    rw [List.foldl_cons, ih, get_put]
    by_cases hlater : n ∈ ls
    · simp [hlater]
    · by_cases hnow : n = l
      · simp [hnow]
      · simp [hlater, hnow, hkey.eq_iff]

/-- All lanes of a module have a current of 8 bits once they are recomputed. -/
theorem newCurrents_le (s : State) (m : Nat) (t : Int) {l : Nat} (hl : l < 64) : get (newCurrents s m t) (64 * m + l) 0 ≤ 255 := by
  have hcurrent : get (newCurrents s m t) (64 * m + l) 0 = writeCurrent s (get s.fm.wset (64 * m + l) (0, 0)) t :=
    (get_foldl_put (fun _ _ h => Nat.add_left_cancel h) _ l 0 (List.range 64) s.fm.wcur).trans (if_pos (List.mem_range.2 hl))
  rw [hcurrent]
  exact writeCurrent_le _ _ _

theorem updateCurrents_wcur (s : State) (m : Nat) (t : Int) : (updateCurrents s m t).fm.wcur = newCurrents s m t := by
  rw [updateCurrents]

/-- The head temperatures are read (R574). -/
def headTempsRead (s : State) (a b : Option Int) : State :=
  { s with glb.temps :=
      [s.glb.temps.getD 0 0, s.glb.temps.getD 1 0, a.getD (s.glb.temps.getD 2 0), b.getD (s.glb.temps.getD 3 0)] }

/-- The temperature of the module that writes. -/
def writingTemp (s : State) : Int := s.glb.temps.getD (2 + writingModule s.fm.wrap) 0

/-- While nothing is being written the settings are taken and the currents are in force at once (R274). -/
theorem writeCurrentUpdate_idle {s : State} (h : s.fm.current = none) (a b : Option Int) :
    exec (.writeCurrentUpdate a b) s = .next (updateCurrents (takeCurrents (headTempsRead s a b) (writingModule s.fm.wrap))
      (writingModule s.fm.wrap) (writingTemp (headTempsRead s a b))) :=
  congrArg Host.Outcome.next (if_pos (Option.isNone_iff_eq_none.2 h))

/-- Within a dataset the currents wait for the next slot (R274). -/
theorem writeCurrentUpdate_writing {s : State} (h : s.fm.current ≠ none) (a b : Option Int) :
    exec (.writeCurrentUpdate a b) s = .next { headTempsRead s a b with
      fm.wnext := some (newCurrents (headTempsRead s a b) (writingModule s.fm.wrap) (writingTemp (headTempsRead s a b))) } :=
  congrArg Host.Outcome.next (if_neg fun hnone => h (Option.isNone_iff_eq_none.1 hnone))

/-! ## The statement -/

/-- Settles O34. In the first clause the writer is not in DRAIN, since it may start; what `enterDrain` and `interruptWriting` come to
is not part of the statement. -/
theorem writerRuns : Obligations.WriterRuns := by
  unfold Obligations.WriterRuns
  refine ⟨fun s p x hfault hmay hp hx => ?_, fun s hstart => ?_, fun s => ?_⟩
  · have hasked := writeOn_of_mayStart hfault hmay
    have hpart : (startPart s).bind (partOf s) = some x := by rw [hp]; exact hx
    obtain ⟨speed, hfm⟩ := startWriter_fm hpart
    rw [inStart_fm] at hfm
    have howner := startWriter_owner hpart
    constructor
    · intro hnow
      refine ⟨startWriter s, by rw [writerStart_of_startNow hnow, hasked], ?_⟩
      rw [hfm]
      exact ⟨rfl, howner, rfl, rfl, rfl, rfl⟩
    · rintro ⟨c, hc, hkept, hage, k, hk, hopen, hshort⟩
      have haged := agedWrite_of_waiting hc hkept hage hk hopen hshort
      refine ⟨startWriter s, by rw [startAgeExpiry_of_agedWrite haged, hasked], ?_⟩
      rw [hfm]
      exact ⟨rfl, howner, rfl⟩
  · exact ⟨appendPointReached_locked hstart,
      fun x htries hx => ⟨_, appendPointReached_repeats hstart htries hx, rfl, hstart, rfl⟩,
      appendPointReached_interrupts hstart⟩
  · refine ⟨fun u => stopTimeExpiry_drains, fun hdrain hup => ?_, fun u hdown hmoves hdemand htime => ?_, fun x hx => ?_,
      fun x hx hturn hreversed => ⟨fun hwrap => ?_, turnComplete_streams hx hturn hreversed⟩, fun a b l hl => ?_⟩
    · have hasked := writeOn_of_drain hdrain hup
      exact ⟨fun haged => by rw [startAgeExpiry_of_agedWrite haged, hasked],
        fun hnow => by rw [writerStart_of_startNow hnow, hasked]⟩
    · exact ⟨_, speedDownDelayExpiry_slows hdown hmoves hdemand htime, congrArg Fm.speed (setSpeed_fm s _), rfl⟩
    · obtain ⟨speed, hfm⟩ := enterTurn_fm s x
      rw [hfm, partOf_enterTurn hx]
      exact ⟨rfl, rfl, rfl, enterTurn_posmode s x, rfl⟩
    · rw [turnHead_fm hx hturn hreversed hwrap]
      exact ⟨rfl, hturn⟩
    · by_cases hidle : s.fm.current = none
      · refine ⟨_, writeCurrentUpdate_idle hidle a b, fun _ => ⟨rfl, ?_⟩, fun h => absurd hidle h, rfl, rfl⟩
        rw [updateCurrents_wcur]
        exact newCurrents_le _ _ _ hl
      · exact ⟨_, writeCurrentUpdate_writing hidle a b, fun h => absurd h hidle,
          fun _ => ⟨rfl, _, rfl, newCurrents_le _ _ _ hl⟩, rfl, rfl⟩

end Sys2Proof.Proofs
end

section
/-! O37: a segment slot of a lane that reads, and a dataset whose user area is complete (R185, R311 to R322, R324, R327, R328). -/

namespace Sys2Proof.Proofs

open Sys2Proof Sys2Proof.Machine Sys2Proof.Laws

/-! ## Lanes and front ends -/

@[simp] theorem laneOf_modLane (s : State) (l : Nat) (f : Lane → Lane) : laneOf (modLane s l f) l = f (laneOf s l) := by
  simp only [laneOf, modLane, get_putD, if_true]

theorem laneOf_congr {s t : State} (h : t.rc.lanes = s.rc.lanes) (l : Nat) : laneOf t l = laneOf s l := by
  rw [laneOf, laneOf, h]

/-- From s to t at most the registers of front ends change. -/
def FrontEndsMove (s t : State) : Prop := ∃ fes, t = { s with rc.fes := fes }

theorem FrontEndsMove.refl (s : State) : FrontEndsMove s s := ⟨_, rfl⟩

theorem FrontEndsMove.trans {s t u : State} (hst : FrontEndsMove s t) (htu : FrontEndsMove t u) : FrontEndsMove s u := by
  obtain ⟨_, rfl⟩ := hst
  obtain ⟨_, rfl⟩ := htu
  exact ⟨_, rfl⟩

theorem FrontEndsMove.of_modFe (s : State) (m l : Nat) (f : FrontEnd → FrontEnd) : FrontEndsMove s (modFe s m l f) := ⟨_, rfl⟩

theorem FrontEndsMove.of_noteHeard (s : State) (wrap mmps m l : Nat) (h : Heard) :
    FrontEndsMove s (noteHeard s wrap mmps m l h) := by
  unfold noteHeard
  split
  · exact .refl s
  · exact (of_modFe s m l _).trans (of_modFe _ m l _)

theorem FrontEndsMove.of_feDecided (s : State) (m l : Nat) (ok : Bool) (agc : Int) (moves : List Int) :
    FrontEndsMove s (feDecided s m l ok agc moves) := by
  unfold feDecided
  split
  · exact .refl s
  · exact of_modFe s m l _

theorem FrontEndsMove.laneOf {s t : State} (h : FrontEndsMove s t) (l : Nat) : laneOf t l = laneOf s l := by
  obtain ⟨_, rfl⟩ := h
  rfl

theorem FrontEndsMove.reads {s t : State} (h : FrontEndsMove s t) : t.rc.reads = s.rc.reads := by
  obtain ⟨_, rfl⟩ := h
  rfl

theorem FrontEndsMove.setN {s t : State} (h : FrontEndsMove s t) (idx sub : Nat) : setN t idx sub = setN s idx sub := by
  obtain ⟨_, rfl⟩ := h
  rfl

/-! ## Buffers for the datasets that are read (R151, R159) -/

theorem BuffersMove.rc {s t : State} (h : BuffersMove s t) : t.rc = s.rc := by
  obtain ⟨_, _, _, _, _, rfl⟩ := h
  rfl

theorem BuffersMove.of_allocate (s : State) (p cls : Nat) (cmd : Option Nat) : BuffersMove s (allocate s p cls cmd).2 := by
  unfold allocate
  split
  · exact .refl s
  · dsimp only
    split
    · exact .refl s
    · split
      · exact .of_setPool s p _
      · split
        · next a ha =>
          obtain ⟨x, hx⟩ := allocNow_touches_pool (h := a.1) (t := a.2) ha
          exact hx ▸ .of_setPool s p x
        · exact .of_setPool s p _

theorem BuffersMove.of_unitAlloc (s : State) (p cls : Nat) : BuffersMove s (unitAlloc s p cls).2 := by
  unfold unitAlloc
  split
  · exact ⟨_, _, _, _, _, rfl⟩
  · split
    · exact .refl s
    · exact .of_allocate s p cls none

/-! ## Both front ends read the slot (R322, R324) -/

/-- Where other lanes tell the slot's place, the scheduler notes it. -/
theorem readingAt_rc (s : State) (x : SegSlot) : (readingAt s x).rc = s.rc := by
  unfold readingAt
  split <;> rfl

/-- The intake moves registers of both front ends and, of the lane, the delay store and the counts of defects. -/
theorem intake_fst (s : State) (l : Nat) (x : SegSlot) : ∃ u store drops tas, FrontEndsMove s u ∧
    (intake s l x).1 = modLane u l fun y =>
      { y with store := store, drops := satAdd 65535 y.drops drops, tas := satAdd 255 y.tas tas } :=
  ⟨_, _, _, _, (FrontEndsMove.of_noteHeard s _ _ _ l _).trans (.of_noteHeard _ _ _ _ l _), rfl⟩

theorem intake_state (s : State) (l : Nat) (x : SegSlot) : (laneOf (intake s l x).1 l).state = (laneOf s l).state := by
  obtain ⟨u, _, _, _, hmove, heq⟩ := intake_fst s l x
  rw [heq, laneOf_modLane, hmove.laneOf]

theorem intake_reads (s : State) (l : Nat) (x : SegSlot) : (intake s l x).1.rc.reads = s.rc.reads := by
  obtain ⟨u, _, _, _, hmove, heq⟩ := intake_fst s l x
  rw [heq, modLane_rc_reads, hmove.reads]

/-- The oldest of a store that takes in one more frame is decided once three others are behind it. -/
theorem oldest_isSome_iff {α : Type} (store : List α) (f : α) :
    (if (store ++ [f]).length < 4 then none else (store ++ [f]).head?).isSome = true ↔ 3 ≤ store.length := by
  rw [List.length_append, List.length_singleton]
  by_cases h : 3 ≤ store.length
  · rw [if_neg (by omega)]
    simp [h]
  · rw [if_pos (by omega)]
    simp [h]

theorem intake_lead_isSome_iff (s : State) (l : Nat) (x : SegSlot) :
    (intake s l x).2.lead.isSome = true ↔ 3 ≤ (laneOf s l).store.length :=
  oldest_isSome_iff (laneOf s l).store _

/-! ## The slot is decided at once or late (R321) -/

theorem segmentDecodeS_of_reads {s : State} {l : Nat} {x : SegSlot} (hreads : laneReads s l = true) (hmissed : x.missed = false)
    (hstate : (laneOf s l).state ≠ 0) (late : Option Nat) :
    segmentDecodeS s l x late =
      decideSegment (intake (readingAt s x) l x).1 l (intake (readingAt s x) l x).2 late := by
  have hstays : (laneOf (readingAt s x) l).state ≠ 0 := by
    rwa [laneOf_congr (congrArg Rc.lanes (readingAt_rc s x))]
  simp only [segmentDecodeS, hreads, hmissed, hstays, Bool.not_true, Bool.false_and, Bool.false_eq_true, if_false]

/-- While the slots stay in one dataset the head passes no boundary. -/
theorem segmentDecode_inside {s : State} {x : SegSlot} (l : Nat)
    (hinside : ∀ q c p u, x.at_ = some (q, c) → s.rcl.under = some (p, u) → q = u) :
    exec (.segmentDecode l x) s = .next (segmentDecodeS s l x none) := by
  change execSegmentDecode l x s = _
  unfold execSegmentDecode
  cases hat : x.at_ with
  | none => rfl
  | some a =>
    cases hunder : s.rcl.under with
    | none => rfl
    | some b => simp [hinside a.1 a.2 b.1 b.2 hat hunder]

theorem decoderBudgetExhausted_reading {s : State} (hladder : s.rc.ladder = none) (x : LateSlot) :
    exec (.decoderBudgetExhausted x) s = .next (segmentDecodeS s x.lane x.slot (some x.tries)) := by
  change execDecoderBudgetExhausted x s = _
  simp [execDecoderBudgetExhausted, hladder]

/-! ## The positions that are tried (R313, R317, R321, R324) -/

/-- The weight with which the modules are combined. -/
def slotWeight (s : State) (l : Nat) (x : SegObs) : Nat :=
  match singleModule s l x with
  | some m => if m = writingModule s.rc.wrap then 8 else 0
  | none => leadWeight ((x.lead.map Frame.noise).getD 0) x.trail.noise

/-- The candidates that are tried: the first three of their rank. -/
def topCandidates (s : State) (l : Nat) (x : SegObs) : List Candidate := (candidates s l (singleModule s l x) x.cands).take 3

/-- In track the predicted position is tried as well, after the candidates, unless it is one of them. -/
def triesPredicted (s : State) (l : Nat) (x : SegObs) : Bool :=
  decide (2 ≤ (laneOf s l).state) && !((topCandidates s l x).any fun c => c.pos == 0)

theorem triesPredicted_iff (s : State) (l : Nat) (x : SegObs) :
    triesPredicted s l x = true ↔ 2 ≤ (laneOf s l).state ∧ ∀ c ∈ topCandidates s l x, c.pos ≠ 0 := by
  simp [triesPredicted]

/-- The positions of the attempts: the candidates', and the predicted one; of them as many as the budget allowed. -/
def triedPlaces (s : State) (l : Nat) (x : SegObs) (late : Option Nat) : List (Int × Int) :=
  let all := (topCandidates s l x).map (fun c => (c.pos, c.e)) ++ (if triesPredicted s l x then [(0, 0)] else [])
  match late with
  | some n => all.take n
  | none => all

/-- What the attempts came to. -/
def slotTried (s : State) (l : Nat) (x : SegObs) (late : Option Nat) : Option (Nat × TryResult) × Nat × Option TryResult :=
  tryAll s l (slotWeight s l x) x.at_ 0 0 none ((triedPlaces s l x late).map fun p => x.attempt p.1 p.2)

/-- What the outcome of the attempts means for both front ends and for the lane's record of the slot. -/
def slotNoted (s : State) (l : Nat) (x : SegObs) (late : Option Nat) (hit : Option (Nat × TryResult)) (abandoned : Nat) : State :=
  let lead := writingModule s.rc.wrap
  let single := singleModule s l x
  let u := match x.lead with | some f => feDecided s lead l hit.isSome f.agc f.moves | none => s
  modLane (feDecided u (1 - lead) l hit.isSome x.trail.agc x.trail.moves) l fun y =>
    { y with
      single := single.isSome, modsel := single == some 1, wl := slotWeight s l x, abort := satAdd 255 y.abort abandoned,
      contested := satAdd 65535 y.contested (b2n (contestedBy s lead single (candidates s l single x.cands))),
      budget := satAdd 65535 y.budget (b2n (late.isSome && hit.isNone)) }

/-- The attempts decide the slot: an accepted one brings a segment, none a miss. -/
theorem decideSegment_eq (s : State) (l : Nat) (x : SegObs) (late : Option Nat) : decideSegment s l x late =
    match slotTried s l x late with
    | (hit, abandoned, best) =>
      let v := slotNoted s l x late hit abandoned
      match hit with
      | some (i, r) =>
        (match r.seg with
         | none => v
         | some (h, payload) =>
           let single := singleModule s l x
           let lead := writingModule s.rc.wrap
           let p := (triedPlaces s l x late).getD i (0, 0)
           segmentAccepted v l x p.1 (topCandidates s l x) i single.isSome
             (contestedBy s lead single (candidates s l single x.cands))
             (decide (x.zeroedBits lead single p.1 p.2 > setN v 0x2128 5)) r h payload)
      | none => noSegment v l x best x.defect :=
  rfl

/-- Of the lane the front ends' outcome leaves all but its record of the slot. -/
theorem slotNoted_eq (s : State) (l : Nat) (x : SegObs) (late : Option Nat) (hit : Option (Nat × TryResult)) (abandoned : Nat) :
    ∃ u single modsel wl abort contested, FrontEndsMove s u ∧ slotNoted s l x late hit abandoned = modLane u l fun y =>
      { y with
        single := single, modsel := modsel, wl := wl, abort := abort, contested := contested,
        budget := min 65535 (y.budget + b2n (late.isSome && hit.isNone)) } := by
  refine ⟨_, _, _, _, _, _, ?_, rfl⟩
  cases x.lead with
  | none => exact .of_feDecided _ _ _ _ _ _
  | some f => exact (FrontEndsMove.of_feDecided _ _ _ _ _ _).trans (.of_feDecided _ _ _ _ _ _)

/-! ## A slot with an accepted segment (R311, R312, R328) -/

/-- A segment that is accepted brings its lane into track before its row is stored. -/
theorem segmentAccepted_tracks (s : State) (l : Nat) (x : SegObs) (place : Int) (top : List Candidate) (i : Nat)
    (single contested suspect : Bool) (r : TryResult) (h : SegHead) (payload : List Byte) :
    ∃ u, segmentAccepted s l x place top i single contested suspect r h payload =
        checkLocate (storeRow u l h payload suspect) h ∧
      (laneOf u l).state = 2 ∧ (laneOf u l).coastn = 0 ∧ (laneOf u l).fly = x.grid + place ∧ u.rc.reads = s.rc.reads := by
  refine ⟨_, rfl, ?_⟩
  rw [laneOf_modLane]
  exact ⟨rfl, rfl, rfl, rfl⟩

theorem decideSegment_of_accepted {s : State} {l i : Nat} {x : SegObs} {late : Option Nat} {r : TryResult} {h : SegHead}
    {payload : List Byte} (hfound : (slotTried s l x late).1 = some (i, r)) (hseg : r.seg = some (h, payload)) :
    let p := (triedPlaces s l x late).getD i (0, 0)
    ∃ u, decideSegment s l x late = checkLocate (storeRow u l h payload
        (decide (setN s 0x2128 5 < x.zeroedBits (writingModule s.rc.wrap) (singleModule s l x) p.1 p.2))) h ∧
      (laneOf u l).state = 2 ∧ (laneOf u l).coastn = 0 ∧ (laneOf u l).fly = x.grid + p.1 ∧ u.rc.reads = s.rc.reads := by
  intro p
  rw [decideSegment_eq]
  generalize slotTried s l x late = tried at hfound ⊢
  obtain ⟨hit, abandoned, best⟩ := tried
  cases hfound
  obtain ⟨v, _, _, _, _, _, hmove, hnoted⟩ := slotNoted_eq s l x late (some (i, r)) abandoned
  dsimp only
  rw [hseg, hnoted, ← hmove.reads, ← hmove.setN]
  exact segmentAccepted_tracks _ l x p.1 _ i _ _ _ r h payload

/-! ## A slot without one (R311, R321, R327, R335) -/

/-- The lanes stay as they are when a dataset gets its buffer. -/
theorem openRead_lanes (s : State) (p q : Nat) : (openRead s p q).rc.lanes = s.rc.lanes := by
  have halloc := congrArg Rc.lanes (BuffersMove.of_unitAlloc s 2 clsCd).rc
  unfold openRead
  split
  · rfl
  · dsimp only
    split <;> exact halloc

/-- The lanes stay as they are when soft bits of a row are kept. -/
theorem keepLlrs_lanes (s : State) (p q sub row : Nat) (best : TryResult) :
    (keepLlrs s p q sub row best).rc.lanes = s.rc.lanes := by
  have halloc := congrArg Rc.lanes (BuffersMove.of_unitAlloc s 6 clsRcv).rc
  unfold keepLlrs
  cases readOf s p q with
  | none => rfl
  | some r =>
    dsimp only
    split
    · rfl
    · split
      · rfl
      · split
        · rfl
        · split
          · rw [modRead_rc_lanes, fillBuf_rc]
          · split
            · exact halloc
            · rw [modRead_rc_lanes, fillBuf_rc, halloc]

/-- A lane after a slot without an accepted segment: one that tracked coasts, and the miss is counted (R311). -/
def laneMissed (y : Lane) : Lane :=
  { y with state := if 2 ≤ y.state then 3 else y.state, coastn := y.coastn + 1, none_ := min 65535 (y.none_ + 1) }

/-- What is kept for the row's recovery leaves the lanes as they are. -/
theorem laneOf_noSegment (s : State) (l : Nat) (x : SegObs) (best : Option TryResult) (flagged : Bool) :
    laneOf (noSegment s l x best flagged) l = laneMissed (laneOf s l) := by
  refine (laneOf_congr (s := modLane s l laneMissed) ?_ l).trans (laneOf_modLane s l laneMissed)
  unfold noSegment
  extract_lets missed
  split
  · split
    · extract_lets place opened kept
      have hopened : opened.rc.lanes = missed.rc.lanes := by
        unfold opened
        split
        · exact openRead_lanes missed _ _
        · rfl
      have hkept : kept.rc.lanes = opened.rc.lanes := by
        unfold kept
        split
        · exact keepLlrs_lanes opened _ _ _ _ _
        · rfl
      split <;> exact hkept.trans hopened
    · rfl
  · rfl

theorem laneOf_decideSegment_of_none {s : State} {l : Nat} {x : SegObs} {late : Option Nat}
    (hnone : (slotTried s l x late).1 = none) :
    let y := laneOf (decideSegment s l x late) l
    y.state = (if 2 ≤ (laneOf s l).state then 3 else (laneOf s l).state) ∧ y.coastn = (laneOf s l).coastn + 1 ∧
      y.none_ = min 65535 ((laneOf s l).none_ + 1) ∧ y.budget = min 65535 ((laneOf s l).budget + b2n late.isSome) := by
  rw [decideSegment_eq]
  generalize slotTried s l x late = tried at hnone ⊢
  obtain ⟨hit, abandoned, best⟩ := tried
  cases hnone
  obtain ⟨v, _, _, _, _, _, hmove, hnoted⟩ := slotNoted_eq s l x late none abandoned
  dsimp only
  rw [laneOf_noSegment, hnoted, laneOf_modLane, hmove.laneOf]
  exact ⟨rfl, rfl, rfl, by simp [laneMissed]⟩

/-! ## A lane that has coasted too long (R311) -/

theorem coastLimitExpiry_seeks {s : State} {l : Nat} (hcoasts : (laneOf s l).state = 3)
    (hlimit : setN s 0x2127 3 ≤ (laneOf s l).coastn) :
    exec (.coastLimitExpiry l) s = .next (modLane s l fun y => { y with state := 1 }) :=
  congrArg Host.Outcome.next (if_pos ⟨hcoasts, hlimit⟩)

/-! ## A dataset that is complete (R185) -/

theorem datasetDecoded_goesOn {s w : State} {p q : Nat} {r : ReadDs} {u : List Byte} {ds : Dataset} (hend : w = endOfDataset s p q)
    (hmember : memberAt w p q = none) (hladder : w.rc.ladder ≠ some (p, q)) (hr : readOf w p q = some r)
    (hopen : r.decoded = false) (huser : r.user = some u ∨ (r.user = none ∧ r.whole = true ∧ r.direct = u))
    (hparse : parseDataset u = some ds) (hpart : ds.part = p) (hseq : ds.seq = q) (hheads : headersOk w p q ds = true)
    (hread : r.recovered = false) :
    exec (.datasetDecoded p q) s = .next (closeVisit (leaveRun (decodedS (mapHome w p q ds) p q ds) p q) p q) := by
  refine congrArg Host.Outcome.next (?_ : datasetDecodedS s p q = _)
  obtain huser | ⟨huser, hwhole, rfl⟩ := huser
  · simp [datasetDecodedS, ← hend, hmember, hladder, hr, huser, hopen, hparse, hpart, hseq, hheads, hread]
  · simp [datasetDecodedS, ← hend, hmember, hladder, hr, huser, hwhole, hopen, hparse, hpart, hseq, hheads, hread]

/-! ## The statement -/

/-- Settles O37. The statement writes out the places that are tried; they are those of `triedPlaces`, and what the attempts there come to
decides between the lemmas of the accepted segment and of the miss. -/
theorem segmentsAndDatasets : Obligations.SegmentsAndDatasets := by
  unfold Obligations.SegmentsAndDatasets
  refine ⟨fun s l x hreads hmissed hstate => ?slot, fun s l x late => ?decided, fun s l => coastLimitExpiry_seeks,
    fun s w p q r u ds => datasetDecoded_goesOn⟩
  case slot =>
    intro a
    have hdecided := segmentDecodeS_of_reads hreads hmissed hstate
    have hrc := readingAt_rc s x
    refine ⟨fun hinside => ?_, fun n hladder => ?_, ?_, ?_, ?_⟩
    · rw [segmentDecode_inside l hinside, hdecided]
    · rw [decoderBudgetExhausted_reading hladder, hdecided]
    · rw [intake_lead_isSome_iff, laneOf_congr (congrArg Rc.lanes hrc)]
    · rw [intake_state, laneOf_congr (congrArg Rc.lanes hrc)]
    · rw [intake_reads, hrc]
  case decided =>
    intro lead single wl top all ps found
    have hps : triedPlaces s l x late = ps := by
      have hall : (topCandidates s l x).map (fun c => (c.pos, c.e)) ++
          (if triesPredicted s l x then [((0 : Int), (0 : Int))] else []) = all := by
        simp only [triesPredicted_iff]
        rfl
      cases late with
      | none => exact hall
      | some n => exact congrArg (List.take n) hall
    have hfound : found = (slotTried s l x late).1 := by
      unfold slotTried
      rw [hps]
      rfl
    refine ⟨fun i r h payload haccepted hseg => ?_, fun hnone => ?_⟩
    · have htracks := decideSegment_of_accepted (hfound.symm.trans haccepted) hseg
      rw [hps] at htracks
      exact htracks
    · obtain ⟨hstate, hcoastn, hmissed, hbudget⟩ := laneOf_decideSegment_of_none (hfound.symm.trans hnone)
      refine ⟨hstate, hcoastn, hmissed, hbudget.trans ?_⟩
      cases late <;> rfl

end Sys2Proof.Proofs
end

section
/-! O38: read recovery of a dataset: steps 1 and 2 on what is in staging, the passes of the ladder, and the end of a span read (R332,
R336, R337, R339, R341, R342, R344, R345). -/

namespace Sys2Proof.Proofs

open Sys2Proof Sys2Proof.Machine Sys2Proof.Laws

/-! ## The datasets being read -/

theorem readOf_congr {s t : State} (h : t.rc.reads = s.rc.reads) (p q : Nat) : readOf t p q = readOf s p q := by
  rw [readOf, readOf, h]

theorem noteLast_reads (s : State) (p q step : Nat) : (noteLast s p q step).rc.reads = s.rc.reads := by
  unfold noteLast
  split <;> rfl

theorem readOf_noteLast (s : State) (p q step : Nat) : readOf (noteLast s p q step) p q = readOf s p q :=
  readOf_congr (noteLast_reads s p q step) p q

theorem trimPool6_of_read {s : State} {p q : Nat} {r : ReadDs} (hr : readOf s p q = some r) :
    let need := (r.stored.length + 340) / 341
    trimPool6 s p q =
      modRead (releaseAll s (r.pool6.drop need) clsRcv) p q fun d => { d with pool6 := d.pool6.take need } := by
  rw [trimPool6, hr]

/-- Of a dataset only its buffers for soft bits go. -/
theorem readOf_trimPool6 {s : State} {p q : Nat} {r : ReadDs} (hr : readOf s p q = some r) :
    ∃ held, readOf (trimPool6 s p q) p q = some { r with pool6 := held } := by
  rw [trimPool6_of_read hr, readOf_modRead_same (hf := ?fields), (BuffersMove.of_releaseAll s _ _).readOf, hr]
  case fields => exact fun _ => ⟨rfl, rfl⟩
  exact ⟨_, rfl⟩

/-! ## A dataset that a step recovers (R336, R337, R339, R345) -/

/-- The datasets recovered so far, by step. -/
def recoveries (s : State) : Nat × Nat × Nat × Nat := (s.rc.step1, s.rc.step2, s.rc.step3, s.rc.step4)

theorem recoveries_noteLast (s : State) (p q step : Nat) : recoveries (noteLast s p q step) = recoveries s := by
  unfold noteLast
  split <;> rfl

theorem recoveries_trimPool6 (s : State) (p q : Nat) : recoveries (trimPool6 s p q) = recoveries s := by
  cases hr : readOf s p q with
  | none => rw [trimPool6, hr]
  | some r =>
    rw [trimPool6_of_read hr]
    simp only [recoveries, modRead_rc_step1, modRead_rc_step2, modRead_rc_step3, modRead_rc_step4,
      (BuffersMove.of_releaseAll s _ _).rc]

/-- The user area of a dataset stands ready, its recovery not yet counted. -/
def restored (s : State) (p q step : Nat) (usr : List Byte) (byC3 : Bool) : State :=
  trimPool6 (modRead (noteLast s p q step) p q fun r =>
    { r with step, user := some usr, rebuilt := byC3, recovered := decide (step ≥ 3), stored := [] }) p q

theorem recoveries_restored (s : State) (p q step : Nat) (usr : List Byte) (byC3 : Bool) :
    recoveries (restored s p q step usr byC3) = recoveries s :=
  (recoveries_trimPool6 _ p q).trans (recoveries_noteLast s p q step)

theorem recovered_counted (s : State) (p q : Nat) (usr : List Byte) (byC3 : Bool) :
    (recovered s p q 1 usr byC3).rc.step1 = min 65535 (s.rc.step1 + 1) ∧
    (recovered s p q 2 usr byC3).rc.step2 = min 65535 (s.rc.step2 + 1) ∧
    (recovered s p q 3 usr byC3).rc.step3 = min 65535 (s.rc.step3 + 1) ∧
    (recovered s p q 4 usr byC3).rc.step4 = min 65535 (s.rc.step4 + 1) := by
  have hkept := fun n => recoveries_restored s p q n usr byC3
  simp only [recoveries, Prod.mk.injEq] at hkept
  obtain ⟨h1, -⟩ := hkept 1
  obtain ⟨-, h2, -⟩ := hkept 2
  obtain ⟨-, -, h3, -⟩ := hkept 3
  obtain ⟨-, -, -, h4⟩ := hkept 4
  rw [← h1, ← h2, ← h3, ← h4]
  exact ⟨rfl, rfl, rfl, rfl⟩

theorem recovered_reads (s : State) (p q step : Nat) (usr : List Byte) (byC3 : Bool) :
    (recovered s p q step usr byC3).rc.reads = (restored s p q step usr byC3).rc.reads := by
  unfold recovered
  split <;> rfl

theorem readOf_recovered {s : State} {p q : Nat} {r : ReadDs} (hr : readOf s p q = some r) (step : Nat) (usr : List Byte)
    (byC3 : Bool) : ∃ held, readOf (recovered s p q step usr byC3) p q = some
      { r with step, user := some usr, rebuilt := byC3, recovered := decide (step ≥ 3), stored := [], pool6 := held } := by
  rw [readOf_congr (recovered_reads s p q step usr byC3)]
  refine readOf_trimPool6 (r := { r with step, user := some usr, rebuilt := byC3, recovered := decide (step ≥ 3), stored := [] }) ?_
  rw [readOf_modRead_same (hf := ?fields), readOf_noteLast, hr]
  case fields => exact fun _ => ⟨rfl, rfl⟩
  rfl

/-! ## A dataset enters recovery (R332, R336, R337, R344, R345) -/

theorem recoveryEntry_of_member {s w : State} {p q i : Nat} {r : ReadDs} (hw : w = endOfDataset (openRead s p q) p q)
    (hr : readOf w p q = some r) (hmember : memberAt w p q = some i) : exec (.recoveryEntry p q) s = .next (takeMember w i) := by
  refine congrArg Host.Outcome.next (?_ : recoveryEntryS s p q = _)
  simp only [recoveryEntryS, ← hw, hr, hmember]

theorem recoveryEntry_of_rows_missing {s w : State} {p q : Nat} {r : ReadDs} {v : State × Option (List Byte) × Bool}
    (hw : w = endOfDataset (openRead s p q) p q) (hr : readOf w p q = some r) (hmember : memberAt w p q = none)
    (hwhole : r.whole = false) (hstep : r.step = 0) (hopen : r.decoded = false)
    (hmet : r.rows ≠ [] ∨ w.rcl.run.head? ≠ some (p, q)) (hv : runSteps (modRead w p q fun r => { r with step := 1 }) p q = v) :
    exec (.recoveryEntry p q) s = .next
      (v.2.1.elim (enterLadder v.1 p q) fun usr => recovered v.1 p q (if v.2.2 = true then 2 else 1) usr false) := by
  refine congrArg Host.Outcome.next (?_ : recoveryEntryS s p q = _)
  have hlocated : (r.rows.isEmpty && w.rcl.run.head? == some (p, q)) = false := by simpa [or_iff_not_imp_left] using hmet
  simp only [recoveryEntryS, ← hw, hr, hmember, hwhole, hstep, hopen, hlocated, hv]
  obtain ⟨u, got, rounds⟩ := v
  cases got <;> rfl

/-! ## A ladder pass ends (R339, R341, R342) -/

/-- A pass is counted as run, and tape has its settings back: the state on which steps 1 and 2 run again. -/
def passCounted (s : State) (p q : Nat) (held : Bool) : State :=
  endPass (modRead s p q fun r => { r with pass := r.pass + 1, heldServo := r.heldServo || held })

/-- A pass of the ladder is in progress for dataset (p, q): no span is read, step 4 is not begun, and Lodestar runs. -/
def PassRuns (s : State) (p q : Nat) : Prop :=
  s.rc.ladder = some (p, q) ∧ s.rc.span = none ∧ s.glb.restarting = none ∧ ∀ r, readOf s p q = some r → r.step ≠ 4

theorem PassRuns.not_passed_over {s : State} {p q : Nat} (hruns : PassRuns s p q) :
    ¬ (s.rc.ladder ≠ some (p, q) ∨ s.rc.span.isSome ∨ (readOf s p q).any (fun r => r.step == 4) ∨ s.glb.restarting.isSome) := by
  obtain ⟨hladder, hspan, hrestart, hstep⟩ := hruns
  simpa [hladder, hspan, hrestart, Option.any_eq_true] using hstep

theorem ladderPassDone_of_runs {s : State} {p q : Nat} {held : Bool} {v : State × Option (List Byte) × Bool}
    (hruns : PassRuns s p q) (hv : runSteps (passCounted s p q held) p q = v) (found : Bool) :
    let a := nextPass (noteLast v.1 p q 3) p q
    exec (.ladderPassDone p q held found) s = .next
      (v.2.1.elim (if a.2 = true then leaveLadder a.1 else a.1) fun usr => leaveLadder (recovered v.1 p q 3 usr false)) := by
  refine congrArg Host.Outcome.next (?_ : ladderPassDoneS s p q held = _)
  rw [ladderPassDoneS, if_neg hruns.not_passed_over, ← passCounted]
  dsimp only
  rw [hv]
  obtain ⟨u, got, rounds⟩ := v
  cases got <;> rfl

theorem nextPass_begins {s : State} {p q : Nat} {r : ReadDs} (hr : readOf s p q = some r) (hleft : r.pass < setN s 0x212A 1)
    (hlimit : r.limited = false) (htime : timeOver s r = false) : nextPass s p q = (beginPass s (r.pass + 1), false) := by
  have hspent : ladderSpent s r = false := by simp [ladderSpent, hleft, hlimit, htime]
  simp [nextPass, hr, hspent]

theorem nextPass_over {s : State} {p q : Nat} {r : ReadDs} (hr : readOf s p q = some r)
    (hspent : setN s 0x212A 1 ≤ r.pass ∨ r.limited = true ∨ timeOver s r = true) :
    nextPass s p q = ladderOver (modRead s p q fun k => { k with limited := k.limited || decide (r.pass < setN s 0x212A 1) }) p q := by
  have hspent : ladderSpent s r = true := by simpa [ladderSpent, or_assoc] using hspent
  simp [nextPass, hr, hspent]

theorem recoveryTimeLimitExpiry_limits {s : State} {p q : Nat} {r : ReadDs} (hr : readOf s p q = some r) (hstep : r.step = 3)
    (huser : r.user = none) (htime : r.step3At + setN s 0x212A 3 * 216000 < s.now) :
    exec (.recoveryTimeLimitExpiry p q) s = .next (modRead s p q fun r => { r with limited := true }) := by
  have hover : timeOver s r = true := by
    rw [timeOver, decide_eq_true_iff, Nat.mul_comm]
    exact htime
  simp [exec, execRecoveryTimeLimitExpiry, hr, hstep, huser, hover]

/-! ## A span read ends (R344, R345) -/

/-- A span read is counted, and its members go into the syndromes. -/
def spanTaken (s : State) (p q : Nat) (held : Bool) (sp : SpanRead) : State :=
  (spanPositions sp.count).foldl takeMember
    (modRead s p q fun r => { r with spanReads := r.spanReads + 1, spanLost := r.spanLost + b2n (!held) })

/-- The members of a span that have not gone into the syndromes. -/
def membersMissing (sp : SpanRead) : List Nat := (spanPositions sp.count).filter fun i => !sp.done.contains i

/-- The position of SEQ q in a span. -/
def positionOf (sp : SpanRead) (q : Nat) : Nat :=
  if q - sp.first < sp.count then q - sp.first else 30 + (q - sp.first - sp.count)

/-- The target is recovered by step 4 from the members xs that C3 rebuilt, the others are counted and reallocated too, and the span
read ends. -/
def spanRebuilt (s : State) (p q : Nat) (sp : SpanRead) (xs : List (Nat × List Byte)) (usr : List Byte) : State :=
  let w := recovered (modRead s p q fun r => { r with missing := (membersMissing sp).length }) p q 4 usr true
  leaveLadder (dropSpanReads (reallocRebuilt { w with
    rc.step4 := satAdd 65535 w.rc.step4 (xs.countP fun x => x.1 != positionOf sp q) } p q sp xs) sp)

section SpanRead

variable {s : State} {p q : Nat} {held : Bool} {sp sp' : SpanRead} {r : ReadDs} (hspan : s.rc.span = some sp)
  (hpart : sp.part = p) (hseq : sp.seq = q) (hrestart : s.glb.restarting = none)
  (hspan' : (spanTaken s p q held sp).rc.span = some sp') (hr : readOf (spanTaken s p q held sp) p q = some r)

include hspan hpart hseq hrestart hspan' hr

theorem spanReadDone_reads_again (hmany : 2 < (membersMissing sp').length) (hfirst : r.spanReads < 2) :
    exec (.spanReadDone p q held) s = .next (beginPass (spanTaken s p q held sp) 2) := by
  refine congrArg Host.Outcome.next (?_ : spanReadDoneS s p q held = _)
  rw [spanReadDoneS, hspan]
  refine (if_neg (by simp [hpart, hseq, hrestart])).trans ?_
  extract_lets counted taken
  rw [show taken.rc.span = some sp' from hspan', show readOf taken p q = some r from hr]
  exact (if_neg (Nat.not_le.mpr hmany)).trans (if_pos hfirst)

theorem spanReadDone_rebuilds {xs : List (Nat × List Byte)} {u : List Byte} (hfew : (membersMissing sp').length ≤ 2)
    (htarget : (membersMissing sp').contains (positionOf sp' q) = true) (hrebuilt : sp'.rebuild (membersMissing sp') = some xs)
    (hfound : (xs.find? fun x => x.1 == positionOf sp' q) = some (positionOf sp' q, u)) :
    exec (.spanReadDone p q held) s = .next (spanRebuilt (spanTaken s p q held sp) p q sp' xs u) := by
  refine congrArg Host.Outcome.next (?_ : spanReadDoneS s p q held = _)
  rw [spanReadDoneS, hspan]
  refine (if_neg (by simp [hpart, hseq, hrestart])).trans ?_
  extract_lets counted taken
  rw [show taken.rc.span = some sp' from hspan', show readOf taken p q = some r from hr]
  refine (if_pos hfew).trans ?_
  rw [← membersMissing, ← positionOf, hrebuilt, if_pos htarget, htarget]
  refine congrArg (spanRebuilt taken p q sp' xs) ?_
  rw [Option.getD_some, hfound]

end SpanRead

/-! ## The statement -/

/-- Settles O38: what the entry, the end of a pass, its time limit and the end of a span read come to is what the lemmas above say.
That the head's coming to the end of the dataset is told by its RECOVERY_ENTRY (log 146), and that a ladder of no passes goes on to step 4
(log 66), are the model's choices. -/
theorem readRecovery : Obligations.ReadRecovery := by
  unfold Obligations.ReadRecovery
  refine ⟨⟨fun s w p q r hw hr => ⟨fun i => recoveryEntry_of_member hw hr, fun hmember hwhole hstep hopen hmet => ?entry⟩,
    fun s p q r usr c hr => ?counted⟩, ⟨fun s p q held found hladder hspan hrestart hstep => ?pass,
    fun s p q r => recoveryTimeLimitExpiry_limits⟩, fun s p q held sp sp' r hspan hpart hseq hrestart => ?span⟩
  case entry =>
    intro v
    have hentered := recoveryEntry_of_rows_missing hw hr hmember hwhole hstep hopen hmet (v := v) rfl
    clear_value v
    rw [hentered]
    obtain ⟨u, got, rounds⟩ := v
    cases got <;> rfl
  case counted =>
    obtain ⟨h1, h2, h3, h4⟩ := recovered_counted s p q usr c
    refine ⟨h1, h2, h3, h4, fun n => ?_⟩
    obtain ⟨held, hread⟩ := readOf_recovered hr n usr c
    rw [hread]
    rfl
  case pass =>
    intro v
    have hdone := ladderPassDone_of_runs ⟨hladder, hspan, hrestart, hstep⟩ (v := v) rfl found
    clear_value v
    refine ⟨fun usr hrecovered => ?_, fun hfailed r hr => ?_⟩
    · rw [hdone, hrecovered]
      rfl
    · intro w
      have hw : readOf w p q = some r := (readOf_noteLast v.1 p q 3).trans hr
      rw [hfailed] at hdone
      refine ⟨fun hleft hlimit htime => ?_, fun hspent => ?_⟩
      · rw [hdone, nextPass_begins hw hleft hlimit htime]
        rfl
      · rw [hdone, nextPass_over hw hspent]
        rfl
  case span =>
    intro v missing at_ hspan' hr
    exact ⟨spanReadDone_reads_again hspan hpart hseq hrestart hspan' hr,
      fun xs u => spanReadDone_rebuilds hspan hpart hseq hrestart hspan' hr⟩

end Sys2Proof.Proofs
end

section
/-! O1 and O2: a step runs the command at the front, and every command goes on. -/

namespace Sys2Proof.Proofs

open Sys2Proof Sys2Proof.Machine Sys2Proof.Laws

/-- A step with a command waiting is that command, run with the rest of the queue. -/
theorem step_cons {s : State} {c : Instr} {r : List Instr} (h : s.pending = c :: r) : step s = exec c { s with pending := r } := by
  rw [step, h]

/-- Settles O1: a step takes the front off the queue before it runs it (`step_cons`). -/
theorem stepRunsFront : Obligations.StepRunsFront := by
  unfold Obligations.StepRunsFront
  intro c r s
  exact step_cons (s := { s with pending := c :: r }) rfl

/-- Settles O2: each command has a next state by the frame of the commands (`exec_runsKept`). -/
theorem everyCommandGoesOn : Obligations.EveryCommandGoesOn := by
  unfold Obligations.EveryCommandGoesOn
  intro c s
  obtain ⟨t, hnext, -⟩ := exec_runsKept c s
  exact ⟨t, hnext⟩

end Sys2Proof.Proofs
end

section
/-! O59 and O60: the service session, its lockout, and what is done in a session (R547 to R552). -/

namespace Sys2Proof.Proofs

open Sys2Proof Sys2Proof.Machine Sys2Proof.Laws

/-! ## Failures and lockout (R549) -/

/-- A failed unlock is counted. -/
theorem unlockFails_failures (s : State) : (unlockFails s).flash.failures = min 255 (s.flash.failures + 1) := by
  unfold unlockFails
  dsimp only
  split <;> rfl

/-- Up to the fourth failure in a row nothing is locked. -/
theorem unlockFails_lockUntil {s : State} (h : s.flash.failures < 4) : (unlockFails s).flash.lockUntil = s.flash.lockUntil := by
  unfold unlockFails
  dsimp only
  rw [if_neg (by simp only [satAdd]; omega)]

/-- From the fifth failure in a row on each locks out, twice as long each time, up to a day. -/
theorem unlockFails_locks {s : State} (h : 4 ≤ s.flash.failures) :
    (unlockFails s).flash.lockUntil = some (s.now + s.flash.nextLock * 216000000) ∧
      (unlockFails s).flash.nextLock = min 86400 (2 * s.flash.nextLock) := by
  unfold unlockFails
  dsimp only
  rw [if_pos (by simp only [satAdd]; omega)]
  exact ⟨rfl, rfl⟩

/-- A lockout is in force until its instant. -/
theorem lockedOut_of_lt {s : State} {t : Nat} (h : s.flash.lockUntil = some t) (ht : s.now < t) : lockedOut s = true := by
  rw [lockedOut, h]
  exact decide_eq_true ht

/-- A lockout ends at its instant. -/
theorem lockoutExpiry_ends {s : State} {t : Nat} (h : s.flash.lockUntil = some t) (ht : t ≤ s.now) :
    exec .lockoutExpiry s = .next { s with flash.lockUntil := none } := by
  refine congrArg Host.Outcome.next ?_
  rw [h]
  exact if_pos ht

/-- Settles O60: while locked out, RESPONSE and SERVICE_PASSWORD look at the lockout before the answer, and flash stays through a
reset. That a success returns the next lockout to 15 min is the model's choice (log 110). -/
theorem lockoutHolds : Obligations.LockoutHolds := by
  unfold Obligations.LockoutHolds
  refine ⟨rfl, fun s => ⟨unlockFails_failures s, unlockFails_lockUntil, unlockFails_locks⟩, fun s n k => ⟨rfl, rfl⟩,
    fun s t hlock => ⟨fun ht => ?_, lockoutExpiry_ends hlock⟩, rfl, fun s hin => ?_⟩
  · have hlocked := lockedOut_of_lt hlock ht
    exact ⟨fun n sig => by simp [responseOp, hlocked], fun cs => by simp [passwordOp, hlocked]⟩
  · exact ⟨_, congrArg Host.Outcome.next (if_neg (by simp [hin])), rfl, rfl, rfl⟩

/-! ## A command that Lodestar serves -/

/-- Over the service port, in a session that is open, the import's own conditions count. -/
theorem kekImportOp_in_session {s : State} (hsess : sessionOpen s = true) {n : Nat} {blob : List Byte} (hlen : blob.length = 104)
    (hn : n ≤ 15) (hempty : (s.flash.keks.any fun k => k.1 == n) = false) :
    (kekImportOp s .usb n blob).1 = match kekOf n blob with
      | none => s
      | some k => { s with flash.keks := put n (kwWrap (be 32 s.flash.deviceKey.toNat) (be 32 k.toNat)) s.flash.keks } := by
  unfold kekImportOp
  rw [if_neg (by simp [hsess]), if_neg (by simp [hlen]), if_neg (by omega), if_neg (by simp [hempty])]
  cases kekOf n blob <;> rfl

/-- The length of a little-endian number. -/
theorem length_le_bytes (n v : Nat) : (le n v).length = n := by
  induction n generalizing v with
  | zero => rfl
  | succ n ih => exact congrArg (· + 1) (ih (v / 256))

/-- The lanes named by the mask are cleared, in FM too once no dataset is being written. -/
theorem clearLanesOp_lanes {s : State} (hsess : sessionOpen s = true) (m : BitVec 64) :
    (clearLanesOp s m).1.flash.lanes = s.flash.lanes &&& ~~~m ∧
      (s.fm.current = none → (clearLanesOp s m).1.fm.retired = s.flash.lanes &&& ~~~m) := by
  unfold clearLanesOp
  rw [if_neg (by simp [hsess])]
  extract_lets left empty fm flash cleared fm' returned
  have hkept : returned.flash.lanes = left := by
    unfold returned
    split <;> rfl
  have hback : s.fm.current = none → returned.fm.retired = left := fun hcur => by
    have hidle : cleared.fm.current.isNone = true := congrArg Option.isNone hcur
    unfold returned
    rw [if_pos hidle]
  split
  · exact ⟨hkept, hback⟩
  · exact ⟨hkept, hback⟩

section Served
variable {s : State} (hserve : lsServes s = true)
include hserve

/-- A response that is not locked out opens the session or is counted as a failure, by its signature. -/
theorem response_judged (hfree : lockedOut s = false) {n t : Nat} (hmin : 60 ≤ n) (hmax : n ≤ 28800) {sig c : List Byte}
    (hc : s.fw.challenge = some (c, t)) (hfresh : elapsed s t 60000 = false) :
    let u := { s with fw.vbus := true, fw.challenge := none }
    exec (.response .usb n sig) s =
      .next (if ecdsaOk Config.serviceKey (c ++ le 4 n) sig = true then openSession u 1 n else unlockFails u) := by
  intro u
  refine congrArg Host.Outcome.next ((if_pos hserve).trans ?_)
  have hans : answers (seeVbus s .usb) n sig = ecdsaOk Config.serviceKey (c ++ le 4 n) sig := by
    have hseen : (seeVbus s .usb).fw.challenge = some (c, t) := hc
    have hel : elapsed (seeVbus s .usb) t 60000 = false := hfresh
    rw [answers, hseen]
    simp only [hel, Bool.not_false, Bool.true_and]
  have hlocked : lockedOut (seeVbus s .usb) = false := hfree
  unfold responseOp
  rw [if_neg (by simp), if_neg (by simp [hlocked]), if_neg (by omega), hans]
  dsimp only
  split <;> rfl

/-- A password that is not locked out opens the session or is counted as a failure. -/
theorem servicePassword_judged (hfree : lockedOut s = false) {chars salt stored : List Byte} (hmin : 8 ≤ chars.length)
    (hmax : chars.length ≤ 64) (hpw : s.flash.password = some (salt, stored)) :
    let u := { s with fw.vbus := true }
    exec (.servicePassword .usb chars) s =
      .next (if pbkdf2 chars salt = stored then openSession u 2 (60 * setN s 0x5021 3) else unlockFails u) := by
  intro u
  refine congrArg Host.Outcome.next ((if_pos hserve).trans ?_)
  have hseen : (seeVbus s .usb).flash.password = some (salt, stored) := hpw
  have hlocked : lockedOut (seeVbus s .usb) = false := hfree
  unfold passwordOp
  rw [if_neg (by simp), if_neg (by simp [hlocked]), if_neg (by omega), hseen]
  dsimp only
  split <;> rfl

section InSession
variable (hsess : sessionOpen s = true)
include hsess

/-- In a session the password is deleted. -/
theorem setServicePassword_none : exec (.setServicePassword .usb []) s = .next { s with fw.vbus := true, flash.password := none } := by
  have hseen : sessionOpen (seeVbus s .usb) = true := hsess
  refine congrArg Host.Outcome.next ((if_pos hserve).trans ?_)
  simp only [setPasswordOp, hseen]
  rfl

/-- In a session a new password is kept under a fresh salt. -/
theorem setServicePassword_some {chars : List Byte} (hmin : 8 ≤ chars.length) (hmax : chars.length ≤ 64) :
    ∃ t salt, exec (.setServicePassword .usb chars) s = .next t ∧
      t.flash.password = some (salt, pbkdf2 chars salt) ∧ salt.length = 16 := by
  have hseen : sessionOpen (seeVbus s .usb) = true := hsess
  have hsome : chars.isEmpty = false := by
    cases chars with
    | nil => simp at hmin
    | cons => rfl
  refine ⟨_, le 16 (Config.randomBytes s.free).toNat, congrArg Host.Outcome.next (if_pos hserve), ?_, length_le_bytes 16 _⟩
  unfold setPasswordOp
  rw [if_neg (by simp [hseen]), if_neg (by simp [hsome]), if_neg (by omega)]
  rfl

end InSession
end Served

/-- Settles O59: each operation looks at its path, the session and its own conditions in turn. That a blob that does not unwrap leaves
all as it was (log 88), and that use of the service port shows VBUS (log 27), are the model's choices. -/
theorem serviceSession : Obligations.ServiceSession := by
  unfold Obligations.ServiceSession
  refine ⟨fun s => ⟨fun hserve => ?challenge, fun n sig c t0 hserve hfree hmin hmax hc hfresh => ?response,
    fun chars salt stored hserve hfree hmin hmax hpw => servicePassword_judged hserve hfree hmin hmax hpw,
    fun n => ⟨rfl, rfl, rfl⟩, ⟨unlockFails_failures s, unlockFails_locks⟩,
    fun hserve hsess => ⟨setServicePassword_none hserve hsess, fun chars => setServicePassword_some hserve hsess⟩,
    fun hserve => congrArg Host.Outcome.next (if_pos hserve), fun t => lockoutExpiry_ends,
    fun hsess hend => congrArg Host.Outcome.next (if_pos (by simp [hsess, hend])), ⟨_, rfl, rfl, rfl, rfl⟩⟩,
    fun s hserve hsess => ⟨fun n blob hlen hn hempty => ?kekImport, fun n hn => ?remove, fun m => ?lanes, fun m => ?frontEnds,
      fun m => ?servo⟩⟩
  case challenge => exact ⟨_, _, congrArg Host.Outcome.next (if_pos hserve), rfl, rfl, rfl⟩
  case response => exact response_judged hserve hfree hmin hmax hc hfresh
  case kekImport =>
    intro u
    refine congrArg Host.Outcome.next ((if_pos hserve).trans ?_)
    rw [kekImportOp_in_session (s := seeVbus s .usb) hsess hlen hn hempty]
    cases kekOf n blob <;> rfl
  case remove =>
    refine congrArg Host.Outcome.next ((if_pos hserve).trans ?_)
    have hseen : sessionOpen (seeVbus s .pcie) = true := hsess
    unfold kekRemoveOp
    rw [if_neg (by simp [hseen]), if_neg (by omega)]
    rfl
  case lanes => exact ⟨_, congrArg Host.Outcome.next (if_pos hserve), clearLanesOp_lanes (s := s) hsess m⟩
  case frontEnds =>
    refine ⟨⟨_, congrArg Host.Outcome.next (if_pos hserve), ?_⟩, ⟨_, congrArg Host.Outcome.next (if_pos hserve), ?_⟩⟩ <;>
      simp [clearFrontEndsOp, seeVbus, hsess]
  case servo =>
    refine ⟨_, congrArg Host.Outcome.next (if_pos hserve), ?_⟩
    simp [clearServoOp, seeVbus, hsess]

end Sys2Proof.Proofs
end

section
/-! O13: the admin queue of a function comes with ENABLE, and a drain takes it away (R87 to R89, R563). -/

namespace Sys2Proof.Proofs

open Sys2Proof Sys2Proof.Machine Sys2Proof.Laws

/-! ## ENABLE -/

/-- A field of a word, read as a number or as bits. -/
theorem ofNat_bits {w : Nat} (v : BitVec w) (lo n : Nat) : BitVec.ofNat n (bits v.toNat lo n) = v.extractLsb' lo n := by
  apply BitVec.eq_of_toNat_eq
  simp [bits]

/-- ENABLE is bit 0 of GLB.AQCFG: it is no part of the fields above it. -/
theorem extractLsb'_or_one (v : Word) {lo : Nat} (h : 1 ≤ lo) : (v ||| 1).extractLsb' lo 8 = v.extractLsb' lo 8 := by
  ext i hi
  have hone : (1 : Word).getLsbD (lo + i) = false := by simp; omega
  rw [BitVec.getElem_extractLsb', BitVec.getElem_extractLsb', BitVec.getLsbD_or, hone, Bool.or_false]

theorem bit_or_one (v : Word) : bit (v ||| 1).toNat 0 = true := by simp [bit]

theorem bit_and_notOne (v : Word) : bit (v &&& 0xFFFFFFFE).toNat 0 = false := by simp [bit]

/-- A function that is DISABLED, and whose drain is over, takes the settings and is enabled with them when they pass. -/
theorem aqCfgS_enables {s : State} {fn : Nat} {v : Word} {f : FnState}
    (hf : f = { fnOf s fn with
      aCqCount := v.extractLsb' 8 8, aCqTime := v.extractLsb' 16 8, aVector := v.extractLsb' 24 8 })
    (hoff : (fnOf s fn).aEnable = false) (hready : (fnOf s fn).aReady = false) (hstate : (fnOf s fn).state = 0) :
    aqCfgS s fn (v ||| 1).toNat = enableAdmin (setFn s fn f) fn := by
  unfold aqCfgS
  rw [bit_or_one, ofNat_bits, ofNat_bits, ofNat_bits, extractLsb'_or_one v (by omega), extractLsb'_or_one v (by omega),
    extractLsb'_or_one v (by omega), hf]
  dsimp only
  rw [if_neg (by simp [hoff]), if_neg (by simp [hready, hstate]), if_pos rfl]
  rfl

/-- An enable whose settings pass. -/
theorem enableAdmin_of_ok {s : State} {fn : Nat} (h : adminOk s fn = true) :
    enableAdmin s fn = { setFn s fn { fnOf s fn with aEnable := true, aReady := true, aErr := false, state := 1 } with
      qe.queues := s.qe.queues.filter (fun q => q.g != fn) ++ [adminQueue (fnOf s fn) fn] } := by
  unfold enableAdmin
  rw [if_pos h]
  dsimp only
  rw [fnOf_modFn]
  rfl

/-- The queue that takes the place of queue g. -/
theorem find_replaced (l : List Queue) (q : Queue) : (l.filter (fun x => x.g != q.g) ++ [q]).find? (fun x => x.g == q.g) = some q := by
  rw [List.find?_append, List.find?_eq_none.mpr (by simp)]
  simp

theorem find_replaced_ne (l : List Queue) (q : Queue) {g : Nat} (h : g ≠ q.g) :
    (l.filter (fun x => x.g != q.g) ++ [q]).find? (fun x => x.g == g) = l.find? (fun x => x.g == g) := by
  have hq : [q].find? (fun x => x.g == g) = none := by simp [h.symm]
  rw [List.find?_append, hq, Option.or_none, List.find?_filter]
  congr 1
  funext x
  by_cases hx : x.g = g <;> simp [hx, h]

/-! ## The drain (R87 to R89) -/

/-- With no command of a function in flight its stop touches the function, its queues and what is held for it alone. -/
theorem disableFn_of_idle {s : State} {fn : Nat} (hstate : (fnOf s fn).state ≠ 0)
    (hidle : ∀ c ∈ s.qe.cmds, c.fn = fn → c.dropped = true) :
    disableFn s fn = { setFn s fn { fnOf s fn with state := 2, aEnable := false } with
      qe.queues := s.qe.queues.map fun q => if q.fn = fn ∧ !q.resetBusy then emptied q else q,
      qe.held := s.qe.held.filter fun h => h.1 != fn } := by
  have hnone : (s.qe.cmds.filter fun c => c.fn == fn && !c.dropped) = [] := by
    rw [List.filter_eq_nil_iff]
    intro c hc
    by_cases hfn : c.fn = fn <;> simp [hfn, hidle c hc]
  unfold disableFn dropCmds
  rw [if_neg hstate]
  exact if_pos (by rw [List.isEmpty_iff]; exact hnone)

/-- A queue after its function began to drain. -/
theorem find_emptied (l : List Queue) (fn g : Nat) :
    (l.map fun q => if q.fn = fn ∧ !q.resetBusy then emptied q else q).find? (fun q => q.g == g) =
      (l.find? fun q => q.g == g).map fun q => if q.fn = fn ∧ q.resetBusy = false then emptied q else q := by
  have hkey : ((fun q : Queue => q.g == g) ∘ fun q => if q.fn = fn ∧ !q.resetBusy then emptied q else q) = fun q => q.g == g := by
    funext q
    dsimp only [Function.comp_apply]
    split <;> rfl
  rw [List.find?_map, hkey]
  simp only [Bool.not_eq_true']

/-- Settles O13: ENABLE changes the function and its own queue; a function with no command in flight drops none; the drain's end takes
its queues away. That READY is set with the enable is the model's choice (log 97). -/
theorem adminQueues : Obligations.AdminQueues := by
  unfold Obligations.AdminQueues
  refine ⟨fun s fn v => ?enable, fun s fn v hon hstate hidle => ?disable, fun s fn hstate hidle => ?drained⟩
  case enable =>
    intro f hoff hready hstate hok
    refine ⟨_, congrArg Host.Outcome.next ((aqCfgS_enables rfl hoff hready hstate).trans (enableAdmin_of_ok hok)), ?_, ?_, ?_, ?_, rfl⟩
    · refine (get_put_same fn _ ({} : FnState) (setFn s fn f).qe.fns).trans ?_
      rw [fnOf_setFn]
    · rw [fnOf_setFn]
      exact find_replaced s.qe.queues (adminQueue f fn)
    · exact fun n hn => (get_put_ne hn _ ({} : FnState) (setFn s fn f).qe.fns).trans (fnOf_setFn_ne hn s f)
    · exact fun g hg => find_replaced_ne s.qe.queues (adminQueue _ fn) hg
  case disable =>
    have hrun : aqCfgS s fn (v &&& 0xFFFFFFFE).toNat = disableFn s fn := by
      simp only [aqCfgS, bit_and_notOne, hon]
      rfl
    refine ⟨_, congrArg Host.Outcome.next (hrun.trans (disableFn_of_idle (by omega) hidle)), ?_, rfl, rfl, ?_, ?_⟩
    · exact get_put_same fn _ ({} : FnState) s.qe.fns
    · exact fun n hn => get_put_ne hn _ ({} : FnState) s.qe.fns
    · intro g x hx
      refine (find_emptied s.qe.queues fn g).trans ?_
      rw [show (s.qe.queues.find? fun q => q.g == g) = some x from hx]
      rfl
  case drained =>
    have hquiet : quiet s (fun c => c.fn == fn) = true := by
      rw [quiet, List.all_eq_true]
      intro c hc
      by_cases hfn : c.fn = fn
      · obtain ⟨hdrop, hout⟩ := hidle c hc hfn
        simp [hdrop, hout]
      · simp [hfn]
    refine ⟨_, congrArg Host.Outcome.next (if_pos ⟨hstate, hquiet⟩), ?_, rfl, rfl, ?_⟩
    · exact get_put_same fn _ ({} : FnState) s.qe.fns
    · exact fun n hn => get_put_ne hn _ ({} : FnState) s.qe.fns

end Sys2Proof.Proofs
end

section
/-! O16: what a reset of the module leaves (R513, R514, R571, R584). -/

namespace Sys2Proof.Proofs

open Sys2Proof Sys2Proof.Machine Sys2Proof.Laws

/-- Supply that is lost resets every block, and the levels at the pins fall with it. -/
theorem losePower_of_valid {s : State} (h : s.glb.vin12 = true) : losePower s =
    { resetModule s 0 (decide (s.ps.vmot ≥ 2000)) with
      glb.vin12 := false, glb.resetInN := false, glb.testEn := false, glb.tripped := false, glb.subVendor := 0x1F3D,
      glb.subDevice := 0x0001, glb.subDue := true } :=
  if_neg (by simp [h])

/-- RESET_IN_N resets every block, with the supply there. -/
theorem resetInNAssert_of_high {s : State} (h : s.glb.resetInN = true) :
    exec .resetInNAssert s = .next { resetModule s 1 true with glb.resetInN := false } :=
  congrArg Host.Outcome.next (if_neg (by simp [h]))

/-- A junction that is too hot resets every block, with the supply there. -/
theorem thermalTrip_of_hot {s : State} {a b : Int} (hhot : 1350 ≤ a ∨ 1350 ≤ b) (h : s.glb.tripped = false) :
    exec (.thermalTrip a b) s = .next { resetModule (noteTemp (noteTemp s 0 a) 1 b) 1 true with glb.tripped := true } :=
  congrArg Host.Outcome.next (if_pos ⟨hhot, by simp [noteTemp, h]⟩)

/-- A reel that turns in WATCH keeps Nightwatch out of the reset: it brakes (R514). -/
theorem nwAtReset_of_turning {s : State} (hout : s.nw.inReset = false) (hturn : s.nw.atRest = false) (hwatch : s.nw.state = 0) :
    nwAtReset s true = { s.nw with
      state := 1, cause := 0x23, causes := s.nw.causes ++ [0x23], reelS := false, reelT := false, kFull := false,
      stops := min 65535 (s.nw.stops + 1) } := by
  unfold nwAtReset
  rw [if_pos ⟨by simp [reelTurns, hout, hturn], rfl⟩, if_neg (by omega), if_pos hwatch]
  rfl

/-- Settles O16: the five resets differ in their cause and in the pins, and each is `resetModule`. -/
theorem moduleResets : Obligations.ModuleResets := by
  unfold Obligations.ModuleResets
  refine ⟨?resets, fun s hin hout hturn hwatch => ?turning⟩
  case resets =>
    intro isReset
    refine ⟨fun s hin => ?_, fun s hvin => ?_, fun s => ⟨_, rfl, ?_, rfl⟩, fun s a b hhot htrip => ?_⟩
    · exact ⟨_, resetInNAssert_of_high hin, ⟨rfl, rfl, rfl, rfl, rfl, rfl, rfl, rfl, rfl, rfl, rfl, rfl, rfl, rfl, rfl, rfl, rfl⟩, rfl, rfl⟩
    · have hlost := losePower_of_valid hvin
      exact ⟨_, congrArg Host.Outcome.next hlost, congrArg Host.Outcome.next hlost, ⟨rfl, rfl, rfl, rfl, rfl, rfl, rfl, rfl, rfl, rfl, rfl, rfl, rfl, rfl, rfl, rfl, rfl⟩, rfl⟩
    · exact ⟨rfl, rfl, rfl, rfl, rfl, rfl, rfl, rfl, rfl, rfl, rfl, rfl, rfl, rfl, rfl, rfl, rfl⟩
    · exact ⟨_, thermalTrip_of_hot hhot htrip, ⟨rfl, rfl, rfl, rfl, rfl, rfl, rfl, rfl, rfl, rfl, rfl, rfl, rfl, rfl, rfl, rfl, rfl⟩, rfl⟩
  case turning =>
    have hnw : (resetModule s 1 true).nw = _ := nwAtReset_of_turning hout hturn hwatch
    refine ⟨_, resetInNAssert_of_high hin, ?_, ?_, ?_, ?_, ?_⟩
    · exact congrArg Nw.state hnw
    · exact congrArg Nw.cause hnw
    · exact (congrArg Nw.inReset hnw).trans hout
    · exact congrArg Nw.stops hnw
    · simp [resetModule, reelTurns, hout, hturn]

end Sys2Proof.Proofs
end

section
/-! O22: Meridian's sources, steps and trims, PPS_IN and PPS_OUT, SYNC and TIME (R465 to R472, R478). -/

namespace Sys2Proof.Proofs

open Sys2Proof Sys2Proof.Machine Sys2Proof.Laws

/-! ## Steps and trims (R469) -/

/-- The record a step leaves, for any accumulator and second of PPS_OUT. -/
def steppedTo (s : State) (acc : BitVec 96) (second : Nat) : State :=
  { s with mt.acc := acc, mt.steps := min 255 (s.mt.steps + 1), mt.defines := true, mt.lastOut := some second }

/-- The two updates of a step are one. -/
theorem steppedTo_eq (s : State) (acc : BitVec 96) (f : State → Nat) :
    (let s := { s with mt.acc := acc, mt.steps := satAdd 255 s.mt.steps 1, mt.defines := true }
     { s with mt.lastOut := some (f s) }) =
      steppedTo s acc (f { s with mt.acc := acc, mt.steps := satAdd 255 s.mt.steps 1, mt.defines := true }) := rfl

/-- A step leaves Meridian at the sum, in 64 bits, and touches MT alone. -/
theorem stepBy_eq (s : State) (d : Int) :
    ∃ acc second, stepBy s d = steppedTo s acc second ∧ acc.toNat >>> 32 = code 64 (meridian s + d) := by
  have hcode : code 64 ((meridian s : Int) + d) < 2 ^ 64 := by unfold code; omega
  refine ⟨_, _, steppedTo_eq s _ (ppsSecond · _), ?_⟩
  rw [BitVec.toNat_ofNat, Nat.shiftRight_eq_div_pow]
  omega

/-- A trim leaves the time. -/
theorem meridian_trimBy (s : State) (d : Int) : meridian (trimBy s d) = meridian s := rfl

/-- The first correction after UNSET and one above the threshold are steps. -/
theorem correct_of_step {s : State} {d : Int} (h : s.mt.sync = 0 ∨ 1000 * setN s 0x6010 4 < d.natAbs) :
    correct s d = { stepBy s d with mt.sync := 2 } :=
  congrArg (fun t : State => { t with mt.sync := 2 }) (if_pos h)

/-- Any other correction trims the increment. -/
theorem correct_of_trim {s : State} {d : Int} (hset : s.mt.sync ≠ 0) (h : d.natAbs ≤ 1000 * setN s 0x6010 4) :
    correct s d = { trimBy s d with mt.sync := 2 } :=
  congrArg (fun t : State => { t with mt.sync := 2 }) (if_neg (by omega))

/-- A trim lies within 500 ppm. -/
theorem trimBy_range (s : State) (d : Int) :
    ∃ x : Int, -50000 ≤ x ∧ x ≤ 50000 ∧ (trimBy s d).mt.trim = x ∧ (trimBy s d).mt.inc = trimmedInc x :=
  ⟨clampI (-50000) 50000 (Config.trimLaw d s.mt.trim), by unfold clampI; omega, by unfold clampI; omega, rfl, rfl⟩

/-! ## Set Meridian (R465, R470) -/

/-- Source 0 takes the time that is set, as a step. -/
theorem setMeridianOp_free {s : State} (hrole : s.pl.role ≠ 2) (hrun : s.mt.running = true) (hsource : setN s 0x6010 2 = 0)
    (ns : BitVec 64) :
    setMeridianOp s ns = ({ stepBy s ((ns.toNat : Int) - meridian s) with mt.sync := 1 }, stOk) := by
  unfold setMeridianOp
  rw [if_neg (by simp [hrole, hrun]), hsource]
  rfl

/-- Sources 1 and 2, and a secondary, refuse it. -/
theorem setMeridianOp_refused {s : State} (h : s.pl.role = 2 ∨ setN s 0x6010 2 = 1 ∨ setN s 0x6010 2 = 2) (ns : BitVec 64) :
    setMeridianOp s ns = (s, stAccessDenied) := by
  unfold setMeridianOp
  by_cases hrole : s.pl.role = 2
  · exact if_pos (Or.inl hrole)
  · obtain hsource | hsource := h.resolve_left hrole <;> rw [hsource] <;> exact ite_self _

/-- SET_MERIDIAN is its operation, while Lodestar serves it. -/
theorem setMeridian_served {s : State} (hup : s.glb.restarting = none) (htwi : s.glb.twilight = none) (p : Path) (ns : BitVec 64) :
    exec (.setMeridian p ns) s = .next (setMeridianOp s ns).1 :=
  congrArg Host.Outcome.next (if_neg (by simp [hup, htwi]))

/-- The sum that a time set comes to is that time. -/
theorem code_set (ns : BitVec 64) (m : Int) : code 64 (m + ((ns.toNat : Int) - m)) = ns.toNat := by
  have hns := ns.isLt
  unfold code
  omega

/-! ## PPS_IN (R471) -/

/-- An edge lies too far from a whole second, or too near to the edge accepted last. -/
def edgeFar (s : State) : Prop :=
  100000000 < ((meridian s : Int) - nearestSec (meridian s)).natAbs ∨ ∃ u, s.mt.lastPps = some u ∧ s.now < u + 900 * 216000

/-- The next edge defines the second: Meridian is UNSET, or stepped with no edge since. -/
def edgeDefines (s : State) : Prop := s.mt.sync = 0 ∨ s.mt.defines = true

/-- An edge is accepted, and its offset shown. -/
def edgeSeen (s : State) (ofs : Int) : State := { s with mt.lastPps := some s.now, mt.ofs := ofs, mt.defines := false }

/-- An accepted edge corrects Meridian where a source uses it. -/
theorem edge_taken (s : State) (ofs d : Int) :
    (let s := { s with mt.lastPps := some s.now, mt.ofs := ofs }
     let s := { s with mt.defines := false }
     if ppsUsed s then correct s d else s) = if ppsUsed s = true then correct (edgeSeen s ofs) d else edgeSeen s ofs := rfl

/-- What `edgeFar` says, as the model computes it. -/
theorem edgeFar_iff (s : State) :
    (decide (((meridian s : Int) - nearestSec (meridian s)).natAbs > 100000000) ||
      (match s.mt.lastPps with | some u => !elapsed s u 900 | none => false)) = true ↔ edgeFar s := by
  unfold edgeFar
  cases s.mt.lastPps <;> simp [elapsed, msCycles, Nat.mul_comm]

/-- An edge is rejected and counted, or accepted, shown and, where a source uses it, corrected by. -/
theorem ppsInEdgeS_cases {s : State} (hrun : s.mt.running = true) :
    (¬ edgeDefines s → edgeFar s → ppsInEdgeS s = { s with mt.ppsrej := min 255 (s.mt.ppsrej + 1) }) ∧
    ((edgeDefines s ∨ ¬ edgeFar s) → ppsInEdgeS s =
      if ppsUsed s = true then
        correct (edgeSeen s (ofsOf ((meridian s : Int) - nearestSec (meridian s)))) (-((meridian s : Int) - nearestSec (meridian s)))
      else edgeSeen s (ofsOf ((meridian s : Int) - nearestSec (meridian s)))) := by
  have hfar := edgeFar_iff s
  have hfree : (s.mt.sync == 0 || s.mt.defines) = true ↔ edgeDefines s := by simp [edgeDefines]
  unfold ppsInEdgeS
  refine ⟨fun hnot h => ?_, fun h => ?_⟩ <;> rw [if_neg (by simp [hrun])]
  · have hreject := And.intro hnot (hfar.2 h)
    rw [if_pos (by rwa [Bool.and_eq_true, Bool.not_eq_true', ← Bool.not_eq_true, hfree])]
    rfl
  · have htake : ¬ (¬ edgeDefines s ∧ _) := fun hreject => h.elim hreject.1 (· (hfar.1 hreject.2))
    rw [if_neg (by rwa [Bool.and_eq_true, Bool.not_eq_true', ← Bool.not_eq_true, hfree])]
    exact edge_taken s _ _

/-! ## TIME (R478) -/

/-- A time of day that FI takes is handed to the sources. -/
theorem timeReceive_heard {s : State} (hup : fiUp s = true) (htwi : s.glb.twilight = none) (hcon : (setN s 0x1012 0).testBit 31 = true)
    (hprod : (setN s 0x1012 0).testBit 30 = false) (hrole : s.pl.role ≠ 2) (hrun : s.mt.running = true) (ms days : Nat) :
    exec (.timeReceive ms days) s =
      .next (takeTime s (timeOfDay s ms days) (timeOfDay s ms days + 1000 * setN s 0x6013 2 - meridian s)) := by
  change execTimeReceive ms days s = _
  unfold execTimeReceive
  rw [if_neg (by simp [hup, htwi, hcon, hprod, hrole, hrun])]

/-- Under source 1 the offset of a TIME is applied. -/
theorem takeTime_applied {s : State} (h : setN s 0x6010 2 = 1) (t off : Int) :
    takeTime s t off = correct { s with mt.ofs := ofsOf off } off := by
  unfold takeTime
  rw [if_pos h]

/-- Sources other than 1 and 2 leave a TIME aside. -/
theorem takeTime_unused {s : State} (h1 : setN s 0x6010 2 ≠ 1) (h2 : setN s 0x6010 2 ≠ 2) (t off : Int) : takeTime s t off = s := by
  unfold takeTime
  rw [if_neg h1, if_neg h2]

/-- Settles O22: each command through the lemma on its operation. -/
theorem meridianTime : Obligations.MeridianTime := by
  unfold Obligations.MeridianTime
  refine ⟨fun s p ns hup htwi hrun => ⟨fun hrole hsource => ?set, fun h => ?refuse⟩,
    fun s hrun => ⟨?reject, ?seen, ?corrected, ?holdover⟩, fun s d => ⟨?sync, fun h => ?stepped, fun hset h => ?trimmed⟩,
    fun s => ⟨fun hrun hlast => ?out, fun hrun hup => ?store, fun hfi htwi => ⟨fun h => ?sync1, fun h hper hlast => ?sync2,
      fun h hrun hlast => ?produce, fun ms days hcon hprod hrole hrun => ⟨fun hsource => ?first, fun h1 h2 => ?none⟩⟩⟩⟩
  case set =>
    obtain ⟨acc, second, hstep, hacc⟩ := stepBy_eq s ((ns.toNat : Int) - meridian s)
    rw [setMeridian_served hup htwi, setMeridianOp_free hrole hrun hsource, hstep]
    exact ⟨_, rfl, hacc.trans (code_set ns _), rfl, rfl, rfl⟩
  case refuse => rw [setMeridian_served hup htwi, setMeridianOp_refused h]
  case reject => exact fun hnot h => congrArg Host.Outcome.next ((ppsInEdgeS_cases hrun).1 hnot h)
  case seen =>
    exact fun h hunused => congrArg Host.Outcome.next (((ppsInEdgeS_cases hrun).2 h).trans (if_neg (by simp [hunused])))
  case corrected =>
    exact fun h hused => congrArg Host.Outcome.next (((ppsInEdgeS_cases hrun).2 h).trans (if_pos hused))
  case holdover =>
    intro u hlast hold hsync hused
    change Host.Outcome.next (match s.mt.lastPps with | some t => _ | none => _) = _
    rw [hlast]
    exact congrArg Host.Outcome.next (if_pos (by simp [hused, hsync, elapsed_of_le hold]))
  case sync => unfold correct; rfl
  case stepped =>
    obtain ⟨acc, second, hstep, hacc⟩ := stepBy_eq s d
    rw [correct_of_step h, hstep]
    exact ⟨hacc, rfl, rfl⟩
  case trimmed => rw [correct_of_trim hset h]; exact ⟨meridian_trimBy s d, trimBy_range s d⟩
  case out => exact congrArg Host.Outcome.next (if_neg (by simp [hrun, hlast]))
  case store => exact congrArg Host.Outcome.next (if_pos (by simp [hrun, hup]))
  case sync1 => exact congrArg Host.Outcome.next (if_pos (by simp [hfi, htwi, h]))
  case sync2 => exact congrArg Host.Outcome.next (if_pos (by simp [hfi, htwi, h, hper, hlast]))
  case produce => exact congrArg Host.Outcome.next (if_pos (by simp [hfi, htwi, h, hrun, hlast]))
  case first => exact (timeReceive_heard hfi htwi hcon hprod hrole hrun ms days).trans (by rw [takeTime_applied hsource])
  case none => exact (timeReceive_heard hfi htwi hcon hprod hrole hrun ms days).trans (by rw [takeTime_unused h1 h2])

end Sys2Proof.Proofs
end

section
/-! O23: the field interface (R473 to R477, R479). -/

namespace Sys2Proof.Proofs

open Sys2Proof Sys2Proof.Machine Sys2Proof.Laws

/-! ## NMT (R474, R476) -/

/-- Without a duplicate node ID an NMT command sets the state. -/
theorem nmtSet_of_unique {s : State} (hruns : s.fi.nmt ≠ 0) (hdup : s.fi.dupid = false) (n : Nat) :
    nmtSet s n = { s with fi.nmt := n } := if_pos (by simp [fiRuns, hruns, hdup])

/-- A duplicate node ID holds FI in Stopped. -/
theorem nmtSet_of_duplicate {s : State} (hdup : s.fi.dupid = true) (n : Nat) : nmtSet s n = s := if_neg (by simp [hdup])

/-- FI starts afresh, with the node ID of its pins, and sends boot-up. -/
theorem fiReset_eq {s : State} (hbus : s.fi.bus ≠ 2) (pins : BitVec 3) :
    fiReset s pins = emit { reloadComm s with
      fi.nodePins := pins, fi.node := setN (reloadComm s) 0x2020 1 + pins.toNat, fi.dupid := false,
      fi.nominal := setN (reloadComm s) 0x2020 2, fi.data := setN (reloadComm s) 0x2020 3,
      fi.nmt := 1, fi.sessions := [], fi.tpdo := [], fi.hbAt := some s.now, fi.bootAt := some s.now }
      (.canFrame (0x700 + (setN (reloadComm s) 0x2020 1 + pins.toNat)) [0]) := by
  unfold fiReset
  exact if_pos (by simp [busOn, hbus, reloadComm])

/-! ## Frames and their error counters (R473) -/

/-- The counters as a frame leaves them, while the controller stays on the bus. -/
theorem busCounters_eq (s : State) {tec : Nat} (h : tec ≤ 255) (rcv : Nat) :
    busCounters s tec rcv = { s with
      fi.tec := tec, fi.rec_ := min 255 rcv, fi.bus := if 127 < tec ∨ 127 < rcv then 1 else 0 } := by
  unfold busCounters
  rw [Nat.min_eq_right h, if_neg (by omega)]

/-- A frame goes out while the controller stays on the bus. -/
theorem sendFrame_eq (s : State) (cob : Nat) (bs : List Byte) {tec : Nat} (h : tec ≤ 255) (rcv : Nat) :
    sendFrame s cob bs tec rcv = emit { s with
      fi.tec := tec, fi.rec_ := min 255 rcv, fi.bus := if 127 < tec ∨ 127 < rcv then 1 else 0 } (.canFrame cob bs) := by
  unfold sendFrame
  rw [busCounters_eq s h]
  exact if_pos (by simp only [busOn]; split <;> rfl)

/-- The heartbeat is due. -/
theorem canHeartbeatS_due {s : State} (hruns : s.fi.nmt ≠ 0) (hbus : s.fi.bus ≠ 2)
    (hdue : ∀ u, s.fi.hbAt = some u → u + setN s 0x1017 0 * 216000 ≤ s.now) (tec rcv : Nat) :
    canHeartbeatS s tec rcv =
      sendFrame { s with fi.hbAt := some s.now } (0x700 + s.fi.node) [BitVec.ofNat 8 (nmtCode s.fi.nmt)] tec rcv := by
  unfold canHeartbeatS
  cases hlast : s.fi.hbAt with
  | none => exact if_pos (by simp [fiRuns, busOn, hruns, hbus])
  | some u => exact if_pos (by simp [fiRuns, busOn, hruns, hbus, elapsed_of_le (hdue u hlast)])

/-! ## EMCY (R477) -/

/-- The inhibit time has passed. -/
theorem emcyDue_of_passed {s : State} (h : ∀ u, s.fi.emcyAt = some u → u + 21600 * setN s 0x1015 0 ≤ s.now) : emcyDue s = true := by
  unfold emcyDue
  cases hlast : s.fi.emcyAt with
  | none => rfl
  | some u => exact decide_eq_true (h u hlast)

/-- The oldest EMCY goes out. -/
theorem emcySendS_sent {s : State} {m : Emcy} {r : List Emcy} (hwait : s.fi.emcy = m :: r) (hdue : emcyDue s = true)
    (hruns : s.fi.nmt ≠ 0) (hstopped : s.fi.nmt ≠ 3) (hbus : s.fi.bus ≠ 2) {tec : Nat} (h : tec ≤ 255) (rcv : Nat) :
    emcySendS s tec rcv = emit { s with
      fi.tec := tec, fi.rec_ := min 255 rcv, fi.bus := if 127 < tec ∨ 127 < rcv then 1 else 0,
      fi.emcy := r, fi.emcyAt := some s.now } (.canFrame (0x080 + s.fi.node) (emcyPayload s m)) := by
  unfold emcySendS
  rw [hwait]
  dsimp only
  rw [if_neg (by simp [hdue, fiRuns, hruns]), if_neg hstopped, if_neg (by simp [busOn, hbus]), busCounters_eq s h]
  exact if_pos (by simp only [busOn]; split <;> rfl)

/-- In Stopped the oldest EMCY is counted instead. -/
theorem emcySendS_stopped {s : State} {m : Emcy} {r : List Emcy} (hwait : s.fi.emcy = m :: r) (hdue : emcyDue s = true)
    (hstopped : s.fi.nmt = 3) (tec rcv : Nat) :
    emcySendS s tec rcv = { s with fi.emcy := r, fi.suppr := min 65535 (s.fi.suppr + 1) } := by
  unfold emcySendS
  rw [hwait]
  dsimp only
  rw [if_neg (by simp [hdue, fiRuns, hstopped]), if_pos hstopped]
  rfl

/-! ## TPDO (R479) -/

/-- A TPDO has changed after 10 ms, or 1 s has passed. -/
def tpdoDue (s : State) (n : Nat) : Prop :=
  ∀ x, (s.fi.tpdo.find? fun x => x.1 == n) = some x →
    x.2.1 + 1000 * 216000 ≤ s.now ∨ (x.2.1 + 10 * 216000 ≤ s.now ∧ tpdoBytes s n ≠ x.2.2)

/-- A TPDO that is due goes out. -/
theorem tpdoSendS_due {s : State} {n : Nat} (hlo : 1 ≤ n) (hhi : n ≤ 4) (hnmt : s.fi.nmt = 2) (hbus : s.fi.bus ≠ 2)
    (hbytes : tpdoBytes s n ≠ []) (htwi : s.glb.twilight = none) (hdue : tpdoDue s n) (tec rcv : Nat) :
    tpdoSendS s n tec rcv =
      sendFrame { s with fi.tpdo := (n, s.now, tpdoBytes s n) :: s.fi.tpdo.filter fun x => x.1 != n }
        (0x80 + 0x100 * n + s.fi.node) (tpdoBytes s n) tec rcv := by
  unfold tpdoSendS
  cases hlast : s.fi.tpdo.find? fun x => x.1 == n with
  | none => exact if_pos (by simp [hlo, hhi, hnmt, busOn, hbus, hbytes, htwi])
  | some x =>
    obtain hlong | ⟨hshort, hchanged⟩ := hdue x hlast
    · exact if_pos (by simp [hlo, hhi, hnmt, busOn, hbus, hbytes, htwi, elapsed_of_le hlong])
    · exact if_pos (by simp [hlo, hhi, hnmt, busOn, hbus, hbytes, htwi, elapsed_of_le hshort, hchanged])

/-- Settles O23: each frame through the lemma on the operation that sends it. -/
theorem fieldInterface : Obligations.FieldInterface := by
  unfold Obligations.FieldInterface
  refine ⟨fun s hruns => ⟨fun hdup => ⟨?start, ?stop, ?enter⟩, fun hdup => ⟨?start', ?stop', ?enter'⟩, fun pins hbus => ?reset,
      fun b hboot hsoon => ?duplicate⟩,
    fun s tec rcv hruns hbus htec => ⟨fun hdue => ?heartbeat, fun m r hwait hdue => ⟨fun hnmt => ?sent, fun hnmt => ?counted⟩,
      fun n hlo hhi hnmt hbytes htwi hdue => ?tpdo⟩,
    fun s hbus => ⟨fun hwait => ?idle, fun m r hwait hdue hruns hnmt => ?waiting⟩⟩
  case start => exact congrArg Host.Outcome.next (nmtSet_of_unique hruns hdup 2)
  case stop => exact congrArg Host.Outcome.next (nmtSet_of_unique hruns hdup 3)
  case enter => exact congrArg Host.Outcome.next (nmtSet_of_unique hruns hdup 1)
  case start' => exact congrArg Host.Outcome.next (nmtSet_of_duplicate hdup 2)
  case stop' => exact congrArg Host.Outcome.next (nmtSet_of_duplicate hdup 3)
  case enter' => exact congrArg Host.Outcome.next (nmtSet_of_duplicate hdup 1)
  case reset =>
    have hruns' : fiRuns s = true := by simp [fiRuns, hruns]
    rw [show exec (.nmtResetNode pins) s = .next (fiReset s pins) from congrArg Host.Outcome.next (if_pos hruns'),
      show exec (.nmtResetCommunication pins) s = .next (fiReset s pins) from congrArg Host.Outcome.next (if_pos hruns'),
      fiReset_eq hbus pins]
    exact ⟨_, rfl, rfl, rfl, rfl, rfl, rfl, rfl, rfl, rfl⟩
  case duplicate =>
    change Host.Outcome.next (match s.fi.bootAt with | some t => _ | none => _) = _
    rw [hboot]
    exact congrArg Host.Outcome.next (if_pos (by simp [fiRuns, hruns, elapsed, msCycles]; omega))
  case heartbeat =>
    exact congrArg Host.Outcome.next ((canHeartbeatS_due hruns hbus hdue tec rcv).trans (sendFrame_eq _ _ _ htec rcv))
  case sent =>
    exact congrArg Host.Outcome.next (emcySendS_sent hwait (emcyDue_of_passed hdue) hruns hnmt hbus htec rcv)
  case counted => exact congrArg Host.Outcome.next (emcySendS_stopped hwait (emcyDue_of_passed hdue) hnmt tec rcv)
  case tpdo =>
    exact congrArg Host.Outcome.next
      ((tpdoSendS_due hlo hhi hnmt hbus hbytes htwi hdue tec rcv).trans (sendFrame_eq _ _ _ htec rcv))
  case idle =>
    refine congrArg Host.Outcome.next ((if_neg (by simp [busOn, hbus])).trans ?_)
    unfold emcySendS
    simp [hwait]
  case waiting =>
    have hsent := emcySendS_sent (s := { s with fi.bus := 0, fi.tec := 0, fi.rec_ := 0 }) hwait (emcyDue_of_passed hdue) hruns hnmt
      (by simp) (Nat.zero_le 255) 0
    exact ⟨_, congrArg Host.Outcome.next ((if_neg (by simp [busOn, hbus])).trans hsent), rfl, rfl, rfl, rfl, rfl⟩

end Sys2Proof.Proofs
end

section
/-! O26: Nightwatch at rest and cleared, the auxiliary drivers, the robot interlock (R437, R441, R442, R485 to R487, R493). -/

namespace Sys2Proof.Proofs

open Sys2Proof Sys2Proof.Machine Sys2Proof.Laws

/-! ## Rest (R437) -/

/-- The reels are at rest once the tach stands still and the current of each is small. -/
theorem reelsRest_of_small {s : State} (hstill : 1920 ≤ s.nw.still)
    (hsmall : ∀ reel, ((reelOf s reel).iD * (reelOf s reel).iD + (reelOf s reel).iQ * (reelOf s reel).iQ) * 25600 < 2 ^ 62) :
    reelsRest s = true := by
  have hsup : (s.ce.sup.iD * s.ce.sup.iD + s.ce.sup.iQ * s.ce.sup.iQ) * 25600 < 2 ^ 62 := hsmall .supply
  have htkp : (s.ce.tkp.iD * s.ce.tkp.iD + s.ce.tkp.iQ * s.ce.tkp.iQ) * 25600 < 2 ^ 62 := hsmall .takeup
  unfold reelsRest
  simp only [decide_eq_true hstill, decide_eq_true hsup, decide_eq_true htkp, Bool.and_self, Bool.or_true]

/-- Rest ends BRAKE and CLAMP, with nothing that waits for it. -/
theorem reelsAtRestS_of_stop {s : State} (hstop : s.nw.state = 1 ∨ s.nw.state = 2) (hheld : s.glb.heldByReel = false)
    (hevent : s.ps.chopEvent = false) :
    reelsAtRestS s = { servoOff s with
      nw.restAt := (if s.nw.atRest then s.nw.restAt else s.now), nw.atRest := true, nw.permit := false, ps.zvb := false,
      ce.aLimit := none, nw.kFull := false,
      nw.state := if s.ce.sup.angleKnown && s.ce.tkp.angleKnown then 3 else 4 } := by
  unfold reelsAtRestS
  extract_lets off _ _ _ begun known _ ended told _
  have hended : ended = { begun with nw.state := if known then 3 else 4 } := if_pos hstop
  have htold : told = ended := if_neg (by rw [hended]; exact ne_true_of_eq_false hevent)
  rw [htold, if_neg (by rw [hended]; exact ne_true_of_eq_false hheld), hended]
  rfl

/-! ## Clears (R441, R493) -/

/-- One reel takes the alignment step where the stop asks for it. -/
def realignReel (s : State) (k : Reel) : State := if (reelOf s k).realign then alignReel s k else s

/-- The step of one reel touches CE alone. -/
theorem realignReel_eq (s : State) (k : Reel) : realignReel s k = { s with ce := (realignReel s k).ce } := by
  unfold realignReel
  split
  · cases k <;> rfl
  · rfl

/-- The alignment step takes the reels in turn. -/
theorem realignReels_turns (s : State) :
    realignReels s = if s.nw.atRest = false then s else realignReel (realignReel s .supply) .takeup := by
  unfold realignReels realignReel reelOf
  cases s.nw.atRest <;> rfl

/-- The alignment step touches CE alone. -/
theorem realignReels_eq (s : State) : realignReels s = { s with ce := (realignReels s).ce } := by
  rw [realignReels_turns]
  split
  · rfl
  · rw [realignReel_eq (realignReel s .supply), realignReel_eq s]

/-- Nightwatch clears once its conditions hold. -/
theorem askClear_of_accepted {s : State} {startup : Bool} (h : clearAccepted (realignReels s) startup = true) :
    askClear s startup = nwClear (realignReels s) := if_pos h

/-- HALTED ends with the clear where writing may go on. -/
theorem haltOver_of_writable {s : State} (hhalted : s.fm.wstate = 6) (hlanes : retiredCount s ≤ 4) (hopen : s.fm.closing = false)
    (hparts : ∀ x ∈ s.fm.parts, x.halted = false) : haltOver s = true := by
  have hany : s.fm.parts.any Part.halted = false := by simpa using hparts
  unfold haltOver
  simp [hhalted, hlanes, hopen, hany]

/-- The writer after a clear. -/
theorem nwClear_wstate {s : State} (h : haltOver s = true) : (nwClear s).fm.wstate = 0 := if_pos h

/-! ## The robot interlock (R485 to R487) -/

/-- A grip is granted while the tape is safe, or in a permit window. -/
theorem sampleGrip_granted {s : State} (hreq : s.nw.req = true) (hout : s.nw.inReset = false) (hfree : s.nw.grant = false)
    (hsafe : tapeSafe s = true ∨ s.nw.window = true) :
    sampleGrip s = { s with nw.grant := true, nw.window := false, nw.grants := min 65535 (s.nw.grants + 1) } := by
  unfold sampleGrip
  rw [if_neg (by simp [hreq, hout, hfree]), if_pos (by simpa using hsafe)]
  rfl

/-- Else it waits. -/
theorem sampleGrip_waits {s : State} (hunsafe : tapeSafe s = false) (hshut : s.nw.window = false) : sampleGrip s = s := by
  unfold sampleGrip
  simp [hunsafe, hshut]

/-- A sample touches Nightwatch alone. -/
theorem sampleGrip_eq (s : State) : sampleGrip s = { s with nw := (sampleGrip s).nw } := by
  unfold sampleGrip
  split
  · rfl
  · split <;> rfl

/-- The grant after a sample of a high level. -/
theorem sampleGrip_grant {s : State} (hreq : s.nw.req = true) (hout : s.nw.inReset = false) (hfree : s.nw.grant = false) :
    (sampleGrip s).nw.grant = (tapeSafe s || s.nw.window) := by
  cases h : tapeSafe s || s.nw.window with
  | true => rw [sampleGrip_granted hreq hout hfree (by simpa using h)]
  | false =>
    obtain ⟨hunsafe, hshut⟩ := Bool.or_eq_false_iff.1 h
    rw [sampleGrip_waits hunsafe hshut, hfree]

/-- A permit waits for the end of a grant and for 20 V. -/
theorem motionPermitRequest_waits {s : State} (hout : s.nw.inReset = false) (h : s.nw.grant = true ∨ s.ps.vmot < 2000) (g : Bool) :
    exec (.motionPermitRequest g) s = .next { s with nw.waitSince := some (s.nw.waitSince.getD s.now) } :=
  congrArg Host.Outcome.next ((if_neg (by simp [hout])).trans (if_pos (by simpa using h)))

/-- Nothing but a grip stands against a permit. -/
theorem motionPermitRequest_free {s : State} (hout : s.nw.inReset = false) (hfree : s.nw.grant = false) (hvolt : 2000 ≤ s.ps.vmot)
    (g : Bool) :
    exec (.motionPermitRequest g) s = .next (if (g || s.nw.req) = true then
        { s with nw.req := true, nw.grant := true, nw.grants := min 65535 (s.nw.grants + 1),
                 nw.waitSince := some (s.nw.waitSince.getD s.now) }
      else { s with nw.permit := true, nw.waitSince := none }) :=
  congrArg Host.Outcome.next ((if_neg (by simp [hout])).trans (if_neg (by simp [hfree, hvolt])))

/-- Settles O26: rest, clear and interlock, each through the lemma on its operation. -/
theorem restAndInterlock : Obligations.RestAndInterlock := by
  unfold Obligations.RestAndInterlock
  refine ⟨fun s => ⟨fun hstop hstill hheld hevent hsmall => ?rest, fun hhold => ?slip, fun hmay haccept => ?clear,
      fun u haccept hup htwi h3 h4 hsince hlong hfew => ?autoClear⟩,
    fun s => ⟨rfl, fun u hrun hlong => ?loader, fun hout hfree => ⟨fun hsafe => ?granted, fun hunsafe hshut => ?danger⟩,
      fun hidle hreq hout hfree => ?cycle, rfl, fun hout g => ⟨fun h => motionPermitRequest_waits hout h g, fun hfree hvolt =>
        ⟨fun hgrip => ?gives, fun hnone hlow => ?takes⟩⟩⟩⟩
  case rest =>
    refine ⟨_, (congrArg Host.Outcome.next ((if_pos (reelsRest_of_small hstill hsmall)).trans
      (reelsAtRestS_of_stop hstop hheld hevent))), rfl, rfl, ?_⟩
    simp only [Bool.and_eq_true]
  case slip => exact congrArg Host.Outcome.next (if_pos hhold)
  case clear =>
    have hfm : (realignReels s).fm = s.fm := by rw [realignReels_eq]
    refine ⟨_, congrArg Host.Outcome.next ((if_pos hmay).trans (askClear_of_accepted haccept)), rfl, rfl, rfl, rfl,
      fun hhalted hlanes hopen hparts => nwClear_wstate (haltOver_of_writable ?_ ?_ ?_ ?_)⟩
    · rw [hfm, hhalted]
    · unfold retiredCount; rwa [hfm]
    · rw [hfm, hopen]
    · rwa [hfm]
  case autoClear =>
    have hnw : (realignReels s).nw = s.nw := by rw [realignReels_eq]
    have hglb : (realignReels s).glb = s.glb := by rw [realignReels_eq]
    have hnow : (realignReels s).now = s.now := by rw [realignReels_eq]
    have hrecent : recentClears (realignReels s) = recentClears s := by unfold recentClears elapsed; rw [hnw, hnow]
    change ∃ t, execAutoClear s = .next t ∧ _
    unfold execAutoClear
    rw [if_neg (show ¬ (s.glb.twilight.isSome || s.glb.restarting.isSome) = true by simp [hup, htwi])]
    dsimp only
    rw [if_neg (by rw [hglb, hnw]; simp [hup, htwi, h3, h4, haccept]), hnw, hsince]
    dsimp only
    rw [hrecent, hnow]
    rw [if_pos ⟨by unfold elapsed; rw [hnow]; exact elapsed_of_le hlong, hfew⟩]
    exact ⟨_, rfl, rfl, rfl⟩
  case loader =>
    change Host.Outcome.next (match s.ps.ldrAt with | some t => _ | none => _) = _
    rw [hrun]
    exact congrArg Host.Outcome.next (if_pos (elapsed_of_le hlong))
  case granted => exact congrArg Host.Outcome.next (sampleGrip_granted (s := { s with nw.req := true }) rfl hout hfree hsafe)
  case danger => exact congrArg Host.Outcome.next (sampleGrip_waits (s := { s with nw.req := true }) hunsafe hshut)
  case cycle =>
    refine ⟨tick s, ?_, ?_, ?_⟩
    · unfold step; rw [hidle]
    · unfold tick; rw [sampleGrip_eq]
    · exact sampleGrip_grant hreq hout hfree
  case gives =>
    exact (motionPermitRequest_free hout hfree hvolt g).trans (congrArg Host.Outcome.next (if_pos (by simpa using hgrip)))
  case takes =>
    exact (motionPermitRequest_free hout hfree hvolt g).trans (congrArg Host.Outcome.next (if_neg (by simp [hnone, hlow])))

end Sys2Proof.Proofs
end

section
/-! O18: temperature caps, background writing, the scrubber and its code (R139 to R143, R517, R583, R584). -/

namespace Sys2Proof.Proofs

open Sys2Proof Sys2Proof.Machine Sys2Proof.Laws

/-- A fault record touches the health page alone. -/
theorem faultRec_eq (s : State) (code : Nat) (permanent : Bool) (unit p1 p2 : Nat) :
    ∃ health, faultRec s code permanent unit p1 p2 = { s with health := health } := by
  unfold faultRec ringAdd
  split <;> exact ⟨_, rfl⟩

/-! ## The cap of the speed index (R583, R584) -/

/-- Under the thermal cap no speed above index 12 is allowed. -/
theorem speedMmps_cap_le {s : State} (h : s.glb.thermalCap = true) : speedMmps (speedCap s) ≤ 4000 := by
  unfold speedMmps speedCap
  rw [if_pos h]
  split <;> omega

/-- Reading comes down to the cap, and nothing else of the head changes. -/
theorem capReading_eq (s : State) : ∃ n ce, capReading s = { s with rc.mmps := n, ce := ce } := by
  unfold capReading
  extract_lets mmps v
  by_cases h : (!reading s || decide (s.rc.mmps ≤ mmps)) = true
  · exact ⟨s.rc.mmps, s.ce, if_pos h⟩
  · rw [if_neg h]
    split <;> exact ⟨_, _, rfl⟩

/-- Reading that goes on is no faster than the cap. -/
theorem capReading_mmps {s : State} (h : reading s = true) : (capReading s).rc.mmps ≤ speedMmps (speedCap s) := by
  unfold capReading
  by_cases hslow : s.rc.mmps ≤ speedMmps (speedCap s)
  · rw [if_pos (by simp [hslow])]
    exact hslow
  · rw [if_neg (by simp [h, hslow])]
    dsimp only
    split <;> exact Nat.le_refl _

/-- Reading that is slow enough goes on as it is. -/
theorem capReading_slow {s : State} (h : s.rc.mmps ≤ 1000) : capReading s = s :=
  if_pos (by simp only [Bool.or_eq_true, decide_eq_true_eq]; exact .inr (h.trans (Nat.le_add_right _ _)))

/-- The writer comes down to index 12. -/
def capWriting (s : State) : State :=
  if s.fm.speed > 12 then (if writerMoves s then setSpeed s 12 else { s with fm.speed := 12 }) else s

/-- The writer is no faster than the cap, and reading is left as it is. -/
theorem capWriting_eq (s : State) : ∃ n ce, capWriting s = { s with fm.speed := n, ce := ce } ∧ n ≤ 12 := by
  unfold capWriting
  split
  · split
    · obtain ⟨ce, hset⟩ := setSpeed_eq s 12
      exact ⟨12, ce, hset, Nat.le_refl _⟩
    · exact ⟨12, s.ce, rfl, Nat.le_refl _⟩
  · exact ⟨s.fm.speed, s.ce, rfl, by omega⟩

/-- From 120 degrees on, reading and writing come down to the cap. -/
theorem logicThermalCap_hot (s : State) {d : Int} (h : 1200 ≤ d) :
    exec (.logicThermalCap d) s = .next (capWriting (capReading { noteTemp s 0 d with glb.thermalCap := true })) :=
  congrArg Host.Outcome.next (if_pos h)

/-! ## The scrubber's code (R139) -/

/-- A line read as it was written is clean. -/
theorem checkLine_clean : checkLine [] 0 = .clean := by decide

/-- Information bits take places up to that of the last. -/
theorem hamPlace_le (i : Nat) : hamPlace i ≤ i + 11 := by
  unfold hamPlace firstBelow
  cases h : (List.range 11).find? fun k => decide (i + 1 + k < 2 ^ k) with
  | none => simp only [Option.getD_none]; omega
  | some k =>
    have hk := List.mem_range.1 (List.mem_of_find?_eq_some h)
    simp only [Option.getD_some]
    omega

/-- The syndrome of a single stored bit lies within the code. -/
theorem storedPlace_le {b : Nat} (h : b < 523) : storedPlace b ≤ hamPlace 511 := by
  have hlast : hamPlace 511 = 522 := by decide
  rw [hlast]
  unfold storedPlace
  split
  · exact (hamPlace_le b).trans (by omega)
  · split
    · have hpow : 2 ^ (b - 512) ≤ 2 ^ 9 := Nat.pow_le_pow_right (by omega) (by omega)
      omega
    · omega

/-- One wrong stored bit is a single error. -/
theorem checkLine_single {b : Nat} (h : b < 523) : checkLine [b] 0 = .single := by
  have hsyn : [b].foldl (fun a b => a ^^^ storedPlace b) 0 ^^^ placesOf 29 512 0 = storedPlace b := by
    rw [show placesOf 29 512 0 = 0 by decide]
    simp
  unfold checkLine
  rw [hsyn]
  exact (if_pos (show (([b].length + (List.range 29).countP (0 : Nat).testBit) % 2 == 1) = true from rfl)).trans
    (if_pos (storedPlace_le h))

/-! ## Lines that are lost (R140, R142, R143) -/

/-- The scrubber goes on to the next line, and then judges the one it has read. -/
theorem scrub_eq (s : State) (x : LineRead) :
    exec (.scrub x) s = .next (match checkLine x.flips x.moved with
      | .clean => { s with bpm.scrub := (s.bpm.scrub + 1) % 503316480 }
      | .single => { s with
          bpm.scrub := (s.bpm.scrub + 1) % 503316480, bpm.eccCor := min (2 ^ 32 - 1) (s.bpm.eccCor + 1),
          bpm.corTotal := min (2 ^ 32 - 1) (s.bpm.corTotal + 1) }
      | .uncorrectable => lineLost { s with bpm.scrub := (s.bpm.scrub + 1) % 503316480 } s.bpm.scrub x) := by
  change Host.Outcome.next (scrubS s x) = _
  unfold scrubS
  cases checkLine x.flips x.moved <;> rfl

/-- A line written whole is the one line whose POISON goes. -/
theorem poison_rewritten (l : Nat) (ps : List Nat) :
    (l :: ps.filter (· != l)).filter (fun k => !(decide (64 * l ≤ 64 * k) && decide (64 * k + 64 ≤ 64 * l + 64))) =
      ps.filter (· != l) := by
  have hother : (fun k => !(decide (64 * l ≤ 64 * k) && decide (64 * k + 64 ≤ 64 * l + 64))) = (· != l) := by
    funext k
    by_cases h : k = l
    · simp [h]
    · have hfar : ¬ (64 * l ≤ 64 * k ∧ 64 * k + 64 ≤ 64 * l + 64) := by omega
      rw [← Bool.decide_and, decide_eq_false hfar]
      simpa using h
  rw [hother]
  simp

/-- A line of the second region is made good by its second copy. -/
theorem lineLost_of_copy {s : State} {l : Nat} {x : LineRead} (hlo : 0x200000000 ≤ 64 * l) (hhi : 64 * l < 0x280000000)
    (hcopy : checkLine x.second 0 ≠ .uncorrectable) :
    lineLost s l x = { s with
      bpm.eccUnc := min 65535 (s.bpm.eccUnc + 1), bpm.uncTotal := min (2 ^ 32 - 1) (s.bpm.uncTotal + 1),
      bpm.eccAddr := l, bpm.poison := s.bpm.poison.filter (· != l) } := by
  unfold lineLost
  rw [if_pos ⟨hlo, hhi⟩, if_neg hcopy, ← poison_rewritten l s.bpm.poison]
  rfl

/-- A line of the pools outside every buffer is poisoned, and recorded as a fault. -/
theorem lineLost_of_pools {s : State} {l : Nat} {x : LineRead} (hlo : 0x280000000 ≤ 64 * l) (hfree : bufferAt s (64 * l) = none) :
    ∃ health, lineLost s l x = { setPoison (countLine s l) l with health := health } := by
  have hfree' : bufferAt (setPoison (countLine s l) l) (64 * l) = none := hfree
  unfold lineLost
  rw [if_neg (by omega), if_neg (by omega), hfree']
  obtain ⟨health, hfault⟩ := faultRec_eq (setPoison (countLine s l) l) 0x01 false noUnit 0 l
  refine ⟨health, ?_⟩
  change bufferLost (faultRec (setPoison (countLine s l) l) 0x01 false noUnit 0 l) (64 * l) = _
  rw [hfault]
  unfold bufferLost
  rw [show bufferAt { setPoison (countLine s l) l with health := health } (64 * l) = none from hfree]

/-- Settles O18: each band of temperature, and each verdict on a line. -/
theorem thermalAndScrub : Obligations.ThermalAndScrub := by
  unfold Obligations.ThermalAndScrub
  refine ⟨fun s d => ⟨fun hhot => ?hot, fun hhot hspeed hmmps => ?slow, fun hcool => ?cool, fun hwarm hcool => ?between,
      fun hhot => ?limit, fun hcool => ?unlimited, fun hwarm hcool => ?same, fun hready => congrArg Host.Outcome.next (if_pos hready)⟩,
    fun s x => ⟨fun hflips hmoved => ?clean, fun b hb hflips hmoved => ?single, fun hlost => ⟨fun hlo hhi hcopy => ?second,
      fun hlo hfree => ?pools⟩⟩⟩
  case hot =>
    refine ⟨_, logicThermalCap_hot s hhot, ?_⟩
    obtain ⟨n, ce, hwriting, hn⟩ := capWriting_eq (capReading { noteTemp s 0 d with glb.thermalCap := true })
    obtain ⟨m, ce', hreading⟩ := capReading_eq { noteTemp s 0 d with glb.thermalCap := true }
    have hmmps : reading s = true → m ≤ 4000 := fun hread => by
      have hcapped := capReading_mmps (s := { noteTemp s 0 d with glb.thermalCap := true }) hread
      rw [hreading] at hcapped
      exact hcapped.trans (speedMmps_cap_le rfl)
    rw [hwriting, hreading]
    exact ⟨rfl, hn, hmmps⟩
  case slow =>
    rw [logicThermalCap_hot s hhot,
      capReading_slow (s := { noteTemp s 0 d with glb.thermalCap := true }) hmmps]
    exact congrArg Host.Outcome.next (if_neg (Nat.not_lt.2 hspeed))
  case cool => exact congrArg Host.Outcome.next ((if_neg (by omega)).trans (if_pos hcool))
  case between => exact congrArg Host.Outcome.next ((if_neg (by omega)).trans (if_neg (by omega)))
  case limit => exact congrArg Host.Outcome.next (if_pos hhot)
  case unlimited => exact congrArg Host.Outcome.next ((if_neg (by omega)).trans (if_pos hcool))
  case same => exact congrArg Host.Outcome.next ((if_neg (by omega)).trans (if_neg (by omega)))
  case clean => rw [scrub_eq, hflips, hmoved, checkLine_clean]
  case single => rw [scrub_eq, hflips, hmoved, checkLine_single hb]
  case second =>
    rw [scrub_eq, hlost]
    exact congrArg Host.Outcome.next (lineLost_of_copy hlo hhi hcopy)
  case pools =>
    rw [scrub_eq, hlost]
    obtain ⟨health, hpools⟩ := lineLost_of_pools (s := { s with bpm.scrub := (s.bpm.scrub + 1) % 503316480 }) (x := x) hlo hfree
    exact ⟨_, congrArg Host.Outcome.next hpools, rfl, rfl, List.mem_cons_self, rfl⟩

end Sys2Proof.Proofs
end

section
/-! O51: the mailbox, USDO and the parameter commands (R483, R484, R566). -/

namespace Sys2Proof.Proofs

open Sys2Proof Sys2Proof.Machine Sys2Proof.Laws

/-! ## The mailbox (R566) -/

/-- LS.MBREQ with GO, as its fields are cut from it. -/
theorem mbReq_fields (v : Word) :
    BitVec.ofNat 16 (v ||| 0x02000000).toNat = v.setWidth 16 ∧
    BitVec.ofNat 8 (bits (v ||| 0x02000000).toNat 16 8) = v.extractLsb' 16 8 ∧
    bit (v ||| 0x02000000).toNat 24 = v.getLsbD 24 ∧ bit (v ||| 0x02000000).toNat 25 = true := by
  have hgo : ∀ i, i ≠ 25 → (v ||| 0x02000000).toNat.testBit i = v.toNat.testBit i := fun i hi => by
    have hbit : (0x02000000 : Nat).testBit i = false := by
      rw [show (0x02000000 : Nat) = 2 ^ 25 by decide, Nat.testBit_two_pow]
      simpa using hi.symm
    rw [BitVec.toNat_or, Nat.testBit_or]
    exact (congrArg (v.toNat.testBit i || ·) hbit).trans (Bool.or_false _)
  refine ⟨?_, ?_, ?_, ?_⟩
  · refine BitVec.eq_of_getLsbD_eq fun i hi => ?_
    rw [BitVec.getLsbD_ofNat, BitVec.getLsbD_setWidth, hgo i (by omega)]
    rfl
  · refine BitVec.eq_of_getLsbD_eq fun i hi => ?_
    unfold bits
    rw [BitVec.getLsbD_ofNat, BitVec.getLsbD_extractLsb', Nat.testBit_mod_two_pow, Nat.testBit_shiftRight,
      hgo (16 + i) (by omega), decide_eq_true hi, Bool.true_and, Bool.true_and]
    rfl
  · exact hgo 24 (by decide)
  · unfold bit
    rw [BitVec.toNat_or, Nat.testBit_or]
    exact (congrArg (v.toNat.testBit 25 || ·) (by decide : (0x02000000 : Nat).testBit 25 = true)).trans (Bool.or_true _)

/-- The request registers take what is written to LS.MBREQ. -/
def mbRequest (s : State) (v : Word) : State :=
  { s with ls.index := v.setWidth 16, ls.sub := v.extractLsb' 16 8, ls.wr := v.getLsbD 24 }

/-- GO starts the request, unless the mailbox is busy. -/
theorem mailboxGo_free {s : State} (hfree : mbBusy s = false) (v : Word) (w : CmdWorld) :
    exec (.mailboxGo v w) s = .next (mbServe (mbRequest s v) w) := by
  obtain ⟨hindex, hsub, hwr, hgo⟩ := mbReq_fields v
  change Host.Outcome.next (mbReqS s (v ||| 0x02000000).toNat w) = _
  unfold mbReqS mbRequest
  rw [if_neg (by simp [hfree]), if_pos hgo, hindex, hsub, hwr]

/-- While Lodestar does not serve it, the write is discarded. -/
theorem mailboxGo_busy {s : State} (hbusy : mbBusy s = true) (v : Word) (w : CmdWorld) : exec (.mailboxGo v w) s = .next s :=
  congrArg Host.Outcome.next (if_pos hbusy)

/-- Lodestar serves, so neither a restart nor Twilight is in force. -/
theorem twilight_of_lsServes {s : State} (h : lsServes s = true) : s.glb.twilight = none := by
  unfold lsServes at h
  simp only [Bool.and_eq_true, Option.isNone_iff_eq_none] at h
  exact h.2

/-- A write through the mailbox is OD_WRITE. -/
theorem mbServe_write {s : State} (htwi : s.glb.twilight = none) (hlo : 1 ≤ s.ls.len.toNat) (hhi : s.ls.len.toNat ≤ 2048)
    (hwr : s.ls.wr = true) (w : CmdWorld) :
    mbServe s w = mbDone (odWrite s .mailbox s.ls.index.toNat s.ls.sub.toNat (mbBytes s s.ls.len.toNat) w).1
      (odWrite s .mailbox s.ls.index.toNat s.ls.sub.toNat (mbBytes s s.ls.len.toNat) w).2.status := by
  unfold mbServe
  rw [if_neg (by simp [htwi]), if_neg (by omega), if_pos hwr]

/-- A read of an entry of fixed size through the mailbox is OD_READ. -/
theorem mbServe_read {s r : State} {e : OdEntry} {bs : List Byte} (htwi : s.glb.twilight = none) (hlo : 1 ≤ s.ls.len.toNat)
    (hhi : s.ls.len.toNat ≤ 2048) (hwr : s.ls.wr = false) (hfind : odFind s.ls.index.toNat s.ls.sub.toNat = some e)
    (hacc : e.acc ≠ .wo) (hvar : e.var = false) (hsize : s.ls.len.toNat = e.size)
    (hread : odRead s s.ls.index.toNat s.ls.sub.toNat = (r, .ok bs)) (w : CmdWorld) :
    mbServe s w = mbDone (mbFill r (fit e.size bs)) stOk := by
  unfold mbServe
  rw [if_neg (by simp [htwi]), if_neg (by omega), if_neg (by simp [hwr]), hfind]
  dsimp only
  rw [if_neg hacc, if_neg (by simp [hvar, hsize]), hread, hsize]

/-- In Twilight a request ends at once. -/
theorem mbServe_twilight {s : State} (htwi : s.glb.twilight.isSome = true) (w : CmdWorld) : mbServe s w = mbDone s stTwilight := by
  unfold mbServe
  rw [if_pos htwi]

/-! ## USDO (R484) -/

/-- Seeing VBUS changes neither Lodestar nor FI. -/
theorem seeVbus_eq (s : State) (p : Path) : ∃ b, seeVbus s p = { s with fw.vbus := b } := by
  unfold seeVbus
  split
  · exact ⟨true, rfl⟩
  · exact ⟨s.fw.vbus, rfl⟩

/-- A frame of a transfer that is served: its last one serves it, any other one holds the session. -/
theorem usdoFrame_served {s : State} {p : Path} {client : Nat} (hserves : lsServes s = true) (hpath : usdoPath s p = true)
    (hroom : p = .can → (s.fi.sessions.countP fun x => x.1 != usbClient) < 4) (last : Bool) (k : State → State) :
    usdoFrame s p client last k =
      if last = true then k (closeSession (seeVbus s p) (usdoKey p client))
      else { closeSession (seeVbus s p) (usdoKey p client) with
        fi.sessions := (usdoKey p client, s.now) :: (closeSession (seeVbus s p) (usdoKey p client)).fi.sessions } := by
  obtain ⟨b, hseen⟩ := seeVbus_eq s p
  unfold usdoFrame
  rw [hseen, if_neg (by rw [show usdoPath { s with fw.vbus := b } p = usdoPath s p from rfl, hpath]; simp),
    if_neg (by rw [show lsServes { s with fw.vbus := b } = lsServes s from rfl, hserves]; simp),
    if_neg (by rintro ⟨hcan, _, hfull⟩; exact absurd (hroom hcan) (Nat.not_lt.2 hfull))]
  cases last <;> rfl

/-! ## Parameters (R483) -/

/-- A restore of defaults is noted for the next reset. -/
theorem restoreOp_noted {s : State} {n : Nat} (hlo : 1 ≤ n) (hhi : n ≤ 3) (hopen : n = 1 → sessionOpen s = true) :
    restoreOp s n 0x64616F6C = ({ s with flash.restore := s.flash.restore ||| BitVec.ofNat 3 (2 ^ (n - 1)) }, .ok) := by
  unfold restoreOp
  rw [if_neg (by omega), if_neg (by rintro ⟨hone, hshut⟩; simp [hopen hone] at hshut), if_neg (by decide)]

/-- Settles O51: the mailbox through `mbServe`, USDO through `usdoFrame`. -/
theorem transfersServed : Obligations.TransfersServed := by
  unfold Obligations.TransfersServed
  refine ⟨fun s v w => ⟨fun hserves hlo hhi => ⟨fun hwr => ?write, fun hrd e r bs hfind hacc hvar hsize hread => ?read⟩,
      fun hserves htwi => ?busy, fun htwi => ?twilight⟩,
    fun s p client idx sub bs w hserves hpath hroom => ⟨fun hanswered => ?download, fun t v hread => ?upload, ?goesOn⟩,
    fun s k t hfind hlong => ?timeout, fun s v => rfl, fun s n hserves hlo hhi hopen => ?restore⟩
  case write =>
    rw [mailboxGo_free (by simp [mbBusy, hserves])]
    exact congrArg Host.Outcome.next (mbServe_write (s := mbRequest s v) (twilight_of_lsServes hserves) hlo hhi hwr w)
  case read =>
    rw [mailboxGo_free (by simp [mbBusy, hserves])]
    exact congrArg Host.Outcome.next
      (mbServe_read (s := mbRequest s v) (twilight_of_lsServes hserves) hlo hhi hrd hfind hacc hvar hsize hread w)
  case busy => exact mailboxGo_busy (by simp [mbBusy, hserves, htwi]) v w
  case twilight =>
    rw [mailboxGo_free (by simp [mbBusy, ← Option.not_isSome, htwi])]
    exact congrArg Host.Outcome.next (mbServe_twilight (s := mbRequest s v) htwi w)
  case download =>
    refine congrArg Host.Outcome.next ((usdoFrame_served hserves hpath hroom true _).trans ((if_pos rfl).trans (if_neg ?_)))
    rintro ⟨himage, hok⟩
    exact hanswered.elim (· himage) (· hok)
  case upload =>
    refine congrArg Host.Outcome.next ((usdoFrame_served hserves hpath hroom true _).trans ((if_pos rfl).trans ?_))
    dsimp only
    rw [hread]
    rfl
  case goesOn =>
    exact ⟨congrArg Host.Outcome.next ((usdoFrame_served hserves hpath hroom false _).trans (if_neg Bool.false_ne_true)),
      congrArg Host.Outcome.next ((usdoFrame_served hserves hpath hroom false _).trans (if_neg Bool.false_ne_true))⟩
  case timeout =>
    change Host.Outcome.next (match s.fi.sessions.find? _ with | some x => _ | none => _) = _
    rw [hfind]
    exact congrArg Host.Outcome.next (if_pos (elapsed_of_le hlong))
  case restore =>
    refine congrArg Host.Outcome.next ((if_pos hserves).trans ?_)
    exact congrArg Prod.fst (restoreOp_noted hlo hhi hopen)

end Sys2Proof.Proofs
end

section
/-! O28: the servo position lost and regained, band changes, the frame and the write gate (R276, R356 to R365, R442). -/

namespace Sys2Proof.Proofs

open Sys2Proof Sys2Proof.Machine Sys2Proof.Laws

/-! ## The write gate (R276) -/

/-- Closing the gate leaves it closed, and touches the write path alone. -/
theorem closeGate_eq (s : State) : ∃ fm, closeGate s = { s with fm := fm } ∧ fm.gate = false := by
  unfold closeGate
  by_cases hgate : s.fm.gate = true
  · rw [if_neg (by simp [hgate])]
    dsimp only
    split
    · exact ⟨_, rfl, rfl⟩
    · split <;> exact ⟨_, rfl, rfl⟩
  · exact ⟨s.fm, if_pos (by simpa using hgate), by simpa using hgate⟩

/-- The gate is closed outside HELD and beyond the write limit. -/
def gateHeld (s : State) : State := if s.sv.state ≠ 2 ∨ s.sv.pes.natAbs > setN s 0x4103 1 then closeGate s else s

/-- The servo is no part of the gate. -/
theorem gateHeld_sv (s : State) : (gateHeld s).sv = s.sv := by
  unfold gateHeld
  split
  · obtain ⟨fm, hclosed, _⟩ := closeGate_eq s
    rw [hclosed]
  · rfl

/-- Outside HELD the gate is closed. -/
theorem gateHeld_outside {s : State} (h : s.sv.state ≠ 2) : (gateHeld s).fm.gate = false := by
  obtain ⟨fm, hclosed, hgate⟩ := closeGate_eq s
  unfold gateHeld
  rw [if_pos (.inl h), hclosed]
  exact hgate

/-- In HELD the gate stays as it is within the write limit. -/
theorem gateHeld_held {s : State} (h : s.sv.state = 2) :
    (gateHeld s).fm.gate = (s.fm.gate && decide (s.sv.pes.natAbs ≤ setN s 0x4103 1)) := by
  obtain ⟨fm, hclosed, hgate⟩ := closeGate_eq s
  unfold gateHeld
  by_cases hfar : s.sv.pes.natAbs > setN s 0x4103 1
  · rw [if_pos (.inr hfar), hclosed, decide_eq_false (Nat.not_le.2 hfar), Bool.and_false]
    exact hgate
  · rw [if_neg (by simp [h, Nat.not_lt.1 hfar]), decide_eq_true (Nat.not_lt.1 hfar), Bool.and_true]

/-! ## What a channel shows (R356 to R358) -/

/-- What a channel tells of the latest frame. -/
def chanView (c : ServoChan) : Bool × Int := (c.valid, c.y)

/-- The lateral positions of the valid channels. -/
def validYs (cs : List ServoChan) : List Int := (cs.filter ServoChan.valid).map ServoChan.y

/-- They turn on the channels' views alone. -/
theorem validYs_congr {cs ds : List ServoChan} (h : cs.map chanView = ds.map chanView) : validYs cs = validYs ds := by
  have hview : ∀ l : List ServoChan, validYs l = ((l.map chanView).filter Prod.fst).map Prod.snd := fun l => by
    rw [List.filter_map, List.map_map]
    rfl
  rw [hview, hview, h]

/-- A word leaves the view as it is. -/
theorem endWord_view (s : State) (k : Nat) (c : ServoChan) : chanView (endWord s k c) = chanView c := by
  unfold endWord
  split
  · rfl
  · dsimp only
    split
    · split <;> rfl
    · rfl

/-- A channel is valid when it is in service and its frame is whole, and then shows where the head is. -/
theorem chanFrame_view (s : State) (k : Nat) (c : ServoChan) (x : ServoCh) :
    (chanFrame s k c x).valid = (!chRetired s k && frameOk s x) ∧
    ((!chRetired s k && frameOk s x) = true → (chanFrame s k c x).y = lateral x) := by
  unfold chanFrame
  by_cases hretired : chRetired s k = true
  · rw [if_pos hretired]
    simp [hretired]
  · rw [if_neg hretired]
    extract_lets ok d
    have hd : chanView d = (ok, if ok then lateral x else c.y) := rfl
    have hview : chanView (if x.mStripes = 4 ∧ ok = true then endWord s k d else if !d.marked then d
        else { d with bits := decide (x.mStripes = 3) :: d.bits, bad := d.bad || !ok || decide (d.bits.length ≥ 31) }) =
          (ok, if ok then lateral x else c.y) := by
      rw [← hd]
      split
      · exact endWord_view s k d
      · split <;> rfl
    have hon : (!chRetired s k) = true := by simpa using hretired
    rw [hon, Bool.true_and]
    exact ⟨congrArg Prod.fst hview, fun hok => (congrArg Prod.snd hview).trans (if_pos hok)⟩

/-- Without a marker frame no word ends, and none waits for others. -/
theorem chanFrame_between (s : State) (k : Nat) {c : ServoChan} {x : ServoCh} (hmark : x.mStripes ≠ 4) (hoff : c.off = none) :
    (chanFrame s k c x).fresh = false ∧ (chanFrame s k c x).off = none := by
  unfold chanFrame
  split
  · exact ⟨rfl, rfl⟩
  · extract_lets ok d
    rw [if_neg (by simp [hmark])]
    split <;> exact ⟨rfl, hoff⟩

/-! ## A frame up to its verdict (R356 to R359) -/

/-- LPOS counts on with each frame, outside COAST. -/
def countedLpos (s : State) : Nat :=
  if s.sv.lposOk && s.sv.state != 3 then (if forwardNow s then s.sv.lpos + 1 else s.sv.lpos - 1) else s.sv.lpos

/-- The channels after a frame. -/
def framedChans (s : State) (xs : List ServoCh) : List ServoChan :=
  (s.sv.ch.zip xs).zipIdx.map fun p => chanFrame { s with sv.lpos := countedLpos s } p.2 p.1.1 p.1.2

/-- A frame is heard by the channels; words and the window of R492 are settled; the state follows, and the gate. -/
theorem servoFrameS_eq (s : State) (xs : List ServoCh) :
    ∃ reverse speed rehome vEnd, servoFrameS s xs = gateHeld (servoNext (settleLpos (servoWindow { s with
      sv.lpos := countedLpos s, sv.ch := framedChans s xs, sv.reverse := reverse, sv.speed := speed, sv.rehome := rehome })) vEnd) :=
  ⟨_, _, _, _, rfl⟩

/-- The valid channels after a frame, and what they show. -/
theorem validYs_framed (s : State) (xs : List ServoCh) :
    validYs (framedChans s xs) =
      ((s.sv.ch.zip xs).zipIdx.filter fun p => !chRetired s p.2 && frameOk s p.1.2).map fun p => lateral p.1.2 := by
  unfold validYs framedChans
  rw [List.filter_map, List.map_map]
  have hvalid : (ServoChan.valid ∘ fun p : (ServoChan × ServoCh) × Nat => chanFrame { s with sv.lpos := countedLpos s } p.2 p.1.1 p.1.2) =
      fun p => !chRetired s p.2 && frameOk s p.1.2 :=
    funext fun p => (chanFrame_view { s with sv.lpos := countedLpos s } p.2 p.1.1 p.1.2).1
  rw [hvalid]
  refine List.map_congr_left fun p hp => ?_
  exact (chanFrame_view { s with sv.lpos := countedLpos s } p.2 p.1.1 p.1.2).2 (List.mem_filter.1 hp).2

/-- t follows s by the settlement of words and windows: the views of the channels stay, and so does all but what these note. -/
def Settles (s t : State) : Prop :=
  ∃ ch win retired lpos ok err flash health, ch.map chanView = s.sv.ch.map chanView ∧ t = { s with
    sv.ch := ch, sv.winAt := win, sv.retired := retired, sv.lpos := lpos, sv.lposOk := ok, sv.lposerr := err,
    flash := flash, health := health }

/-- A change of the channels that is no part of their view. -/
theorem chanView_map {f : ServoChan → ServoChan} (hf : ∀ c, chanView (f c) = chanView c) (cs : List ServoChan) :
    (cs.map f).map chanView = cs.map chanView := by
  rw [List.map_map]
  exact List.map_congr_left fun c _ => hf c

/-- The window of R492 settles, and leaves LPOS and the words. -/
theorem servoWindow_settles (s : State) :
    ∃ cs win retired flash health, (cs = s.sv.ch ∨ cs = s.sv.ch.map fun c => { c with frames := 0, invalid := 0 }) ∧
      servoWindow s = { s with sv.ch := cs, sv.winAt := win, sv.retired := retired, flash := flash, health := health } := by
  unfold servoWindow
  split
  · exact ⟨_, _, _, _, _, .inr rfl, rfl⟩
  · extract_lets cs bad _ _ t _
    split
    · exact ⟨_, _, _, _, _, .inl rfl, rfl⟩
    · have ht : ∃ retired flash health, t = { s with sv.retired := retired, flash := flash, health := health } := by
        unfold t
        clear_value bad
        cases bad with
        | some c =>
          obtain ⟨health, hfault⟩ := faultRec_eq { s with
            sv.retired := s.sv.retired ||| BitVec.ofNat 4 (2 ^ c.2), flash.servo := s.sv.retired ||| BitVec.ofNat 4 (2 ^ c.2) }
            0x09 true c.2 0 0
          exact ⟨_, _, _, hfault⟩
        | none => exact ⟨_, _, _, rfl⟩
      clear_value t
      obtain ⟨retired, flash, health, rfl⟩ := ht
      exact ⟨_, _, _, _, _, .inr rfl, rfl⟩

/-- Words settle LPOS, and leave the views. -/
theorem settleLpos_settles (s : State) :
    ∃ cs lpos ok err, (cs = s.sv.ch ∨ cs = s.sv.ch.map fun c => { c with off := none }) ∧
      settleLpos s = { s with sv.ch := cs, sv.lpos := lpos, sv.lposOk := ok, sv.lposerr := err } := by
  unfold settleLpos
  extract_lets new sure _ bad t _
  split
  · split
    · exact ⟨_, _, _, _, .inr rfl, rfl⟩
    · exact ⟨_, _, _, _, .inl rfl, rfl⟩
  · split
    · exact ⟨_, _, _, _, .inr rfl, rfl⟩
    · exact ⟨_, _, _, _, .inl rfl, rfl⟩

/-- The window and the words together. -/
theorem settled_settles (s : State) : Settles s (settleLpos (servoWindow s)) := by
  obtain ⟨cs, win, retired, flash, health, hcs, hwindow⟩ := servoWindow_settles s
  obtain ⟨ds, lpos, ok, err, hds, hwords⟩ := settleLpos_settles (servoWindow s)
  rw [hwords]
  rw [hwindow] at hds ⊢
  refine ⟨ds, win, retired, lpos, ok, err, flash, health, ?_, rfl⟩
  have hcs' : cs.map chanView = s.sv.ch.map chanView := by
    obtain rfl | rfl := hcs
    · rfl
    · exact chanView_map (f := fun c => { c with frames := 0, invalid := 0 }) (fun _ => rfl) _
  obtain rfl | rfl := hds
  · exact hcs'
  · exact (chanView_map (f := fun c => { c with off := none }) (fun _ => rfl) _).trans hcs'

/-- No word has come, and none waits for others. -/
def wordless (s : State) : Prop := ∀ c ∈ s.sv.ch, c.fresh = false ∧ c.off = none

/-- Without words, LPOS stays as it was counted. -/
theorem settled_lpos {s : State} (hwords : wordless s) (hok : s.sv.lposOk = true) :
    (settleLpos (servoWindow s)).sv.lposOk = true ∧ (settleLpos (servoWindow s)).sv.lpos = s.sv.lpos := by
  obtain ⟨cs, win, retired, flash, health, hcs, hwindow⟩ := servoWindow_settles s
  have hquiet : ∀ c ∈ cs, c.fresh = false ∧ c.off = none := by
    obtain rfl | rfl := hcs
    · exact hwords
    · intro c hc
      obtain ⟨d, hd, rfl⟩ := List.mem_map.1 hc
      exact hwords d hd
  have hsure : cs.filterMap ServoChan.off = [] := List.filterMap_eq_nil_iff.2 fun c hc => (hquiet c hc).2
  rw [hwindow]
  unfold settleLpos
  extract_lets _ new sure _ bad t _
  rw [if_neg (ne_true_of_eq_false (congrArg (! ·) hok))]
  rw [show sure = [] from hsure]
  exact ⟨hok, rfl⟩

/-! ## The state machine of Table 12.1 (R360, R362) -/

/-- The hold test, by the positions the valid channels show. -/
theorem holdOk_iff (s : State) :
    holdOk s = true ↔ 2 ≤ (validYs s.sv.ch).length ∧
      (divRound (validYs s.sv.ch).sum (validYs s.sv.ch).length - servoTarget s).natAbs ≤ setN s 0x212C 1 := by
  unfold holdOk pesOf validChans validYs
  rw [Bool.and_eq_true, decide_eq_true_eq, decide_eq_true_eq, List.length_map]

/-- t differs from s in the servo alone, and not in LPOS. -/
def ServoMoves (s t : State) : Prop := ∃ sv, t = { s with sv := sv } ∧ sv.lpos = s.sv.lpos ∧ sv.lposOk = s.sv.lposOk

theorem ServoMoves.refl (s : State) : ServoMoves s s := ⟨s.sv, rfl, rfl, rfl⟩

theorem ServoMoves.trans {s t u : State} (hst : ServoMoves s t) (htu : ServoMoves t u) : ServoMoves s u := by
  obtain ⟨sv, rfl, hlpos, hok⟩ := hst
  obtain ⟨sv', rfl, hlpos', hok'⟩ := htu
  exact ⟨sv', rfl, hlpos'.trans hlpos, hok'.trans hok⟩

theorem ServoMoves.ite {s t u : State} {c : Prop} [Decidable c] (ht : ServoMoves s t) (hu : ServoMoves s u) :
    ServoMoves s (if c then t else u) := by
  split <;> assumption

/-- The state machine touches the servo alone, and not LPOS. -/
theorem servoNext_moves (s : State) (vEnd : Nat) : ServoMoves s (servoNext s vEnd) := by
  unfold servoNext
  extract_lets
  split
  · exact .ite ⟨_, rfl, rfl, rfl⟩ (.refl s)
  · exact ServoMoves.trans (t := if bandConfirmed s then { s with sv.bandOk := true, sv.confirmed := s.sv.band } else s)
      (.ite ⟨_, rfl, rfl, rfl⟩ (.refl s)) (.ite ⟨_, rfl, rfl, rfl⟩ (.refl _))
  · exact .ite ⟨_, rfl, rfl, rfl⟩ ⟨_, rfl, rfl, rfl⟩
  · exact .ite ⟨_, rfl, rfl, rfl⟩ ⟨_, rfl, rfl, rfl⟩
  · exact ⟨_, rfl, rfl, rfl⟩

/-- The sample for CE is taken. -/
def sampled (s : State) (vEnd : Nat) : State :=
  { s with sv.pes := pesOf s, sv.pesAt := vEnd, sv.pesN := (validChans s).length, sv.pesOk := true, sv.pesAim := servoTarget s }

/-- HELD stays, or coasts. -/
theorem servoNext_held {s : State} (h : s.sv.state = 2) (vEnd : Nat) :
    servoNext s vEnd = if holdOk s then sampled s vEnd else { s with sv.state := 3, sv.coast := 1, sv.pesOk := false } := by
  unfold servoNext
  rw [h]
  rfl

/-- COAST is held again, or coasts on. -/
theorem servoNext_coast {s : State} (h : s.sv.state = 3) (vEnd : Nat) :
    servoNext s vEnd = if holdOk s then sampled { s with sv.state := 2, sv.coast := 0, sv.lostAt := none } vEnd
      else { s with sv.coast := s.sv.coast + 1, sv.pesOk := false } := by
  unfold servoNext
  rw [h]
  rfl

/-- LOST is left for ACQUIRE. -/
theorem servoNext_lost {s : State} (h : s.sv.state = 4) (vEnd : Nat) : (servoNext s vEnd).sv.state = 1 := by
  unfold servoNext
  rw [h]
  rfl

/-- On track, in HELD and in COAST, a sample is taken and HELD is the state. -/
theorem servoNext_holds {s : State} (htrack : s.sv.state = 2 ∨ s.sv.state = 3) (hhold : holdOk s = true) (vEnd : Nat) :
    (servoNext s vEnd).sv.state = 2 ∧ (servoNext s vEnd).sv.pes = pesOf s ∧
    (servoNext s vEnd).sv.pesN = (validChans s).length ∧ (servoNext s vEnd).sv.pesOk = true ∧
    (servoNext s vEnd).sv.coast = if s.sv.state = 2 then s.sv.coast else 0 := by
  obtain hstate | hstate := htrack
  · rw [servoNext_held hstate, if_pos hhold, if_pos hstate]
    exact ⟨hstate, rfl, rfl, rfl, rfl⟩
  · rw [servoNext_coast hstate, if_pos hhold, if_neg (by omega)]
    exact ⟨rfl, rfl, rfl, rfl, rfl⟩

/-- Off track, HELD and COAST coast on. -/
theorem servoNext_coasts {s : State} (htrack : s.sv.state = 2 ∨ s.sv.state = 3) (hoff : ¬ holdOk s = true) (vEnd : Nat) :
    (servoNext s vEnd).sv.state = 3 ∧ (servoNext s vEnd).sv.pes = s.sv.pes ∧ (servoNext s vEnd).sv.pesOk = false ∧
    (servoNext s vEnd).sv.coast = if s.sv.state = 2 then 1 else s.sv.coast + 1 := by
  obtain hstate | hstate := htrack
  · rw [servoNext_held hstate, if_neg hoff, if_pos hstate]
    exact ⟨rfl, rfl, rfl, rfl⟩
  · rw [servoNext_coast hstate, if_neg hoff, if_neg (by omega)]
    exact ⟨hstate, rfl, rfl, rfl⟩

/-! ## Servo not held again in time (R361) -/

/-- While the tape still moves, a locate is not yet repeated. -/
theorem repeatLocate_moving {s : State} (h : s.ce.vref ≠ 0) : repeatLocate s = s :=
  if_pos (by simp [rampAtRest, h])

/-- The time for servo to be held again is over: the owner of the transport decides. -/
theorem servoReacquireTimeout_due {s : State} {u : Nat} (hlost : s.sv.lostAt = some u) (hstate : s.sv.state ≠ 2)
    (hlong : u + setN s 0x212C 3 * 216000 ≤ s.now) :
    exec .servoReacquireTimeout s = .next (
      if s.ce.owner = 1 then writerServoLost { s with sv.lostAt := none }
      else if s.ce.owner = 2 ∧ !s.rcl.run.isEmpty then runServoLost { s with sv.lostAt := none }
      else slowDown { s with sv.lostAt := none }) := by
  change Host.Outcome.next (match s.sv.lostAt with | some t => _ | none => _) = _
  rw [hlost]
  exact congrArg Host.Outcome.next (if_neg (by simp [hstate, elapsed_of_le hlong]))

/-! ## The fine actuator (R442) -/

/-- The fault is recorded once, the gate is closed, and the servo is LOST. -/
theorem actuatorFault_lost {s : State} (h : s.sv.state ≠ 4) :
    ∃ t, exec .actuatorFault s = .next t ∧ t.ps.auxF = true ∧ t.fm.gate = false ∧ t.sv = { s.sv with
      state := 4, loss := min 65535 (s.sv.loss + 1), lostAt := some s.now, lposOk := false, bandOk := false, pesOk := false } := by
  change ∃ t, execActuatorFault s = .next t ∧ _
  unfold execActuatorFault
  extract_lets _ u v
  have hu : ∃ health, u = { s with ps.auxF := true, health := health } := by
    unfold u
    split
    next hknown => exact ⟨s.health, by rw [← hknown]⟩
    next => exact faultRec_eq { s with ps.auxF := true } 0x10 true noUnit 0 0
  have hv : ∃ fm, v = { u with fm := fm } ∧ fm.gate = false := closeGate_eq u
  clear_value v u
  obtain ⟨health, rfl⟩ := hu
  obtain ⟨fm, rfl, hgate⟩ := hv
  rw [if_neg h]
  exact ⟨_, rfl, rfl, hgate, rfl⟩

/-- Settles O28: losses and time-outs by their lemmas; the frame by what it leaves of the views, then by Table 12.1. -/
theorem servoPosition : Obligations.ServoPosition := by
  unfold Obligations.ServoPosition
  refine ⟨fun s => ⟨fun hstate hcoast => congrArg Host.Outcome.next (if_pos ⟨hstate, hcoast⟩),
      fun b hmoving hb => congrArg Host.Outcome.next (if_pos ⟨hmoving, hb⟩), fun hstate => actuatorFault_lost hstate,
      fun u hlost hstate hlong => ?reacquire⟩,
    fun s a b c d => ?frame⟩
  case reacquire =>
    rw [servoReacquireTimeout_due hlost hstate hlong]
    refine ⟨fun hwriter hrun => ?_, fun howner hrun htries hmoves => ?_, fun howner hstart htry hmoves => ?_,
      fun howner hwrites => ?_⟩
    · rw [if_neg hwriter, if_neg (by rintro ⟨h2, hne⟩; simp [hrun.resolve_left (· h2)] at hne)]
      rfl
    · rw [if_neg (by omega), if_pos ⟨howner, by simpa using hrun⟩]
      exact congrArg Host.Outcome.next ((if_pos htries).trans (repeatLocate_moving hmoves))
    · rw [if_pos howner]
      exact congrArg Host.Outcome.next ((if_pos ⟨hstart, by simpa using htry⟩).trans (repeatLocate_moving hmoves))
    · rw [if_pos howner]
      exact congrArg Host.Outcome.next (if_neg (by simp [hwrites]))
  case frame =>
    intro ys pes hold
    obtain ⟨reverse, speed, rehome, vEnd, hframe⟩ := servoFrameS_eq s [a, b, c, d]
    generalize hheard : ({ s with
      sv.lpos := countedLpos s, sv.ch := framedChans s [a, b, c, d], sv.reverse := reverse, sv.speed := speed,
      sv.rehome := rehome } : State) = heard at hframe
    obtain ⟨ch, win, retired, lpos, ok, err, flash, health, hview, hset⟩ := settled_settles heard
    have hys : validYs ch = ys := (validYs_congr hview).trans (by rw [← hheard]; exact validYs_framed s [a, b, c, d])
    have hlpos : heard.sv.lposOk = s.sv.lposOk ∧ heard.sv.lpos = countedLpos s := by rw [← hheard]; exact ⟨rfl, rfl⟩
    have hwords : (∀ x ∈ [a, b, c, d], x.mStripes ≠ 4) → (∀ k ∈ s.sv.ch, k.off = none) → wordless heard := by
      intro hmark hoff k hk
      rw [← hheard] at hk
      obtain ⟨⟨⟨e, x⟩, i⟩, hp, rfl⟩ := List.mem_map.1 hk
      have hpair := List.of_mem_zip (List.fst_mem_of_mem_zipIdx hp)
      exact chanFrame_between _ i (hmark x hpair.2) (hoff e hpair.1)
    generalize hu : settleLpos (servoWindow heard) = u at hframe hset
    have hstate : u.sv.state = s.sv.state ∧ u.sv.coast = s.sv.coast ∧ u.sv.pes = s.sv.pes := by
      rw [hset, ← hheard]; exact ⟨rfl, rfl, rfl⟩
    have hgate : u.fm = s.fm ∧ ∀ i j, setN u i j = setN s i j := by
      rw [hset, ← hheard]; exact ⟨rfl, fun _ _ => rfl⟩
    have hch : validYs u.sv.ch = ys ∧ servoTarget u = servoTarget s := by
      rw [hset, ← hheard]; exact ⟨hys, rfl⟩
    have hpes : pesOf u = pes ∧ (validChans u).length = ys.length := by
      have hlen : (validChans u).length = ys.length := by rw [← hch.1]; exact (List.length_map _).symm
      refine ⟨?_, hlen⟩
      change divRound (validYs u.sv.ch).sum (validChans u).length - servoTarget u = pes
      rw [hlen, hch.2]
      exact congrArg (fun y : List Int => divRound y.sum ys.length - servoTarget s) hch.1
    have hhold : holdOk u = true ↔ hold := by
      rw [holdOk_iff, hch.1, hch.2, hgate.2]
    obtain ⟨sv, hmoves, hsvlpos, hsvok⟩ := servoNext_moves u vEnd
    have hfm : (servoNext u vEnd).fm = s.fm ∧ setN (servoNext u vEnd) 0x4103 1 = setN s 0x4103 1 := by
      rw [hmoves]; exact hgate.imp id fun h => h _ _
    refine ⟨_, congrArg Host.Outcome.next hframe, fun hout => ?_, fun hlost => ?_, fun hmark hoff hok hout => ?_,
      fun htrack hon => ?_, fun htrack hoff => ?_⟩
    · rw [gateHeld_sv] at hout
      exact gateHeld_outside hout
    · rw [gateHeld_sv]
      exact servoNext_lost (hstate.1.trans hlost) vEnd
    · obtain ⟨hok', hlpos'⟩ := settled_lpos (hwords hmark hoff) (hlpos.1.trans hok)
      rw [hu] at hok' hlpos'
      rw [gateHeld_sv, hmoves]
      refine ⟨hsvok.trans hok', hsvlpos.trans (hlpos'.trans (hlpos.2.trans (if_pos ?_)))⟩
      simp [hok, hout]
    · obtain ⟨hheld, hsample, hn, hpesOk, hcoast⟩ := servoNext_holds (hstate.1 ▸ htrack) (hhold.2 hon) vEnd
      rw [gateHeld_sv, gateHeld_held hheld, hfm.1, hfm.2, hheld, hsample, hn, hpesOk, hcoast, hpes.1, hpes.2, hstate.1, hstate.2.1]
      exact ⟨rfl, rfl, rfl, rfl, rfl, rfl⟩
    · obtain ⟨hcoasts, hkept, hpesOk, hcoast⟩ := servoNext_coasts (hstate.1 ▸ htrack) (fun h => hoff (hhold.1 h)) vEnd
      rw [gateHeld_sv, hcoasts, hkept, hpesOk, hcoast, hstate.1, hstate.2.1, hstate.2.2]
      exact ⟨rfl, rfl, rfl, rfl⟩

end Sys2Proof.Proofs
end

section
/-! What the servants of reading, writing, recall, queues and the pair link leave alone: Nightwatch, the roles of the pair, the base
periods, the media operation and the state of Lodestar. O17, O24, O27, O56 and O58 rest on it. -/

namespace Sys2Proof.Proofs

open Sys2Proof Sys2Proof.Machine Sys2Proof.Laws

/-- From s₀ to s Nightwatch has not moved, nor the parts of the other units that the work of the tape and of the queues leaves alone. The
lemmas `f_steady` below say of each function f of the model that it is such work. -/
structure Steady (s₀ s : State) : Prop where
  nw : s.nw = s₀.nw
  rest :
    (s.glb.twilight, s.ce.safe, s.ce.period, s.ce.ovr, s.pl.role, s.pl.reason, s.pl.lost, s.pl.suspect, s.pl.credits, s.pl.present,
      s.pl.rxSeq, s.pl.staleRcvd, s.flash.roleEpoch, s.media.op, s.glb.stage, s.glb.restarting, s.glb.lsUp, s.glb.restartCount,
      s.fw.slot, s.flash.trial) =
    (s₀.glb.twilight, s₀.ce.safe, s₀.ce.period, s₀.ce.ovr, s₀.pl.role, s₀.pl.reason, s₀.pl.lost, s₀.pl.suspect, s₀.pl.credits,
      s₀.pl.present, s₀.pl.rxSeq, s₀.pl.staleRcvd, s₀.flash.roleEpoch, s₀.media.op, s₀.glb.stage, s₀.glb.restarting, s₀.glb.lsUp,
      s₀.glb.restartCount, s₀.fw.slot, s₀.flash.trial)

theorem Steady.refl (s : State) : Steady s s := ⟨rfl, rfl⟩

/-- A record update of the other fields is such work. -/
theorem Steady.upd {s₀ s : State} (h : Steady s₀ s) {free out glb qe bpm cx tg fm rc sv rcl ce ps media od flash mt fi pl ls fw health}
    (hrest :
      (Glb.twilight glb, Ce.safe ce, Ce.period ce, Ce.ovr ce, Pl.role pl, Pl.reason pl, Pl.lost pl, Pl.suspect pl, Pl.credits pl,
        Pl.present pl, Pl.rxSeq pl, Pl.staleRcvd pl, Flash.roleEpoch flash, Media.op media, Glb.stage glb, Glb.restarting glb,
        Glb.lsUp glb, Glb.restartCount glb, Fw.slot fw, Flash.trial flash) =
      (s.glb.twilight, s.ce.safe, s.ce.period, s.ce.ovr, s.pl.role, s.pl.reason, s.pl.lost, s.pl.suspect, s.pl.credits, s.pl.present,
        s.pl.rxSeq, s.pl.staleRcvd, s.flash.roleEpoch, s.media.op, s.glb.stage, s.glb.restarting, s.glb.lsUp, s.glb.restartCount,
        s.fw.slot, s.flash.trial)) :
    Steady s₀ ⟨s.pending, s.now, free, out, glb, qe, bpm, cx, tg, fm, rc, sv, rcl, ce, ps, s.nw, media, od, flash, mt, fi, pl, ls, fw, health⟩ :=
  ⟨h.nw, hrest.trans h.rest⟩

/-! What stays, by name. -/

section

variable {s₀ s : State} (h : Steady s₀ s)

include h

theorem Steady.twilight : s.glb.twilight = s₀.glb.twilight := congrArg (fun v => v.1) h.rest

theorem Steady.safe : s.ce.safe = s₀.ce.safe := congrArg (fun v => v.2.1) h.rest

theorem Steady.period : s.ce.period = s₀.ce.period := congrArg (fun v => v.2.2.1) h.rest

theorem Steady.ovr : s.ce.ovr = s₀.ce.ovr := congrArg (fun v => v.2.2.2.1) h.rest

theorem Steady.role : s.pl.role = s₀.pl.role := congrArg (fun v => v.2.2.2.2.1) h.rest

theorem Steady.reason : s.pl.reason = s₀.pl.reason := congrArg (fun v => v.2.2.2.2.2.1) h.rest

theorem Steady.lost : s.pl.lost = s₀.pl.lost := congrArg (fun v => v.2.2.2.2.2.2.1) h.rest

theorem Steady.suspect : s.pl.suspect = s₀.pl.suspect := congrArg (fun v => v.2.2.2.2.2.2.2.1) h.rest

theorem Steady.credits : s.pl.credits = s₀.pl.credits := congrArg (fun v => v.2.2.2.2.2.2.2.2.1) h.rest

theorem Steady.present : s.pl.present = s₀.pl.present := congrArg (fun v => v.2.2.2.2.2.2.2.2.2.1) h.rest

theorem Steady.rxSeq : s.pl.rxSeq = s₀.pl.rxSeq := congrArg (fun v => v.2.2.2.2.2.2.2.2.2.2.1) h.rest

theorem Steady.staleRcvd : s.pl.staleRcvd = s₀.pl.staleRcvd := congrArg (fun v => v.2.2.2.2.2.2.2.2.2.2.2.1) h.rest

theorem Steady.roleEpoch : s.flash.roleEpoch = s₀.flash.roleEpoch := congrArg (fun v => v.2.2.2.2.2.2.2.2.2.2.2.2.1) h.rest

theorem Steady.mediaOp : s.media.op = s₀.media.op := congrArg (fun v => v.2.2.2.2.2.2.2.2.2.2.2.2.2.1) h.rest

theorem Steady.stage : s.glb.stage = s₀.glb.stage := congrArg (fun v => v.2.2.2.2.2.2.2.2.2.2.2.2.2.2.1) h.rest

theorem Steady.restarting : s.glb.restarting = s₀.glb.restarting := congrArg (fun v => v.2.2.2.2.2.2.2.2.2.2.2.2.2.2.2.1) h.rest

theorem Steady.lsUp : s.glb.lsUp = s₀.glb.lsUp := congrArg (fun v => v.2.2.2.2.2.2.2.2.2.2.2.2.2.2.2.2.1) h.rest

theorem Steady.restartCount : s.glb.restartCount = s₀.glb.restartCount := congrArg (fun v => v.2.2.2.2.2.2.2.2.2.2.2.2.2.2.2.2.2.1) h.rest

theorem Steady.slot : s.fw.slot = s₀.fw.slot := congrArg (fun v => v.2.2.2.2.2.2.2.2.2.2.2.2.2.2.2.2.2.2.1) h.rest

theorem Steady.trial : s.flash.trial = s₀.flash.trial := congrArg (fun v => v.2.2.2.2.2.2.2.2.2.2.2.2.2.2.2.2.2.2.2) h.rest

end

theorem Steady.foldl {α : Type} {s₀ s : State} {f : State → α → State} (hf : ∀ t, Steady s₀ t → ∀ x, Steady s₀ (f t x)) (h : Steady s₀ s)
    (l : List α) : Steady s₀ (l.foldl f s) := by
  induction l generalizing s with
  | nil => exact h
  | cons x l ih => exact ih (hf s h x)

theorem Steady.foldl_fst {α β : Type} {s₀ : State} {a : State × β} {f : State × β → α → State × β}
    (hf : ∀ t, Steady s₀ t.1 → ∀ x, Steady s₀ (f t x).1) (h : Steady s₀ a.1) (l : List α) : Steady s₀ (l.foldl f a).1 := by
  induction l generalizing a with
  | nil => exact h
  | cons x l ih => exact ih (hf a h x)

theorem Steady.foldl_snd {α β : Type} {s₀ : State} {a : β × State} {f : β × State → α → β × State}
    (hf : ∀ t, Steady s₀ t.2 → ∀ x, Steady s₀ (f t x).2) (h : Steady s₀ a.2) (l : List α) : Steady s₀ (l.foldl f a).2 := by
  induction l generalizing a with
  | nil => exact h
  | cons x l ih => exact ih (hf a h x)

theorem emit_steady {s₀ s : State} (h : Steady s₀ s) (e : Emit) : Steady s₀ (emit s e) := .upd h rfl

theorem setBank_steady {s₀ s : State} (h : Steady s₀ s) (b : Bank) : Steady s₀ (setBank s b) := by
  unfold setBank
  repeat' (first | with_reducible assumption | split | fail_if_no_progress (with_reducible refine Steady.upd ?_ rfl))

theorem odPut_steady {s₀ s : State} (h : Steady s₀ s) (idx sub : Nat) (e : OdEntry) (v : List Byte) : Steady s₀ (odPut s idx sub e v) := by
  unfold odPut
  repeat' (first
    | with_reducible assumption | with_reducible apply setBank_steady | split
    | fail_if_no_progress (with_reducible refine Steady.upd ?_ rfl))

theorem freshFree_steady {s₀ s : State} (h : Steady s₀ s) : Steady s₀ (freshFree s).2 := by
  unfold freshFree
  repeat' (first | with_reducible assumption | fail_if_no_progress (with_reducible refine Steady.upd ?_ rfl))

theorem setFn_steady {s₀ s : State} (h : Steady s₀ s) (n : Nat) (f : FnState) : Steady s₀ (setFn s n f) := by
  unfold setFn
  repeat' (first | with_reducible assumption | fail_if_no_progress (with_reducible refine Steady.upd ?_ rfl))

theorem modFn_steady {s₀ s : State} (h : Steady s₀ s) (n : Nat) (g : FnState → FnState) : Steady s₀ (modFn s n g) := by
  unfold modFn
  repeat' (first | with_reducible assumption | with_reducible apply setFn_steady)

theorem emitFor_steady {s₀ s : State} (h : Steady s₀ s) (n : Nat) (c : Option Nat) (e : Emit) : Steady s₀ (emitFor s n c e) := by
  unfold emitFor
  repeat' (first
    | with_reducible assumption | with_reducible apply emit_steady | split
    | fail_if_no_progress (with_reducible refine Steady.upd ?_ rfl))

theorem emitFn_steady {s₀ s : State} (h : Steady s₀ s) (n : Nat) (e : Emit) : Steady s₀ (emitFn s n e) := by
  unfold emitFn
  repeat' (first | with_reducible assumption | with_reducible apply emitFor_steady)

theorem dmaOut_steady {s₀ s : State} (h : Steady s₀ s) (c : Cmd) (ws : List (Nat × Bool × List Byte)) : Steady s₀ (dmaOut s c ws) := by
  unfold dmaOut
  repeat' (first | with_reducible assumption | with_reducible apply emitFor_steady | with_reducible apply Steady.foldl | intro _ _ _)

theorem sendVector_steady {s₀ s : State} (h : Steady s₀ s) (n v : Nat) : Steady s₀ (sendVector s n v) := by
  unfold sendVector
  repeat' (first | with_reducible assumption | with_reducible apply modFn_steady | with_reducible apply emitFn_steady | split)

theorem setQueue_steady {s₀ s : State} (h : Steady s₀ s) (q : Queue) : Steady s₀ (setQueue s q) := by
  unfold setQueue
  repeat' (first | with_reducible assumption | fail_if_no_progress (with_reducible refine Steady.upd ?_ rfl))

theorem modQueue_steady {s₀ s : State} (h : Steady s₀ s) (g : Nat) (f : Queue → Queue) : Steady s₀ (modQueue s g f) := by
  unfold modQueue
  repeat' (first | with_reducible assumption | fail_if_no_progress (with_reducible refine Steady.upd ?_ rfl))

theorem modCmd_steady {s₀ s : State} (h : Steady s₀ s) (id : Nat) (f : Cmd → Cmd) : Steady s₀ (modCmd s id f) := by
  unfold modCmd
  repeat' (first | with_reducible assumption | fail_if_no_progress (with_reducible refine Steady.upd ?_ rfl))

theorem removeCmd_steady {s₀ s : State} (h : Steady s₀ s) (id : Nat) : Steady s₀ (removeCmd s id) := by
  unfold removeCmd
  repeat' (first | with_reducible assumption | fail_if_no_progress (with_reducible refine Steady.upd ?_ rfl))

theorem setIstat_steady {s₀ s : State} (h : Steady s₀ s) (b : Nat) : Steady s₀ (setIstat s b) := by
  unfold setIstat
  repeat' (first
    | with_reducible assumption | with_reducible apply sendVector_steady | split | dsimp only
    | fail_if_no_progress (with_reducible refine Steady.upd ?_ rfl))

theorem ringAdd_steady {s₀ s : State} (h : Steady s₀ s) (r : FaultRec) : Steady s₀ (ringAdd s r) := by
  unfold ringAdd
  repeat' (first | with_reducible assumption | fail_if_no_progress (with_reducible refine Steady.upd ?_ rfl))

theorem faultRec_steady {s₀ s : State} (h : Steady s₀ s) (fcode : Nat) (permanent : Bool) (unit p1 p2 : Nat) :
    Steady s₀ (faultRec s fcode permanent unit p1 p2) := by
  unfold faultRec
  repeat' (first
    | with_reducible assumption | with_reducible apply ringAdd_steady | split
    | fail_if_no_progress (with_reducible refine Steady.upd ?_ rfl))

theorem servoOff_steady {s₀ s : State} (h : Steady s₀ s) : Steady s₀ (servoOff s) := by
  unfold servoOff
  repeat' (first | with_reducible assumption | fail_if_no_progress (with_reducible refine Steady.upd ?_ rfl))

theorem setSubst_steady {s₀ s : State} (h : Steady s₀ s) (b : Nat) : Steady s₀ (setSubst s b) := by
  unfold setSubst
  repeat' (first | with_reducible assumption | fail_if_no_progress (with_reducible refine Steady.upd ?_ rfl))

theorem postCqe_steady {s₀ s : State} (h : Steady s₀ s) (g : Nat) (mk : Queue → Cqe) (atOnce : Bool) :
    Steady s₀ (postCqe s g mk atOnce) := by
  unfold postCqe
  repeat' (first
    | with_reducible assumption | with_reducible apply emitFn_steady | with_reducible apply setQueue_steady
    | with_reducible apply sendVector_steady | split | dsimp only)

theorem freeze_steady {s₀ s : State} (h : Steady s₀ s) (g : Nat) : Steady s₀ (freeze s g) := by
  unfold freeze
  repeat' (first | with_reducible assumption | with_reducible apply modQueue_steady)

theorem logError_steady {s₀ s : State} (h : Steady s₀ s) (fn : Nat) (mk : Nat → ErrEntry) : Steady s₀ (logError s fn mk) := by
  unfold logError
  repeat' (first | with_reducible assumption | with_reducible apply modFn_steady)

theorem finish_steady {s₀ s : State} (h : Steady s₀ s) (c : Cmd) (r : Res) : Steady s₀ (finish s c r) := by
  unfold finish
  repeat' (first
    | with_reducible assumption | with_reducible apply removeCmd_steady | with_reducible apply freeze_steady
    | with_reducible apply logError_steady | with_reducible apply postCqe_steady | split)

theorem finishSt_steady {s₀ s : State} (h : Steady s₀ s) (c : Cmd) (st : Nat) : Steady s₀ (finishSt s c st) := by
  unfold finishSt
  repeat' (first | with_reducible assumption | with_reducible apply finish_steady)

theorem finishId_steady {s₀ s : State} (h : Steady s₀ s) (id : Nat) (r : Res) : Steady s₀ (finishId s id r) := by
  unfold finishId
  repeat' (first | with_reducible assumption | with_reducible apply finish_steady | split)

theorem queueFor1_steady {s₀ s : State} (h : Steady s₀ s) (n ecode : Nat) (scope part : Nat) (params : List Byte) :
    Steady s₀ (queueFor1 s n ecode scope part params) := by
  unfold queueFor1
  repeat' (first
    | with_reducible assumption | with_reducible apply setFn_steady | with_reducible apply finishId_steady | split | dsimp only)

theorem queueEmcy_steady {s₀ s : State} (h : Steady s₀ s) (m : Emcy) : Steady s₀ (queueEmcy s m) := by
  unfold queueEmcy
  repeat' (first | with_reducible assumption | split | fail_if_no_progress (with_reducible refine Steady.upd ?_ rfl))

theorem queueNow_steady {s₀ s : State} (h : Steady s₀ s) (ecode scope p : Nat) (params : List Byte) :
    Steady s₀ (queueNow s ecode scope p params) := by
  unfold queueNow
  repeat' (first
    | with_reducible assumption | with_reducible apply queueFor1_steady | with_reducible apply queueEmcy_steady
    | with_reducible apply Steady.foldl | intro _ _ _ | split)

theorem queueEvent_steady {s₀ s : State} (h : Steady s₀ s) (ecode scope p : Nat) (params : List Byte) :
    Steady s₀ (queueEvent s ecode scope p params) := by
  unfold queueEvent
  repeat' (first
    | with_reducible assumption | with_reducible apply queueNow_steady | split
    | fail_if_no_progress (with_reducible refine Steady.upd ?_ rfl))

theorem setPool_steady {s₀ s : State} (h : Steady s₀ s) (p : Nat) (x : Pool) : Steady s₀ (setPool s p x) := by
  unfold setPool
  repeat' (first | with_reducible assumption | fail_if_no_progress (with_reducible refine Steady.upd ?_ rfl))

theorem allocNow_steady {s₀ s : State} (h : Steady s₀ s) {p cls : Nat} {a : BitVec 32 × State} (g : allocNow s p cls = some a) :
    Steady s₀ a.2 := by
  unfold allocNow at g
  dsimp only at g
  split at g
  · split at g
    · cases g
      dsimp only
      with_reducible apply setPool_steady
      exact h
    · cases g
  · cases g

theorem allocate_steady {s₀ s : State} (h : Steady s₀ s) (p cls : Nat) (cmd : Option Nat) : Steady s₀ (allocate s p cls cmd).2 := by
  unfold allocate
  dsimp only
  repeat' (first | with_reducible assumption | with_reducible apply setPool_steady | split)
  exact allocNow_steady h (by assumption)

theorem acquire_steady {s₀ s : State} (h : Steady s₀ s) (h1 : BitVec 32) (cls : Nat) : Steady s₀ (acquire s h1 cls).2 := by
  unfold acquire
  repeat' (first | with_reducible assumption | with_reducible apply setPool_steady | split | dsimp only)

theorem rejectRelease_steady {s₀ s : State} (h : Steady s₀ s) (h1 : BitVec 32) (cls : Nat) (holders : BitVec 16) (wasFree : Bool) :
    Steady s₀ (rejectRelease s h1 cls holders wasFree) := by
  unfold rejectRelease
  repeat' (first
    | with_reducible assumption | with_reducible apply faultRec_steady | with_reducible apply setPool_steady
    | with_reducible apply queueEvent_steady | split | dsimp only | fail_if_no_progress (with_reducible refine Steady.upd ?_ rfl))

theorem release_steady {s₀ s : State} (h : Steady s₀ s) (h1 : BitVec 32) (cls : Nat) : Steady s₀ (release s h1 cls) := by
  unfold release
  repeat' (first
    | with_reducible assumption | with_reducible apply rejectRelease_steady | with_reducible apply setPool_steady | split | dsimp only)

theorem releaseAll_steady {s₀ s : State} (h : Steady s₀ s) (hs : List (BitVec 32)) (cls : Nat) : Steady s₀ (releaseAll s hs cls) := by
  unfold releaseAll
  repeat' (first | with_reducible assumption | with_reducible apply release_steady | with_reducible apply Steady.foldl | intro _ _ _)

theorem unpark_steady {s₀ s : State} (h : Steady s₀ s) (id : Nat) : Steady s₀ (unpark s id) := by
  unfold unpark
  repeat' (first | with_reducible assumption | fail_if_no_progress (with_reducible refine Steady.upd ?_ rfl))

theorem clearPoison_steady {s₀ s : State} (h : Steady s₀ s) (a n : Nat) : Steady s₀ (clearPoison s a n) := by
  unfold clearPoison
  repeat' (first | with_reducible assumption | fail_if_no_progress (with_reducible refine Steady.upd ?_ rfl))

theorem fillBuf_steady {s₀ s : State} (h : Steady s₀ s) (h1 : BitVec 32) (off n : Nat) : Steady s₀ (fillBuf s h1 off n) := by
  unfold fillBuf
  repeat' (first | with_reducible assumption | with_reducible apply clearPoison_steady | split)

theorem fillBufs_steady {s₀ s : State} (h : Steady s₀ s) (hs : List (BitVec 32)) (n : Nat) : Steady s₀ (fillBufs s hs n) := by
  unfold fillBufs
  repeat' (first | with_reducible assumption | with_reducible apply fillBuf_steady | with_reducible apply Steady.foldl | intro _ _ _)

theorem setPart_steady {s₀ s : State} (h : Steady s₀ s) (x : Part) : Steady s₀ (setPart s x) := by
  unfold setPart
  repeat' (first | with_reducible assumption | fail_if_no_progress (with_reducible refine Steady.upd ?_ rfl))

theorem modPart_steady {s₀ s : State} (h : Steady s₀ s) (p : Nat) (f : Part → Part) : Steady s₀ (modPart s p f) := by
  unfold modPart
  repeat' (first | with_reducible assumption | fail_if_no_progress (with_reducible refine Steady.upd ?_ rfl))

theorem faultProtect_steady {s₀ s : State} (h : Steady s₀ s) (p : Nat) : Steady s₀ (faultProtect s p) := by
  unfold faultProtect
  repeat' (first
    | with_reducible assumption | with_reducible apply setPart_steady | with_reducible apply faultRec_steady
    | with_reducible apply queueEvent_steady | split)

theorem checkExhausted_steady {s₀ s : State} (h : Steady s₀ s) (p : Nat) : Steady s₀ (checkExhausted s p) := by
  unfold checkExhausted
  repeat' (first | with_reducible assumption | with_reducible apply queueEvent_steady | with_reducible apply modPart_steady | split)

theorem unitAlloc_steady {s₀ s : State} (h : Steady s₀ s) (p cls : Nat) : Steady s₀ (unitAlloc s p cls).2 := by
  unfold unitAlloc
  repeat' (first
    | with_reducible assumption | with_reducible apply allocate_steady | split
    | fail_if_no_progress (with_reducible refine Steady.upd ?_ rfl))

theorem unitAllocN_steady {s₀ s : State} (h : Steady s₀ s) (p cls n : Nat) (got : List (BitVec 32)) :
    Steady s₀ (unitAllocN s p cls n got).2 := by
  induction n generalizing s got with
  | zero => exact h
  | succ n ih =>
    unfold unitAllocN
    repeat' (first
      | with_reducible assumption | with_reducible apply ih | with_reducible apply unitAlloc_steady | split | dsimp only
      | fail_if_no_progress (with_reducible refine Steady.upd ?_ rfl))

theorem pumpFlits_steady {s₀ s : State} (h : Steady s₀ s) (n : Nat) : Steady s₀ (pumpFlits n s) := by
  induction n generalizing s with
  | zero => exact h
  | succ n ih =>
    unfold pumpFlits
    repeat' (first
      | with_reducible assumption | with_reducible apply ih | with_reducible apply emit_steady | split
      | fail_if_no_progress (with_reducible refine Steady.upd ?_ rfl))

theorem pumpLink_steady {s₀ s : State} (h : Steady s₀ s) : Steady s₀ (pumpLink s) := by
  unfold pumpLink
  repeat' (first | with_reducible assumption | with_reducible apply pumpFlits_steady | split)

theorem noteAsked_steady {s₀ s : State} (h : Steady s₀ s) (n : Nat) (m : Msg) : Steady s₀ (noteAsked s n m) := by
  unfold noteAsked
  repeat' (first
    | with_reducible assumption | split | dsimp only | fail_if_no_progress (with_reducible refine Steady.upd ?_ rfl))

theorem sendData_steady {s₀ s : State} (h : Steady s₀ s) (b : List Byte) : Steady s₀ (sendData s b) := by
  unfold sendData
  repeat' (first
    | with_reducible assumption | with_reducible apply pumpLink_steady | dsimp only
    | fail_if_no_progress (with_reducible refine Steady.upd ?_ rfl))

theorem plSend_steady {s₀ s : State} (h : Steady s₀ s) (m : Msg) : Steady s₀ (plSend s m) := by
  unfold plSend
  repeat' (first
    | with_reducible assumption | with_reducible apply noteAsked_steady | with_reducible apply emit_steady
    | with_reducible apply sendData_steady | dsimp only | fail_if_no_progress (with_reducible refine Steady.upd ?_ rfl))

theorem mirrorSend_steady {s₀ s : State} (h : Steady s₀ s) (m : Msg) : Steady s₀ (mirrorSend s m) := by
  unfold mirrorSend
  repeat' (first
    | with_reducible assumption | with_reducible apply plSend_steady | split
    | fail_if_no_progress (with_reducible refine Steady.upd ?_ rfl))

theorem roleEvent_steady {s₀ s : State} (h : Steady s₀ s) : Steady s₀ (roleEvent s) := queueEvent_steady h _ _ _ _

theorem dropBuf_steady {s₀ s : State} (h : Steady s₀ s) (h1 : BitVec 32) : Steady s₀ (dropBuf s h1) := by
  unfold dropBuf
  repeat' (first | with_reducible assumption | with_reducible apply release_steady | split)

theorem dropRecBuf_steady {s₀ s : State} (h : Steady s₀ s) (h1 : BitVec 32) : Steady s₀ (dropRecBuf s h1) := by
  unfold dropRecBuf
  repeat' (first
    | with_reducible assumption | with_reducible apply release_steady | with_reducible apply Steady.foldl
    | with_reducible apply Steady.foldl_fst | with_reducible apply Steady.foldl_snd | intro _ _ _ | intro _ _ | split)

theorem releasePiece_steady {s₀ s : State} (h : Steady s₀ s) (id : Nat) (k : Piece) : Steady s₀ (releasePiece s id k) := by
  unfold releasePiece
  repeat' (first
    | with_reducible assumption | with_reducible apply dropBuf_steady | with_reducible apply modCmd_steady
    | with_reducible apply Steady.foldl | intro _ _ _ | split)

theorem sweepCmd_steady {s₀ s : State} (h : Steady s₀ s) (c : Cmd) : Steady s₀ (sweepCmd s c) := by
  unfold sweepCmd
  repeat' (first
    | with_reducible assumption | with_reducible apply releasePiece_steady | with_reducible apply removeCmd_steady
    | with_reducible apply Steady.foldl | with_reducible apply Steady.foldl_fst | with_reducible apply Steady.foldl_snd | intro _ _ _
    | intro _ _ | split | dsimp only)

theorem sweep_steady {s₀ s : State} (h : Steady s₀ s) : Steady s₀ (sweep s) := by
  unfold sweep
  repeat' (first | with_reducible assumption | with_reducible apply sweepCmd_steady | with_reducible apply Steady.foldl)

theorem dropHeld_steady {s₀ s : State} (h : Steady s₀ s) (j : RecJob) : Steady s₀ (dropHeld s j) := by
  unfold dropHeld
  repeat' (first | with_reducible assumption | with_reducible apply releaseAll_steady | split)

theorem cancelRecs_steady {s₀ s : State} (h : Steady s₀ s) (p : Nat) (st : StreamId) (v i : Nat) :
    Steady s₀ (cancelRecs s p st v i) := by
  unfold cancelRecs
  repeat' (first
    | with_reducible assumption | with_reducible apply dropHeld_steady | with_reducible apply modPart_steady
    | with_reducible apply Steady.foldl | with_reducible apply Steady.foldl_fst | with_reducible apply Steady.foldl_snd
    | intro _ _ _ | intro _ _ | split | dsimp only | fail_if_no_progress (with_reducible refine Steady.upd ?_ rfl))

theorem failPiece_steady {s₀ s : State} (h : Steady s₀ s) (id : Nat) (k : Piece) : Steady s₀ (failPiece s id k) := by
  unfold failPiece
  repeat' (first
    | with_reducible assumption | with_reducible apply modCmd_steady | with_reducible apply cancelRecs_steady
    | with_reducible apply sweepCmd_steady | with_reducible apply mirrorSend_steady | with_reducible apply Steady.foldl
    | with_reducible apply Steady.foldl_fst | with_reducible apply Steady.foldl_snd | intro _ _ _ | intro _ _ | split)

theorem finishWrite_steady {s₀ s : State} (h : Steady s₀ s) (c : Cmd) (st d1 d2 : Nat) : Steady s₀ (finishWrite s c st d1 d2) := by
  unfold finishWrite
  repeat' (first
    | with_reducible assumption | with_reducible apply finish_steady | with_reducible apply sweepCmd_steady
    | fail_if_no_progress (with_reducible refine Steady.upd ?_ rfl))

theorem settleWrite_steady {s₀ s : State} (h : Steady s₀ s) (id : Nat) : Steady s₀ (settleWrite s id) := by
  unfold settleWrite
  repeat' (first | with_reducible assumption | with_reducible apply sweepCmd_steady | with_reducible apply finishWrite_steady | split)

theorem addExtents_steady {s₀ s : State} (h : Steady s₀ s) (p : Nat) (es : List Extent) : Steady s₀ (addExtents s p es) := by
  unfold addExtents
  repeat' (first
    | with_reducible assumption | with_reducible apply setPart_steady | split
    | fail_if_no_progress (with_reducible refine Steady.upd ?_ rfl))

theorem commitOwn_steady {s₀ s : State} (h : Steady s₀ s) (p : Nat) (c : Cmd) (q : Piece) : Steady s₀ (commitOwn s p c q) := by
  unfold commitOwn
  repeat' (first
    | with_reducible assumption | with_reducible apply modCmd_steady | with_reducible apply settleWrite_steady
    | with_reducible apply mirrorSend_steady | split | fail_if_no_progress (with_reducible refine Steady.upd ?_ rfl))

theorem commitMirror_steady {s₀ s : State} (h : Steady s₀ s) (p : Nat) (k : PieceId) : Steady s₀ (commitMirror s p k) := by
  unfold commitMirror
  repeat' (first
    | with_reducible assumption | with_reducible apply plSend_steady | split | dsimp only
    | fail_if_no_progress (with_reducible refine Steady.upd ?_ rfl))

theorem commitPiece_steady {s₀ s : State} (h : Steady s₀ s) (p : Nat) (k : PieceId) : Steady s₀ (commitPiece s p k) := by
  unfold commitPiece
  repeat' (first
    | with_reducible assumption | with_reducible apply addExtents_steady | with_reducible apply commitMirror_steady
    | with_reducible apply commitOwn_steady | split | dsimp only)

theorem commitLoop_steady {s₀ s : State} (h : Steady s₀ s) (n p : Nat) : Steady s₀ (commitLoop n s p) := by
  induction n generalizing s with
  | zero => exact h
  | succ n ih =>
    unfold commitLoop
    repeat' (first | with_reducible assumption | with_reducible apply ih | with_reducible apply commitPiece_steady | split)

theorem commitReady_steady {s₀ s : State} (h : Steady s₀ s) (p : Nat) : Steady s₀ (commitReady s p) := by
  unfold commitReady
  repeat' (first | with_reducible assumption | with_reducible apply commitLoop_steady)

theorem failPieces_steady {s₀ s : State} (h : Steady s₀ s) (id p : Nat) (ks : List Piece) : Steady s₀ (failPieces s id p ks) := by
  unfold failPieces
  repeat' (first
    | with_reducible assumption | with_reducible apply commitReady_steady | with_reducible apply failPiece_steady
    | with_reducible apply Steady.foldl | intro _ _ _)

theorem failFrom_steady {s₀ s : State} (h : Steady s₀ s) (id i : Nat) : Steady s₀ (failFrom s id i) := by
  unfold failFrom
  repeat' (first | with_reducible assumption | with_reducible apply failPieces_steady | split)

theorem failWrite_steady {s₀ s : State} (h : Steady s₀ s) (id i : Nat) (st d1 d2 : Nat) (gate : Option Nat) :
    Steady s₀ (failWrite s id i st d1 d2 gate) := by
  unfold failWrite
  repeat' (first
    | with_reducible assumption | with_reducible apply modCmd_steady | with_reducible apply settleWrite_steady
    | with_reducible apply failFrom_steady)

theorem endWrite_steady {s₀ s : State} (h : Steady s₀ s) (id st code : Nat) (keep : Bool) : Steady s₀ (endWrite s id st code keep) := by
  unfold endWrite
  repeat' (first
    | with_reducible assumption | with_reducible apply failPieces_steady | with_reducible apply sweepCmd_steady
    | with_reducible apply finishWrite_steady | split | dsimp only)

theorem queueDs_steady {s₀ s : State} (h : Steady s₀ s) (w : WriteDs) : Steady s₀ (queueDs s w) := by
  unfold queueDs
  repeat' (first
    | with_reducible assumption | with_reducible apply fillBuf_steady | dsimp only
    | fail_if_no_progress (with_reducible refine Steady.upd ?_ rfl))

theorem closeSpan_steady {s₀ s : State} (h : Steady s₀ s) (p : Nat) : Steady s₀ (closeSpan s p) := by
  unfold closeSpan
  repeat' (first
    | with_reducible assumption | with_reducible apply setPart_steady | with_reducible apply unitAlloc_steady
    | with_reducible apply queueDs_steady | with_reducible apply modPart_steady | split)

theorem joinSpan_steady {s₀ s : State} (h : Steady s₀ s) (d : Dataset) : Steady s₀ (joinSpan s d) := by
  unfold joinSpan
  repeat' (first
    | with_reducible assumption | with_reducible apply setPart_steady | with_reducible apply closeSpan_steady | split | dsimp only
    | fail_if_no_progress (with_reducible refine Steady.upd ?_ rfl))

theorem markPlaced_steady {s₀ s : State} (h : Steady s₀ s) (p : Nat) (ms : List Marker) : Steady s₀ (markPlaced s p ms) := by
  unfold markPlaced
  repeat' (first
    | with_reducible assumption | with_reducible apply modCmd_steady | with_reducible apply Steady.foldl | intro _ _ _ | split
    | fail_if_no_progress (with_reducible refine Steady.upd ?_ rfl))

theorem sealOpen_steady {s₀ s : State} (h : Steady s₀ s) (p : Nat) : Steady s₀ (sealOpen s p) := by
  unfold sealOpen
  repeat' (first
    | with_reducible assumption | with_reducible apply closeSpan_steady | with_reducible apply markPlaced_steady
    | with_reducible apply queueDs_steady | with_reducible apply joinSpan_steady | with_reducible apply modPart_steady | split
    | dsimp only)

theorem sealCheckpoint_steady {s₀ s : State} (h : Steady s₀ s) (p : Nat) (byUnmount : Bool) : Steady s₀ (sealCheckpoint s p byUnmount) := by
  unfold sealCheckpoint
  repeat' (first
    | with_reducible assumption | with_reducible apply closeSpan_steady | with_reducible apply markPlaced_steady
    | with_reducible apply unitAlloc_steady | with_reducible apply queueDs_steady | with_reducible apply joinSpan_steady
    | with_reducible apply modPart_steady | with_reducible apply Steady.foldl | intro _ _ _ | split | dsimp only
    | fail_if_no_progress (with_reducible refine Steady.upd ?_ rfl))

theorem afterSeal_steady {s₀ s : State} (h : Steady s₀ s) (p : Nat) : Steady s₀ (afterSeal s p) := by
  unfold afterSeal
  repeat' (first
    | with_reducible assumption | with_reducible apply sealCheckpoint_steady | with_reducible apply modPart_steady
    | with_reducible apply closeSpan_steady | split | dsimp only)

theorem modRead_steady {s₀ s : State} (h : Steady s₀ s) (p seq : Nat) (f : ReadDs → ReadDs) : Steady s₀ (modRead s p seq f) := by
  unfold modRead
  repeat' (first | with_reducible assumption | fail_if_no_progress (with_reducible refine Steady.upd ?_ rfl))

theorem pauseJob_steady {s₀ s : State} (h : Steady s₀ s) (j : TagJob) : Steady s₀ (pauseJob s j) := by
  unfold pauseJob
  repeat' (first
    | with_reducible assumption | with_reducible apply freshFree_steady | fail_if_no_progress (with_reducible refine Steady.upd ?_ rfl))

theorem runJob_steady {s₀ s : State} (h : Steady s₀ s) (j : TagJob) : Steady s₀ (runJob s j) := by
  unfold runJob
  repeat' (first | with_reducible assumption | fail_if_no_progress (with_reducible refine Steady.upd ?_ rfl))

theorem tagTurn_steady {s₀ s : State} (h : Steady s₀ s) : Steady s₀ (tagTurn s) := by
  unfold tagTurn
  repeat' (first | with_reducible assumption | with_reducible apply runJob_steady | with_reducible apply pauseJob_steady | split)

theorem dropOpenDs_steady {s₀ s : State} (h : Steady s₀ s) (p : Nat) : Steady s₀ (dropOpenDs s p) := by
  unfold dropOpenDs
  repeat' (first
    | with_reducible assumption | with_reducible apply sweep_steady | with_reducible apply modPart_steady
    | with_reducible apply releaseAll_steady)

theorem sealIfDone_steady {s₀ s : State} (h : Steady s₀ s) (p : Nat) : Steady s₀ (sealIfDone s p) := by
  unfold sealIfDone
  repeat' (first
    | with_reducible assumption | with_reducible apply afterSeal_steady | with_reducible apply dropOpenDs_steady
    | with_reducible apply sealOpen_steady | split)

theorem stopDs_steady {s₀ s : State} (h : Steady s₀ s) (p : Nat) (urgent : Bool) : Steady s₀ (stopDs s p urgent) := by
  unfold stopDs
  repeat' (first
    | with_reducible assumption | with_reducible apply sealIfDone_steady | with_reducible apply tagTurn_steady
    | with_reducible apply modPart_steady)

theorem stopOpen_steady {s₀ s : State} (h : Steady s₀ s) (p : Nat) : Steady s₀ (stopOpen s p) := by
  unfold stopOpen
  repeat' (first | with_reducible assumption | with_reducible apply stopDs_steady)

theorem wantCheckpoint_steady {s₀ s : State} (h : Steady s₀ s) (p : Nat) (byUnmount : Bool) : Steady s₀ (wantCheckpoint s p byUnmount) := by
  unfold wantCheckpoint
  repeat' (first | with_reducible assumption | with_reducible apply stopOpen_steady | with_reducible apply modPart_steady)

theorem closeForReserve_steady {s₀ s : State} (h : Steady s₀ s) (p : Nat) : Steady s₀ (closeForReserve s p) := by
  unfold closeForReserve
  repeat' (first | with_reducible assumption | with_reducible apply stopOpen_steady | with_reducible apply setPart_steady | split)

theorem openDataset_steady {s₀ s : State} (h : Steady s₀ s) (p : Nat) (realloc : Bool) : Steady s₀ (openDataset s p realloc) := by
  unfold openDataset
  repeat' (first
    | with_reducible assumption | with_reducible apply unitAlloc_steady | with_reducible apply modPart_steady | split | dsimp only)

theorem failMarkers_steady {s₀ s : State} (h : Steady s₀ s) (p : Nat) : Steady s₀ (failMarkers s p) := by
  unfold failMarkers
  repeat' (first
    | with_reducible assumption | with_reducible apply failWrite_steady | with_reducible apply Steady.foldl | intro _ _ _ | split
    | dsimp only | fail_if_no_progress (with_reducible refine Steady.upd ?_ rfl))

theorem openForMarkers_steady {s₀ s : State} (h : Steady s₀ s) (p : Nat) : Steady s₀ (openForMarkers s p) := by
  unfold openForMarkers
  repeat' (first
    | with_reducible assumption | with_reducible apply openDataset_steady | with_reducible apply closeForReserve_steady
    | with_reducible apply failMarkers_steady | split)

theorem leaveDue_steady {s₀ s : State} (h : Steady s₀ s) (w : WriteDs) : Steady s₀ (leaveDue s w) := by
  unfold leaveDue
  repeat' (first | with_reducible assumption | fail_if_no_progress (with_reducible refine Steady.upd ?_ rfl))

theorem forgetMembers_steady {s₀ s : State} (h : Steady s₀ s) (d : Dataset) : Steady s₀ (forgetMembers s d) := by
  unfold forgetMembers
  repeat' (first | with_reducible assumption | split | fail_if_no_progress (with_reducible refine Steady.upd ?_ rfl))

theorem dropSealed_steady {s₀ s : State} (h : Steady s₀ s) (w : WriteDs) : Steady s₀ (dropSealed s w) := by
  unfold dropSealed
  repeat' (first
    | with_reducible assumption | with_reducible apply forgetMembers_steady | with_reducible apply leaveDue_steady
    | with_reducible apply release_steady | split | dsimp only | fail_if_no_progress (with_reducible refine Steady.upd ?_ rfl))

theorem clearCkpt_steady {s₀ s : State} (h : Steady s₀ s) (p : Nat → Bool) : Steady s₀ (clearCkpt s p) := by
  unfold clearCkpt
  repeat' (first
    | with_reducible assumption | split | dsimp only | fail_if_no_progress (with_reducible refine Steady.upd ?_ rfl))

theorem endMoves_steady {s₀ s : State} (h : Steady s₀ s) (p : Nat) : Steady s₀ (endMoves s p) := by
  unfold endMoves
  repeat' (first | with_reducible assumption | dsimp only | fail_if_no_progress (with_reducible refine Steady.upd ?_ rfl))

theorem endCheckpoints_steady {s₀ s : State} (h : Steady s₀ s) (p : Nat → Bool) (st d1 : Nat) :
    Steady s₀ (endCheckpoints s p st d1) := by
  unfold endCheckpoints
  repeat' (first
    | with_reducible assumption | with_reducible apply finish_steady | with_reducible apply Steady.foldl
    | with_reducible apply Steady.foldl_fst | with_reducible apply Steady.foldl_snd | intro _ _ _)

theorem checkpointAbandoned_steady {s₀ s : State} (h : Steady s₀ s) (p q : Nat) : Steady s₀ (checkpointAbandoned s p q) := by
  unfold checkpointAbandoned
  repeat' (first
    | with_reducible assumption | with_reducible apply endCheckpoints_steady | with_reducible apply clearCkpt_steady
    | with_reducible apply endMoves_steady | with_reducible apply faultProtect_steady
    | with_reducible apply wantCheckpoint_steady | with_reducible apply setPart_steady | split)

theorem modRec_steady {s₀ s : State} (h : Steady s₀ s) (id : Nat) (f : RecJob → RecJob) : Steady s₀ (modRec s id f) := by
  unfold modRec
  repeat' (first
    | with_reducible assumption | split | dsimp only | fail_if_no_progress (with_reducible refine Steady.upd ?_ rfl))

theorem takeMirrors_steady {s₀ s : State} (h : Steady s₀ s) (a0 : List RecJob) : Steady s₀ (takeMirrors a0 s) := by
  induction a0 generalizing s with
  | nil => exact h
  | cons x a0 ih =>
    unfold takeMirrors
    repeat' (first
      | with_reducible assumption | with_reducible apply ih | with_reducible apply unitAllocN_steady
      | with_reducible apply modRec_steady | with_reducible apply fillBufs_steady | split | dsimp only)

theorem giveCredit_steady {s₀ s : State} (h : Steady s₀ s) : Steady s₀ (giveCredit s) := by
  unfold giveCredit
  repeat' (first
    | with_reducible assumption | with_reducible apply takeMirrors_steady | with_reducible apply plSend_steady | split)

theorem dropMirrored_steady {s₀ s : State} (h : Steady s₀ s) (p : Nat) (hit : MirrorPiece → Bool) :
    Steady s₀ (dropMirrored s p hit) := by
  unfold dropMirrored
  repeat' (first
    | with_reducible assumption | with_reducible apply dropRecBuf_steady | with_reducible apply giveCredit_steady
    | with_reducible apply Steady.foldl | with_reducible apply Steady.foldl_fst | with_reducible apply Steady.foldl_snd
    | intro _ _ _ | intro _ _ | split | dsimp only | fail_if_no_progress (with_reducible refine Steady.upd ?_ rfl))

theorem discardOpen_steady {s₀ s : State} (h : Steady s₀ s) (p : Nat) : Steady s₀ (discardOpen s p) := by
  unfold discardOpen
  repeat' (first | with_reducible assumption | with_reducible apply sealIfDone_steady | with_reducible apply modPart_steady)

theorem dropRealloc_steady {s₀ s : State} (h : Steady s₀ s) (p seq : Nat) : Steady s₀ (dropRealloc s p seq) := by
  unfold dropRealloc
  repeat' (first
    | with_reducible assumption | with_reducible apply modPart_steady | with_reducible apply setSubst_steady | dsimp only
    | fail_if_no_progress (with_reducible refine Steady.upd ?_ rfl))

theorem endReallocs_steady {s₀ s : State} (h : Steady s₀ s) (p : Nat) : Steady s₀ (endReallocs s p) := by
  unfold endReallocs
  repeat' (first
    | with_reducible assumption | with_reducible apply dropRealloc_steady | with_reducible apply Steady.foldl
    | with_reducible apply Steady.foldl_fst | with_reducible apply Steady.foldl_snd | intro _ _ _ | intro _ _ | dsimp only
    | fail_if_no_progress (with_reducible refine Steady.upd ?_ rfl))

theorem haltPartition_steady {s₀ s : State} (h : Steady s₀ s) (p : Nat) : Steady s₀ (haltPartition s p) := by
  unfold haltPartition
  repeat' (first
    | with_reducible assumption | with_reducible apply modPart_steady | with_reducible apply dropMirrored_steady
    | with_reducible apply clearCkpt_steady | with_reducible apply endWrite_steady | with_reducible apply discardOpen_steady
    | with_reducible apply endReallocs_steady | with_reducible apply endCheckpoints_steady | with_reducible apply Steady.foldl
    | with_reducible apply Steady.foldl_fst | with_reducible apply Steady.foldl_snd | intro _ _ _ | intro _ _ | split
    | dsimp only | fail_if_no_progress (with_reducible refine Steady.upd ?_ rfl))

theorem haltIfDrained_steady {s₀ s : State} (h : Steady s₀ s) (p : Nat) : Steady s₀ (haltIfDrained s p) := by
  unfold haltIfDrained
  repeat' (first | with_reducible assumption | with_reducible apply haltPartition_steady | split)

theorem abandonDataset_steady {s₀ s : State} (h : Steady s₀ s) (w : WriteDs) (st : Nat) : Steady s₀ (abandonDataset s w st) := by
  unfold abandonDataset
  repeat' (first
    | with_reducible assumption | with_reducible apply dropSealed_steady | with_reducible apply faultRec_steady
    | with_reducible apply modPart_steady | with_reducible apply failWrite_steady | with_reducible apply commitReady_steady
    | with_reducible apply checkpointAbandoned_steady | with_reducible apply openForMarkers_steady | with_reducible apply afterSeal_steady
    | with_reducible apply haltIfDrained_steady | with_reducible apply Steady.foldl | intro _ _ _ | split
    | fail_if_no_progress (with_reducible refine Steady.upd ?_ rfl))

theorem joinRun_steady {s₀ s : State} (h : Steady s₀ s) (p seq wrap : Nat) : Steady s₀ (joinRun s p seq wrap) := by
  unfold joinRun
  repeat' (first | with_reducible assumption | split | dsimp only | fail_if_no_progress (with_reducible refine Steady.upd ?_ rfl))

theorem needVisit_steady {s₀ s : State} (h : Steady s₀ s) (id prio since p seq : Nat) :
    Steady s₀ (needVisit s id prio since p seq) := by
  unfold needVisit
  repeat' (first
    | with_reducible assumption | split | dsimp only | fail_if_no_progress (with_reducible refine Steady.upd ?_ rfl))

theorem addVisit_steady {s₀ s : State} (h : Steady s₀ s) (id prio since p seq : Nat) : Steady s₀ (addVisit s id prio since p seq) := by
  unfold addVisit
  repeat' (first
    | with_reducible assumption | with_reducible apply needVisit_steady | with_reducible apply joinRun_steady | split
    | dsimp only)

theorem dropRead_steady {s₀ s : State} (h : Steady s₀ s) (p seq : Nat) : Steady s₀ (dropRead s p seq) := by
  unfold dropRead
  repeat' (first
    | with_reducible assumption | with_reducible apply release_steady | with_reducible apply releaseAll_steady | split
    | fail_if_no_progress (with_reducible refine Steady.upd ?_ rfl))

theorem closeVisit_steady {s₀ s : State} (h : Steady s₀ s) (p seq : Nat) : Steady s₀ (closeVisit s p seq) := by
  unfold closeVisit
  repeat' (first | with_reducible assumption | with_reducible apply dropRead_steady | split)

theorem lanesOff_steady {s₀ s : State} (h : Steady s₀ s) : Steady s₀ (lanesOff s) := by
  unfold lanesOff
  repeat' (first | with_reducible assumption | dsimp only | fail_if_no_progress (with_reducible refine Steady.upd ?_ rfl))

theorem endRun_steady {s₀ s : State} (h : Steady s₀ s) : Steady s₀ (endRun s) := by
  unfold endRun
  repeat' (first
    | with_reducible assumption | with_reducible apply lanesOff_steady | dsimp only
    | fail_if_no_progress (with_reducible refine Steady.upd ?_ rfl))

theorem keepRun_steady {s₀ s : State} (h : Steady s₀ s) (run : List (Nat × Nat)) : Steady s₀ (keepRun s run) := by
  unfold keepRun
  repeat' (first
    | with_reducible assumption | with_reducible apply endRun_steady | split | dsimp only
    | fail_if_no_progress (with_reducible refine Steady.upd ?_ rfl))

theorem setVisits_steady {s₀ s : State} (h : Steady s₀ s) (vs : List Visit) : Steady s₀ (setVisits s vs) := by
  unfold setVisits
  repeat' (first
    | with_reducible assumption | with_reducible apply keepRun_steady | dsimp only
    | fail_if_no_progress (with_reducible refine Steady.upd ?_ rfl))

theorem leaveSome_steady {s₀ s : State} (h : Steady s₀ s) (c : Cmd) (which : Visit → Bool) : Steady s₀ (leaveSome s c which) := by
  unfold leaveSome
  repeat' (first | with_reducible assumption | with_reducible apply setVisits_steady)

theorem readerOut_steady {s₀ s : State} (h : Steady s₀ s) (c : Cmd) : Steady s₀ (readerOut s c) := by
  unfold readerOut
  repeat' (first
    | with_reducible assumption | with_reducible apply release_steady | with_reducible apply unpark_steady
    | with_reducible apply leaveSome_steady | with_reducible apply closeVisit_steady | with_reducible apply Steady.foldl
    | with_reducible apply Steady.foldl_fst | with_reducible apply Steady.foldl_snd | intro _ _ _ | intro _ _ | split
    | dsimp only | fail_if_no_progress (with_reducible refine Steady.upd ?_ rfl))

theorem endRead_steady {s₀ s : State} (h : Steady s₀ s) (c : Cmd) (st d1 d2 : Nat) : Steady s₀ (endRead s c st d1 d2) := by
  unfold endRead
  dsimp only
  repeat' (first
    | with_reducible assumption | with_reducible apply readerOut_steady | with_reducible apply dmaOut_steady
    | with_reducible apply finish_steady)

theorem deliver_steady {s₀ s : State} (h : Steady s₀ s) (c : Cmd) (bs : List Byte) (fromStaging fromRecovery : Bool) :
    Steady s₀ (deliver s c bs fromStaging fromRecovery) := by
  unfold deliver
  repeat' (first | with_reducible assumption | with_reducible apply modCmd_steady)

theorem failRecord_steady {s₀ s : State} (h : Steady s₀ s) (c : Cmd) (seq st d2 : Nat) : Steady s₀ (failRecord s c seq st d2) := by
  unfold failRecord
  repeat' (first
    | with_reducible assumption | with_reducible apply endRead_steady | fail_if_no_progress (with_reducible refine Steady.upd ?_ rfl))

theorem pinAll_steady {s₀ s : State} (h : Steady s₀ s) {c w : Cmd} {hs : List (BitVec 32)} {t : State}
    (g : pinAll s c w hs = some t) : Steady s₀ t := by
  unfold pinAll at g
  suffices q : ∀ (l : List (BitVec 32)) (o : Option State) (f : Option State → BitVec 32 → Option State),
      (∀ y b x, Steady s₀ y → f (some y) b = some x → Steady s₀ x) → (∀ b, f none b = none) →
      (∀ x, o = some x → Steady s₀ x) → ∀ x, l.foldl f o = some x → Steady s₀ x by
    refine q hs (some s) _ ?_ (fun _ => rfl) (fun x e => by cases e; exact h) t g
    intro y b x hy e
    dsimp only at e
    split at e
    · cases e
    · split at e
      · cases e; exact hy
      · split at e
        · cases e
        · cases e
          with_reducible apply modCmd_steady
          with_reducible apply acquire_steady
          exact hy
  intro l
  induction l with
  | nil => intro o f _ _ ho x e; exact ho x e
  | cons b l ih =>
    intro o f hf hn ho
    refine ih _ f hf hn ?_
    intro x e
    cases o with
    | none => rw [hn] at e; cases e
    | some y => exact hf y b x (ho y rfl) e

theorem pinStaged_steady {s₀ s : State} (h : Steady s₀ s) (c : Cmd) : Steady s₀ (pinStaged s c) := by
  have g : ∀ (t : State) (w : Cmd) (l : List (BitVec 32)), Steady s₀ t → Steady s₀ ((pinAll t c w l).getD t) := by
    intro t w l ht
    cases e : pinAll t c w l with
    | none => exact ht
    | some x => exact pinAll_steady ht e
  unfold pinStaged
  repeat' (first | with_reducible assumption | apply g | with_reducible apply Steady.foldl | intro _ _ _ | split)

theorem makeChains_steady {s₀ s : State} (h : Steady s₀ s) (p seq : Nat) : Steady s₀ (makeChains s p seq) := by
  unfold makeChains
  repeat' (first
    | with_reducible assumption | with_reducible apply Steady.foldl | intro _ _ _ | split | dsimp only
    | fail_if_no_progress (with_reducible refine Steady.upd ?_ rfl))

theorem needTape_steady {s₀ s : State} (h : Steady s₀ s) (c : Cmd) (p seq : Nat) : Steady s₀ (needTape s c p seq) := by
  unfold needTape
  repeat' (first
    | with_reducible assumption | with_reducible apply endRead_steady | with_reducible apply makeChains_steady
    | with_reducible apply addVisit_steady | split | dsimp only | fail_if_no_progress (with_reducible refine Steady.upd ?_ rfl))

theorem wrongHeader_steady {s₀ s : State} (h : Steady s₀ s) (p seq : Nat) : Steady s₀ (wrongHeader s p seq) := by
  unfold wrongHeader
  repeat' (first | with_reducible assumption | with_reducible apply modRead_steady)

theorem serveTape_steady {s₀ s : State} (h : Steady s₀ s) (c : Cmd) (r : Run) (e : Extent) : Steady s₀ (serveTape s c r e).1 := by
  unfold serveTape
  repeat' (first
    | with_reducible assumption | with_reducible apply endRead_steady | with_reducible apply needTape_steady
    | with_reducible apply wrongHeader_steady | with_reducible apply addVisit_steady | with_reducible apply failRecord_steady
    | with_reducible apply deliver_steady | split | dsimp only)

theorem serveLoop_steady {s₀ s : State} (h : Steady s₀ s) (fuel id : Nat) : Steady s₀ (serveLoop fuel id s) := by
  induction fuel generalizing s with
  | zero => exact h
  | succ fuel ih =>
    unfold serveLoop
    repeat' (first
      | with_reducible assumption | with_reducible apply ih | with_reducible apply endRead_steady | with_reducible apply deliver_steady
      | with_reducible apply serveTape_steady | with_reducible apply modCmd_steady | split | dsimp only)
    all_goals exact pinAll_steady h (by assumption)

theorem locatorDeliver_steady {s₀ s : State} (h : Steady s₀ s) (st d1 d2 a0 a1 : Nat) :
    Steady s₀ (locatorDeliver st d1 d2 a0 a1 s) := by
  induction a0 generalizing s st d1 d2 a1 with
  | zero => exact h
  | succ a0 ih =>
    unfold locatorDeliver
    repeat' (first
      | with_reducible assumption | with_reducible apply ih | with_reducible apply endRead_steady
      | with_reducible apply deliver_steady | with_reducible apply Steady.foldl | with_reducible apply Steady.foldl_fst
      | with_reducible apply Steady.foldl_snd | intro _ _ _ | intro _ _ | split | dsimp only)

theorem serveLocator_steady {s₀ s : State} (h : Steady s₀ s) (id : Nat) : Steady s₀ (serveLocator s id) := by
  unfold serveLocator
  repeat' (first
    | with_reducible assumption | with_reducible apply locatorDeliver_steady | with_reducible apply modCmd_steady
    | with_reducible apply makeChains_steady | with_reducible apply addVisit_steady | split)

theorem locatorTake_steady {s₀ s : State} (h : Steady s₀ s) (id p seq : Nat) : Steady s₀ (locatorTake s id p seq) := by
  unfold locatorTake
  repeat' (first
    | with_reducible assumption | with_reducible apply wrongHeader_steady | with_reducible apply failRecord_steady
    | with_reducible apply modCmd_steady | with_reducible apply recovered_steady | with_reducible apply serveLocator_steady
    | with_reducible apply closeVisit_steady | with_reducible apply leaveSome_steady | split | dsimp only)

theorem trimVisits_steady {s₀ s : State} (h : Steady s₀ s) (id : Nat) : Steady s₀ (trimVisits s id) := by
  unfold trimVisits
  repeat' (first
    | with_reducible assumption | with_reducible apply closeVisit_steady | with_reducible apply leaveSome_steady
    | with_reducible apply Steady.foldl | with_reducible apply Steady.foldl_fst | with_reducible apply Steady.foldl_snd
    | intro _ _ _ | intro _ _ | split | dsimp only)

theorem serveOne_steady {s₀ s : State} (h : Steady s₀ s) (id : Nat) : Steady s₀ (serveOne s id) := by
  unfold serveOne
  repeat' (first
    | with_reducible assumption | with_reducible apply serveLocator_steady | with_reducible apply locatorTake_steady
    | with_reducible apply modCmd_steady | with_reducible apply trimVisits_steady | with_reducible apply serveLoop_steady
    | with_reducible apply pinStaged_steady | split)

theorem retryHeld_steady {s₀ s : State} (h : Steady s₀ s) (n : Nat) : Steady s₀ (retryHeld n s) := by
  induction n generalizing s with
  | zero => exact h
  | succ n ih =>
    unfold retryHeld
    repeat' (first
      | with_reducible assumption | with_reducible apply ih | with_reducible apply serveOne_steady | with_reducible apply Steady.foldl
      | split | dsimp only)

theorem serveRead_steady {s₀ s : State} (h : Steady s₀ s) (id : Nat) : Steady s₀ (serveRead s id) := by
  unfold serveRead
  repeat' (first | with_reducible assumption | with_reducible apply serveOne_steady | with_reducible apply retryHeld_steady)

theorem finishRead_steady {s₀ s : State} (h : Steady s₀ s) (c : Cmd) (st d1 d2 : Nat) : Steady s₀ (finishRead s c st d1 d2) := by
  unfold finishRead
  repeat' (first | with_reducible assumption | with_reducible apply endRead_steady | with_reducible apply retryHeld_steady)

theorem removeVisit_steady {s₀ s : State} (h : Steady s₀ s) (p seq : Nat) : Steady s₀ (removeVisit s p seq) := by
  unfold removeVisit
  repeat' (first | with_reducible assumption | with_reducible apply dropRead_steady | with_reducible apply setVisits_steady)

theorem failVisit_steady {s₀ s : State} (h : Steady s₀ s) (p seq st reason : Nat) : Steady s₀ (failVisit s p seq st reason) := by
  unfold failVisit
  repeat' (first
    | with_reducible assumption | with_reducible apply dropRead_steady | with_reducible apply removeVisit_steady
    | with_reducible apply locatorDeliver_steady | with_reducible apply retryHeld_steady | with_reducible apply serveRead_steady
    | with_reducible apply modCmd_steady | with_reducible apply Steady.foldl | with_reducible apply Steady.foldl_fst
    | with_reducible apply Steady.foldl_snd | intro _ _ _ | intro _ _ | split)

theorem endVisit_steady {s₀ s : State} (h : Steady s₀ s) (p seq st : Nat) : Steady s₀ (endVisit s p seq st) := by
  unfold endVisit
  repeat' (first
    | with_reducible assumption | with_reducible apply dropRead_steady | with_reducible apply removeVisit_steady
    | with_reducible apply finishRead_steady | with_reducible apply Steady.foldl | intro _ _ _ | split)

theorem placeChains_steady {s₀ s : State} (h : Steady s₀ s) (a0 a2 : Nat) : Steady s₀ (placeChains a0 s a2) := by
  induction a0 generalizing s a2 with
  | zero => exact h
  | succ a0 ih =>
    unfold placeChains
    repeat' (first
      | with_reducible assumption | with_reducible apply ih | with_reducible apply dropRealloc_steady
      | with_reducible apply openDataset_steady | with_reducible apply fillBuf_steady | with_reducible apply setPart_steady
      | with_reducible apply sealIfDone_steady | split | dsimp only)

theorem flushChains_steady {s₀ s : State} (h : Steady s₀ s) (p : Nat) : Steady s₀ (flushChains s p) := by
  unfold flushChains
  repeat' (first | with_reducible assumption | with_reducible apply placeChains_steady)

theorem reallocAbandoned_steady {s₀ s : State} (h : Steady s₀ s) (w : WriteDs) : Steady s₀ (reallocAbandoned s w) := by
  unfold reallocAbandoned
  repeat' (first
    | with_reducible assumption | with_reducible apply dropRealloc_steady | with_reducible apply modPart_steady
    | with_reducible apply flushChains_steady | with_reducible apply Steady.foldl | intro _ _ _ | split
    | fail_if_no_progress (with_reducible refine Steady.upd ?_ rfl))

theorem discardMirror_steady {s₀ s : State} (h : Steady s₀ s) (p : Nat) (st : StreamId) (v i : Nat) :
    Steady s₀ (discardMirror s p st v i) := by
  unfold discardMirror
  repeat' (first
    | with_reducible assumption | with_reducible apply giveCredit_steady | with_reducible apply releaseAll_steady | split
    | dsimp only | fail_if_no_progress (with_reducible refine Steady.upd ?_ rfl))

theorem modFe_steady {s₀ s : State} (h : Steady s₀ s) (m l : Nat) (f : FrontEnd → FrontEnd) : Steady s₀ (modFe s m l f) := by
  unfold modFe
  repeat' (first | with_reducible assumption | fail_if_no_progress (with_reducible refine Steady.upd ?_ rfl))

theorem calibrate_steady {s₀ s : State} (h : Steady s₀ s) (dir : Nat) (ls : List (Nat × Nat × Nat × Bool × List Byte)) :
    Steady s₀ (calibrate s dir ls) := by
  unfold calibrate
  repeat' (first
    | with_reducible assumption | with_reducible apply odPut_steady | with_reducible apply Steady.foldl | intro _ _ _ | split | dsimp only
    | fail_if_no_progress (with_reducible refine Steady.upd ?_ rfl))

theorem revCalibrate_steady {s₀ s : State} (h : Steady s₀ s) (wrap : Nat) : Steady s₀ (revCalibrate s wrap) := by
  unfold revCalibrate
  repeat' (first
    | with_reducible assumption | with_reducible apply calibrate_steady | split | dsimp only
    | fail_if_no_progress (with_reducible refine Steady.upd ?_ rfl))

theorem loadEphemeris_steady {s₀ s : State} (h : Steady s₀ s) (wrap : Nat) (modules : List Nat) :
    Steady s₀ (loadEphemeris s wrap modules) := by
  unfold loadEphemeris
  repeat' (first
    | with_reducible assumption | with_reducible apply modFe_steady | with_reducible apply setSubst_steady
    | with_reducible apply Steady.foldl | intro _ _ _ | split | dsimp only
    | fail_if_no_progress (with_reducible refine Steady.upd ?_ rfl))

theorem goTo_steady {s₀ s : State} (h : Steady s₀ s) (wrap lpos : Nat) (before mmps : Nat) : Steady s₀ (goTo s wrap lpos before mmps) := by
  unfold goTo
  repeat' (first | with_reducible assumption | fail_if_no_progress (with_reducible refine Steady.upd ?_ rfl))

theorem abandonDs_steady {s₀ s : State} (h : Steady s₀ s) (w : WriteDs) (st : Nat) : Steady s₀ (abandonDs s w st) := by
  unfold abandonDs
  repeat' (first | with_reducible assumption | with_reducible apply reallocAbandoned_steady | with_reducible apply abandonDataset_steady)

theorem haltWriter_steady {s₀ s : State} (h : Steady s₀ s) : Steady s₀ (haltWriter s) := by
  unfold haltWriter
  repeat' (first
    | with_reducible assumption | split | dsimp only | fail_if_no_progress (with_reducible refine Steady.upd ?_ rfl))

theorem haltClosed_steady {s₀ s : State} (h : Steady s₀ s) : Steady s₀ (haltClosed s) := by
  unfold haltClosed
  repeat' (first
    | with_reducible assumption | with_reducible apply clearCkpt_steady | with_reducible apply haltWriter_steady
    | with_reducible apply endWrite_steady | with_reducible apply endCheckpoints_steady
    | with_reducible apply endReallocs_steady | with_reducible apply Steady.foldl | with_reducible apply Steady.foldl_fst
    | with_reducible apply Steady.foldl_snd | intro _ _ _)

theorem closeOn_steady {s₀ s : State} (h : Steady s₀ s) (n : Nat) : Steady s₀ (closeOn n s) := by
  induction n generalizing s with
  | zero => exact h
  | succ n ih =>
    unfold closeOn
    repeat' (first
      | with_reducible assumption | with_reducible apply ih | with_reducible apply wantCheckpoint_steady
      | with_reducible apply closeSpan_steady | with_reducible apply haltClosed_steady | with_reducible apply Steady.foldl | intro _ _ _
      | split | fail_if_no_progress (with_reducible refine Steady.upd ?_ rfl))

theorem ninthStop_steady {s₀ s : State} (h : Steady s₀ s) : Steady s₀ (ninthStop s) := by
  unfold ninthStop
  repeat' (first
    | with_reducible assumption | with_reducible apply clearCkpt_steady | with_reducible apply haltWriter_steady
    | with_reducible apply failPieces_steady | with_reducible apply endWrite_steady | with_reducible apply dropSealed_steady
    | with_reducible apply endCheckpoints_steady | with_reducible apply endReallocs_steady | with_reducible apply Steady.foldl
    | with_reducible apply Steady.foldl_fst | with_reducible apply Steady.foldl_snd | intro _ _ _)

theorem endClosing_steady {s₀ s : State} (h : Steady s₀ s) : Steady s₀ (endClosing s) := by
  unfold endClosing
  repeat' (first
    | with_reducible assumption | with_reducible apply ninthStop_steady | with_reducible apply closeOn_steady | split)

theorem aimHead_steady {s₀ s : State} (h : Steady s₀ s) (wrap : Nat) : Steady s₀ (aimHead s wrap) := by
  unfold aimHead
  repeat' (first
    | with_reducible assumption | with_reducible apply servoOff_steady | split | dsimp only
    | fail_if_no_progress (with_reducible refine Steady.upd ?_ rfl))

theorem aimVerifying_steady {s₀ s : State} (h : Steady s₀ s) (wrap : Nat) : Steady s₀ (aimVerifying s wrap) := by
  unfold aimVerifying
  repeat' (first | with_reducible assumption | with_reducible apply aimHead_steady | with_reducible apply loadEphemeris_steady)

theorem interruptWriting_steady {s₀ s : State} (h : Steady s₀ s) (st : Nat) : Steady s₀ (interruptWriting s st) := by
  unfold interruptWriting
  repeat' (first
    | with_reducible assumption | with_reducible apply modPart_steady | with_reducible apply abandonDs_steady
    | with_reducible apply endWrite_steady | with_reducible apply Steady.foldl | intro _ _ _ | split
    | fail_if_no_progress (with_reducible refine Steady.upd ?_ rfl))

theorem trimPool6_steady {s₀ s : State} (h : Steady s₀ s) (p q : Nat) : Steady s₀ (trimPool6 s p q) := by
  unfold trimPool6
  repeat' (first | with_reducible assumption | with_reducible apply releaseAll_steady | with_reducible apply modRead_steady | split)

theorem relocate_steady {s₀ s : State} (h : Steady s₀ s) : Steady s₀ (relocate s) := by
  unfold relocate
  repeat' (first
    | with_reducible assumption | with_reducible apply lanesOff_steady | with_reducible apply aimHead_steady
    | with_reducible apply loadEphemeris_steady | fail_if_no_progress (with_reducible refine Steady.upd ?_ rfl))

theorem seek_steady {s₀ s : State} (h : Steady s₀ s) (p q mmps : Nat) : Steady s₀ (seek s p q mmps) := by
  unfold seek
  repeat' (first
    | with_reducible assumption | with_reducible apply goTo_steady | with_reducible apply relocate_steady
    | fail_if_no_progress (with_reducible refine Steady.upd ?_ rfl))

theorem seekRun_steady {s₀ s : State} (h : Steady s₀ s) : Steady s₀ (seekRun s) := by
  unfold seekRun
  repeat' (first | with_reducible assumption | with_reducible apply seek_steady | with_reducible apply relocate_steady | split)

theorem leaveRun_steady {s₀ s : State} (h : Steady s₀ s) (p q : Nat) : Steady s₀ (leaveRun s p q) := by
  unfold leaveRun
  repeat' (first
    | with_reducible assumption | with_reducible apply endRun_steady | split | dsimp only
    | fail_if_no_progress (with_reducible refine Steady.upd ?_ rfl))

theorem countFailed_steady {s₀ s : State} (h : Steady s₀ s) : Steady s₀ (countFailed s) := by
  unfold countFailed
  repeat' (first | with_reducible assumption | dsimp only | fail_if_no_progress (with_reducible refine Steady.upd ?_ rfl))

theorem noteLast_steady {s₀ s : State} (h : Steady s₀ s) (p q step : Nat) : Steady s₀ (noteLast s p q step) := by
  unfold noteLast
  repeat' (first | with_reducible assumption | split | fail_if_no_progress (with_reducible refine Steady.upd ?_ rfl))

theorem restoreKept_steady {s₀ s : State} (h : Steady s₀ s) : Steady s₀ (restoreKept s) := by
  unfold restoreKept
  repeat' (first
    | with_reducible assumption | split | dsimp only | fail_if_no_progress (with_reducible refine Steady.upd ?_ rfl))

theorem endPass_steady {s₀ s : State} (h : Steady s₀ s) : Steady s₀ (endPass s) := by
  unfold endPass
  repeat' (first
    | with_reducible assumption | with_reducible apply restoreKept_steady | dsimp only
    | fail_if_no_progress (with_reducible refine Steady.upd ?_ rfl))

theorem closeLadder_steady {s₀ s : State} (h : Steady s₀ s) : Steady s₀ (closeLadder s) := by
  unfold closeLadder
  repeat' (first
    | with_reducible assumption | with_reducible apply releaseAll_steady | with_reducible apply relocate_steady
    | with_reducible apply endPass_steady | split | fail_if_no_progress (with_reducible refine Steady.upd ?_ rfl))

theorem recovered_steady {s₀ s : State} (h : Steady s₀ s) (p q step : Nat) (user : List Byte) (byC3 : Bool) :
    Steady s₀ (recovered s p q step user byC3) := by
  unfold recovered
  repeat' (first
    | with_reducible assumption | with_reducible apply noteLast_steady | with_reducible apply modRead_steady
    | with_reducible apply trimPool6_steady | split | fail_if_no_progress (with_reducible refine Steady.upd ?_ rfl))

theorem failRecovery_steady {s₀ s : State} (h : Steady s₀ s) (p q st step reason missing : Nat) :
    Steady s₀ (failRecovery s p q st step reason missing) := by
  unfold failRecovery
  repeat' (first
    | with_reducible assumption | with_reducible apply noteLast_steady | with_reducible apply countFailed_steady
    | with_reducible apply leaveRun_steady | with_reducible apply failVisit_steady | split)

theorem beginPass_steady {s₀ s : State} (h : Steady s₀ s) (n : Nat) : Steady s₀ (beginPass s n) := by
  unfold beginPass
  repeat' (first
    | with_reducible assumption | with_reducible apply seek_steady | with_reducible apply relocate_steady | split | dsimp only
    | fail_if_no_progress (with_reducible refine Steady.upd ?_ rfl))

theorem startSpan_steady {s₀ s : State} (h : Steady s₀ s) (p q : Nat) : Steady s₀ (startSpan s p q) := by
  unfold startSpan
  repeat' (first
    | with_reducible assumption | with_reducible apply unitAllocN_steady | with_reducible apply beginPass_steady | split
    | dsimp only | fail_if_no_progress (with_reducible refine Steady.upd ?_ rfl))

theorem ladderOver_steady {s₀ s : State} (h : Steady s₀ s) (p q : Nat) : Steady s₀ (ladderOver s p q).1 := by
  unfold ladderOver
  repeat' (first
    | with_reducible assumption | with_reducible apply failRecovery_steady | with_reducible apply noteLast_steady
    | with_reducible apply modRead_steady | with_reducible apply startSpan_steady | split | dsimp only
    | fail_if_no_progress (with_reducible refine Steady.upd ?_ rfl))

theorem nextPass_steady {s₀ s : State} (h : Steady s₀ s) (p q : Nat) : Steady s₀ (nextPass s p q).1 := by
  unfold nextPass
  repeat' (first
    | with_reducible assumption | with_reducible apply ladderOver_steady | with_reducible apply modRead_steady
    | with_reducible apply beginPass_steady | split)

theorem startLadders_steady {s₀ s : State} (h : Steady s₀ s) (a0 : Nat) : Steady s₀ (startLadders a0 s) := by
  induction a0 generalizing s with
  | zero => exact h
  | succ a0 ih =>
    unfold startLadders
    repeat' (first
      | with_reducible assumption | with_reducible apply ih | with_reducible apply nextPass_steady
      | with_reducible apply closeLadder_steady | split | dsimp only
      | fail_if_no_progress (with_reducible refine Steady.upd ?_ rfl))

theorem enterLadder_steady {s₀ s : State} (h : Steady s₀ s) (p q : Nat) : Steady s₀ (enterLadder s p q) := by
  unfold enterLadder
  repeat' (first
    | with_reducible assumption | with_reducible apply noteLast_steady | with_reducible apply modRead_steady
    | with_reducible apply startLadders_steady | with_reducible apply endRun_steady | split | dsimp only
    | fail_if_no_progress (with_reducible refine Steady.upd ?_ rfl))

theorem headerFailed_steady {s₀ s : State} (h : Steady s₀ s) (p q : Nat) (r : ReadDs) : Steady s₀ (headerFailed s p q r) := by
  unfold headerFailed
  repeat' (first
    | with_reducible assumption | with_reducible apply modRead_steady | with_reducible apply failRecovery_steady
    | with_reducible apply releaseAll_steady | with_reducible apply enterLadder_steady | with_reducible apply trimPool6_steady
    | split | dsimp only | fail_if_no_progress (with_reducible refine Steady.upd ?_ rfl))

theorem failVisits_steady {s₀ s : State} (h : Steady s₀ s) (st : Nat) : Steady s₀ (failVisits s st) := by
  unfold failVisits
  repeat' (first
    | with_reducible assumption | with_reducible apply endVisit_steady | with_reducible apply Steady.foldl | intro _ _ _ | split)

theorem repeatLocate_steady {s₀ s : State} (h : Steady s₀ s) : Steady s₀ (repeatLocate s) := by
  unfold repeatLocate
  repeat' (first
    | with_reducible assumption | with_reducible apply seekRun_steady | with_reducible apply goTo_steady
    | with_reducible apply aimVerifying_steady | split | dsimp only
    | fail_if_no_progress (with_reducible refine Steady.upd ?_ rfl))

theorem endReading_steady {s₀ s : State} (h : Steady s₀ s) (st : Nat) : Steady s₀ (endReading s st) := by
  unfold endReading
  repeat' (first
    | with_reducible assumption | with_reducible apply failVisits_steady | with_reducible apply releaseAll_steady
    | with_reducible apply endRun_steady | with_reducible apply endPass_steady | with_reducible apply dropRead_steady
    | with_reducible apply Steady.foldl | with_reducible apply Steady.foldl_fst | with_reducible apply Steady.foldl_snd
    | intro _ _ _ | intro _ _ | split | dsimp only | fail_if_no_progress (with_reducible refine Steady.upd ?_ rfl))

theorem endWriter_steady {s₀ s : State} (h : Steady s₀ s) (st : Nat) : Steady s₀ (endWriter s st) := by
  unfold endWriter
  repeat' (first
    | with_reducible assumption | with_reducible apply endCheckpoints_steady | with_reducible apply interruptWriting_steady | split
    | fail_if_no_progress (with_reducible refine Steady.upd ?_ rfl))

theorem markDiverged_steady {s₀ s : State} (h : Steady s₀ s) : Steady s₀ (markDiverged s) := by
  unfold markDiverged
  repeat' (first | with_reducible assumption | fail_if_no_progress (with_reducible refine Steady.upd ?_ rfl))

theorem catchUpPart_steady {s₀ s : State} (h : Steady s₀ s) (p : Nat) : Steady s₀ (catchUpPart s p) := by
  unfold catchUpPart
  repeat' (first | with_reducible assumption | fail_if_no_progress (with_reducible refine Steady.upd ?_ rfl))

theorem freezeMarks_steady {s₀ s : State} (h : Steady s₀ s) : Steady s₀ (freezeMarks s) := by
  unfold freezeMarks
  repeat' (first
    | with_reducible assumption | with_reducible apply dropHeld_steady | with_reducible apply Steady.foldl
    | with_reducible apply Steady.foldl_fst | with_reducible apply Steady.foldl_snd | intro _ _ _ | intro _ _ | dsimp only
    | fail_if_no_progress (with_reducible refine Steady.upd ?_ rfl))

theorem endSession_steady {s₀ s : State} (h : Steady s₀ s) : Steady s₀ (endSession s) := by
  unfold endSession
  repeat' (first
    | with_reducible assumption | with_reducible apply emit_steady | split | dsimp only
    | fail_if_no_progress (with_reducible refine Steady.upd ?_ rfl))

theorem twilightCmd_steady {s₀ s : State} (h : Steady s₀ s) (id : Nat) : Steady s₀ (twilightCmd s id) := by
  unfold twilightCmd
  repeat' (first
    | with_reducible assumption | with_reducible apply sweepCmd_steady | with_reducible apply failFrom_steady
    | with_reducible apply endWrite_steady | with_reducible apply finishRead_steady | with_reducible apply finishSt_steady | split)

theorem twilightWaits_steady {s₀ s : State} (h : Steady s₀ s) : Steady s₀ (twilightWaits s) := by
  unfold twilightWaits
  repeat' (first
    | with_reducible assumption | with_reducible apply finishId_steady | with_reducible apply Steady.foldl | intro _ _ _
    | fail_if_no_progress (with_reducible refine Steady.upd ?_ rfl))

theorem endPairWrites_steady {s₀ s : State} (h : Steady s₀ s) (st : Nat) : Steady s₀ (endPairWrites s st) := by
  unfold endPairWrites
  repeat' (first | with_reducible assumption | with_reducible apply endWrite_steady | with_reducible apply Steady.foldl | intro _ _ _)

theorem answerOp_steady {s₀ s : State} (h : Steady s₀ s) (st : Nat) : Steady s₀ (answerOp s st) := by
  unfold answerOp
  repeat' (first | with_reducible assumption | split | fail_if_no_progress (with_reducible refine Steady.upd ?_ rfl))

theorem endRejectedOp_steady {s₀ s : State} (h : Steady s₀ s) (rejected : Nat) : Steady s₀ (endRejectedOp s rejected) := by
  unfold endRejectedOp
  repeat' (first | with_reducible assumption | with_reducible apply answerOp_steady | split)

theorem endRejected_steady {s₀ s : State} (h : Steady s₀ s) (rejected : Nat) : Steady s₀ (endRejected s rejected) := by
  unfold endRejected
  repeat' (first
    | with_reducible assumption | with_reducible apply endWrite_steady | with_reducible apply endRejectedOp_steady
    | with_reducible apply Steady.foldl | with_reducible apply Steady.foldl_fst | with_reducible apply Steady.foldl_snd
    | intro _ _ _ | intro _ _ | split | dsimp only | fail_if_no_progress (with_reducible refine Steady.upd ?_ rfl))

theorem sendIdle_steady {s₀ s : State} (h : Steady s₀ s) : Steady s₀ (sendIdle s) := by
  unfold sendIdle
  repeat' (first | with_reducible assumption | with_reducible apply emit_steady | split)

theorem recheckHeads_steady {s₀ s : State} (h : Steady s₀ s) : Steady s₀ (recheckHeads s) := by
  unfold recheckHeads
  repeat' (first
    | with_reducible assumption | with_reducible apply headerFailed_steady | with_reducible apply Steady.foldl
    | with_reducible apply Steady.foldl_fst | with_reducible apply Steady.foldl_snd | intro _ _ _)

theorem ite_steady {s₀ a b : State} {c : Prop} {_ : Decidable c} (ha : Steady s₀ a) (hb : Steady s₀ b) :
    Steady s₀ (if c then a else b) := by
  split <;> assumption

theorem turnHead_steady {s₀ s : State} (h : Steady s₀ s) : Steady s₀ (turnHead s) := by
  unfold turnHead
  split
  · exact ite_steady (aimVerifying_steady (.upd (revCalibrate_steady h _) rfl) _) h
  · exact h

theorem resumeSpan_steady {s₀ s : State} (h : Steady s₀ s) : Steady s₀ (resumeSpan s) := by
  unfold resumeSpan
  split
  · exact ite_steady (startSpan_steady h _ _) h
  · exact h

end Sys2Proof.Proofs
end

section
/-! O24: the safe stop, and the faults that are one (R391 to R395, R426, R437 to R439, R486). -/

namespace Sys2Proof.Proofs

open Sys2Proof Sys2Proof.Machine Sys2Proof.Laws

/-- CE.CAUSE notes causes 1 to 6. -/
def ceCause (s : State) (cause : Nat) : State := if 1 ≤ cause ∧ cause ≤ 6 then { s with ce.cause := cause } else s

/-- It is no part of Nightwatch. -/
theorem ceCause_eq (s : State) (cause : Nat) : ∃ n, ceCause s cause = { s with ce.cause := n } := by
  unfold ceCause
  split <;> exact ⟨_, rfl⟩

/-- Nightwatch takes the reels. -/
def reelsTaken (s : State) (cause : Nat) (a b : Bool) : State :=
  { noteCause s cause a b with
    nw.state := (if cause = 0x11 then 2 else 1), nw.stops := satAdd 65535 s.nw.stops 1, nw.absentSince := false,
    nw.clearOkAt := none, nw.kFull := false, nw.causes := [cause], ce.safe := true,
    ce.sup.realign := s.ce.sup.realign || (cause == 0x10 && a), ce.tkp.realign := s.ce.tkp.realign || (cause == 0x10 && b) }

/-- In WATCH Nightwatch takes the reels; what uses the tape ends, and CE gives up its target. -/
theorem safeStop_watch {s : State} (cause : Nat) (a b : Bool) (hout : s.nw.inReset = false) (hwatch : s.nw.state = 0) :
    ∃ u, Steady (reelsTaken (ceCause s cause) cause a b) u ∧
      safeStop s cause a b = { u with ce.owner := 0, ce.vtarget := 0, ce.posmode := false } := by
  refine ⟨_, endReading_steady (endWriter_steady (setIstat_steady (queueEvent_steady (faultRec_steady (.refl _)
    0x0C false noUnit (causeWord cause a b) 0) evSafeStop 0 0 (evParams [(20, le 4 (causeWord cause a b))])) 1) stMotionFault)
    stMotionFault, ?_⟩
  obtain ⟨n, hcause⟩ := ceCause_eq s cause
  have hout' : ¬ (ceCause s cause).nw.inReset = true := by rw [hcause]; exact ne_true_of_eq_false hout
  have hwatch' : (ceCause s cause).nw.state = 0 := by rw [hcause]; exact hwatch
  exact (if_neg hout').trans ((if_neg fun h => absurd (hwatch'.symm.trans h.1) (by decide)).trans (if_neg fun h => h hwatch'))

/-- In BRAKE the hard limit clamps the reels. -/
theorem safeStop_brake {s : State} (a b : Bool) (hout : s.nw.inReset = false) (hbrake : s.nw.state = 1) :
    safeStop s 0x11 a b = { noteCause s 0x11 a b with nw.state := 2, nw.causes := s.nw.causes ++ [0x11] } :=
  (if_neg (ne_true_of_eq_false hout)).trans (if_pos ⟨hbrake, rfl⟩)

/-- Any other cause outside WATCH leaves Nightwatch as it is. -/
theorem safeStop_idle {s : State} {cause : Nat} (a b : Bool) (hstate : s.nw.state ≠ 0) (hother : cause ≠ 0x11 ∨ s.nw.state ≠ 1) :
    safeStop s cause a b = ceCause s cause := by
  obtain ⟨n, hcause⟩ := ceCause_eq s cause
  have hnw : (ceCause s cause).nw = s.nw := by rw [hcause]
  have hstate' : (ceCause s cause).nw.state ≠ 0 := by rwa [hnw]
  have hother' : ¬ ((ceCause s cause).nw.state = 1 ∧ cause = 0x11) := by rw [hnw]; rintro ⟨h1, h2⟩; omega
  by_cases hin : (ceCause s cause).nw.inReset = true
  · exact if_pos hin
  · exact (if_neg hin).trans ((if_neg hother').trans (if_pos hstate'))

/-- Settles O24: the three cases of `safeStop`, and the faults that are one. -/
theorem safeStops : Obligations.SafeStops := by
  unfold Obligations.SafeStops
  refine ⟨fun s cause a b hout => ⟨fun hwatch => ?watch, fun hbrake => ?brake, fun hstate hother => ?idle⟩,
    fun s => ⟨fun h => congrArg Host.Outcome.next (if_pos h), fun h => congrArg Host.Outcome.next (if_pos h),
      fun h => congrArg Host.Outcome.next (if_pos h), fun h => congrArg Host.Outcome.next (if_pos h),
      fun h => congrArg Host.Outcome.next (if_pos h), rfl, rfl, rfl, rfl, fun h => congrArg Host.Outcome.next (if_pos h)⟩⟩
  case watch =>
    obtain ⟨u, hsteady, hstop⟩ := safeStop_watch cause a b hout hwatch
    obtain ⟨n, hcause⟩ := ceCause_eq s cause
    rw [hcause] at hsteady
    have hsafe : u.ce.safe = true := hsteady.safe
    rw [hstop]
    dsimp only
    rw [hsteady.nw]
    exact ⟨rfl, rfl, rfl, rfl, rfl, rfl, rfl, hsafe⟩
  case brake =>
    rw [safeStop_brake a b hout hbrake]
    exact ⟨rfl, rfl⟩
  case idle =>
    obtain ⟨n, hcause⟩ := ceCause_eq s cause
    rw [safeStop_idle a b hstate hother, hcause]

end Sys2Proof.Proofs
end

section
/-! O17: when start-up begins, and its stages (R514 to R516, R521). -/

namespace Sys2Proof.Proofs

open Sys2Proof Sys2Proof.Machine Sys2Proof.Laws

/-- Start-up begins once nothing holds it. -/
theorem tryStart_of_allowed {s : State} (h : startAllowed s = true) :
    tryStart s = { s with glb.bootAt := some s.now, glb.stage := 0 } := if_pos h

/-- The work of the stage in progress. -/
def stageWork (s : State) (w : StageWorld) : State :=
  match s.glb.stage with
  | 0 => stagePower s w.turning
  | 1 => stageRom s w.boot
  | 2 => stageMemory s w.training
  | 3 => stageSelftest s w
  | _ => stageQe s

/-- A stage that is done is followed by the next one. -/
theorem startupStageDoneS_before_ready {s : State} (hboot : s.glb.bootAt.isSome = true) (hstage : s.glb.stage < 4) (w : StageWorld) :
    startupStageDoneS s w = { stageWork s w with glb.stage := s.glb.stage + 1 } := by
  have hsome : s.glb.bootAt.isNone = false := by simpa using hboot
  unfold startupStageDoneS
  rw [if_neg (by simp [hsome]; omega)]
  exact if_neg (show s.glb.stage + 1 ≠ 5 by omega)

/-- Stage 4 ends READY. -/
theorem startupStageDoneS_ready {s : State} (hboot : s.glb.bootAt.isSome = true) (hstage : s.glb.stage = 4) (w : StageWorld) :
    startupStageDoneS s w = stageReady { stageQe s with glb.stage := 5 } := by
  have hsome : s.glb.bootAt.isNone = false := by simpa using hboot
  unfold startupStageDoneS
  rw [if_neg (by simp [hsome]; omega), hstage]
  exact if_pos rfl

/-! ### Twilight in start-up (R502) -/

/-- The media operation is given up; a library request that asked for it ends. -/
def mediaHalted (s : State) : State :=
  match s.media.op with
  | some (.mount _ (some q) ..) => mediaDone (unlock s) none (some q) stTwilight 0
  | some (.unmount _ (some q) _ _ _) => mediaDone (unlock s) none (some q) stTwilight 0
  | _ => unlock s

theorem mediaHalted_twilight (s : State) : (mediaHalted s).glb.twilight = s.glb.twilight := by
  unfold mediaHalted
  split <;> rfl

/-- The span in the reader is given back. -/
def spanReleased (s : State) : State :=
  match s.rc.span with
  | some sp => releaseAll s sp.bufs clsRcv
  | none => s

theorem spanReleased_steady {s₀ s : State} (h : Steady s₀ s) : Steady s₀ (spanReleased s) := by
  unfold spanReleased
  split
  · exact releaseAll_steady h _ _
  · exact h

/-- The tape stops: what was being written and read is given up. -/
def tapeDark (s : State) : State :=
  endRun (endPass { s with
    fm.recs := [], rc.ladder := none, rc.span := none, rcl.batch := none, rcl.preempt := false, ce.owner := 0, ce.vtarget := 0,
    ce.posmode := false, ce.vafter := 0 })

theorem tapeDark_steady {s₀ s : State} (h : Steady s₀ s) : Steady s₀ (tapeDark s) :=
  endRun_steady (endPass_steady (h.upd rfl))

/-- The commands in flight end, the sealed datasets are dropped, and PF0 is told. -/
def workDark (s : State) (cause : Nat) : State :=
  let s := (s.qe.cmds.map Cmd.id).foldl twilightCmd s
  let s := tapeDark (spanReleased (s.fm.sealed.foldl dropSealed s))
  twilightWaits (setIstat (queueEvent s evTwilight 0 0 (evParams [(20, le 4 cause)])) 0)

theorem workDark_steady (s : State) (cause : Nat) : Steady s (workDark s cause) := by
  have hcmds := Steady.foldl (fun _ h id => twilightCmd_steady h id) (.refl s) (s.qe.cmds.map Cmd.id)
  have hsealed := Steady.foldl (fun _ h d => dropSealed_steady h d) hcmds ((s.qe.cmds.map Cmd.id).foldl twilightCmd s).fm.sealed
  exact twilightWaits_steady (setIstat_steady (queueEvent_steady (tapeDark_steady (spanReleased_steady hsealed)) ..) 0)

/-- Lodestar is held in reset, and its fault recorded. -/
def lodestarDark (s : State) (cause : Nat) : State :=
  { faultRec (endSession { s with glb.twilight := some cause, glb.restarting := none, glb.lsUp := false, glb.setPower := none })
      0x16 true noUnit cause 0 with
    fm.wstate := 6, fm.gate := false, fm.current := none, fi.sessions := [] }

theorem lodestarDark_twilight (s : State) (cause : Nat) : (lodestarDark s cause).glb.twilight = some cause :=
  (faultRec_steady (endSession_steady (.refl _)) 0x16 true noUnit cause 0).twilight

/-- Twilight's parts (R503). -/
theorem enterTwilight_eq {s : State} (hday : s.glb.twilight = none) (cause : Nat) :
    enterTwilight s cause = workDark (mediaHalted (lodestarDark s cause)) cause :=
  if_neg (by simp [hday])

/-- Twilight shows its cause. -/
theorem enterTwilight_cause {s : State} (hday : s.glb.twilight = none) (cause : Nat) :
    (enterTwilight s cause).glb.twilight = some cause := by
  rw [enterTwilight_eq hday]
  calc (workDark (mediaHalted (lodestarDark s cause)) cause).glb.twilight
      = (mediaHalted (lodestarDark s cause)).glb.twilight := (workDark_steady _ cause).twilight
    _ = (lodestarDark s cause).glb.twilight := mediaHalted_twilight _
    _ = some cause := lodestarDark_twilight s cause

/-! ### READY (R521) -/

/-- The stage and the pools are as before. -/
def StageKept (s t : State) : Prop := t.glb.stage = s.glb.stage ∧ t.bpm.pools = s.bpm.pools

theorem fiReset_stageKept (s : State) (pins : BitVec 3) : StageKept s (fiReset s pins) := by
  unfold fiReset
  extract_lets u node v
  split <;> exact ⟨rfl, rfl⟩

theorem judgeCurve_stageKept (s : State) : StageKept s (judgeCurve s) := by
  unfold judgeCurve
  split <;> exact ⟨rfl, rfl⟩

theorem queueEvent_stageKept (s : State) (code scope p : Nat) (ps : List Byte) : StageKept s (queueEvent s code scope p ps) := by
  obtain ⟨qe, out, fi, health, bpm, h⟩ := BuffersMove.of_queueEvent s code scope p ps
  exact ⟨by rw [h], by rw [queueEvent_bpm]⟩

theorem reportFallback_stageKept (s : State) : StageKept s (reportFallback s) := by
  unfold reportFallback
  split
  · exact ⟨rfl, rfl⟩
  · exact queueEvent_stageKept ..

theorem setIstat_stageKept (s : State) (b : Nat) : StageKept s (setIstat s b) :=
  ⟨(setIstat_steady (.refl s) b).stage, by rw [setIstat_eq]⟩

theorem askClear_stageKept (s : State) (startup : Bool) : StageKept s (askClear s startup) := by
  unfold askClear
  extract_lets t
  split
  · exact ⟨congrArg (·.glb.stage) (realignReels_eq s), congrArg (·.bpm.pools) (realignReels_eq s)⟩
  · exact ⟨rfl, rfl⟩

theorem StageKept.trans {s t u : State} (hst : StageKept s t) (htu : StageKept t u) : StageKept s u :=
  ⟨htu.1.trans hst.1, htu.2.trans hst.2⟩

/-- The cause of the reset is shown, and FI starts. -/
def readyStart (s : State) : State :=
  fiReset { s with glb.rstCause := (s.glb.rstCause &&& 0x18) ||| bootBits s.glb.bootCause } s.fi.nodePins

theorem stageReady_stageKept (s : State) : StageKept s (stageReady s) := by
  have hfi : StageKept s (readyStart s) := fiReset_stageKept _ _
  change StageKept s (if (readyStart s).glb.twilight.isSome then readyStart s
    else askClear (reportFallback (setIstat (judgeCurve { readyStart s with glb.lsUp := true }) 3)) true)
  split
  · exact hfi
  · have hup : StageKept (readyStart s) { readyStart s with glb.lsUp := true } := ⟨rfl, rfl⟩
    exact hfi.trans (hup.trans ((judgeCurve_stageKept _).trans ((setIstat_stageKept _ 3).trans
      ((reportFallback_stageKept _).trans (askClear_stageKept _ true)))))

theorem stageQe_pools (s : State) : (stageQe s).bpm.pools = defaultPools := by
  unfold stageQe
  extract_lets u
  split
  · unfold readSubsystem
    split <;> rfl
  · rfl

/-- Settles O17: what holds start-up back is checked in one place, and each stage's work leaves the count of stages to the end of it. -/
theorem startUp : Obligations.StartUp := by
  unfold Obligations.StartUp
  refine ⟨fun s htest hreel hboot => ⟨fun pins hvin hreset htrip => ?_, fun hvin hreset htrip => ?_,
    fun a b ha hb hvin hreset htrip => ?_⟩, fun s w hboot => ⟨fun hstage => ?_, fun hstage hturn => ?_, fun hstage hturn => ?_,
    fun hstage htrain hday => ?_, fun hstage => ?_⟩⟩
  · exact congrArg Host.Outcome.next ((if_neg (ne_true_of_eq_false hreset)).trans
      (tryStart_of_allowed (by simp [startAllowed, hvin, htest, htrip, hreel, hboot])))
  · exact congrArg Host.Outcome.next ((if_neg (ne_true_of_eq_false hvin)).trans
      (tryStart_of_allowed (by simp [startAllowed, hreset, htest, htrip, hreel, hboot])))
  · refine ⟨_, congrArg Host.Outcome.next ((if_pos ⟨htrip, ha, hb⟩).trans
      (tryStart_of_allowed (by simp [startAllowed, noteTemp, hvin, hreset, htest, hreel, hboot]))), rfl, rfl, rfl⟩
  · exact ⟨_, congrArg Host.Outcome.next (startupStageDoneS_before_ready hboot hstage w), rfl⟩
  · refine ⟨_, congrArg Host.Outcome.next (startupStageDoneS_before_ready hboot (by omega) w), ?_⟩
    simp [stageWork, hstage, stagePower, hturn]
  · refine ⟨_, congrArg Host.Outcome.next (startupStageDoneS_before_ready hboot (by omega) w), ?_⟩
    simp [stageWork, hstage, stagePower, hturn]
  · refine ⟨_, congrArg Host.Outcome.next (startupStageDoneS_before_ready hboot (by omega) w), ?_⟩
    simpa [stageWork, hstage, stageMemory, htrain] using enterTwilight_cause hday 3
  · obtain ⟨hkept, hpools⟩ := stageReady_stageKept { stageQe s with glb.stage := 5 }
    exact ⟨_, congrArg Host.Outcome.next (startupStageDoneS_ready hboot hstage w), hkept, hpools.trans (stageQe_pools s)⟩

end Sys2Proof.Proofs
end

section
/-! O27: a base period counts, and the hard limit clamps the reels (R382, R384, R434). -/

namespace Sys2Proof.Proofs

open Sys2Proof Sys2Proof.Machine Sys2Proof.Laws

/-- From s₀ to s Nightwatch's state and limit, the counts of periods and the media operation are as they were. The lemmas `f_periodKept`
below say so of each slot f of a period. -/
structure PeriodKept (s₀ s : State) : Prop where
  kept :
    (s.nw.state, s.nw.inReset, s.nw.hardLimit, s.ce.period, s.ce.ovr, s.media.op) =
    (s₀.nw.state, s₀.nw.inReset, s₀.nw.hardLimit, s₀.ce.period, s₀.ce.ovr, s₀.media.op)

/-- A record update of the other fields keeps them. -/
theorem PeriodKept.upd {s₀ s : State} (h : PeriodKept s₀ s)
    {free out glb qe bpm cx tg fm rc sv rcl ce ps nw media od flash mt fi pl ls fw health}
    (hkept : (Nw.state nw, Nw.inReset nw, Nw.hardLimit nw, Ce.period ce, Ce.ovr ce, Media.op media) =
      (s.nw.state, s.nw.inReset, s.nw.hardLimit, s.ce.period, s.ce.ovr, s.media.op)) :
    PeriodKept s₀ ⟨s.pending, s.now, free, out, glb, qe, bpm, cx, tg, fm, rc, sv, rcl, ce, ps, nw, media, od, flash, mt, fi, pl, ls, fw, health⟩ :=
  ⟨hkept.trans h.kept⟩

theorem PeriodKept.foldl {α : Type} {s₀ s : State} {f : State → α → State} (hf : ∀ t, PeriodKept s₀ t → ∀ x, PeriodKept s₀ (f t x))
    (h : PeriodKept s₀ s) (l : List α) : PeriodKept s₀ (l.foldl f s) := by
  induction l generalizing s with
  | nil => exact h
  | cons x l ih => exact ih (hf s h x)

theorem freshFree_periodKept {s₀ s : State} (h : PeriodKept s₀ s) : PeriodKept s₀ (freshFree s).2 := by
  unfold freshFree
  repeat' (first | with_reducible assumption | fail_if_no_progress (with_reducible refine PeriodKept.upd ?_ rfl))

theorem servoOff_periodKept {s₀ s : State} (h : PeriodKept s₀ s) : PeriodKept s₀ (servoOff s) := by
  unfold servoOff
  repeat' (first | with_reducible assumption | fail_if_no_progress (with_reducible refine PeriodKept.upd ?_ rfl))

theorem modLane_periodKept {s₀ s : State} (h : PeriodKept s₀ s) (l : Nat) (f : Lane → Lane) : PeriodKept s₀ (modLane s l f) := by
  unfold modLane
  repeat' (first | with_reducible assumption | fail_if_no_progress (with_reducible refine PeriodKept.upd ?_ rfl))

theorem modReel_periodKept {s₀ s : State} (h : PeriodKept s₀ s) (r : Reel) (f : ReelState → ReelState) : PeriodKept s₀ (modReel s r f) := by
  unfold modReel
  repeat' (first | with_reducible assumption | split | fail_if_no_progress (with_reducible refine PeriodKept.upd ?_ rfl))

theorem satFlag_periodKept {s₀ s : State} (h : PeriodKept s₀ s) (b : Nat) (c : Bool) : PeriodKept s₀ (satFlag s b c) := by
  unfold satFlag
  repeat' (first | with_reducible assumption | split | fail_if_no_progress (with_reducible refine PeriodKept.upd ?_ rfl))

theorem rampTick_periodKept {s₀ s : State} (h : PeriodKept s₀ s) : PeriodKept s₀ (rampTick s) := by
  unfold rampTick
  repeat' (first
    | with_reducible assumption | with_reducible apply satFlag_periodKept | split | dsimp only
    | fail_if_no_progress (with_reducible refine PeriodKept.upd ?_ rfl))

theorem lanesSeek_periodKept {s₀ s : State} (h : PeriodKept s₀ s) : PeriodKept s₀ (lanesSeek s) := by
  unfold lanesSeek
  repeat' (first
    | with_reducible assumption | with_reducible apply modLane_periodKept | with_reducible apply PeriodKept.foldl
    | with_reducible apply PeriodKept.foldl_fst | with_reducible apply PeriodKept.foldl_snd | intro _ _ _ | intro _ _ | split)

theorem stopReached_periodKept {s₀ s : State} (h : PeriodKept s₀ s) : PeriodKept s₀ (stopReached s) := by
  unfold stopReached
  repeat' (first
    | with_reducible assumption | with_reducible apply servoOff_periodKept | with_reducible apply lanesSeek_periodKept | split
    | dsimp only | fail_if_no_progress (with_reducible refine PeriodKept.upd ?_ rfl))

theorem tensionRef_periodKept {s₀ s : State} (h : PeriodKept s₀ s) : PeriodKept s₀ (tensionRef s) := by
  unfold tensionRef
  repeat' (first | with_reducible assumption | split | fail_if_no_progress (with_reducible refine PeriodKept.upd ?_ rfl))

theorem modelSlot_periodKept {s₀ s : State} (h : PeriodKept s₀ s) : PeriodKept s₀ (modelSlot s) := by
  unfold modelSlot
  repeat' (first
    | with_reducible assumption | with_reducible apply satFlag_periodKept | split | dsimp only
    | fail_if_no_progress (with_reducible refine PeriodKept.upd ?_ rfl))

theorem stillTape_periodKept {s₀ s : State} (was : State) (h : PeriodKept s₀ s) : PeriodKept s₀ (stillTape was s) := by
  unfold stillTape
  repeat' (first | with_reducible assumption | with_reducible apply servoOff_periodKept | split)

/-- The reels' own state is no part of them. -/
theorem PeriodKept.reels {s₀ s : State} (h : PeriodKept s₀ s) (a b : ReelState) : PeriodKept s₀ { s with ce.sup := a, ce.tkp := b } :=
  h.upd rfl

theorem loopSlot_periodKept {s₀ s : State} (h : PeriodKept s₀ s) : PeriodKept s₀ (loopSlot s) := by
  have href : PeriodKept s₀ (tensionRef (stopReached (stillTape s (rampTick s)))) :=
    tensionRef_periodKept (stopReached_periodKept (stillTape_periodKept _ (rampTick_periodKept h)))
  unfold loopSlot
  extract_lets r hold2 holdV eT eV t fc v src u a b w
  have hr : PeriodKept s₀ r := href
  have hu : PeriodKept s₀ u := hr.upd rfl
  have hw : PeriodKept s₀ w := satFlag_periodKept (satFlag_periodKept (satFlag_periodKept (satFlag_periodKept hu ..) ..) ..) ..
  clear_value w
  exact hw.reels _ _

theorem actProfile_periodKept {s₀ s : State} (h : PeriodKept s₀ s) (target : Int) : PeriodKept s₀ (actProfile s target) := by
  unfold actProfile
  repeat' (first | with_reducible assumption | split | dsimp only | fail_if_no_progress (with_reducible refine PeriodKept.upd ?_ rfl))

theorem stepperSlot_periodKept {s₀ s : State} (h : PeriodKept s₀ s) : PeriodKept s₀ (stepperSlot s) := by
  unfold stepperSlot
  repeat' (first | with_reducible assumption | dsimp only | fail_if_no_progress (with_reducible refine PeriodKept.upd ?_ rfl))

theorem actuatorSlot_periodKept {s₀ s : State} (h : PeriodKept s₀ s) : PeriodKept s₀ (actuatorSlot s) := by
  unfold actuatorSlot
  repeat' (first
    | with_reducible assumption | with_reducible apply stepperSlot_periodKept | with_reducible apply actProfile_periodKept
    | with_reducible apply satFlag_periodKept | split | dsimp only | fail_if_no_progress (with_reducible refine PeriodKept.upd ?_ rfl))

theorem zvLaw_periodKept {s₀ s : State} (h : PeriodKept s₀ s) : PeriodKept s₀ (zvLaw s) := by
  unfold zvLaw
  repeat' (first
    | with_reducible assumption | split | dsimp only | fail_if_no_progress (with_reducible refine PeriodKept.upd ?_ rfl))

theorem busVoltage_periodKept {s₀ s : State} (h : PeriodKept s₀ s) (x : CeSample) : PeriodKept s₀ (busVoltage s x) := by
  unfold busVoltage
  repeat' (first
    | with_reducible assumption | with_reducible apply zvLaw_periodKept | split | dsimp only
    | fail_if_no_progress (with_reducible refine PeriodKept.upd ?_ rfl))

theorem brakeFractions_periodKept {s₀ s : State} (h : PeriodKept s₀ s) (x : CeSample) : PeriodKept s₀ (brakeFractions s x) := by
  unfold brakeFractions
  extract_lets est src s1 srcS full supplyFault leavesS fixed e k ks kt f u
  have h1 : PeriodKept s₀ s1 := PeriodKept.upd h rfl
  have hf : PeriodKept s₀ f.2 := freshFree_periodKept (PeriodKept.upd h1 rfl)
  split
  · exact PeriodKept.upd h1 rfl
  · exact PeriodKept.upd hf rfl

theorem writerAtRest_periodKept {s₀ s : State} (h : PeriodKept s₀ s) : PeriodKept s₀ (writerAtRest s) := by
  unfold writerAtRest
  repeat' (first | with_reducible assumption | split | fail_if_no_progress (with_reducible refine PeriodKept.upd ?_ rfl))

theorem reelPeriod_periodKept {s₀ s : State} (h : PeriodKept s₀ s) (k : Reel) (x : ReelSample) (dist : Int) (vmot flag : Nat) :
    PeriodKept s₀ (reelPeriod s k x dist vmot flag) := by
  unfold reelPeriod
  repeat' (first
    | with_reducible assumption | with_reducible apply satFlag_periodKept | with_reducible apply modReel_periodKept | split
    | fail_if_no_progress (with_reducible refine PeriodKept.upd ?_ rfl))

theorem tachPeriod_periodKept {s₀ s : State} (h : PeriodKept s₀ s) (x : CeSample) : PeriodKept s₀ (tachPeriod s x) := by
  unfold tachPeriod
  repeat' (first | with_reducible assumption | fail_if_no_progress (with_reducible refine PeriodKept.upd ?_ rfl))

theorem stillPeriod_periodKept {s₀ s : State} (h : PeriodKept s₀ s) (x : CeSample) : PeriodKept s₀ (stillPeriod s x) := by
  unfold stillPeriod
  repeat' (first
    | with_reducible assumption | split | dsimp only | fail_if_no_progress (with_reducible refine PeriodKept.upd ?_ rfl))

theorem setDrives_periodKept {s₀ s : State} (h : PeriodKept s₀ s) : PeriodKept s₀ (setDrives s) := by
  unfold setDrives
  repeat' (first | with_reducible assumption | dsimp only | fail_if_no_progress (with_reducible refine PeriodKept.upd ?_ rfl))

/-! ### Safe stops within a period -/

/-- The counts, the media operation and what Nightwatch's limit rests on are as they were; its state may have moved. -/
structure CountKept (s t : State) : Prop where
  period : t.ce.period = s.ce.period
  ovr : t.ce.ovr = s.ce.ovr
  mediaOp : t.media.op = s.media.op
  inReset : t.nw.inReset = s.nw.inReset
  hardLimit : t.nw.hardLimit = s.nw.hardLimit

theorem CountKept.trans {s t u : State} (hst : CountKept s t) (htu : CountKept t u) : CountKept s u :=
  ⟨htu.period.trans hst.period, htu.ovr.trans hst.ovr, htu.mediaOp.trans hst.mediaOp, htu.inReset.trans hst.inReset,
    htu.hardLimit.trans hst.hardLimit⟩

theorem PeriodKept.countKept {s t : State} (h : PeriodKept s t) : CountKept s t := by
  obtain ⟨hkept⟩ := h
  simp only [Prod.mk.injEq] at hkept
  obtain ⟨-, hreset, hlimit, hperiod, hovr, hop⟩ := hkept
  exact ⟨hperiod, hovr, hop, hreset, hlimit⟩

theorem PeriodKept.nwState {s t : State} (h : PeriodKept s t) : t.nw.state = s.nw.state := congrArg Prod.fst h.kept

theorem Steady.countKept {s t : State} (h : Steady s t) : CountKept s t :=
  ⟨h.period, h.ovr, h.mediaOp, congrArg (·.inReset) h.nw, congrArg (·.hardLimit) h.nw⟩

/-- A Nightwatch in reset takes no cause. -/
theorem safeStop_inReset {s : State} (cause : Nat) (a b : Bool) (hin : s.nw.inReset = true) : safeStop s cause a b = ceCause s cause := by
  obtain ⟨n, hcause⟩ := ceCause_eq s cause
  exact if_pos (show (ceCause s cause).nw.inReset = true by rw [hcause]; exact hin)

theorem safeStop_countKept (s : State) (cause : Nat) (a b : Bool) : CountKept s (safeStop s cause a b) := by
  obtain ⟨n, hcause⟩ := ceCause_eq s cause
  have hnoted : CountKept s (ceCause s cause) := by rw [hcause]; exact ⟨rfl, rfl, rfl, rfl, rfl⟩
  by_cases hin : s.nw.inReset = true
  · rwa [safeStop_inReset cause a b hin]
  by_cases hwatch : s.nw.state = 0
  · obtain ⟨u, hsteady, hstop⟩ := safeStop_watch cause a b (by simpa using hin) hwatch
    have hkept := hsteady.countKept
    rw [hcause] at hkept
    rw [hstop]
    exact ⟨hkept.period, hkept.ovr, hkept.mediaOp, hkept.inReset, hkept.hardLimit⟩
  by_cases hclamp : cause = 0x11 ∧ s.nw.state = 1
  · obtain ⟨rfl, hbrake⟩ := hclamp
    rw [safeStop_brake a b (by simpa using hin) hbrake]
    exact ⟨rfl, rfl, rfl, rfl, rfl⟩
  · rwa [safeStop_idle a b hwatch (by omega)]

/-- A cause other than the hard limit has the reels braked, unless they are clamped. -/
theorem safeStop_brakes {s : State} {cause : Nat} (a b : Bool) (hout : s.nw.inReset = false) (hstate : s.nw.state ≤ 1)
    (hother : cause ≠ 0x11) : (safeStop s cause a b).nw.state = 1 := by
  obtain ⟨n, hcause⟩ := ceCause_eq s cause
  by_cases hwatch : s.nw.state = 0
  · obtain ⟨u, hsteady, hstop⟩ := safeStop_watch cause a b hout hwatch
    rw [hstop]
    exact (congrArg (·.state) hsteady.nw).trans (if_neg hother)
  · rw [safeStop_idle a b hwatch (.inl hother), hcause]
    exact show s.nw.state = 1 by omega

/-- The hard limit clamps them. -/
theorem safeStop_clamps {s : State} (a b : Bool) (hout : s.nw.inReset = false) (hstate : s.nw.state ≤ 1) :
    (safeStop s 0x11 a b).nw.state = 2 := by
  by_cases hwatch : s.nw.state = 0
  · obtain ⟨u, hsteady, hstop⟩ := safeStop_watch 0x11 a b hout hwatch
    rw [hstop]
    exact congrArg (·.state) hsteady.nw
  · rw [safeStop_brake a b hout (by omega)]

/-! ### The period -/

/-- The slots of a period. -/
def slotsRun (s : State) (x : CeSample) : State :=
  let n := s.ce.period.toNat
  let dist := tachDist s x
  let s := busVoltage (tachPeriod (stillPeriod s x) x) x
  let s := reelPeriod (reelPeriod s .supply x.s dist x.vmotMv 0) .takeup x.t dist x.vmotMv 1
  let s := if n % 4 = 0 then brakeFractions (loopSlot (modelSlot s)) x else s
  if n % 2 = 1 then actuatorSlot s else s

theorem slotsRun_periodKept (s : State) (x : CeSample) : PeriodKept s (slotsRun s x) := by
  have hreels : PeriodKept s (reelPeriod (reelPeriod (busVoltage (tachPeriod (stillPeriod s x) x) x) .supply x.s (tachDist s x) x.vmotMv 0)
      .takeup x.t (tachDist s x) x.vmotMv 1) :=
    reelPeriod_periodKept (reelPeriod_periodKept (busVoltage_periodKept (tachPeriod_periodKept (stillPeriod_periodKept ⟨rfl⟩ x) x) x) ..) ..
  unfold slotsRun
  extract_lets n dist u v w
  have hslot : PeriodKept s w := by
    unfold w
    split
    · exact brakeFractions_periodKept (loopSlot_periodKept (modelSlot_periodKept hreels)) x
    · exact hreels
  split
  · exact actuatorSlot_periodKept hslot
  · exact hslot

/-- A late period is recorded, and the third in a row is a safe stop. -/
def overrunStop (s : State) (x : CeSample) : State :=
  let s := if x.late then faultRec s 0x0B false noUnit 0 0 else s
  if s.ce.ovrRun ≥ 2 then safeStop s 5 false false else s

/-- The parts of a period that CE runs. -/
theorem basePeriodS_eq {s : State} (hruns : ceRuns s = true) (x : CeSample) :
    basePeriodS s x =
      writerAtRest (setDrives (nightwatchPeriod (overrunStop (latch (slotsRun s x) x s.ce.actOut) x) x)) :=
  if_neg (by simp [hruns])

theorem overrunStop_kept (s : State) (x : CeSample) : CountKept s (overrunStop s x) ∧
    (s.nw.inReset = false → s.nw.state ≤ 1 → (overrunStop s x).nw.state ≤ 1) := by
  let u : State := if x.late then faultRec s 0x0B false noUnit 0 0 else s
  have hu : Steady s u := by
    unfold u
    split
    · exact faultRec_steady (.refl s) ..
    · exact .refl s
  change CountKept s (if u.ce.ovrRun ≥ 2 then safeStop u 5 false false else u) ∧
    (_ → _ → (if u.ce.ovrRun ≥ 2 then safeStop u 5 false false else u).nw.state ≤ 1)
  split
  · refine ⟨hu.countKept.trans (safeStop_countKept u 5 false false), fun hout hstate => ?_⟩
    exact (safeStop_brakes false false (by rwa [hu.nw]) (by rwa [hu.nw]) (by decide)).le
  · exact ⟨hu.countKept, fun _ hstate => by rwa [hu.nw]⟩

/-- Nightwatch's own two causes: an angle that is lost, and the hard limit. -/
theorem nightwatchPeriod_kept (s : State) (x : CeSample) : CountKept s (nightwatchPeriod s x) ∧
    (s.nw.inReset = false → s.nw.state ≤ 1 → s.nw.hardLimit < x.vmotMv → (nightwatchPeriod s x).nw.state = 2) := by
  unfold nightwatchPeriod
  extract_lets bad t src srcS srcT u
  have hu : CountKept s u ∧ (s.nw.inReset = false → s.nw.state ≤ 1 → u.nw.state ≤ 1) := by
    unfold u
    split
    · have hstop := safeStop_countKept s 0x10 (bad s.ce.sup) (bad s.ce.tkp)
      exact ⟨⟨hstop.period, hstop.ovr, hstop.mediaOp, hstop.inReset, hstop.hardLimit⟩,
        fun hout hstate => (safeStop_brakes _ _ hout hstate (by decide)).le⟩
    · exact ⟨⟨rfl, rfl, rfl, rfl, rfl⟩, fun _ hstate => hstate⟩
  obtain ⟨hkept, hstate⟩ := hu
  split
  · exact ⟨hkept.trans (safeStop_countKept u 0x11 false false),
      fun hout hle _ => safeStop_clamps false false (hkept.inReset.trans hout) (hstate hout hle)⟩
  · next hlow => exact ⟨hkept, fun _ _ hlimit => absurd (by rwa [hkept.hardLimit]) hlow⟩

/-- With no media operation, what waits is looked at without one. -/
theorem lookAround_steady {s : State} (hop : s.media.op = none) : Steady s (lookAround s) := by
  let t := turnHead (repeatLocate s)
  let u := if t.fm.wstate = 0 ∨ t.fm.wstate = 5 then endClosing t else t
  have ht : Steady s t := turnHead_steady (repeatLocate_steady (.refl s))
  have hu : Steady s u := by
    unfold u
    split
    · exact endClosing_steady ht
    · exact ht
  have hmedia : advanceMedia u = u := by
    unfold advanceMedia
    rw [hu.mediaOp, hop]
    split <;> rfl
  change Steady s (let v := recheckHeads (resumeSpan (advanceMedia u)); retryHeld v.qe.cmds.length v)
  rw [hmedia]
  exact retryHeld_steady (recheckHeads_steady (resumeSpan_steady hu)) _

/-- Settles O27: the slots leave the counts to the latch, and of what follows it only the stops move Nightwatch. -/
theorem basePeriodCounts : Obligations.BasePeriodCounts := by
  unfold Obligations.BasePeriodCounts
  intro s x hboot hstage hop
  have hruns : ceRuns s = true := by simp [ceRuns, hboot, hstage]
  let slots := slotsRun s x
  let l := latch slots x s.ce.actOut
  have hslots : PeriodKept s slots := slotsRun_periodKept s x
  obtain ⟨hover, hoverState⟩ := overrunStop_kept l x
  obtain ⟨hnight, hnightState⟩ := nightwatchPeriod_kept (overrunStop l x) x
  have hrest : PeriodKept (nightwatchPeriod (overrunStop l x) x) (basePeriodS s x) := by
    rw [basePeriodS_eq hruns]
    exact writerAtRest_periodKept (setDrives_periodKept ⟨rfl⟩)
  have hcount : CountKept l (basePeriodS s x) := hover.trans (hnight.trans hrest.countKept)
  have hlook : Steady (basePeriodS s x) (lookAround (basePeriodS s x)) :=
    lookAround_steady (hcount.mediaOp.trans (hslots.countKept.mediaOp.trans hop))
  refine ⟨_, rfl, ?_, ?_, fun hout hstate hlimit => ?_⟩
  · rw [hlook.period, hcount.period]
    exact congrArg (· + 1) hslots.countKept.period
  · rw [hlook.ovr, hcount.ovr]
    change (if x.late then satAdd 65535 slots.ce.ovr 1 else slots.ce.ovr) = _
    rw [hslots.countKept.ovr]
    rfl
  · have hout' : l.nw.inReset = false := hslots.countKept.inReset.trans hout
    have hstate' : l.nw.state ≤ 1 := by rw [show l.nw.state = s.nw.state from hslots.nwState]; exact hstate
    have hlimit' : (overrunStop l x).nw.hardLimit = s.nw.hardLimit := hover.hardLimit.trans hslots.countKept.hardLimit
    rw [hlook.nw, hrest.nwState]
    exact hnightState (hover.inReset.trans hout') (hoverState hout' hstate') (by rwa [hlimit'])

end Sys2Proof.Proofs
end

section
/-! O58: images, the staging slot and the scheduled activation (R532 to R543). -/

namespace Sys2Proof.Proofs

open Sys2Proof Sys2Proof.Machine Sys2Proof.Laws

/-! ### *Activation time* -/

/-- The entry is one of the persistent settings: a write of it shows at once, and besides moves the settings banks alone. -/
theorem putTime_eq (s : State) (v : Nat) :
    ∃ od b₀ b₁, putTime s v = { s with od := od, flash.bank0 := b₀, flash.bank1 := b₁ } := by
  unfold putTime
  split
  · unfold odPut setBank
    extract_lets key u b f
    split
    · split <;> exact ⟨_, _, _, rfl⟩
    · exact ⟨_, _, _, rfl⟩
  · exact ⟨_, _, _, rfl⟩

theorem setN_putTime (s : State) {v : Nat} (hv : v < 2 ^ 64) : setN (putTime s v) 0x5013 1 = v := by
  have hfind : (odFind 0x5013 1).isSome = true := by decide
  obtain ⟨e, he⟩ := Option.isSome_iff_exists.mp hfind
  have hput : putTime s v = odPut s 0x5013 1 e (le 8 v) := by
    unfold putTime
    rw [he]
  rw [setN, hput, odVal_odPut_same he, unle_le]
  exact Nat.mod_eq_of_lt hv

theorem setN_od {s t : State} (h : t.od = s.od) (i j : Nat) : setN t i j = setN s i j := by
  rw [setN, odVal, h]
  rfl

/-! ### The staging slot -/

theorem queueEvent_fw (s : State) (code scope p : Nat) (ps : List Byte) : (queueEvent s code scope p ps).fw = s.fw := by
  obtain ⟨_, _, _, _, _, h⟩ := BuffersMove.of_queueEvent s code scope p ps
  rw [h]

theorem queueEvent_od (s : State) (code scope p : Nat) (ps : List Byte) : (queueEvent s code scope p ps).od = s.od := by
  obtain ⟨_, _, _, _, _, h⟩ := BuffersMove.of_queueEvent s code scope p ps
  rw [h]

/-- An empty slot takes the image. -/
theorem claimSlot_free {s : State} (hfree : s.fw.slot = 0) (k : Nat) (bs : List Byte) :
    (claimSlot s k bs).2 = .ok ∧
      (claimSlot s k bs).1.fw = { s.fw with slot := 1, source := k, digest := imageDigest bs, image := bs } := by
  unfold claimSlot
  rw [if_neg (by simp [hfree])]
  exact ⟨rfl, queueEvent_fw ..⟩

/-- The boot slots are two. -/
theorem bootSlot_modBoot_same (s : State) (b : Bool) (f : Slot → Slot) : bootSlot (modBoot s b f) b = f (bootSlot s b) := by
  cases b <;> rfl

theorem bootSlot_modBoot_other (s : State) (b : Bool) (f : Slot → Slot) : bootSlot (modBoot s (!b) f) b = bootSlot s b := by
  cases b <;> rfl

/-- A staged image is cancelled. -/
theorem cancelOp_open {s : State} (hopen : sessionOpen s = true) (hnot : s.fw.slot ≠ 3) :
    ∃ u, (cancelOp s).1 = putTime u noTime ∧ u.fw.slot = 0 ∧
      (s.fw.slot = 2 → (bootSlot u (!s.flash.runB)).valid = false) := by
  unfold cancelOp
  rw [if_neg (by simp [hopen]), if_neg hnot]
  by_cases hempty : s.fw.slot = 0
  · exact ⟨s, by rw [if_pos hempty], hempty, by omega⟩
  rw [if_neg hempty]
  by_cases hstaged : s.fw.slot = 2
  · rw [if_pos hstaged]
    refine ⟨_, rfl, rfl, fun _ => ?_⟩
    exact congrArg Slot.valid (bootSlot_modBoot_same s (!s.flash.runB) fun x => { x with valid := false, image := [] })
  · rw [if_neg hstaged]
    exact ⟨_, rfl, rfl, fun h => absurd h hstaged⟩

theorem sendImages_steady {s₀ s : State} (h : Steady s₀ s) (ps : List (List Byte)) : Steady s₀ (sendImages s ps) :=
  pumpLink_steady (h.upd rfl)

/-! ### The activation -/

theorem abortUsdo_steady {s₀ s : State} (h : Steady s₀ s) (abort : Nat) : Steady s₀ (abortUsdo s abort) :=
  Steady.foldl (fun _ ht _ => emit_steady ht _) (h.upd rfl) _

theorem cutPass_steady {s₀ s : State} (h : Steady s₀ s) : Steady s₀ (cutPass s) := (endPass_steady h).upd rfl

/-- A restart takes Lodestar down, and leaves the staging slot, the trial and the count of restarts. -/
theorem beginRestart_steady (s : State) : Steady { s with glb.restarting := some s.now, glb.lsUp := false } (beginRestart s) := by
  unfold beginRestart
  extract_lets src t u srcW v w
  have hu : Steady { s with glb.restarting := some s.now, glb.lsUp := false } u :=
    abortUsdo_steady (endSession_steady (setIstat_steady (.refl _) 2)) 0x08000022
  have hv : Steady { s with glb.restarting := some s.now, glb.lsUp := false } v := by
    unfold v
    split
    · exact hu.upd rfl
    · split
      · exact hu.upd rfl
      · exact hu
  have hw : Steady { s with glb.restarting := some s.now, glb.lsUp := false } w := keepRun_steady hv []
  split
  · exact hw
  · split
    · exact hw.upd rfl
    · exact cutPass_steady hw

/-- A window that passes is skipped, or waited for longer. -/
theorem graceWindowExpiry_skips {s : State} (hls : lsServes s = true) {h : Nat} (hhold : s.fw.holdAt = some h)
    (hover : elapsed s h (setN s 0x5013 3) = true) :
    ∃ t, exec .graceWindowExpiry s = .next t ∧ t.fw.holdAt = none ∧
      (setN s 0x5013 2 = 0 → setN t 0x5013 1 = 2 ^ 64 - 1) ∧ (setN s 0x5013 2 ≠ 0 → t.fw.lenient = true) := by
  let u : State := { s with fw.holdAt := none }
  have hexec : exec .graceWindowExpiry s = .next (if setN u 0x5013 2 = 0
      then queueEvent (putTime u noTime) evSkipped 0 0 (evParams [(20, le 1 0)])
      else queueEvent { u with fw.lenient := true } evSkipped 0 0 (evParams [(20, le 1 1)])) := by
    change Host.Outcome.next (match s.fw.holdAt with | some t => _ | none => _) = _
    rw [hhold]
    exact congrArg Host.Outcome.next (if_pos (by simp [hls, hover]))
  by_cases hskip : setN s 0x5013 2 = 0
  · obtain ⟨od, b₀, b₁, hput⟩ := putTime_eq u noTime
    refine ⟨_, hexec.trans (congrArg Host.Outcome.next (if_pos hskip)), ?_, fun _ => ?_, fun h => absurd hskip h⟩
    · rw [queueEvent_fw, hput]
    · rw [setN_od (queueEvent_od ..)]
      exact setN_putTime u (by decide)
  · refine ⟨_, hexec.trans (congrArg Host.Outcome.next (if_neg hskip)), ?_, fun h => absurd h hskip, fun _ => ?_⟩
    · rw [queueEvent_fw]
    · rw [queueEvent_fw]

/-- Settles O58: each operation's one branch, with what *Activation time*, an event, the link and the restart leave of the slot. -/
theorem firmwareStaged : Obligations.FirmwareStaged := by
  unfold Obligations.FirmwareStaged
  refine ⟨fun s k bs => ⟨fun hfree => ?free, fun hheld hdiff => ?held⟩, fun s hls => ⟨fun bs hopen hlen => ?download,
    fun hdone => ?usb, fun hdone => ?peer, fun hslot => ?written, fun a hopen hslot => ⟨fun hdown => ?down, fun hup h1 h5 => ?up⟩,
    fun hopen hnot => ?cancel⟩, fun s hls => ⟨fun p ns hopen hslot => ?time, fun harmed hnone hstrict hdue => ?instant,
    fun h harmed hhold hwin hquiet => ?point, fun h hhold hover => ?grace⟩⟩
  case free =>
    obtain ⟨hout, hfw⟩ := claimSlot_free hfree k bs
    rw [hfw]
    exact ⟨hout, rfl, rfl, rfl, rfl⟩
  case held => exact (if_pos hheld).trans (if_neg hdiff)
  case download =>
    refine congrArg Host.Outcome.next ((if_pos hls).trans (congrArg Prod.fst ((if_neg ?_).trans (if_neg (by omega)))))
    rintro (h | h)
    · exact h rfl
    · exact absurd hopen (by simpa [sessionOpen, seeVbus] using h)
  case usb => exact congrArg Host.Outcome.next ((if_neg (by simp [hls])).trans (if_pos ⟨rfl, hdone⟩))
  case peer =>
    exact congrArg Host.Outcome.next ((if_neg (by simp [hls])).trans ((if_neg (by simp)).trans (if_pos ⟨rfl, hdone⟩)))
  case written =>
    refine ⟨_, congrArg Host.Outcome.next (if_pos ⟨hslot, hls⟩), rfl, ?_, ?_⟩
    · exact bootSlot_modBoot_same s (!s.flash.runB) _
    · exact bootSlot_modBoot_other s s.flash.runB _
  case down =>
    exact congrArg Host.Outcome.next ((if_pos hls).trans (congrArg Prod.fst ((if_neg (by simp [hopen])).trans
      ((if_neg (by simp [hslot])).trans (if_pos (by simp [hdown]))))))
  case up =>
    refine ⟨_, congrArg Host.Outcome.next ((if_pos hls).trans (congrArg Prod.fst ((if_neg (by simp [hopen])).trans
      ((if_neg (by simp [hslot])).trans (if_neg (by simp [hup])))))), if_pos ⟨h1, h5⟩, ?_⟩
    exact (sendImages_steady (.refl s) _).slot.trans hslot
  case cancel =>
    obtain ⟨u, hcancel, hslot, hvalid⟩ := cancelOp_open hopen hnot
    obtain ⟨od, b₀, b₁, hput⟩ := putTime_eq u noTime
    refine ⟨_, congrArg Host.Outcome.next ((if_pos hls).trans hcancel), ?_, setN_putTime u (by decide), fun h => ?_⟩
    · rw [hput]
      exact hslot
    · rw [hput]
      exact hvalid h
  case time =>
    have hopen' : sessionOpen (seeVbus s p) = true ∧ (seeVbus s p).fw.slot = s.fw.slot := by
      unfold seeVbus
      split <;> exact ⟨hopen, rfl⟩
    obtain ⟨od, b₀, b₁, hput⟩ := putTime_eq { seeVbus s p with fw.holdAt := none, fw.lenient := false } ns.toNat
    refine ⟨_, congrArg Host.Outcome.next ((if_pos hls).trans (congrArg Prod.fst ((if_neg (by simp [hopen'.1])).trans (if_neg ?_)))),
      setN_putTime _ ns.isLt, ?_⟩
    · rintro ⟨hne, hns⟩
      rcases hslot with h | h
      · exact hne (hopen'.2.trans h)
      · exact hns (by rw [h]; decide)
    · rw [hput]
      exact hopen'.2
  case instant =>
    exact congrArg Host.Outcome.next (if_pos (by simp [hls, harmed, hnone, hstrict, hdue]))
  case point =>
    let u : State := { s with
      fw.slot := 3, fw.holdAt := none, fw.lenient := false, flash.trial := some (!s.flash.runB), flash.attempts := 0 }
    have hrestart := beginRestart_steady (putTime u noTime)
    obtain ⟨od, b₀, b₁, hput⟩ := putTime_eq u noTime
    have hexec : exec .quiescentPoint s = .next (beginRestart (putTime u noTime)) :=
      congrArg Host.Outcome.next (if_pos (by simp [hls, harmed, hhold, hwin, hquiet]))
    rw [hput] at hrestart hexec
    exact ⟨_, hexec, hrestart.slot, hrestart.trial, hrestart.restarting, hrestart.lsUp, hrestart.restartCount⟩
  case grace => exact graceWindowExpiry_skips hls hhold hover

end Sys2Proof.Proofs
end

section
/-! O55: an acknowledged sequence may bring an output, where a release is rejected (R447, R154). -/

namespace Sys2Proof.Proofs

open Sys2Proof Sys2Proof.Machine Sys2Proof.Laws

/-- PL notes a record's buffer of which it holds no reference, and an EVENT_WAIT of PF0 is outstanding. -/
def unheldRecord : State :=
  { ({} : State) with
    pl.sentRecs := [(0, 0)], qe.fns := [(0, { waits := [0] })], qe.cmds := [{ id := 0, fn := 0, q := 0, sqe := 0x3F }],
    qe.queues := [{ g := 0, fn := 0, cls := 2, sqDepth := 16, cqDepth := 16 }] }

/-- BPM rejects the release, and the event that tells of it completes the EVENT_WAIT: its CQE goes out. -/
theorem acknowledge_unheldRecord_out : (acknowledge unheldRecord 0).out.length = 1 := by decide

/-- Refutes O55: the clause on an acknowledged sequence has it leave the outputs as they are, in every state. Of `unheldRecord` it
releases a buffer that PL does not hold; that release is rejected, and its event is an output. -/
theorem not_pairLinkFlits : ¬ Obligations.PairLinkFlits := by
  unfold Obligations.PairLinkFlits
  rintro ⟨⟨-, -, -, hacked, -⟩, -⟩
  have hout : (acknowledge unheldRecord 0).out = [] := (hacked unheldRecord 0).2.1
  exact absurd (congrArg List.length hout) (by rw [acknowledge_unheldRecord_out]; decide)

end Sys2Proof.Proofs
end

section
/-! O57: a mirrored piece that has failed may take a MARKER all the same, where WRITEs of this unit have its identity (R177, R454). -/

namespace Sys2Proof.Proofs

open Sys2Proof Sys2Proof.Machine Sys2Proof.Laws

/-- A WRITE of version 6 on partition 1, its one piece open and all its records placed. -/
def openWrite (id : Nat) (bufs : List (BitVec 32)) : Cmd :=
  { id, fn := 0, q := 0, sqe := 0x1000000000040, version := 6, pieces := [{ idx := 0, len := 1, cut := 1 }], bufs }

/-- A secondary whose partition 1 has only its reserve left and waits for a checkpoint. A mirrored piece is open, and two WRITEs have its
identity, the first of them with a buffer still held. -/
def doubleWrite : State :=
  { ({} : State) with
    pl.role := 2, pl.lanes := 1,
    fm.parts := [{ num := 1, firstPair := 0, pairs := 0, ckptWant := true, wrap := 1 }],
    fm.mirror := [{ part := 1, stream := 0, version := 6, piece := 0 }],
    qe.cmds := [openWrite 0 [nullHandle, 5], openWrite 1 []] }

/-- The state of the mirrored piece once a command is over. -/
def pieceAfter (c : Instr) (s : State) : Option PieceState :=
  match exec c s with
  | .next t => (mirrorOf t 1 0 6 0).map MirrorPiece.st
  | _ => none

/-- The mirrored piece fails, and with it the first WRITE; the second WRITE's MARKER goes into the checkpoint, and marks every piece of that
identity as sealed. -/
theorem pieceFail_doubleWrite :
    pieceAfter (.pieceFail { role := 1, epoch := 0 } 1 0 6 0) doubleWrite = some .markerSealed := by decide +kernel

/-- Refutes O57: the clause on a failed piece has it stay failed. In `doubleWrite` it ends with its MARKER sealed. -/
theorem not_pairMessages : ¬ Obligations.PairMessages := by
  unfold Obligations.PairMessages
  intro hall
  obtain ⟨-, -, -, -, hpiece, -⟩ := hall doubleWrite { role := 1, epoch := 0 } rfl rfl rfl
  obtain ⟨-, t, hexec, hfailed, -⟩ := hpiece 1 0 6 0 _ { part := 1, stream := 0, version := 6, piece := 0 } rfl rfl rfl rfl
  have hsealed := pieceFail_doubleWrite
  rw [pieceAfter, hexec] at hsealed
  exact absurd (hfailed.symm.trans hsealed) (by decide)

end Sys2Proof.Proofs
end

section
/-! O29: ages, batches and hints of recall, and how a run is taken up (R372 to R378). -/

namespace Sys2Proof.Proofs

open Sys2Proof Sys2Proof.Machine Sys2Proof.Laws

theorem elapsed_iff (s : State) (t ms : Nat) : elapsed s t ms = true ↔ t + ms * 216000 ≤ s.now := by
  rw [Nat.mul_comm]
  exact decide_eq_true_iff

/-! ### Ages, batches and hints -/

/-- Only a visit of commands becomes aged. -/
theorem recallAgeLimitExpiry_ages (s : State) (p q : Nat) :
    exec (.recallAgeLimitExpiry p q) s = .next { s with
      rcl.visits := s.rcl.visits.map fun v =>
        if v.part = p ∧ v.seq = q ∧ v.cmds ≠ [] ∧ v.since + setN s 0x212B 1 * 216000 ≤ s.now then { v with aged := true } else v } := by
  have hvisits : (s.rcl.visits.map fun v =>
        if v.isFor p q ∧ !v.cmds.isEmpty ∧ elapsed s v.since (setN s 0x212B 1) then { v with aged := true } else v) =
      s.rcl.visits.map fun v =>
        if v.part = p ∧ v.seq = q ∧ v.cmds ≠ [] ∧ v.since + setN s 0x212B 1 * 216000 ≤ s.now then { v with aged := true } else v :=
    List.map_congr_left fun v _ => if_congr (by simp [Visit.isFor, elapsed_iff, and_assoc]) rfl rfl
  change Host.Outcome.next { s with rcl.visits := _ } = _
  rw [hvisits]

theorem dropRead_hints (s : State) (p seq : Nat) : (dropRead s p seq).rcl.hints = s.rcl.hints := by
  unfold dropRead
  split
  · rfl
  · next r _ =>
    extract_lets u mine v w
    have hu : BuffersMove s u := BuffersMove.ite (.refl s) (.of_release s r.buf clsCd)
    obtain ⟨_, _, _, _, _, hw⟩ := hu.trans ((BuffersMove.of_releaseAll u r.outBufs clsQeOut).trans
      ((BuffersMove.of_releaseAll _ r.pool6 clsRcv).trans (BuffersMove.of_releaseAll v _ clsCxd)))
    exact congrArg (·.rcl.hints) hw

theorem closeVisit_hints (s : State) (p seq : Nat) : (closeVisit s p seq).rcl.hints = s.rcl.hints := by
  unfold closeVisit
  split
  · rfl
  · split
    · split
      · exact dropRead_hints s p seq
      · rfl
    · rfl

theorem keepRun_hints (s : State) (run : List (Nat × Nat)) : (keepRun s run).rcl.hints = s.rcl.hints := by
  unfold keepRun
  split
  · rfl
  · split <;> rfl

/-- A hint that is withdrawn leaves the others. -/
theorem dropHint_hints {s : State} {id : Nat} {h : Hint} (hfind : (s.rcl.hints.find? fun g => g.id == id) = some h) :
    (dropHint s id).rcl.hints = s.rcl.hints.filter fun g => g.id != id := by
  unfold dropHint
  rw [hfind]
  exact (closeVisit_hints ..).trans (keepRun_hints ..)

/-! ### A run is taken up -/

/-- What a locate leaves of the run: its batch, its owner, its visits and its wrap. -/
structure RunKept (s t : State) : Prop where
  batch : t.rcl.batch = s.rcl.batch
  owner : t.ce.owner = s.ce.owner
  run : t.rcl.run = s.rcl.run
  wrap : t.rc.wrap = s.rc.wrap

theorem RunKept.refl (s : State) : RunKept s s := ⟨rfl, rfl, rfl, rfl⟩

theorem RunKept.trans {s t u : State} (hst : RunKept s t) (htu : RunKept t u) : RunKept s u :=
  ⟨htu.batch.trans hst.batch, htu.owner.trans hst.owner, htu.run.trans hst.run, htu.wrap.trans hst.wrap⟩

theorem RunKept.foldl {α : Type} {f : State → α → State} (hf : ∀ t x, RunKept t (f t x)) (l : List α) (s : State) :
    RunKept s (l.foldl f s) := by
  induction l generalizing s with
  | nil => exact .refl s
  | cons x l ih => exact (hf s x).trans (ih (f s x))

theorem loadEphemeris_runKept (s : State) (wrap : Nat) (modules : List Nat) : RunKept s (loadEphemeris s wrap modules) := by
  refine RunKept.foldl (fun t i => ?_) _ s
  split
  · exact .refl t
  · extract_lets e u
    split <;> exact ⟨rfl, rfl, rfl, rfl⟩

theorem aimHead_runKept (s : State) (wrap : Nat) : RunKept s (aimHead s wrap) := by
  unfold aimHead
  split <;> exact ⟨rfl, rfl, rfl, rfl⟩

theorem relocate_runKept (s : State) : RunKept s (relocate s) := by
  have hreset : RunKept s { s with
    rcl.located := false, rcl.found := false, rcl.under := none, rcl.inside := false, rcl.again := false } := ⟨rfl, rfl, rfl, rfl⟩
  exact hreset.trans ((loadEphemeris_runKept _ s.rc.wrap [0, 1]).trans ((aimHead_runKept _ s.rc.wrap).trans ⟨rfl, rfl, rfl, rfl⟩))

theorem seek_runKept (s : State) (p q mmps : Nat) : RunKept s (seek s p q mmps) := by
  have hspeed : RunKept s { s with rc.mmps := min mmps (speedMmps (speedCap s)) } := ⟨rfl, rfl, rfl, rfl⟩
  exact hspeed.trans ((relocate_runKept _).trans ⟨rfl, rfl, rfl, rfl⟩)

theorem seekRun_runKept (s : State) : RunKept s (seekRun s) := by
  unfold seekRun
  split
  · exact seek_runKept ..
  · exact relocate_runKept s

/-- A batch begins or goes on with the run, and recall owns the transport. -/
theorem startRun_takes (s : State) (v : Visit) (r : List Visit) :
    (startRun s (v :: r)).rcl.batch = some (s.rcl.batch.getD s.now) ∧ (startRun s (v :: r)).ce.owner = 2 ∧
      (startRun s (v :: r)).rcl.run = (v :: r).map (fun w => (w.part, w.seq)) ∧ (startRun s (v :: r)).rc.wrap = v.wrap := by
  have hkept := seekRun_runKept { revCalibrate s v.wrap with
    rcl.batch := some (s.rcl.batch.getD s.now), rcl.preempt := false, rcl.misses := 0, rcl.servoTries := 0, rcl.ending := false,
    rcl.run := (v :: r).map fun w => (w.part, w.seq), rc.wrap := v.wrap, ce.owner := 2 }
  exact ⟨hkept.batch, hkept.owner, hkept.run, hkept.wrap⟩

/-- With visits that may be served now, what decides is a fault of the tape, then the selection. -/
theorem recallRunSelect_served {s : State} (hmay : recallMay (trimAll s) = true) (hvisits : (trimAll s).rcl.visits ≠ [])
    (hbatch : batchOver (trimAll s) = false) :
    exec .recallRunSelect s = .next (match tapeFault (trimAll s) with
      | some st => failVisits (trimAll s) st
      | none => (match selectRun (trimAll s) with
        | some r => startRun (trimAll s) r
        | none => trimAll s)) :=
  congrArg Host.Outcome.next ((if_neg (by simp [hvisits])).trans ((if_neg (by simp [hbatch])).trans (if_neg (by simp [hmay]))))

/-- Settles O29: the ages by the one comparison of time, the run by what its locate leaves alone. -/
theorem recallScheduled : Obligations.RecallScheduled := by
  unfold Obligations.RecallScheduled
  refine ⟨fun s => ⟨recallAgeLimitExpiry_ages s, fun hbatch h1 h4 ⟨v, hv, hcmds, hage⟩ => ?preempt,
    fun u hu hage hrun hending hladder => ?batch, fun h hfind hage => ?hint⟩, ?_⟩
  case preempt =>
    refine congrArg Host.Outcome.next (if_pos ?_)
    have hany : (s.rcl.visits.any fun v => !v.cmds.isEmpty && elapsed s v.since (setN s 0x212B 8)) = true :=
      List.any_eq_true.mpr ⟨v, hv, by simp [hcmds, elapsed_of_le hage]⟩
    simp [hbatch, h1, h4, hany]
  case batch =>
    have hexec : exec .recallBatchTimeExpiry s = .next (endBatch s) := by
      change Host.Outcome.next (match s.rcl.batch with | some t => _ | none => _) = _
      rw [hu]
      exact congrArg Host.Outcome.next (if_pos ⟨elapsed_of_le hage, by simp [hrun], by simp [hending], by simp [hladder]⟩)
    refine ⟨_, hexec, rfl, ?_, rfl, rfl⟩
    change (if s.ce.owner = 2 then 0 else s.ce.owner) ≠ 2
    split <;> omega
  case hint =>
    refine ⟨_, ?_, dropHint_hints hfind⟩
    change Host.Outcome.next (match s.rcl.hints.find? fun g => g.id == h.id with | some g => _ | none => _) = _
    rw [hfind]
    exact congrArg Host.Outcome.next (if_pos (elapsed_of_le hage))
  · rintro s _ rfl hmay hvisits hbatch
    refine ⟨fun v r hcalm hselect => ⟨_, ?_, startRun_takes (trimAll s) v r⟩, fun st hfault => ?_⟩
    · rw [recallRunSelect_served hmay hvisits hbatch, hcalm, hselect]
    · rw [recallRunSelect_served hmay hvisits hbatch, hfault]

end Sys2Proof.Proofs
end

section
/-! O56: versions of the partitions and the Almanac under the work of the write pipeline. -/

namespace Sys2Proof.Proofs

open Sys2Proof Sys2Proof.Machine Sys2Proof.Laws

/-- Every partition's version at s is one that a partition had at s₀. -/
def VersionsKept (s₀ s : State) : Prop := ∀ x ∈ s.fm.parts, ∃ y ∈ s₀.fm.parts, x.version = y.version

/-- From s₀ to s no partition has a new version, and the Almanac is as it was. The lemmas `f_partsKept` below say so of each function f that
seals datasets, ends WRITEs and sends messages. -/
structure PartsKept (s₀ s : State) : Prop where
  versions : VersionsKept s₀ s
  almanac : s.fm.almanac = s₀.fm.almanac

theorem PartsKept.refl (s : State) : PartsKept s s := ⟨fun x hx => ⟨x, hx, rfl⟩, rfl⟩

/-- A record update that leaves both alone. -/
theorem PartsKept.upd {s₀ s : State} (h : PartsKept s₀ s)
    {free out glb qe bpm cx tg fm rc sv rcl ce ps nw media od flash mt fi pl ls fw health}
    (hkept : (Fm.parts fm, Fm.almanac fm) = (s.fm.parts, s.fm.almanac)) :
    PartsKept s₀ ⟨s.pending, s.now, free, out, glb, qe, bpm, cx, tg, fm, rc, sv, rcl, ce, ps, nw, media, od, flash, mt, fi, pl, ls, fw, health⟩ := by
  obtain ⟨hparts, halmanac⟩ := Prod.mk.inj hkept
  exact ⟨fun x hx => h.versions x (hparts ▸ hx), halmanac.trans h.almanac⟩

theorem PartsKept.foldl {α : Type} {s₀ s : State} {f : State → α → State} (hf : ∀ t, PartsKept s₀ t → ∀ x, PartsKept s₀ (f t x))
    (h : PartsKept s₀ s) (l : List α) : PartsKept s₀ (l.foldl f s) := by
  induction l generalizing s with
  | nil => exact h
  | cons x l ih => exact ih (hf s h x)

/-- A partition that is found has one of the versions. -/
theorem PartsKept.version_of_partOf {s₀ s : State} (h : PartsKept s₀ s) {p : Nat} {x : Machine.Part} (hx : partOf s p = some x) :
    ∃ y ∈ s₀.fm.parts, x.version = y.version :=
  h.versions x (List.mem_of_find?_eq_some hx)

theorem setPart_partsKept {s₀ s : State} (h : PartsKept s₀ s) (x : Machine.Part) (hx : ∃ y ∈ s₀.fm.parts, x.version = y.version) :
    PartsKept s₀ (setPart s x) := by
  refine ⟨fun z hz => ?_, h.almanac⟩
  obtain ⟨y, hy, rfl⟩ := List.mem_map.mp hz
  split
  · exact hx
  · exact h.versions y hy

theorem modPart_partsKept {s₀ s : State} (h : PartsKept s₀ s) (p : Nat) (f : Machine.Part → Machine.Part)
    (hf : ∀ x, (f x).version = x.version) : PartsKept s₀ (modPart s p f) := by
  refine ⟨fun z hz => ?_, h.almanac⟩
  obtain ⟨y, hy, rfl⟩ := List.mem_map.mp hz
  obtain ⟨w, hw, hversion⟩ := h.versions y hy
  split
  · exact ⟨w, hw, (hf y).trans hversion⟩
  · exact ⟨w, hw, hversion⟩

theorem emit_partsKept {s₀ s : State} (h : PartsKept s₀ s) (e : Emit) : PartsKept s₀ (emit s e) := .upd h rfl

theorem freshFree_partsKept {s₀ s : State} (h : PartsKept s₀ s) : PartsKept s₀ (freshFree s).2 := by
  unfold freshFree
  repeat' (first | with_reducible assumption | fail_if_no_progress (with_reducible refine PartsKept.upd ?_ rfl))

theorem setFn_partsKept {s₀ s : State} (h : PartsKept s₀ s) (n : Nat) (f : FnState) : PartsKept s₀ (setFn s n f) := by
  unfold setFn
  repeat' (first | with_reducible assumption | fail_if_no_progress (with_reducible refine PartsKept.upd ?_ rfl))

theorem modFn_partsKept {s₀ s : State} (h : PartsKept s₀ s) (n : Nat) (g : FnState → FnState) : PartsKept s₀ (modFn s n g) := by
  unfold modFn
  repeat' (first | with_reducible assumption | with_reducible apply setFn_partsKept)

theorem emitFor_partsKept {s₀ s : State} (h : PartsKept s₀ s) (n : Nat) (c : Option Nat) (e : Emit) : PartsKept s₀ (emitFor s n c e) := by
  unfold emitFor
  repeat' (first
    | with_reducible assumption | with_reducible apply emit_partsKept | split
    | fail_if_no_progress (with_reducible refine PartsKept.upd ?_ rfl))

theorem emitFn_partsKept {s₀ s : State} (h : PartsKept s₀ s) (n : Nat) (e : Emit) : PartsKept s₀ (emitFn s n e) := by
  unfold emitFn
  repeat' (first | with_reducible assumption | with_reducible apply emitFor_partsKept)

theorem sendVector_partsKept {s₀ s : State} (h : PartsKept s₀ s) (n v : Nat) : PartsKept s₀ (sendVector s n v) := by
  unfold sendVector
  repeat' (first | with_reducible assumption | with_reducible apply modFn_partsKept | with_reducible apply emitFn_partsKept | split)

theorem setQueue_partsKept {s₀ s : State} (h : PartsKept s₀ s) (q : Queue) : PartsKept s₀ (setQueue s q) := by
  unfold setQueue
  repeat' (first | with_reducible assumption | fail_if_no_progress (with_reducible refine PartsKept.upd ?_ rfl))

theorem modQueue_partsKept {s₀ s : State} (h : PartsKept s₀ s) (g : Nat) (f : Queue → Queue) : PartsKept s₀ (modQueue s g f) := by
  unfold modQueue
  repeat' (first | with_reducible assumption | fail_if_no_progress (with_reducible refine PartsKept.upd ?_ rfl))

theorem modCmd_partsKept {s₀ s : State} (h : PartsKept s₀ s) (id : Nat) (f : Cmd → Cmd) : PartsKept s₀ (modCmd s id f) := by
  unfold modCmd
  repeat' (first | with_reducible assumption | fail_if_no_progress (with_reducible refine PartsKept.upd ?_ rfl))

theorem removeCmd_partsKept {s₀ s : State} (h : PartsKept s₀ s) (id : Nat) : PartsKept s₀ (removeCmd s id) := by
  unfold removeCmd
  repeat' (first | with_reducible assumption | fail_if_no_progress (with_reducible refine PartsKept.upd ?_ rfl))

theorem ringAdd_partsKept {s₀ s : State} (h : PartsKept s₀ s) (r : FaultRec) : PartsKept s₀ (ringAdd s r) := by
  unfold ringAdd
  repeat' (first | with_reducible assumption | fail_if_no_progress (with_reducible refine PartsKept.upd ?_ rfl))

theorem faultRec_partsKept {s₀ s : State} (h : PartsKept s₀ s) (fcode : Nat) (permanent : Bool) (unit p1 p2 : Nat) :
    PartsKept s₀ (faultRec s fcode permanent unit p1 p2) := by
  unfold faultRec
  repeat' (first
    | with_reducible assumption | with_reducible apply ringAdd_partsKept | split
    | fail_if_no_progress (with_reducible refine PartsKept.upd ?_ rfl))

theorem postCqe_partsKept {s₀ s : State} (h : PartsKept s₀ s) (g : Nat) (mk : Queue → Cqe) (atOnce : Bool) :
    PartsKept s₀ (postCqe s g mk atOnce) := by
  unfold postCqe
  repeat' (first
    | with_reducible assumption | with_reducible apply emitFn_partsKept | with_reducible apply setQueue_partsKept
    | with_reducible apply sendVector_partsKept | split | dsimp only)

theorem freeze_partsKept {s₀ s : State} (h : PartsKept s₀ s) (g : Nat) : PartsKept s₀ (freeze s g) := by
  unfold freeze
  repeat' (first | with_reducible assumption | with_reducible apply modQueue_partsKept)

theorem logError_partsKept {s₀ s : State} (h : PartsKept s₀ s) (fn : Nat) (mk : Nat → ErrEntry) : PartsKept s₀ (logError s fn mk) := by
  unfold logError
  repeat' (first | with_reducible assumption | with_reducible apply modFn_partsKept)

theorem finish_partsKept {s₀ s : State} (h : PartsKept s₀ s) (c : Cmd) (r : Res) : PartsKept s₀ (finish s c r) := by
  unfold finish
  repeat' (first
    | with_reducible assumption | with_reducible apply removeCmd_partsKept | with_reducible apply freeze_partsKept
    | with_reducible apply logError_partsKept | with_reducible apply postCqe_partsKept | split)

theorem finishId_partsKept {s₀ s : State} (h : PartsKept s₀ s) (id : Nat) (r : Res) : PartsKept s₀ (finishId s id r) := by
  unfold finishId
  repeat' (first | with_reducible assumption | with_reducible apply finish_partsKept | split)

theorem queueFor1_partsKept {s₀ s : State} (h : PartsKept s₀ s) (n ecode : Nat) (scope part : Nat) (params : List Byte) :
    PartsKept s₀ (queueFor1 s n ecode scope part params) := by
  unfold queueFor1
  repeat' (first
    | with_reducible assumption | with_reducible apply setFn_partsKept | with_reducible apply finishId_partsKept | split | dsimp only)

theorem queueEmcy_partsKept {s₀ s : State} (h : PartsKept s₀ s) (m : Emcy) : PartsKept s₀ (queueEmcy s m) := by
  unfold queueEmcy
  repeat' (first | with_reducible assumption | split | fail_if_no_progress (with_reducible refine PartsKept.upd ?_ rfl))

theorem queueNow_partsKept {s₀ s : State} (h : PartsKept s₀ s) (ecode scope p : Nat) (params : List Byte) :
    PartsKept s₀ (queueNow s ecode scope p params) := by
  unfold queueNow
  repeat' (first
    | with_reducible assumption | with_reducible apply queueFor1_partsKept | with_reducible apply queueEmcy_partsKept
    | with_reducible apply PartsKept.foldl | intro _ _ _ | split)

theorem queueEvent_partsKept {s₀ s : State} (h : PartsKept s₀ s) (ecode scope p : Nat) (params : List Byte) :
    PartsKept s₀ (queueEvent s ecode scope p params) := by
  unfold queueEvent
  repeat' (first
    | with_reducible assumption | with_reducible apply queueNow_partsKept | split
    | fail_if_no_progress (with_reducible refine PartsKept.upd ?_ rfl))

theorem setPool_partsKept {s₀ s : State} (h : PartsKept s₀ s) (p : Nat) (x : Pool) : PartsKept s₀ (setPool s p x) := by
  unfold setPool
  repeat' (first | with_reducible assumption | fail_if_no_progress (with_reducible refine PartsKept.upd ?_ rfl))

theorem allocNow_partsKept {s₀ s : State} (h : PartsKept s₀ s) {p cls : Nat} {a : BitVec 32 × State} (g : allocNow s p cls = some a) :
    PartsKept s₀ a.2 := by
  unfold allocNow at g
  dsimp only at g
  split at g
  · split at g
    · cases g
      dsimp only
      with_reducible apply setPool_partsKept
      exact h
    · cases g
  · cases g

theorem allocate_partsKept {s₀ s : State} (h : PartsKept s₀ s) (p cls : Nat) (cmd : Option Nat) :
    PartsKept s₀ (allocate s p cls cmd).2 := by
  unfold allocate
  dsimp only
  repeat' (first | with_reducible assumption | with_reducible apply setPool_partsKept | split)
  exact allocNow_partsKept h (by assumption)

theorem rejectRelease_partsKept {s₀ s : State} (h : PartsKept s₀ s) (h1 : BitVec 32) (cls : Nat) (holders : BitVec 16) (wasFree : Bool) :
    PartsKept s₀ (rejectRelease s h1 cls holders wasFree) := by
  unfold rejectRelease
  repeat' (first
    | with_reducible assumption | with_reducible apply faultRec_partsKept | with_reducible apply setPool_partsKept
    | with_reducible apply queueEvent_partsKept | split | dsimp only | fail_if_no_progress (with_reducible refine PartsKept.upd ?_ rfl))

theorem release_partsKept {s₀ s : State} (h : PartsKept s₀ s) (h1 : BitVec 32) (cls : Nat) : PartsKept s₀ (release s h1 cls) := by
  unfold release
  repeat' (first
    | with_reducible assumption | with_reducible apply rejectRelease_partsKept | with_reducible apply setPool_partsKept | split
    | dsimp only)

theorem releaseAll_partsKept {s₀ s : State} (h : PartsKept s₀ s) (hs : List (BitVec 32)) (cls : Nat) :
    PartsKept s₀ (releaseAll s hs cls) := by
  unfold releaseAll
  repeat' (first
    | with_reducible assumption | with_reducible apply release_partsKept | with_reducible apply PartsKept.foldl | intro _ _ _)

theorem clearPoison_partsKept {s₀ s : State} (h : PartsKept s₀ s) (a n : Nat) : PartsKept s₀ (clearPoison s a n) := by
  unfold clearPoison
  repeat' (first | with_reducible assumption | fail_if_no_progress (with_reducible refine PartsKept.upd ?_ rfl))

theorem fillBuf_partsKept {s₀ s : State} (h : PartsKept s₀ s) (h1 : BitVec 32) (off n : Nat) : PartsKept s₀ (fillBuf s h1 off n) := by
  unfold fillBuf
  repeat' (first | with_reducible assumption | with_reducible apply clearPoison_partsKept | split)

theorem checkExhausted_partsKept {s₀ s : State} (h : PartsKept s₀ s) (p : Nat) : PartsKept s₀ (checkExhausted s p) := by
  unfold checkExhausted
  repeat' (first
    | with_reducible assumption | with_reducible apply queueEvent_partsKept | with_reducible apply modPart_partsKept
    | exact fun _ => rfl | split)

theorem unitAlloc_partsKept {s₀ s : State} (h : PartsKept s₀ s) (p cls : Nat) : PartsKept s₀ (unitAlloc s p cls).2 := by
  unfold unitAlloc
  repeat' (first
    | with_reducible assumption | with_reducible apply allocate_partsKept | split
    | fail_if_no_progress (with_reducible refine PartsKept.upd ?_ rfl))

theorem pumpFlits_partsKept {s₀ s : State} (h : PartsKept s₀ s) (n : Nat) : PartsKept s₀ (pumpFlits n s) := by
  induction n generalizing s with
  | zero => exact h
  | succ n ih =>
    unfold pumpFlits
    repeat' (first
      | with_reducible assumption | with_reducible apply ih | with_reducible apply emit_partsKept | split
      | fail_if_no_progress (with_reducible refine PartsKept.upd ?_ rfl))

theorem pumpLink_partsKept {s₀ s : State} (h : PartsKept s₀ s) : PartsKept s₀ (pumpLink s) := by
  unfold pumpLink
  repeat' (first | with_reducible assumption | with_reducible apply pumpFlits_partsKept | split)

theorem noteAsked_partsKept {s₀ s : State} (h : PartsKept s₀ s) (n : Nat) (m : Msg) : PartsKept s₀ (noteAsked s n m) := by
  unfold noteAsked
  repeat' (first
    | with_reducible assumption | split | dsimp only | fail_if_no_progress (with_reducible refine PartsKept.upd ?_ rfl))

theorem sendData_partsKept {s₀ s : State} (h : PartsKept s₀ s) (b : List Byte) : PartsKept s₀ (sendData s b) := by
  unfold sendData
  repeat' (first
    | with_reducible assumption | with_reducible apply pumpLink_partsKept | dsimp only
    | fail_if_no_progress (with_reducible refine PartsKept.upd ?_ rfl))

theorem plSend_partsKept {s₀ s : State} (h : PartsKept s₀ s) (m : Msg) : PartsKept s₀ (plSend s m) := by
  unfold plSend
  repeat' (first
    | with_reducible assumption | with_reducible apply noteAsked_partsKept | with_reducible apply emit_partsKept
    | with_reducible apply sendData_partsKept | dsimp only | fail_if_no_progress (with_reducible refine PartsKept.upd ?_ rfl))

theorem mirrorSend_partsKept {s₀ s : State} (h : PartsKept s₀ s) (m : Msg) : PartsKept s₀ (mirrorSend s m) := by
  unfold mirrorSend
  repeat' (first
    | with_reducible assumption | with_reducible apply plSend_partsKept | split
    | fail_if_no_progress (with_reducible refine PartsKept.upd ?_ rfl))

theorem roleEvent_partsKept {s₀ s : State} (h : PartsKept s₀ s) : PartsKept s₀ (roleEvent s) := queueEvent_partsKept h _ _ _ _

theorem dropBuf_partsKept {s₀ s : State} (h : PartsKept s₀ s) (h1 : BitVec 32) : PartsKept s₀ (dropBuf s h1) := by
  unfold dropBuf
  repeat' (first | with_reducible assumption | with_reducible apply release_partsKept | split)

theorem releasePiece_partsKept {s₀ s : State} (h : PartsKept s₀ s) (id : Nat) (k : Piece) : PartsKept s₀ (releasePiece s id k) := by
  unfold releasePiece
  repeat' (first
    | with_reducible assumption | with_reducible apply dropBuf_partsKept | with_reducible apply modCmd_partsKept
    | with_reducible apply PartsKept.foldl | intro _ _ _ | split)

theorem sweepCmd_partsKept {s₀ s : State} (h : PartsKept s₀ s) (c : Cmd) : PartsKept s₀ (sweepCmd s c) := by
  unfold sweepCmd
  repeat' (first
    | with_reducible assumption | with_reducible apply releasePiece_partsKept | with_reducible apply removeCmd_partsKept
    | with_reducible apply PartsKept.foldl | with_reducible apply PartsKept.foldl_fst | with_reducible apply PartsKept.foldl_snd
    | intro _ _ _
    | intro _ _ | split | dsimp only)

theorem sweep_partsKept {s₀ s : State} (h : PartsKept s₀ s) : PartsKept s₀ (sweep s) := by
  unfold sweep
  repeat' (first | with_reducible assumption | with_reducible apply sweepCmd_partsKept | with_reducible apply PartsKept.foldl)

theorem dropHeld_partsKept {s₀ s : State} (h : PartsKept s₀ s) (j : RecJob) : PartsKept s₀ (dropHeld s j) := by
  unfold dropHeld
  repeat' (first | with_reducible assumption | with_reducible apply releaseAll_partsKept | split)

theorem cancelRecs_partsKept {s₀ s : State} (h : PartsKept s₀ s) (p : Nat) (st : StreamId) (v i : Nat) :
    PartsKept s₀ (cancelRecs s p st v i) := by
  unfold cancelRecs
  repeat' (first
    | with_reducible assumption | with_reducible apply dropHeld_partsKept | with_reducible apply modPart_partsKept | exact fun _ => rfl
    | with_reducible apply PartsKept.foldl | with_reducible apply PartsKept.foldl_fst | with_reducible apply PartsKept.foldl_snd
    | intro _ _ _ | intro _ _ | split | dsimp only | fail_if_no_progress (with_reducible refine PartsKept.upd ?_ rfl))

theorem failPiece_partsKept {s₀ s : State} (h : PartsKept s₀ s) (id : Nat) (k : Piece) : PartsKept s₀ (failPiece s id k) := by
  unfold failPiece
  repeat' (first
    | with_reducible assumption | with_reducible apply modCmd_partsKept | with_reducible apply cancelRecs_partsKept
    | with_reducible apply sweepCmd_partsKept | with_reducible apply mirrorSend_partsKept | with_reducible apply PartsKept.foldl
    | with_reducible apply PartsKept.foldl_fst | with_reducible apply PartsKept.foldl_snd | intro _ _ _ | intro _ _ | split)

theorem finishWrite_partsKept {s₀ s : State} (h : PartsKept s₀ s) (c : Cmd) (st d1 d2 : Nat) :
    PartsKept s₀ (finishWrite s c st d1 d2) := by
  unfold finishWrite
  repeat' (first
    | with_reducible assumption | with_reducible apply finish_partsKept | with_reducible apply sweepCmd_partsKept
    | fail_if_no_progress (with_reducible refine PartsKept.upd ?_ rfl))

theorem settleWrite_partsKept {s₀ s : State} (h : PartsKept s₀ s) (id : Nat) : PartsKept s₀ (settleWrite s id) := by
  unfold settleWrite
  repeat' (first
    | with_reducible assumption | with_reducible apply sweepCmd_partsKept | with_reducible apply finishWrite_partsKept | split)

theorem commitMirror_partsKept {s₀ s : State} (h : PartsKept s₀ s) (p : Nat) (k : PieceId) : PartsKept s₀ (commitMirror s p k) := by
  unfold commitMirror
  repeat' (first
    | with_reducible assumption | with_reducible apply plSend_partsKept | split | dsimp only
    | fail_if_no_progress (with_reducible refine PartsKept.upd ?_ rfl))

theorem queueDs_partsKept {s₀ s : State} (h : PartsKept s₀ s) (w : WriteDs) : PartsKept s₀ (queueDs s w) := by
  unfold queueDs
  repeat' (first
    | with_reducible assumption | with_reducible apply fillBuf_partsKept | dsimp only
    | fail_if_no_progress (with_reducible refine PartsKept.upd ?_ rfl))

theorem closeSpan_partsKept {s₀ s : State} (h : PartsKept s₀ s) (p : Nat) : PartsKept s₀ (closeSpan s p) := by
  unfold closeSpan
  split
  · exact h
  · next x hx =>
    split
    · have hold := h.version_of_partOf hx
      exact setPart_partsKept h _ hold
    · exact modPart_partsKept (queueDs_partsKept (queueDs_partsKept (unitAlloc_partsKept (unitAlloc_partsKept h 1 clsFm) 1 clsFm) _) _)
        p _ fun _ => rfl

theorem joinSpan_partsKept {s₀ s : State} (h : PartsKept s₀ s) (d : Dataset) : PartsKept s₀ (joinSpan s d) := by
  unfold joinSpan
  extract_lets p
  split
  · exact h
  · next x hx =>
    have hold := h.version_of_partOf hx
    extract_lets n u
    have hmembers : PartsKept s₀ { s with fm.members := s.fm.members ++ [d] } := h.upd rfl
    have hu : PartsKept s₀ u := by
      refine setPart_partsKept hmembers _ ?_
      exact hold
    split
    · exact closeSpan_partsKept hu p
    · exact hu

theorem markPlaced_partsKept {s₀ s : State} (h : PartsKept s₀ s) (p : Nat) (ms : List Marker) : PartsKept s₀ (markPlaced s p ms) := by
  unfold markPlaced
  repeat' (first
    | with_reducible assumption | with_reducible apply modCmd_partsKept | with_reducible apply PartsKept.foldl | intro _ _ _ | split
    | fail_if_no_progress (with_reducible refine PartsKept.upd ?_ rfl))

theorem sealOpen_partsKept {s₀ s : State} (h : PartsKept s₀ s) (p : Nat) : PartsKept s₀ (sealOpen s p) := by
  unfold sealOpen
  repeat' (first
    | with_reducible assumption | with_reducible apply closeSpan_partsKept | with_reducible apply markPlaced_partsKept
    | with_reducible apply queueDs_partsKept | with_reducible apply joinSpan_partsKept | with_reducible apply modPart_partsKept
    | exact fun _ => rfl | split
    | dsimp only)

theorem sealCheckpoint_partsKept {s₀ s : State} (h : PartsKept s₀ s) (p : Nat) (byUnmount : Bool) :
    PartsKept s₀ (sealCheckpoint s p byUnmount) := by
  unfold sealCheckpoint
  repeat' (first
    | with_reducible assumption | with_reducible apply closeSpan_partsKept | with_reducible apply markPlaced_partsKept
    | with_reducible apply unitAlloc_partsKept | with_reducible apply queueDs_partsKept | with_reducible apply joinSpan_partsKept
    | with_reducible apply modPart_partsKept | exact fun _ => rfl | with_reducible apply PartsKept.foldl | intro _ _ _ | split
    | dsimp only
    | fail_if_no_progress (with_reducible refine PartsKept.upd ?_ rfl))

theorem afterSeal_partsKept {s₀ s : State} (h : PartsKept s₀ s) (p : Nat) : PartsKept s₀ (afterSeal s p) := by
  unfold afterSeal
  repeat' (first
    | with_reducible assumption | with_reducible apply sealCheckpoint_partsKept | with_reducible apply modPart_partsKept
    | exact fun _ => rfl
    | with_reducible apply closeSpan_partsKept | split | dsimp only)

theorem pauseJob_partsKept {s₀ s : State} (h : PartsKept s₀ s) (j : TagJob) : PartsKept s₀ (pauseJob s j) := by
  unfold pauseJob
  repeat' (first
    | with_reducible assumption | with_reducible apply freshFree_partsKept
    | fail_if_no_progress (with_reducible refine PartsKept.upd ?_ rfl))

theorem runJob_partsKept {s₀ s : State} (h : PartsKept s₀ s) (j : TagJob) : PartsKept s₀ (runJob s j) := by
  unfold runJob
  repeat' (first | with_reducible assumption | fail_if_no_progress (with_reducible refine PartsKept.upd ?_ rfl))

theorem tagTurn_partsKept {s₀ s : State} (h : PartsKept s₀ s) : PartsKept s₀ (tagTurn s) := by
  unfold tagTurn
  repeat' (first | with_reducible assumption | with_reducible apply runJob_partsKept | with_reducible apply pauseJob_partsKept | split)

theorem dropOpenDs_partsKept {s₀ s : State} (h : PartsKept s₀ s) (p : Nat) : PartsKept s₀ (dropOpenDs s p) := by
  unfold dropOpenDs
  repeat' (first
    | with_reducible assumption | with_reducible apply sweep_partsKept | with_reducible apply modPart_partsKept | exact fun _ => rfl
    | with_reducible apply releaseAll_partsKept)

theorem sealIfDone_partsKept {s₀ s : State} (h : PartsKept s₀ s) (p : Nat) : PartsKept s₀ (sealIfDone s p) := by
  unfold sealIfDone
  repeat' (first
    | with_reducible assumption | with_reducible apply afterSeal_partsKept | with_reducible apply dropOpenDs_partsKept
    | with_reducible apply sealOpen_partsKept | split)

theorem stopDs_partsKept {s₀ s : State} (h : PartsKept s₀ s) (p : Nat) (urgent : Bool) : PartsKept s₀ (stopDs s p urgent) := by
  unfold stopDs
  repeat' (first
    | with_reducible assumption | with_reducible apply sealIfDone_partsKept | with_reducible apply tagTurn_partsKept
    | with_reducible apply modPart_partsKept | exact fun _ => rfl)

theorem stopOpen_partsKept {s₀ s : State} (h : PartsKept s₀ s) (p : Nat) : PartsKept s₀ (stopOpen s p) := by
  unfold stopOpen
  repeat' (first | with_reducible assumption | with_reducible apply stopDs_partsKept)

theorem wantCheckpoint_partsKept {s₀ s : State} (h : PartsKept s₀ s) (p : Nat) (byUnmount : Bool) :
    PartsKept s₀ (wantCheckpoint s p byUnmount) := by
  unfold wantCheckpoint
  repeat' (first
    | with_reducible assumption | with_reducible apply stopOpen_partsKept | with_reducible apply modPart_partsKept
    | exact fun _ => rfl)

theorem closeForReserve_partsKept {s₀ s : State} (h : PartsKept s₀ s) (p : Nat) : PartsKept s₀ (closeForReserve s p) := by
  unfold closeForReserve
  split
  · exact h
  · next x hx =>
    split
    · exact h
    · have hold := h.version_of_partOf hx
      refine stopOpen_partsKept (setPart_partsKept h _ ?_) p
      exact hold

theorem openDataset_partsKept {s₀ s : State} (h : PartsKept s₀ s) (p : Nat) (realloc : Bool) :
    PartsKept s₀ (openDataset s p realloc) := by
  unfold openDataset
  repeat' (first
    | with_reducible assumption | with_reducible apply unitAlloc_partsKept | with_reducible apply modPart_partsKept
    | exact fun _ => rfl | split | dsimp only)

/-! ### Commits and failures -/

theorem VersionsKept.refl (s : State) : VersionsKept s s := fun x hx => ⟨x, hx, rfl⟩

theorem VersionsKept.trans {s t u : State} (hst : VersionsKept s t) (htu : VersionsKept t u) : VersionsKept s u := by
  intro x hx
  obtain ⟨y, hy, hxy⟩ := htu x hx
  obtain ⟨z, hz, hyz⟩ := hst y hy
  exact ⟨z, hz, hxy.trans hyz⟩

theorem VersionsKept.foldl {α : Type} {f : State → α → State} (hf : ∀ t x, VersionsKept t (f t x)) (l : List α) (s : State) :
    VersionsKept s (l.foldl f s) := by
  induction l generalizing s with
  | nil => exact .refl s
  | cons x l ih => exact (hf s x).trans (ih (f s x))

theorem addExtents_versionsKept (s : State) (p : Nat) (es : List Extent) : VersionsKept s (addExtents s p es) := by
  unfold addExtents
  split
  · exact .refl s
  · next x hx =>
    split
    · exact .refl s
    · split
      · exact .refl s
      · have hold := (PartsKept.refl s).version_of_partOf hx
        have hset : PartsKept s (setPart s { x with added := x.added ++ es }) := setPart_partsKept (.refl s) _ hold
        exact hset.versions

theorem commitOwn_partsKept (s : State) (p : Nat) (c : Cmd) (q : Piece) : PartsKept s (commitOwn s p c q) := by
  unfold commitOwn
  extract_lets u src v
  have hu : PartsKept s u := modCmd_partsKept (.refl s) _ _
  have hv : PartsKept s v := by
    unfold v
    split
    · exact hu.upd rfl
    · exact hu
  exact settleWrite_partsKept (mirrorSend_partsKept hv _) _

theorem commitPiece_versionsKept (s : State) (p : Nat) (k : PieceId) : VersionsKept s (commitPiece s p k) := by
  unfold commitPiece
  split
  · exact .refl s
  · next x _ =>
    extract_lets u
    have hu : VersionsKept s u := addExtents_versionsKept s p _
    split
    · exact hu.trans (commitMirror_partsKept (.refl u) p k).versions
    · split
      · exact hu
      · split
        · exact hu.trans (commitOwn_partsKept u p _ _).versions
        · exact hu

theorem commitLoop_versionsKept (n : Nat) (s : State) (p : Nat) : VersionsKept s (commitLoop n s p) := by
  induction n generalizing s with
  | zero => exact .refl s
  | succ n ih =>
    unfold commitLoop
    split
    · exact .refl s
    · exact (commitPiece_versionsKept s p _).trans (ih _)

theorem commitReady_versionsKept (s : State) (p : Nat) : VersionsKept s (commitReady s p) := commitLoop_versionsKept _ s p

theorem failPieces_versionsKept (s : State) (id p : Nat) (ks : List Piece) : VersionsKept s (failPieces s id p ks) :=
  (VersionsKept.foldl (fun t k => (failPiece_partsKept (.refl t) id k).versions) ks s).trans (commitReady_versionsKept _ p)

theorem failFrom_versionsKept (s : State) (id i : Nat) : VersionsKept s (failFrom s id i) := by
  unfold failFrom
  split
  · exact .refl s
  · exact failPieces_versionsKept s id _ _

theorem failWrite_versionsKept (s : State) (id i st d1 d2 : Nat) (gate : Option Nat) :
    VersionsKept s (failWrite s id i st d1 d2 gate) :=
  (modCmd_partsKept (.refl s) id _).versions.trans
    ((failFrom_versionsKept _ id i).trans (settleWrite_partsKept (.refl _) id).versions)

theorem failMarkers_versionsKept (s : State) (p : Nat) : VersionsKept s (failMarkers s p) := by
  refine VersionsKept.foldl (fun t m => ?_) _ s
  extract_lets src u
  have hu : VersionsKept t u := .refl t
  split
  · exact hu.trans (failWrite_versionsKept u _ m.piece stPartitionFull 0 0 none)
  · exact hu

theorem openForMarkers_versionsKept (s : State) (p : Nat) : VersionsKept s (openForMarkers s p) := by
  unfold openForMarkers
  split
  · exact .refl s
  · split
    · exact .refl s
    · split
      · exact (openDataset_partsKept (.refl s) p false).versions
      · exact (failMarkers_versionsKept s p).trans (closeForReserve_partsKept (.refl _) p).versions

end Sys2Proof.Proofs
end

section
/-! O56: peer loss, takeover, fencing and withdrawal (R458 to R461, R501). -/

namespace Sys2Proof.Proofs

open Sys2Proof Sys2Proof.Machine Sys2Proof.Laws

/-! ### Takeover (R461) -/

/-- The peer is fenced, and this unit is primary under the next epoch. -/
def fenced (s : State) : State := { emit s .pairRstOut with pl.role := 1, flash.roleEpoch := s.flash.roleEpoch + 1 }

/-- The mirrored pieces without PIECE_COMMIT fail. -/
def uncommittedDropped (s : State) : State :=
  (s.fm.mirror.filter fun m => m.st != .committed && m.st != .failed && m.commit.isNone).foldl
    (fun s m => discardMirror s m.part m.stream m.version m.piece) s

/-- Version sequences restart, and what the unit holds is the watermark. -/
def versionsRestarted (s : State) : State :=
  { s with
    pl.reason := 0,
    fm.parts := s.fm.parts.map fun (x : Machine.Part) =>
      let top := maxOf 0 (ownVersions s x.num)
      { x with version := (top / 2 ^ 32 + 1) * 2 ^ 32 - 1, watermark := some top, diverged := false } }

/-- MARKERs that now may be placed are. -/
def markersReopened (s : State) : State :=
  s.fm.parts.foldl (fun (s : State) (x : Machine.Part) => openForMarkers (commitReady (checkExhausted s x.num) x.num) x.num) s

theorem takeOver_eq (s : State) : takeOver s = roleEvent (markersReopened (versionsRestarted (uncommittedDropped (fenced s)))) := rfl

theorem uncommittedDropped_steady {s₀ s : State} (h : Steady s₀ s) : Steady s₀ (uncommittedDropped s) :=
  Steady.foldl (fun _ ht _ => discardMirror_steady ht _ _ _ _) h _

theorem markersReopened_steady {s₀ s : State} (h : Steady s₀ s) : Steady s₀ (markersReopened s) :=
  Steady.foldl (fun _ ht _ => openForMarkers_steady (commitReady_steady (checkExhausted_steady ht _) _) _) h _

/-- What a takeover makes of the role, and what it leaves of the link. -/
theorem takeOver_role (s : State) :
    (takeOver s).pl.role = 1 ∧ (takeOver s).pl.reason = 0 ∧ (takeOver s).flash.roleEpoch = s.flash.roleEpoch + 1 ∧
      (takeOver s).pl.present = s.pl.present := by
  have hdrop : Steady (fenced s) (uncommittedDropped (fenced s)) := uncommittedDropped_steady (.refl _)
  have hopen : Steady (versionsRestarted (uncommittedDropped (fenced s))) (takeOver s) :=
    roleEvent_steady (markersReopened_steady (.refl _))
  exact ⟨hopen.role.trans hdrop.role, hopen.reason, hopen.roleEpoch.trans hdrop.roleEpoch, hopen.present.trans hdrop.present⟩

/-- The fencing goes out first, and nothing takes it back. -/
theorem takeOver_fences (s : State) : Emit.pairRstOut ∈ (takeOver s).out := by
  have hdrop : Quiet (fenced s) (uncommittedDropped (fenced s)) :=
    Quiet.foldl (fun _ ht _ => discardMirror_quiet ht _ _ _ _) (.refl _) _
  have hopen : Quiet (fenced s) (takeOver s) :=
    roleEvent_quiet (Quiet.foldl (fun _ ht _ => openForMarkers_quiet (commitReady_quiet (checkExhausted_quiet ht _) _) _)
      (Quiet.upd hdrop rfl) _)
  obtain ⟨-, -, -, l, hout⟩ := hopen
  rw [hout]
  exact List.mem_append_right l List.mem_cons_self

theorem markersReopened_versionsKept (s : State) : VersionsKept s (markersReopened s) := by
  refine VersionsKept.foldl (fun t x => ?_) _ s
  have hready := (checkExhausted_partsKept (.refl t) x.num).versions.trans (commitReady_versionsKept _ x.num)
  exact hready.trans (openForMarkers_versionsKept _ x.num)

/-- A version sequence that restarts goes on above every version of the one before. -/
theorem versionsRestarted_versions (s : State) : ∀ x ∈ (versionsRestarted s).fm.parts, x.version % 2 ^ 32 = 2 ^ 32 - 1 := by
  intro x hx
  obtain ⟨y, -, hy⟩ := List.mem_map.mp hx
  have hversion : x.version = (maxOf 0 (ownVersions s y.num) / 2 ^ 32 + 1) * 2 ^ 32 - 1 := by rw [← hy]
  rw [hversion]
  omega

/-- Every partition's next version is the first of a new sequence. -/
theorem takeOver_versions (s : State) : ∀ x ∈ (takeOver s).fm.parts, x.version % 2 ^ 32 = 2 ^ 32 - 1 := by
  intro x hx
  rw [takeOver_eq] at hx
  obtain ⟨y, hy, hxy⟩ := (roleEvent_partsKept (.refl _)).versions x hx
  obtain ⟨z, hz, hyz⟩ := markersReopened_versionsKept _ y hy
  rw [hxy, hyz]
  exact versionsRestarted_versions _ z hz

/-! ### The loss of the peer (R460) -/

/-- The peer is gone: the marks are frozen, and nothing of it is awaited. -/
def peerGone (s : State) : State :=
  { freezeMarks s with
    pl.lost := true, pl.suspect := false, pl.suspectAt := none, pl.credits := 0, pl.verified := [],
    fw.prop := (if (freezeMarks s).fw.prop = 1 then 6 else (freezeMarks s).fw.prop),
    fw.peerBuf := (if (freezeMarks s).fw.slot = 1 ∧ (freezeMarks s).fw.source = 2 then (freezeMarks s).fw.peerBuf else []),
    fw.peerDone := false }

theorem losePeer_eq {s : State} (hpaired : s.pl.role ≠ 0) (hhere : s.pl.lost = false) :
    losePeer s =
      if (peerGone s).pl.role = 1 then
        queueEvent ((writesOf (peerGone s)).foldl (fun s c => settleWrite s c.id) (peerGone s)) evPeerLost 0 0
          (evParams [(20, le 4 ((writesOf (peerGone s)).foldl (fun s c => settleWrite s c.id) (peerGone s)).flash.roleEpoch)])
      else if setN (peerGone s) 0x6001 5 = 1 then takeOver (peerGone s) else peerGone s :=
  if_neg (by simp [hpaired, hhere])

theorem peerGone_role (s : State) : (peerGone s).pl.role = s.pl.role := (freezeMarks_steady (.refl s)).role

theorem peerGone_present (s : State) : (peerGone s).pl.present = s.pl.present := (freezeMarks_steady (.refl s)).present

theorem peerGone_od (s : State) : (peerGone s).od = s.od := by
  have hheld : ∀ t j, BuffersMove t (dropHeld t j) := fun t j => BuffersMove.ite (.of_releaseAll t _ _) (.refl t)
  have hfreeze : (freezeMarks s).od = s.od := by
    unfold freezeMarks
    obtain ⟨_, _, _, _, _, h⟩ := BuffersMove.foldl hheld s.fm.recs { s with
      fm.parts := s.fm.parts.map fun x => { x with watermark := watermarkNow s x }, pl.unverified := [], pl.catchQ := [],
      pl.catchup := false }
    rw [h]
  exact hfreeze

/-- On a primary its WRITEs are looked at again, and the loss is told. -/
theorem losePeer_primary {s : State} (hprimary : s.pl.role = 1) (hhere : s.pl.lost = false) : Steady (peerGone s) (losePeer s) := by
  rw [losePeer_eq (by omega) hhere, if_pos ((peerGone_role s).trans hprimary)]
  exact queueEvent_steady (Steady.foldl (fun _ ht c => settleWrite_steady ht c.id) (.refl _) _) _ _ _ _

/-- A secondary that may not take over by itself waits. -/
theorem losePeer_waits {s : State} (hpaired : s.pl.role ≠ 0) (hother : s.pl.role ≠ 1) (hhere : s.pl.lost = false)
    (hmanual : setN s 0x6001 5 ≠ 1) : losePeer s = peerGone s := by
  rw [losePeer_eq hpaired hhere, if_neg (by rwa [peerGone_role]), if_neg (by rwa [setN_od (peerGone_od s)])]

/-- With no role, or with the peer lost before, nothing is lost. -/
theorem losePeer_idle {s : State} (h : s.pl.lost = true ∨ s.pl.role = 0) : losePeer s = s := if_pos h

theorem losePeer_present (s : State) : (losePeer s).pl.present = s.pl.present := by
  by_cases hidle : s.pl.lost = true ∨ s.pl.role = 0
  · rw [losePeer_idle hidle]
  obtain ⟨hhere, hpaired⟩ := not_or.mp hidle
  have hhere' : s.pl.lost = false := by simpa using hhere
  by_cases hprimary : s.pl.role = 1
  · exact (losePeer_primary hprimary hhere').present.trans (peerGone_present s)
  · rw [losePeer_eq hpaired hhere', if_neg (by rwa [peerGone_role])]
    split
    · exact (takeOver_role (peerGone s)).2.2.2.trans (peerGone_present s)
    · exact peerGone_present s

theorem losePeer_lost {s : State} (hprimary : s.pl.role = 1) : (losePeer s).pl.lost = true := by
  by_cases hlost : s.pl.lost = true
  · rwa [losePeer_idle (.inl hlost)]
  · exact (losePeer_primary hprimary (by simpa using hlost)).lost

/-- The link forgets what it had to carry. -/
theorem dropLink_pl (s : State) : (dropLink s).pl = { s.pl with waiting := [], unacked := [], sentRecs := [] } := by
  unfold dropLink
  obtain ⟨_, _, _, _, _, h⟩ := BuffersMove.foldl (fun t (r : Nat × Nat) => BuffersMove.of_release t (BitVec.ofNat 32 r.2) clsPl)
    s.pl.sentRecs { s with pl.waiting := [], pl.unacked := [], pl.sentRecs := [] }
  exact congrArg State.pl h

/-- A peer that has been suspect for long enough is lost. -/
theorem peerLost_of_suspect {s : State} {t : Nat} (hat : s.pl.suspectAt = some t) (hsuspect : s.pl.suspect = true)
    (hlong : t + setN s 0x6001 6 * 216000 ≤ s.now) : exec .peerLost s = .next (dropLink (losePeer s)) := by
  change Host.Outcome.next (match s.pl.suspectAt with | some t => _ | none => _) = _
  rw [hat]
  exact congrArg Host.Outcome.next (if_pos ⟨hsuspect, elapsed_of_le hlong⟩)

/-- The role is as before, and the peer counts as lost. -/
theorem losePeer_lostFields {s : State} (hpaired : s.pl.role ≠ 0) (hhere : s.pl.lost = false)
    (hmanual : s.pl.role ≠ 1 → setN s 0x6001 5 ≠ 1) :
    (losePeer s).pl.lost = true ∧ (losePeer s).pl.suspect = false ∧ (losePeer s).pl.credits = 0 ∧ (losePeer s).pl.role = s.pl.role := by
  by_cases hprimary : s.pl.role = 1
  · have hsteady := losePeer_primary hprimary hhere
    exact ⟨hsteady.lost, hsteady.suspect, hsteady.credits, hsteady.role.trans (peerGone_role s)⟩
  · rw [losePeer_waits hpaired hprimary hhere (hmanual hprimary)]
    exact ⟨rfl, rfl, rfl, peerGone_role s⟩

/-! ### Fencing (R461) -/

theorem pairRstInS_pl (s : State) : ∃ op, (pairRstInS s).pl = { present := s.pl.present, forwardOp := op } := by
  unfold pairRstInS
  extract_lets u v
  have hu : Steady s u := by
    unfold u
    split
    · exact answerOp_steady (endPairWrites_steady (freezeMarks_steady (.refl s)) _) _
    · exact .refl s
  have hv : Steady s v := Steady.foldl (fun _ ht _ => release_steady ht _ _) hu _
  exact ⟨_, by rw [hv.present]⟩

/-! ### Withdrawal (R458) -/

/-- An extent of the partition above its watermark. -/
def aboveMark (x : Machine.Part) (e : Extent) : Bool := e.part == x.num && decide (e.version > x.watermark.getD (2 ^ 64 - 1))

/-- One partition's extents above its watermark go, and a base checkpoint is wanted. -/
def withdrawPart (s : State) (x : Machine.Part) : State :=
  wantCheckpoint (modPart { s with fm.almanac := s.fm.almanac.filter fun e => !aboveMark x e } x.num fun y => { y with
    added := y.added.filter fun e => !aboveMark x e, watermark := none, diverged := false, baseNext := true, withdraw := true }) x.num
    false

theorem withdrawPart_almanac (s : State) (x : Machine.Part) :
    (withdrawPart s x).fm.almanac = s.fm.almanac.filter fun e => !aboveMark x e :=
  (wantCheckpoint_partsKept (.refl _) x.num false).almanac

/-- Of the partitions withdrawn no extent above its watermark is left. -/
theorem withdrawParts_almanac (xs : List Machine.Part) (s : State) {e : Extent} (he : e ∈ (xs.foldl withdrawPart s).fm.almanac) :
    e ∈ s.fm.almanac ∧ ∀ x ∈ xs, aboveMark x e = false := by
  induction xs generalizing s with
  | nil => exact ⟨he, fun x hx => absurd hx List.not_mem_nil⟩
  | cons x xs ih =>
    obtain ⟨hmem, hrest⟩ := ih (withdrawPart s x) he
    rw [withdrawPart_almanac, List.mem_filter] at hmem
    obtain ⟨hold, hbelow⟩ := hmem
    refine ⟨hold, fun y hy => ?_⟩
    rcases List.mem_cons.mp hy with rfl | hy
    · simpa using hbelow
    · exact hrest y hy

theorem withdrawS_eq {s : State} {p : Path} (hpath : p ≠ .can) (hrole : s.pl.role = 2) (hup : s.glb.restarting = none)
    (hday : s.glb.twilight = none) : withdrawS s p = (s.fm.parts.filter fun x => x.diverged).foldl withdrawPart s :=
  if_neg (by simp [hpath, hrole, hup, hday])

end Sys2Proof.Proofs
end

section
/-! O56: formation, messages and role epochs (R449, R450). -/

namespace Sys2Proof.Proofs

open Sys2Proof Sys2Proof.Machine Sys2Proof.Laws

/-! ### What a message finds (R447, R450) -/

theorem acknowledge_steady (s : State) (ack : Nat) : Steady s (acknowledge s ack) := by
  unfold acknowledge
  extract_lets left acked done src u
  have hu : Steady s u := (Steady.refl s).upd rfl
  exact Steady.foldl (fun _ ht _ => release_steady ht _ _) hu done

theorem received_steady (s : State) (flit ack : Nat) : Steady { s with pl.rxSeq := flit % 4096 } (received s flit ack) :=
  pumpLink_steady (acknowledge_steady _ ack)

section

variable {s : State} {h : MsgHead} (hup : linkUp s = true) (hday : s.glb.twilight = none) (k : State → State)

include hup hday

/-- Under the epoch in force a message is processed. -/
theorem acceptMsg_same (hepoch : h.epoch = s.flash.roleEpoch) : acceptMsg s h k = sendIdle (k (received s h.flit h.ack)) := by
  have hsteady := received_steady s h.flit h.ack
  have hdark : ¬ (received s h.flit h.ack).glb.twilight.isSome = true := by rw [hsteady.twilight]; simp [hday]
  have hsame : (received s h.flit h.ack).flash.roleEpoch = h.epoch := hsteady.roleEpoch.trans hepoch.symm
  exact (if_neg (by simp [hup])).trans (congrArg sendIdle ((if_neg hdark).trans ((if_neg (by omega)).trans (if_neg (by omega)))))

/-- An older epoch is answered with ROLE_STALE. -/
theorem acceptMsg_older (hepoch : h.epoch < s.flash.roleEpoch) :
    acceptMsg s h k = sendIdle (plSend { received s h.flit h.ack with
      pl.staleSent := min 65535 ((received s h.flit h.ack).pl.staleSent + 1) } (.roleStale s.pl.role s.flash.roleEpoch h.seq)) := by
  have hsteady := received_steady s h.flit h.ack
  have hdark : ¬ (received s h.flit h.ack).glb.twilight.isSome = true := by rw [hsteady.twilight]; simp [hday]
  have hrole : (received s h.flit h.ack).pl.role = s.pl.role := hsteady.role
  have hown : (received s h.flit h.ack).flash.roleEpoch = s.flash.roleEpoch := hsteady.roleEpoch
  have hstale : acceptMsg s h k = sendIdle (plSend { received s h.flit h.ack with
      pl.staleSent := min 65535 ((received s h.flit h.ack).pl.staleSent + 1) }
      (.roleStale (received s h.flit h.ack).pl.role (received s h.flit h.ack).flash.roleEpoch h.seq)) :=
    (if_neg (by simp [hup])).trans (congrArg sendIdle ((if_neg hdark).trans (if_pos (by omega))))
  rw [hstale, hrole, hown]

/-- A newer epoch is adopted first. -/
theorem acceptMsg_newer (hepoch : s.flash.roleEpoch < h.epoch) :
    acceptMsg s h k = sendIdle (k (adoptRole (received s h.flit h.ack) (impliedRole (received s h.flit h.ack) h.role) h.epoch)) := by
  have hsteady := received_steady s h.flit h.ack
  have hdark : ¬ (received s h.flit h.ack).glb.twilight.isSome = true := by rw [hsteady.twilight]; simp [hday]
  have hown : (received s h.flit h.ack).flash.roleEpoch = s.flash.roleEpoch := hsteady.roleEpoch
  exact (if_neg (by simp [hup])).trans (congrArg sendIdle ((if_neg hdark).trans ((if_neg (by omega)).trans (if_pos (by omega)))))

end

/-! ### A role is adopted (R450) -/

/-- The role and the epoch are those adopted, the peer is there, and the link's counts are as before. -/
structure Adopted (s : State) (role epoch : Nat) (t : State) : Prop where
  role : t.pl.role = role
  roleEpoch : t.flash.roleEpoch = epoch
  lost : t.pl.lost = false
  staleRcvd : t.pl.staleRcvd = s.pl.staleRcvd
  rxSeq : t.pl.rxSeq = s.pl.rxSeq

theorem Steady.adopted {s t u : State} {role epoch : Nat} (htu : Steady t u) (h : Adopted s role epoch t) : Adopted s role epoch u :=
  ⟨htu.role.trans h.role, htu.roleEpoch.trans h.roleEpoch, htu.lost.trans h.lost, htu.staleRcvd.trans h.staleRcvd,
    htu.rxSeq.trans h.rxSeq⟩

/-- A primary that is demoted loses its peer, and the link keeps its counts. -/
theorem losePeer_link {s : State} (hprimary : s.pl.role = 1) :
    (losePeer s).pl.staleRcvd = s.pl.staleRcvd ∧ (losePeer s).pl.rxSeq = s.pl.rxSeq := by
  by_cases hlost : s.pl.lost = true
  · rw [losePeer_idle (.inl hlost)]
    exact ⟨rfl, rfl⟩
  · have hlose := losePeer_primary hprimary (by simpa using hlost)
    have hfreeze := freezeMarks_steady (.refl s)
    exact ⟨hlose.staleRcvd.trans hfreeze.staleRcvd, hlose.rxSeq.trans hfreeze.rxSeq⟩

theorem adoptRole_adopted (s : State) (role epoch : Nat) : Adopted s role epoch (adoptRole s role epoch) := by
  unfold adoptRole
  extract_lets u src v srcW w
  have hu : u.pl.staleRcvd = s.pl.staleRcvd ∧ u.pl.rxSeq = s.pl.rxSeq := by
    unfold u
    split
    · next h => exact losePeer_link h.1
    · exact ⟨rfl, rfl⟩
  have hv : v.pl.role = role ∧ v.flash.roleEpoch = epoch ∧ v.pl.staleRcvd = u.pl.staleRcvd ∧ v.pl.rxSeq = u.pl.rxSeq := by
    unfold v
    split
    · next h => exact ⟨h, rfl, rfl, rfl⟩
    · have hevent := roleEvent_steady (.refl { u with pl.role := role, flash.roleEpoch := epoch })
      exact ⟨hevent.role, hevent.roleEpoch, hevent.staleRcvd, hevent.rxSeq⟩
  obtain ⟨hrole, hepoch, hstale, hseq⟩ := hv
  have hw : Adopted s role epoch w := ⟨hrole, hepoch, rfl, hstale.trans hu.1, hseq.trans hu.2⟩
  split
  · exact (markDiverged_steady (.refl w)).adopted hw
  · exact hw

/-- ROLE_STALE of no older epoch is followed. -/
theorem roleStaleS_adopted {s : State} {epoch : Nat} (hepoch : s.flash.roleEpoch ≤ epoch) (role rejected : Nat) :
    Adopted s (if role = 0 then 0 else impliedRole (endRejected s rejected) role) epoch (roleStaleS s role epoch rejected) := by
  have hend := endRejected_steady (.refl s) rejected
  have hown : ¬ epoch < (endRejected s rejected).flash.roleEpoch := by rw [hend.roleEpoch]; omega
  have hadopt := adoptRole_adopted (endRejected s rejected) (if role = 0 then 0 else impliedRole (endRejected s rejected) role) epoch
  rw [show roleStaleS s role epoch rejected = adoptRole (endRejected s rejected) _ epoch from if_neg hown]
  exact ⟨hadopt.role, hadopt.roleEpoch, hadopt.lost, hadopt.staleRcvd.trans hend.staleRcvd, hadopt.rxSeq.trans hend.rxSeq⟩

/-! ### Formation (R449) -/

/-- The role, its epoch and the peer's presence are as before. -/
structure RolesKept (s t : State) : Prop where
  role : t.pl.role = s.pl.role
  lost : t.pl.lost = s.pl.lost
  roleEpoch : t.flash.roleEpoch = s.flash.roleEpoch

theorem RolesKept.trans {s t u : State} (hst : RolesKept s t) (htu : RolesKept t u) : RolesKept s u :=
  ⟨htu.role.trans hst.role, htu.lost.trans hst.lost, htu.roleEpoch.trans hst.roleEpoch⟩

theorem Steady.rolesKept {s t : State} (h : Steady s t) : RolesKept s t := ⟨h.role, h.lost, h.roleEpoch⟩

theorem pumpCatch_rolesKept (n : Nat) (s : State) : RolesKept s (pumpCatch n s) := by
  induction n generalizing s with
  | zero => exact ⟨rfl, rfl, rfl⟩
  | succ n ih =>
    unfold pumpCatch
    split
    · exact ⟨rfl, rfl, rfl⟩
    · next p r rest _ =>
      extract_lets k
      split
      · exact ⟨rfl, rfl, rfl⟩
      · have hcredit : RolesKept s { s with pl.catchQ := rest, pl.credits := s.pl.credits - k } := ⟨rfl, rfl, rfl⟩
        exact (hcredit.trans (plSend_steady (.refl _) _).rolesKept).trans (ih _)
    · next m rest _ _ =>
      have hnext : RolesKept s { s with pl.catchQ := rest } := ⟨rfl, rfl, rfl⟩
      exact (hnext.trans (plSend_steady (.refl _) m).rolesKept).trans (ih _)

theorem catchUp_rolesKept (s : State) : RolesKept s (catchUp s) := by
  unfold catchUp
  extract_lets late u
  have hu : Steady s u := Steady.foldl (fun _ ht x => catchUpPart_steady ht x.num) (.refl s) _
  have hstart : RolesKept u { u with pl.catchup := true } := ⟨rfl, rfl, rfl⟩
  exact (hu.rolesKept.trans hstart).trans (pumpCatch_rolesKept _ _)

theorem breakPair_rolesKept (s : State) (reason : Nat) : RolesKept s (breakPair s reason) := by
  have hreason : RolesKept (freezeMarks s) { freezeMarks s with pl.reason := reason } := ⟨rfl, rfl, rfl⟩
  exact ((freezeMarks_steady (.refl s)).rolesKept.trans hreason).trans
    (Steady.foldl (fun _ ht (c : Cmd) => settleWrite_steady ht c.id) (.refl _) _).rolesKept

theorem comparePair_rolesKept (s : State) (i : PeerInfo) : RolesKept s (comparePair s i) := by
  unfold comparePair
  split
  · exact ⟨rfl, rfl, rfl⟩
  · extract_lets src u n srcV v
    have hu : RolesKept s u := ⟨rfl, rfl, rfl⟩
    have hv : RolesKept s v := ⟨rfl, rfl, rfl⟩
    split
    · split
      · exact hv.trans (catchUp_rolesKept v)
      · exact hv
    · split
      · exact hu.trans (breakPair_rolesKept u n)
      · exact ⟨rfl, rfl, rfl⟩

/-- Formation gives the role chosen, under an epoch above both. -/
theorem pairFormationS_forms {s : State} (hup : linkUp s = true) (henabled : setN s 0x6001 1 = 1) (hls : s.glb.lsUp = true)
    (hnone : s.pl.role = 0) (i : PeerInfo) :
    (pairFormationS s i).flash.roleEpoch = max s.flash.roleEpoch i.epoch + 1 ∧ (pairFormationS s i).pl.lost = false ∧
      (pairFormationS s i).pl.role =
        if choosePrimary (setN s 0x6001 2) i.pref Config.instanceNo.toNat i.instanceNo = true then 1 else 2 := by
  unfold pairFormationS
  rw [if_neg (by simp [hup, henabled, hls]), if_neg (by simp [hnone])]
  extract_lets first src u v w
  have hv : Steady { u with pl.role := if first then 1 else 2, flash.roleEpoch := max u.flash.roleEpoch i.epoch + 1 } v :=
    roleEvent_steady (.refl _)
  have hw : RolesKept v w := by
    unfold w
    split
    · exact ⟨rfl, rfl, rfl⟩
    · exact (plSend_steady (markDiverged_steady (.refl v)) _).rolesKept
  have hall := hw.trans (comparePair_rolesKept w i)
  exact ⟨hall.roleEpoch.trans hv.roleEpoch, hall.lost.trans hv.lost, hall.role.trans hv.role⟩

/-! ### ROLE_STALE (R450) -/

/-- ROLE_STALE is counted. -/
def staleCounted (s : State) : State := { s with pl.staleRcvd := min 65535 (s.pl.staleRcvd + 1) }

theorem exec_roleStale {s : State} (hup : linkUp s = true) (h : MsgHead) (role e r : Nat) :
    exec (.roleStale h role e r) s = .next (acceptMsg (staleCounted s) h fun s => roleStaleS s role e r) := by
  have hcount : (if linkUp s then { s with pl.staleRcvd := satAdd 65535 s.pl.staleRcvd 1 } else s) = staleCounted s := if_pos hup
  rw [← hcount]
  rfl

/-- Where it is not under an older epoch, it is followed: the unit has the epoch and the role it gives. -/
theorem roleStale_followed {s : State} {h : MsgHead} {e : Nat} (hup : linkUp s = true) (hday : s.glb.twilight = none)
    (hown : s.flash.roleEpoch ≤ h.epoch) (he : h.epoch ≤ e) (role r : Nat) :
    ∃ t v, exec (.roleStale h role e r) s = .next t ∧ t.flash.roleEpoch = e ∧ t.pl.lost = false ∧
      t.pl.staleRcvd = min 65535 (s.pl.staleRcvd + 1) ∧ t.pl.rxSeq = h.flit % 4096 ∧
      t.pl.role = if role = 0 then 0 else impliedRole v role := by
  have hrecv := received_steady (staleCounted s) h.flit h.ack
  have hup' : linkUp (staleCounted s) = true := hup
  have hday' : (staleCounted s).glb.twilight = none := hday
  obtain ⟨v, hstale, hseq, hepoch, haccept⟩ : ∃ v, v.pl.staleRcvd = min 65535 (s.pl.staleRcvd + 1) ∧ v.pl.rxSeq = h.flit % 4096 ∧
      v.flash.roleEpoch ≤ e ∧ acceptMsg (staleCounted s) h (fun s => roleStaleS s role e r) = sendIdle (roleStaleS v role e r) := by
    rcases Nat.eq_or_lt_of_le hown with hsame | hnew
    · exact ⟨_, hrecv.staleRcvd, hrecv.rxSeq, hrecv.roleEpoch.trans_le (hown.trans he),
        acceptMsg_same hup' hday' _ hsame.symm⟩
    · have hadopt := adoptRole_adopted (received (staleCounted s) h.flit h.ack)
        (impliedRole (received (staleCounted s) h.flit h.ack) h.role) h.epoch
      exact ⟨_, hadopt.staleRcvd.trans hrecv.staleRcvd, hadopt.rxSeq.trans hrecv.rxSeq, hadopt.roleEpoch.trans_le he,
        acceptMsg_newer hup' hday' _ hnew⟩
  have hend := (sendIdle_steady (.refl _)).adopted (roleStaleS_adopted hepoch role r)
  exact ⟨_, _, (exec_roleStale hup h role e r).trans (congrArg Host.Outcome.next haccept), hend.roleEpoch, hend.lost,
    hend.staleRcvd.trans hstale, hend.rxSeq.trans hseq, hend.role⟩

/-! ### PAIR_PRESENT (R460) -/

/-- With no role and no record on the link, the fall of PAIR_PRESENT empties the link. -/
theorem dropLink_unpaired {s : State} (hsent : s.pl.sentRecs = []) :
    dropLink s = { s with pl.waiting := [], pl.unacked := [] } := by
  have hempty : dropLink s = { s with pl.waiting := [], pl.unacked := [], pl.sentRecs := [] } := by
    unfold dropLink
    rw [hsent]
    rfl
  rw [hempty, ← hsent]

/-- The fall of PAIR_PRESENT loses a primary its peer. -/
theorem pairPresentFall_loses (s : State) : ∃ t, exec .pairPresentFall s = .next t ∧ t.pl.present = false ∧
    (s.pl.role = 1 → t.pl.lost = true) ∧ (s.pl.role = 0 → s.pl.sentRecs = [] →
      t = { s with pl.present := false, pl.lanes := 0, pl.waiting := [], pl.unacked := [] }) := by
  let u : State := { s with pl.present := false, pl.lanes := 0 }
  refine ⟨dropLink (losePeer u), rfl, ?_, fun hprimary => ?_, fun hnone hsent => ?_⟩
  · rw [dropLink_pl]
    exact losePeer_present u
  · rw [dropLink_pl]
    exact losePeer_lost (s := u) hprimary
  · rw [losePeer_idle (s := u) (.inr hnone), dropLink_unpaired (s := u) hsent]

/-- Settles O56: messages by the epoch they carry, roles by what the pair's work leaves of them, takeover by its stages. -/
theorem pairRoles : Obligations.PairRoles := by
  unfold Obligations.PairRoles
  refine ⟨⟨fun s i hup henabled hls hnone => ⟨_, rfl, pairFormationS_forms hup henabled hls hnone i⟩,
      fun s h role e r hup hday => ⟨fun hold => ?staleOld, fun hsame => ?staleSame, fun hown he hrole => ?staleFollowed⟩,
      fun s h n hup hday => ⟨fun hnew => ?creditNew, fun hold => ?creditOld⟩⟩,
    fun s t hpaired hhere hcalm => ⟨fun hat hlong => ?suspect, fun hat hlong => ?restart⟩,
    fun s t hat hsuspect hlong hhere hpaired hmanual => ?lost, fun s => ?present, fun s hrole hlost hup hday => ?takeover,
    fun s => ?fence, fun s p hpath hrole hup hday => ?withdraw⟩
  case staleOld =>
    exact (exec_roleStale hup h role e r).trans
      (congrArg Host.Outcome.next (acceptMsg_older (s := staleCounted s) hup hday _ hold))
  case staleSame =>
    exact (exec_roleStale hup h role e r).trans
      (congrArg Host.Outcome.next (acceptMsg_same (s := staleCounted s) hup hday _ hsame))
  case staleFollowed =>
    obtain ⟨t, v, hexec, hepoch, hhere, hcount, hseq, himplied⟩ := roleStale_followed hup hday hown he role r
    refine ⟨t, hexec, hepoch, hhere, hcount, hseq, ?_, ?_, ?_⟩ <;> rintro rfl <;> exact himplied
  case creditNew =>
    have hadopt := adoptRole_adopted (received s h.flit h.ack) (impliedRole (received s h.flit h.ack) h.role) h.epoch
    exact ⟨hadopt.roleEpoch, hadopt.role, hadopt.lost, congrArg Host.Outcome.next (acceptMsg_newer hup hday _ hnew)⟩
  case creditOld => exact congrArg Host.Outcome.next (acceptMsg_older hup hday _ hold)
  case suspect =>
    change Host.Outcome.next (match s.pl.hbAt with | some t => _ | none => _) = _
    rw [hat]
    exact congrArg Host.Outcome.next (if_pos ⟨hpaired, by simp [hhere], by simp [hcalm], elapsed_of_le (by simpa using hlong)⟩)
  case restart =>
    change Host.Outcome.next (match s.pl.lsDownAt with | some t => _ | none => _) = _
    rw [hat]
    exact congrArg Host.Outcome.next (if_pos ⟨hpaired, by simp [hhere], by simp [hcalm], elapsed_of_le hlong⟩)
  case lost =>
    obtain ⟨hgone, hknown, hcredits, hrole⟩ := losePeer_lostFields hpaired hhere hmanual
    refine ⟨_, peerLost_of_suspect hat hsuspect hlong, ?_⟩
    rw [dropLink_pl]
    exact ⟨hgone, hknown, hcredits, hrole, rfl, rfl⟩
  case present => exact pairPresentFall_loses s
  case takeover =>
    obtain ⟨hprimary, hreason, hepoch, -⟩ := takeOver_role s
    exact ⟨_, congrArg Host.Outcome.next (if_pos ⟨hrole, hlost, by simp [hup], by simp [hday]⟩), hprimary, hreason, hepoch,
      takeOver_fences s, takeOver_versions s⟩
  case fence =>
    obtain ⟨op, hpl⟩ := pairRstInS_pl s
    refine ⟨_, rfl, ?_⟩
    rw [hpl]
    exact ⟨rfl, rfl, rfl, rfl, rfl⟩
  case withdraw =>
    refine ⟨_, congrArg Host.Outcome.next (withdrawS_eq hpath hrole hup hday), fun x hx hdiverged w hmark e he hpart => ?_⟩
    obtain ⟨-, hbelow⟩ := withdrawParts_almanac _ s he
    have habove := hbelow x (List.mem_filter.mpr ⟨hx, hdiverged⟩)
    simpa [aboveMark, hpart, hmark] using habove

end Sys2Proof.Proofs
end
